-- ==== Sys2Proof/Word.lean ====
section
/-!
DEFINITION. Words, bytes and bit fields: the 32-bit register word of R5, field extraction and insertion on numbers,
little-endian and big-endian byte strings, and two's-complement reading of a field.
-/

namespace Sys2Proof

/-- A register word (R5: every register is 32 bits wide and little-endian). -/
abbrev Word := BitVec 32

/-- One byte. -/
abbrev Byte := BitVec 8

/-- Bits `lo + w - 1 : lo` of `v`, as a number. -/
def bitsOf (v lo w : Nat) : Nat := (v / 2 ^ lo) % 2 ^ w

/-- Bit `k` of `v`. -/
def bitOf (v k : Nat) : Bool := v.testBit k

/-- `v` with bit `k` set. -/
def setBit (v k : Nat) : Nat := if v.testBit k then v else v + 2 ^ k

/-- `v` with bit `k` clear. -/
def clrBit (v k : Nat) : Nat := if v.testBit k then v - 2 ^ k else v

/-- 1 for true, 0 for false. -/
def b2n (b : Bool) : Nat := if b then 1 else 0

/-- The number a little-endian byte list spells. -/
def leNat : List Nat → Nat
  | [] => 0
  | b :: bs => b % 256 + 256 * leNat bs

/-- The number a big-endian byte list spells. -/
def beNat (bs : List Nat) : Nat := bs.foldl (fun a b => a * 256 + b % 256) 0

/-- `n` bytes of `v`, least significant first. -/
def leBytes : Nat → Nat → List Nat
  | 0, _ => []
  | n + 1, v => v % 256 :: leBytes n (v / 256)

/-- `n` bytes of `v`, most significant first. -/
def beBytes (n v : Nat) : List Nat := (leBytes n v).reverse

/-- Two's-complement reading of a `w`-bit field. -/
def sgn (w v : Nat) : Int := if v % 2 ^ w < 2 ^ (w - 1) then ((v % 2 ^ w : Nat) : Int) else ((v % 2 ^ w : Nat) : Int) - ((2 ^ w : Nat) : Int)

/-- The `w`-bit two's-complement field that holds `x`. -/
def unsgn (w : Nat) (x : Int) : Nat := (x % ((2 ^ w : Nat) : Int)).toNat

/-- `x` clamped to `lo`..`hi`. -/
def clampInt (lo hi x : Int) : Int := max lo (min hi x)

/-- Rounding up division. -/
def ceilDiv (a b : Nat) : Nat := if b = 0 then 0 else (a + b - 1) / b

end Sys2Proof
end

