-- ==== Sys2Proof/Syntax.lean ====
section
/-!
DEFINITION. The commands of the block: one constructor of Instr for each row of the opcode table, with the
operands a sender gives it, and the operand types.
-/

namespace Sys2Proof

/-- The path an access or a request arrives by (R5, R445, R457). -/
inductive Path where
  | pcie | bar2 | smbus | mgmt0 | mgmt1 | inband | core | ring | image | tap | export_
deriving DecidableEq, Repr

/-- Who makes an access: its path, and the session (management paths), the logical core (path `core`) or
the HIF ring (path `ring`, for the pools alone: R402); `pcie` is BAR0, and path `bar2` is BAR2 (R468). -/
structure Access where
  path : Path
  who : Nat
deriving DecidableEq, Repr

/-- A memory error a read of the shared buffer meets (R190 to R193): a corrected cell word; a corrected link, descriptor or
queue link; an uncorrectable word of the frame, counted from its first; an uncorrectable link after a cell of the chain; an
uncorrectable descriptor; both copies of a queue link. -/
inductive MemErr where
  | cellCorr | linkCorr | cellBad (word : Nat) | linkBad (cell : Nat) | descBad | queueBad
deriving DecidableEq, Repr

/-- A port that has trained, and the insertion-loss estimate of each of its lanes in 0.5 dB units (R58, R73). -/
structure Trained where
  port : Nat
  loss : List Nat
deriving DecidableEq, Repr

/-- Copies the replicator makes in a cycle, and the memory errors its reads meet (R188, R190). -/
structure Replicated where
  copies : Nat
  errs : List MemErr
deriving DecidableEq, Repr

/-- The length of the buffer a punted frame goes to, and the memory errors the reads of its cells meet (R190, R472). -/
structure PuntRead where
  len : Nat
  errs : List MemErr
deriving DecidableEq, Repr

/-- The watts a power-group message moves, and its state byte (R267). -/
structure PgAmount where
  watts : Nat
  state : Nat
deriving DecidableEq, Repr

/-- A Pdelay_Resp: one that carries both times, one whose follow-up brings the second, or one that R289 calls bad. -/
inductive RespForm where
  | oneStep | twoStep | bad
deriving DecidableEq, Repr

/-- What the device reads of a pluggable module (R77, R78): present, IntL low, flat memory, revision byte, module state, power
class, for each application it advertises, in order, the octet mode its host interface matches (8 or more = none), and the flag bytes. -/
structure ModData where
  present : Bool
  intLow : Bool
  passive : Bool
  rev : Nat
  state : Nat
  class_ : Nat
  apps : List Nat
  flags : List Nat
deriving DecidableEq, Repr

/-- One hop of a stream request (R19): device, ingress and egress port, subscriber node, queue. -/
structure HopReq where
  dev : Nat
  ing : Nat
  eg : Nat
  node : Nat
  queue : Nat
deriving DecidableEq, Repr

/-- A stream request (R19). -/
structure StreamReq where
  stream : Nat
  class_ : Nat
  frer : Nat
  ident : Nat
  maxf : Nat
  minf : Nat
  rate : Nat
  burst : Nat
  deadline : Nat
  tb : Nat
  gq : Nat
  offset : Nat
  hops : List HopReq
deriving DecidableEq, Repr

/-- What a HOP_RESERVE carries beside the request (R34): the index of the receiver's first hop, the burst so far, the sums of
hop budgets and link delays in ns, the latest arrival and the last window's end as phases in ps, and the gate cycle (0 = none). -/
structure Carried where
  hop : Nat
  bin : Nat
  bsum : Nat
  dsum : Nat
  arrive : Nat
  tail : Nat
  cyc : Nat
deriving DecidableEq, Repr

/-- One regulator's answers in a poll (R326): its entry, whether VOUT_MODE is linear, VOUT in mV, IOUT in mA, STATUS_WORD, and
whether each transaction in turn was acknowledged. -/
structure VrRead where
  vr : Nat
  linear : Bool
  mv : Nat
  ma : Nat
  status : Nat
  acks : List Bool
deriving DecidableEq, Repr

/-- A management request as its datagram carries it (R480, R481): the path it arrives by, the ingress port of an in-band one, whether
it is IPv6, its destination address and UDP port, the header fields, the tag, and the payload bytes. The row it is sent to gives its type. -/
structure MgmtMsg where
  path : Path
  port : Nat
  v6 : Bool
  dst : Nat
  udp : Nat
  magic : Nat
  ver : Nat
  sess : Nat
  ctr : Nat
  rid : Nat
  len : Nat
  status : Nat
  tag : Nat
  payload : List Nat
deriving DecidableEq, Repr

/-- What a pluggable module answers on its bus (R487): was every transaction acknowledged, and the bytes read. -/
structure ModAnswer where
  ok : Bool
  bytes : List Nat
deriving DecidableEq, Repr

/-- What the device finds when PWR_GOOD rises (R509 to R511, R432): every rail within R507, the straps, the addresses of the boot set that
answer in linear format, whether the sensors reached vid[P5], and what the two boot-select sectors hold. -/
structure PowerUp where
  railsOk : Bool
  testMode : Bool
  pcieEn : Bool
  smbAddr : Nat
  answers : List Nat
  arrived : Bool
  sel0 : List Nat
  sel1 : List Nat
deriving DecidableEq, Repr

/-- The commands: one constructor for each row of the opcode table, in the table's order. -/
inductive Instr where
  /-- REGISTER_WRITE: A write to a register that has no row of its own acts on each field according to its access code (R9). `value` to address `addr`. -/
  | registerWrite (a : Access) (addr value : Nat)
  /-- NARROW_ACCESS: A register access that is narrower than 32 bits or misaligned is ignored, or reads 0, and is counted as an access error (R6). the first byte's address, and whether it is a write. -/
  | narrowAccess (a : Access) (addr : Nat) (write : Bool)
  /-- UNMAPPED_ACCESS: An access to an address that no block maps reads 0 or has no effect, and is counted as an access error (R8). an address, and whether it is a write. -/
  | unmappedAccess (a : Access) (addr : Nat) (write : Bool)
  /-- RC_READ: A read of an RC field through BAR0, the management protocol or SMBus returns the value and then clears it (R11). a read of the word at `addr`, with an RC field or without. -/
  | rcRead (a : Access) (addr : Nat)
  /-- SNAPSHOT: A write of snap to a block's snapshot register copies all of that block's counters in one core cycle (R15). the block's number (`snapReg`), and the slice for SLC. -/
  | snapshot (a : Access) (blk sl : Nat)
  /-- SNAP_ALL: A write of snap_all copies the counters of every block in one core cycle (R495). -/
  | snapAll (a : Access)
  /-- BROADCAST_WRITE: A write at 0x2000_0000 reaches all 17 slices and their images, or SL16 alone, according to win16_mode (R528). an offset in the slice window. -/
  | broadcastWrite (a : Access) (off value : Nat)
  /-- ST_WRITE_STAGE: A write of a word holding ST fields, through a path whose CFG_PATH_CS names an open set, stages one entry in that set (R435). the word at `addr` under `mask`. -/
  | stWriteStage (a : Access) (addr mask value : Nat)
  /-- PAIRED_FIELD_WRITE: A live write to a paired field is tested against its partner and is adopted, or held as pending (R441). `v` to one side of an instance of a pair of R440. -/
  | pairedFieldWrite (a : Access) (pair inst : Nat) (hi : Bool) (v : Nat)
  /-- ADM_REQ_ADMIT: ADM_REQ_CMD op 1 runs the admission checks for a stream on each hop, and then reserves it or forwards it (R29). the stream number. -/
  | admReqAdmit (a : Access) (n : Nat)
  /-- ADM_REQ_RELEASE: ADM_REQ_CMD op 2 starts draining an admitted stream, removing it from classification at once (R43). the stream number. -/
  | admReqRelease (a : Access) (n : Nat)
  /-- ADM_REQ_QUERY: ADM_REQ_CMD op 3 selects the stream and reports its state and hop bound (R47). the stream number. -/
  | admReqQuery (a : Access) (n : Nat)
  /-- ADM_REQ_ABORT: ADM_REQ_CMD op 4 aborts this device's tentative first-device request, releases its reservations and sends HOP_RELEASE (R47). the stream number. -/
  | admReqAbort (a : Access) (n : Nat)
  /-- HOP_RESERVE: A received HOP_RESERVE runs this device's hop checks and reservations, then forwards the request or commits it (R34). the port it arrives on, what it carries, the request. -/
  | hopReserve (p : Nat) (c : Carried) (r : StreamReq)
  /-- HOP_COMMIT: A received HOP_COMMIT commits the held tentative hops and passes the commit upstream, or releases if they are already released (R34). the port it arrives on, the stream. -/
  | hopCommit (p n : Nat)
  /-- HOP_RELEASE: A received HOP_RELEASE releases the request's reservations, or its committed stream, on this device (R34). the port it arrives on, the stream, a result code and failing hop. -/
  | hopRelease (p n code hop : Nat)
  /-- HOP_COMMIT_WAIT_EXPIRY: No HOP_COMMIT or HOP_RELEASE within n times 10 ms fails the request with PATH_UNREACHABLE and sends HOP_RELEASE both ways (R34). the stream. -/
  | hopCommitWaitExpiry (n : Nat)
  /-- TENTATIVE_TIMEOUT: A tentative reservation that is not committed within n times 10 ms of HOP_RESERVE is released and counted (R34). the stream. -/
  | tentativeTimeout (n : Nat)
  /-- ADM_ENGINE_RESUME: When the stopped engine resumes, it runs the held requests in arrival order (R44). -/
  | admEngineResume
  /-- DRAIN_SPAN_END: At the end of a hop's drain span, its sums are released, and after the longest span the stream becomes free (R43). the stream and its hop. -/
  | drainSpanEnd (n i : Nat)
  /-- BUNDLE_MEMBER_RELEASE: One hop budget after a commit removes a bundle member, that member's reservations for its streams are released (R252). the port that has left its bundle. -/
  | bundleMemberRelease (p : Nat)
  /-- ADMIN_UP_SET: Setting admin_up starts bring-up at step 1 (R60). the port. -/
  | adminUpSet (a : Access) (p : Nat)
  /-- ADMIN_UP_CLEAR: Clearing admin_up declares link down at once, with first fault 6 (R72). the port. -/
  | adminUpClear (a : Access) (p : Nat)
  /-- AUTONEG_PAGE_RX: A partner ability received in Clause 73 auto-negotiation either matches the mode or leaves the port in auto-negotiation (R53). the port, the partner's ability word, and whether it names the PHY type of the mode. -/
  | autonegPageRx (p ability : Nat) (has : Bool)
  /-- LINK_TRAINING_DONE: Link training completes and the port moves to aligning (R60). the port, and the insertion-loss estimate of each of its lanes in 0.5 dB units (R58). -/
  | linkTrainingDone (x : Trained)
  /-- ALIGNMENT_DONE: CDR, block lock, deskew and FEC lock complete, and up_debounce starts (R60). the port. -/
  | alignmentDone (p : Nat)
  /-- UP_DEBOUNCE_EXPIRY: up_debounce passes without a fault: link_up is set, LINK_UP is raised, a hold ends and the capability exchange starts (R60). the port. -/
  | upDebounceExpiry (p : Nat)
  /-- BRINGUP_STEP_FAIL: A bring-up step fails, counts bringup_retry and waits 100 ms (R60). the port. -/
  | bringupStepFail (p : Nat)
  /-- BRINGUP_RETRY: 100 ms after a failed step, the port returns to step 1 (R60). the port. -/
  | bringupRetry (p : Nat)
  /-- ADAPTATION_STEP: Background adaptation takes at most one receiver tap step per lane per 100 µs (R57). the lane, its insertion-loss estimate in 0.5 dB units, the symbol errors of the 10 ms before. -/
  | adaptationStep (l loss ser : Nat)
  /-- ADAPT_REVERT_CHECK: 10 ms after a step, the symbol-error rate is compared with the rate before, and the step is reversed if it doubled (R57). the lane, the symbol errors since. -/
  | adaptRevertCheck (l after : Nat)
  /-- CAPABILITY_FRAME_TX: Every 100 ms, or every 1 s once a peer frame is valid, the port sends a capability frame (R61). the port. -/
  | capabilityFrameTx (p : Nat)
  /-- CAPABILITY_FRAME_RX: A valid capability frame sets peer_zx and records the peer's identity and caps (R63). the port and the fields of R61: device ID, port, tag version, caps, group_id, fixed_delay in ps. -/
  | capabilityFrameRx (p dev pport tagv caps group fixed : Nat)
  /-- PEER_LOST: No valid capability frame for 3.5 s clears peer_zx and tag_active and raises PEER_LOST (R63). the port. -/
  | peerLost (p : Nat)
  /-- LINK_LOCAL_FRAME_RX: A frame of subtype 0x02 is consumed by the MAC and handed to the management engine (R62). the port and the frame's length; the message it carries arrives by a HOP row. -/
  | linkLocalFrameRx (p len : Nat)
  /-- BAD_CONTROL_FRAME_RX: A frame with the capability address and EtherType but a bad magic, subtype or version is discarded in rx_ctrl_bad (R62). the port and the frame's length. -/
  | badControlFrameRx (p len : Nat)
  /-- MAC_CONTROL_FRAME_RX: A received PAUSE or PFC frame is counted in rx_mac_ctrl and discarded (R52). the port and the frame's length. -/
  | macControlFrameRx (p len : Nat)
  /-- QUIET_REQ: A received QUIET_REQ is answered with QUIET_ACK or with QUIET_NAK and the first failing reason (R66). the port. -/
  | quietReq (p : Nat)
  /-- QUIET_ACK: A received QUIET_ACK completes agreement and starts the 2 µs wait (R67). the port. -/
  | quietAck (p : Nat)
  /-- QUIET_NAK: A received QUIET_NAK ends the attempt, restarts quiet_idle and counts quiet_refused (R69). the port and the peer's reason. -/
  | quietNak (p reason : Nat)
  /-- QUIET_HOLD: A received QUIET_HOLD stops frame transmission on the port for the stated duration (R70). the port and the duration in us. -/
  | quietHold (p us : Nat)
  /-- HOLD_END: A received HOLD_END ends a QUIET_HOLD and starts down_debounce if a fault remains (R70). the port. -/
  | holdEnd (p : Nat)
  /-- UNKNOWN_ORDERED_SET: An ordered set of an undefined type is ignored and counted in rx_os_unknown (R65). the port and the message type. -/
  | unknownOrderedSet (p type : Nat)
  /-- QUIET_IDLE_EXPIRY: quiet_idle passes with every condition holding, and the port sends QUIET_REQ (R66). the port. -/
  | quietIdleExpiry (p : Nat)
  /-- QUIET_ANSWER_TIMEOUT: No answer to QUIET_REQ within 20 µs ends the attempt and counts quiet_refused (R69). the port. -/
  | quietAnswerTimeout (p : Nat)
  /-- QUIET_ENTRY: 2 µs after agreement, the port turns its transmitter off, enters Winter, sets state quiet and counts quiet_entry (R67). the port. -/
  | quietEntry (p : Nat)
  /-- SIGNAL_DETECT_ENERGY: A quiet port's detector sees energy and wakes the port (R68). the port. -/
  | signalDetectEnergy (p : Nat)
  /-- WAKE_ALIGNED: A waking port realigns and forwards again, counting quiet_wake (R68). the port. -/
  | wakeAligned (p : Nat)
  /-- WAKE_TIMEOUT: Alignment not complete 1 ms after a wake declares link down and reruns bring-up (R68). the port. -/
  | wakeTimeout (p : Nat)
  /-- QUIET_HOLD_EXPIRY: The duration of a QUIET_HOLD ends, and the port resumes sending frames (R70). the port. -/
  | quietHoldExpiry (p : Nat)
  /-- LINK_FAULT: A link fault appears on a port and starts down_debounce (R71). the port, the fault of R71 (1 to 5; 4 for received local fault sequences, 7 for received remote fault sequences), and whether it appears or is gone. -/
  | linkFault (p k : Nat) (present : Bool)
  /-- DOWN_DEBOUNCE_EXPIRY: A fault lasting down_debounce declares link down and hands the port to LINK_HOLD and the path masks (R72). the port. -/
  | downDebounceExpiry (p : Nat)
  /-- FLAP_HOLD_RELEASE: Writing 1 to flap_hold releases the hold (R75). the port. -/
  | flapHoldRelease (a : Access) (p : Nat)
  /-- DEGRADE_WINDOW: At the end of each 2^20-codeword window, the symbol errors are compared with degrade_threshold to set or clear degraded (R74). the port, and the window's symbol errors and uncorrectable codewords. -/
  | degradeWindow (p errs uncorr : Nat)
  /-- MODULE_POLL: Every 10 ms, presence and IntL are polled, which runs module insertion or removal handling (R77). the octet and what the poll reads. -/
  | modulePoll (o : Nat) (d : ModData)
  /-- MODULE_MONITOR_POLL: Every 1 s, the module monitors are read (R77). the octet and the module state read. -/
  | moduleMonitorPoll (o state : Nat)
  /-- MODULE_RESET: Writing mod_reset starts a 10 ms ResetL pulse (R77). the octet. -/
  | moduleReset (a : Access) (o : Nat)
  /-- MODULE_RESET_PULSE_END: At the end of the ResetL pulse, the insertion steps of R77 rerun (R77). the octet and what the device reads. -/
  | moduleResetPulseEnd (o : Nat) (d : ModData)
  /-- FRAME_FIRST_BYTE: A frame's first byte takes a head-buffer entry and a first cell, or the frame is dropped (R83). the port, the bytes that have arrived (a tag first on a port with tag_active), and the cell the allocator looks at first. -/
  | frameFirstByte (port : Nat) (bytes : List Nat) (cell : Nat)
  /-- FRAME_LAST_BYTE: A frame's end arrives: the FCS is checked, a stored frame becomes eligible and the policer charge is corrected (R95). the port, the rest of the frame through its FCS, and the cell the allocator looks at first. -/
  | frameLastByte (port : Nat) (rest : List Nat) (cell : Nat)
  /-- ERRORED_CLOSE: Receive closes a frame as errored, and the device disposes of it according to how far it has gone (R97). the port, and whether a link fault is the cause. -/
  | erroredClose (port : Nat) (fault : Bool)
  /-- HEAD_WORD_WRITE: A waiting head word is written to the frame's cells, and the entry is released after its last word (R184). the frame, and whether the read was corrected. -/
  | headWordWrite (f : Nat) (corrected : Bool)
  /-- DISPATCH: A ready frame receives the next per-port sequence number and is sent to an engine (R86). the slice. -/
  | dispatch (sl : Nat)
  /-- ENGINE_RESULT: An engine finishes parse, classification and lookup, and delivers a tagged result to the resequencer (R90). slice, engine, the epoch of its dispatch, port slot, sequence number, corrected errors, and upsets its lookups meet. -/
  | engineResult (sl e epoch sp q corr : Nat) (us : List Nat)
  /-- RESULT_RELEASE: The resequencer releases a result in sequence order, and the frame is policed and enqueued or dropped (R90). the slice and the port slot. -/
  | resultRelease (sl sp : Nat)
  /-- RESEQ_SKIP: A number outstanding for 2 µs, with a later number waiting, is skipped and its frame freed (R91). the slice and the port slot. -/
  | reseqSkip (sl sp : Nat)
  /-- HEAD_BUFFER_ECC_ERROR: An uncorrectable head-buffer error is read from the cells instead, or makes the frame errored, and raises HEAD_ECC (R101). the frame and the word of its head-buffer entry. -/
  | headBufferEccError (f w : Nat)
  /-- HEARTBEAT: Every hb_period, a heartbeat cell is sent through each engine and its signature is checked (R102). the slice, and the engines that fail it. -/
  | heartbeat (sl : Nat) (bad : List Nat)
  /-- ENGINE_WATCHDOG: No result 1,000 core cycles after a dispatch fences the engine (R102). the slice and the engine. -/
  | engineWatchdog (sl e : Nat)
  /-- ENGINE_MEMORY_ERROR: An uncorrectable working-memory error, or a program or action parity error, fences the engine (R102). the slice, the engine, and whether it is a parity error of a program or action. -/
  | engineMemoryError (sl e : Nat) (parity : Bool)
  /-- ENGINE_UNFENCE: Writing an unfence bit clears the engine and runs 16 heartbeat cells through it (R106). the slice and the engines as bits. -/
  | engineUnfence (a : Access) (sl mask : Nat)
  /-- ENGINE_RETURN_TEST_DONE: The 16 heartbeat cells return: the engine rejoins with ENGINE_RETURNED, or stays fenced with cause 4 (R106). the slice, the engine, and whether its 16 cells came back right. -/
  | engineReturnTestDone (sl e : Nat) (ok : Bool)
  /-- SCHEDULER_SELECT: When the port can start a frame, the port root selects the gated, admitted, minimum-rate or excess frame, or none (R216). the port. -/
  | schedulerSelect (p : Nat)
  /-- FRAME_TX_START: The egress engine rewrites the selected frame and its first bit leaves (R134). the port, and the memory errors its first reads meet. -/
  | frameTxStart (p : Nat) (errs : List MemErr)
  /-- FRAME_TX_END: A frame's last byte leaves, its cells are returned, and the remainder of a cut-through charge is applied (R186). the port, and the memory errors its reads meet. -/
  | frameTxEnd (p : Nat) (errs : List MemErr)
  /-- WHEEL_PIP: At each 4 ns pip, due wheel entries are refilled and conform or are placed again (R223). -/
  | wheelPip
  /-- GATE_ENTRY_START: A gate control list entry begins in its time base, opening or closing gated queues (R225). the port. -/
  | gateEntryStart (p : Nat)
  /-- GATE_WINDOW_CLOSE: A window closes, and the frames still queued are carried to the next window (R228). the port and the gated queue. -/
  | gateWindowClose (p q : Nat)
  /-- GCL_SWITCH: At the first new cycle start, the committed gate set takes effect, list_pending clears and GCL_SWITCHED is raised (R229). the port. -/
  | gclSwitch (p : Nat)
  /-- POLICER_SWEEP: Every enabled policer is refilled at least once every 100 ms (R236). -/
  | policerSweep
  /-- POLICER_ENABLE: Setting a policer's enable to 1 fills both of its buckets (R237). the policer. -/
  | policerEnable (a : Access) (k : Nat)
  /-- QUEUE_SAMPLE: Each period, every in-scope queue's depth and sojourn are sampled, which feeds histograms and the margin check (R239). -/
  | queueSample
  /-- Q_CLEAR: A write of SCH_Q_CLEAR restarts the selected queue's minimum and maximum from its next sample (R240). -/
  | qClear (a : Access)
  /-- WATCH_ENTRY_WRITE: A write to a watch entry clears its histogram bins (R241). the watch entry and its word. -/
  | watchEntryWrite (a : Access) (k value : Nat)
  /-- MULTICAST_REPLICATION: The replicator serves a multicast queue and makes up to 4 copies per cycle of group members and mirrors (R188). copies made in the cycle, at most 4, and the memory errors the replicator meets. -/
  | multicastReplication (x : Replicated)
  /-- CELL_QUARANTINE: A cell with an uncorrectable error, once free, is pattern-tested and returned or retired (R192). the cell, and whether it passes the pattern test. -/
  | cellQuarantine (c : Nat) (pass : Bool)
  /-- HARVEST_SWEEP: Every harvest_period, a Harvest sweep starts and clears every touched bit (R201). -/
  | harvestSweep
  /-- HARVEST_SWEEP_END: At the end of a sweep, cells unowned for two sweeps are reclaimed, and BUF_LEAK is raised (R201). -/
  | harvestSweepEnd
  /-- STALE_CHECK: Every 1 µs during a hold, stale admitted heads are dropped (R203). the port. -/
  | staleCheck (p : Nat)
  /-- LINK_HOLD_EXPIRY: link_hold expires without the link returning: the port's queues are flushed and LINK_HOLD_EXPIRED is raised (R205). the port. -/
  | linkHoldExpiry (p : Nat)
  /-- TABLE_READ: TBL_CMD op 1 reads an entry into the data registers (R160). the table, the index, and upsets the entry has met. -/
  | tableRead (a : Access) (t index : Nat) (us : List Nat)
  /-- TABLE_WRITE: TBL_CMD op 2 writes a whole entry at an index, or rebuilds an LPM node (R161). the table and the index. -/
  | tableWrite (a : Access) (t index : Nat)
  /-- TABLE_INSERT: TBL_CMD op 3 places an entry or prefix by key (R151). the table, and the index where the table takes one. -/
  | tableInsert (a : Access) (t index : Nat)
  /-- TABLE_DELETE: TBL_CMD op 4 deletes an entry, or starts retire for a next hop or group (R166). the table, the index, and by_index. -/
  | tableDelete (a : Access) (t index : Nat) (byIndex : Bool)
  /-- TABLE_UPDATE_DATA: TBL_CMD op 5 updates an entry's data in place (R160). the table, the index, and by_index. -/
  | tableUpdateData (a : Access) (t index : Nat) (byIndex : Bool)
  /-- TABLE_SEARCH: TBL_CMD op 6 searches by key or prefix and returns the index and entry (R160). the table, longest, and upsets the entries have met. -/
  | tableSearch (a : Access) (t : Nat) (longest : Bool) (us : List Nat)
  /-- TABLE_MOVE: TBL_CMD op 7 moves an exact-match entry to TBL_MOVE_DEST in one cycle (R161). the table and the index. -/
  | tableMove (a : Access) (t index : Nat)
  /-- RETIRE_FREE: A retiring entry is freed once 2 µs have passed and holds is 0 (R166). the table (2 or 3) and the index. -/
  | retireFree (t i : Nat)
  /-- AGE_TICK: TBL_AGE_NOW advances once per tick_ms (R171). -/
  | ageTick
  /-- TICK_MS_WRITE: A write of tick_ms reschedules the next tick (R171). the new tick_ms. -/
  | tickMsWrite (a : Access) (ms : Nat)
  /-- AGEING_SCAN: The scan visits one bucket per 50 ns, removing aged entries and clearing hold and moves (R172). upsets the scan meets. -/
  | ageingScan (us : List Nat)
  /-- LEARN_REQUEST: The learning engine takes a request from its FIFO and installs, moves, pins or counts it (R174). -/
  | learnRequest
  /-- TABLE_SCRUB: The scrub reads every entry of tables 1 to 5 within 20 ms and reports bad parity (R170). upsets the scrub meets. -/
  | tableScrub (us : List Nat)
  /-- RULE_WRITE: SLC_RULE_CMD WRITE installs a rule from the key, mask and action registers in one cycle (R138). the slice and the rule. -/
  | ruleWrite (a : Access) (sl index : Nat)
  /-- RULE_READ: SLC_RULE_CMD READ fills the key, mask and action registers from a rule (R140). the slice and the rule. -/
  | ruleRead (a : Access) (sl index : Nat)
  /-- RULE_INVALIDATE: SLC_RULE_CMD INVALIDATE clears a rule's valid bit (R138). the slice and the rule. -/
  | ruleInvalidate (a : Access) (sl index : Nat)
  /-- RULE_MOVE: SLC_RULE_CMD MOVE writes the destination and invalidates the source in one cycle (R138). the slice and the rule. -/
  | ruleMove (a : Access) (sl index : Nat)
  /-- RULE_CLEAR_HITS: SLC_RULE_CMD CLEAR_HITS clears a rule's hit counter (R141). the slice and the rule. -/
  | ruleClearHits (a : Access) (sl index : Nat)
  /-- RULE_SCRUB: Every 2 ms, every rule is read, and bad-parity rules are invalidated with RULE_PARITY raised (R139). the slice, and the rules whose parity has gone bad. -/
  | ruleScrub (sl : Nat) (bad : List Nat)
  /-- PG_REPORT_TIMER: Every 10 ms, each member creates a REPORT and then runs the pairing (R268). -/
  | pgReportTimer
  /-- REPORT: A received REPORT newer than the last from its origin is recorded and flooded on (R268). the port, the fields of R267, and whether the message is malformed. -/
  | report (p group origin seq watts draw slack state stretch cap : Nat) (bad : Bool)
  /-- TRANSFER: A received TRANSFER raises the budget on its first copy and is answered with ACK (R269). the port, the fields of R267, and whether the message is malformed. -/
  | transfer (p group origin seq target tid : Nat) (x : PgAmount) (bad : Bool)
  /-- ACK: A received ACK completes the donor's transfer (R269). the port, the fields of R267, and whether the message is malformed. -/
  | ack (p group origin seq target tid : Nat) (x : PgAmount) (bad : Bool)
  /-- PG_MEMBER_TIMEOUT: An origin without a REPORT for 100 ms leaves the membership, and PG_MEMBER_CHANGE is raised (R268). the member. -/
  | pgMemberTimeout (x : Nat)
  /-- TRANSFER_RESEND: An unacknowledged TRANSFER is resent every 10 ms (R269). the transfer number. -/
  | transferResend (tid : Nat)
  /-- PG_TRANSFER_LOST: No ACK within 1 s adds the watts to unassigned and raises PG_TRANSFER_LOST (R340). the transfer number. -/
  | pgTransferLost (tid : Nat)
  /-- PG_JOIN_LISTEN_END: After 1.1 s of listening, a joining member sets its budget (R338). -/
  | pgJoinListenEnd
  /-- CLAIM: A write of claim raises this member's budget by the unassigned headroom and clears unassigned (R340). -/
  | claim (a : Access)
  /-- RSQ_TIMEOUT: A context tick finds a frame held for rsq_timeout and skips to it (R256). the context. -/
  | rsqTimeout (c : Nat)
  /-- ROUND_BOUNDARY: A Round boundary latches its registers, raises the event, drives TOUT, sends ROUND_MARK and fires waiting change sets (R264). the Round. -/
  | roundBoundary (r : Nat)
  /-- ROUND_MARK: A received ROUND_MARK is compared with the own boundary_num, and a mismatch raises ROUND_MISMATCH (R265). the port and the payload of R265. -/
  | roundMark (p payload : Nat)
  /-- TIME_PLL_LOCK: The time PLL first locks after reset, and TB0 starts at 0 (R275). -/
  | timePllLock
  /-- TIME_REFCLK_LOSS: TIME_REFCLK is lost: the PLL moves to backup and locked time bases go to holdover (R277). -/
  | timeRefclkLoss
  /-- TIME_REFCLK_RESTORE: After 1 s of TIME_REFCLK present, the time PLL returns to it (R277). -/
  | timeRefclkRestore
  /-- TB_LATCH: TIM_TB op 1 copies the time base's count into its now words (R278). the time base. -/
  | tbLatch (a : Access) (b : Nat)
  /-- LATCH_ALL: latch_all copies all eight time bases in one time-PLL cycle (R278). -/
  | latchAll (a : Access)
  /-- TB_STEP: TIM_TB op 2 steps the time base by arg_lo ns (R279). the time base. -/
  | tbStep (a : Access) (b : Nat)
  /-- TB_SET: TIM_TB op 3 sets the time base to arg (R279). the time base. -/
  | tbSet (a : Access) (b : Nat)
  /-- PDELAY_INTERVAL: Every 2^log_pdelay s, the port sends Pdelay_Req (R284). the port. -/
  | pdelayInterval (p : Nat)
  /-- PDELAY_REQ: A received Pdelay_Req is answered (R284). the port, the sequence number, the sender's port identity, and whether the message fails its profile's checks. -/
  | pdelayReq (p seq src : Nat) (bad : Bool)
  /-- PDELAY_RESP: A received Pdelay_Resp supplies the timestamps of a measurement (R284). the port, the sequence number, the requester's identity, the arrival time there and correctionField, both in 2^-16 ns, and the form of the response. -/
  | pdelayResp (p seq req t2 : Nat) (corr : Int) (form : RespForm)
  /-- PDELAY_RESP_FOLLOW_UP: A received Pdelay_Resp_Follow_Up completes a measurement, which updates the link delay (R284). as for the response, with its departure time. -/
  | pdelayRespFollowUp (p seq req t3 : Nat) (corr : Int) (bad : Bool)
  /-- PDELAY_TIMEOUT: An unanswered Pdelay_Req counts pdelay_lost and, after 3 in a row, clears delay_valid (R284). the port. -/
  | pdelayTimeout (p : Nat)
  /-- EXT_DELAY: A received EXT_DELAY records the peer's external delay and updates asym_used (R287). the port and the payload of R287. -/
  | extDelay (p payload : Nat)
  /-- EXT_REQ: A received EXT_REQ makes the port send both EXT_DELAY values (R287). the port. -/
  | extReq (p : Nat)
  /-- EXT_DELAY_PERIODIC: Every 1 s while peer_zx, the port sends its EXT_DELAY values (R287). the port. -/
  | extDelayPeriodic (p : Nat)
  /-- EXT_REQ_RETRY: Lacking both peer values, the port sends EXT_REQ every 10 ms (R287). the port. -/
  | extReqRetry (p : Nat)
  /-- SYNC: A received Sync on the slave port gives an offset that runs the servo (R293). port, domain, sequence number, origin time in ns, correctionField in 2^-16 ns, two-step, and `bad`. -/
  | sync (p dom seq origin : Nat) (corr : Int) (two bad : Bool)
  /-- FOLLOW_UP: A received Follow_Up completes a two-step offset measurement (R293). port, domain, sequence number, origin time in ns, correctionField in 2^-16 ns, and `bad`. -/
  | followUp (p dom seq origin : Nat) (corr : Int) (bad : Bool)
  /-- DELAY_REQ: A received Delay_Req is answered with Delay_Resp (R289). port, domain, sequence number, the sender's port identity, correctionField, and `bad`. -/
  | delayReq (p dom seq src : Nat) (corr : Int) (bad : Bool)
  /-- DELAY_RESP: A received Delay_Resp completes a delay request-response measurement (R289). port, domain, sequence number, the requester's identity, the arrival time at the master in ns, correctionField, and `bad`. -/
  | delayResp (p dom seq req t4 : Nat) (corr : Int) (bad : Bool)
  /-- ANNOUNCE: A received Announce feeds the best master clock algorithm and grandmaster tracking (R289). port, domain, the sender's port identity, the data set (priority1, class, accuracy, variance, priority2, identity, steps removed), UTC offset and its validity, the path trace, and `bad`. -/
  | announce (p dom src : Nat) (set utc path : List Nat) (bad : Bool)
  /-- SIGNALING: A received Signaling message with the interval request TLV adjusts message intervals (R289). port, domain, and the intervals asked for, each a signed byte. -/
  | signaling (p dom ipd isync iann : Nat) (bad : Bool)
  /-- PTP_MANAGEMENT_RX: A received PTP Management message is discarded and counted in ptp_mgmt_drop (R289). the port and the domain. -/
  | ptpManagementRx (p dom : Nat)
  /-- SYNC_INTERVAL: At each Sync interval, a master port sends Sync and Follow_Up (R289). the port and the time base. -/
  | syncInterval (p b : Nat)
  /-- ANNOUNCE_INTERVAL: At each Announce interval, a master port sends Announce (R289). the port and the time base. -/
  | announceInterval (p b : Nat)
  /-- SYNC_TIMEOUT: No offset for sync_timeout intervals loses lock with cause 1 (R294). the time base. -/
  | syncTimeout (b : Nat)
  /-- ANNOUNCE_TIMEOUT: An Announce timeout loses lock with cause 6 (R294). the port and the time base. -/
  | announceTimeout (p b : Nat)
  /-- HS_REVERT: After revert_hold of good own lock, the primary switches back to its own instance (R299). the primary. -/
  | hsRevert (p : Nat)
  /-- TOUT_PULSE: A TOUT pin emits a pulse at its time, or marks it missed (R300). the pin. -/
  | toutPulse (n : Nat)
  /-- TOUT_ADOPT: A write to TIM_TOUT word 0 adopts it and all pending words once any pulse has ended (R300). the pin and its word 0. -/
  | toutAdopt (a : Access) (n value : Nat)
  /-- TIN_EDGE: A selected TIN edge is captured into the FIFO and feeds a PPS servo (R302). the pin, and whether the edge rises. -/
  | tinEdge (n : Nat) (rising : Bool)
  /-- TIN_POP: Writing pop removes the head entry of the TIN FIFO (R302). the pin. -/
  | tinPop (a : Access) (n : Nat)
  /-- GOVERNOR_TICK: Every 100 µs, the governor takes the slowest proposal and starts a down-step or an up-step (R311). -/
  | governorTick
  /-- DEMAND_UPDATE: Every 1 ms with perf_mode, demand_state is recomputed (R312). -/
  | demandUpdate
  /-- VOLTAGE_SETTLED: The median voltage reaches its target, and the step's clock slew or completion follows (R313). -/
  | voltageSettled
  /-- UP_STEP_VOLTAGE_TIMEOUT: The voltage not arriving within 200 µs abandons the up-step with reason 2 (R313). -/
  | upStepVoltageTimeout
  /-- CLOCK_SLEW_DONE: The PLL slew reaches its target frequency (R313). -/
  | clockSlewDone
  /-- DROOP_CROSSING: A detector reads t1_mv or t2_mv below the set voltage, and its domain is stretched (R316). the detector, and how far below the set voltage it reads, mV. -/
  | droopCrossing (k below : Nat)
  /-- DROOP_CLEAR: A detector reads above its threshold by 5 mV for 16 cycles, and the stretch ends or steps down (R316). the detector, and how far below the set voltage it reads, mV. -/
  | droopClear (k below : Nat)
  /-- STRETCH_DUTY_EVAL: Every 1 µs, each domain's 10 µs stretch duty is evaluated for excursion (R317). -/
  | stretchDutyEval
  /-- DROOP_STATE_UPDATE: Every 1 ms, droop_state is moved by the stretch duty (R318). -/
  | droopStateUpdate
  /-- VR_ALERT_ASSERT: VR_ALERT_N passing its filter forces every core domain to 1.00 GHz within 150 ns and sets P5 (R319). -/
  | vrAlertAssert
  /-- VR_ALERT_DEASSERT: VR_ALERT_N deasserts, and alert_hold starts (R320). -/
  | vrAlertDeassert
  /-- ALERT_HOLD_EXPIRY: alert_hold ends, alert clears, VR_ALERT_CLEAR is raised and the governor resumes (R320). -/
  | alertHoldExpiry
  /-- THERMAL_SENSOR_READ: Every 100 µs, each thermal sensor is read and excluded or readmitted (R321). the sensors' readings in order, in 0.25 °C units. -/
  | thermalSensorRead (rs : List Int)
  /-- THERM_STATE_UPDATE: Every 1 ms, therm_state moves with tmax and the throttle events are raised (R322). -/
  | thermStateUpdate
  /-- THERMTRIP: A valid sensor at 135 °C drives THERMTRIP_N low, latched, and forces P5 (R324). the sensor and its reading, in 0.25 °C units. -/
  | thermtrip (k : Nat) (t : Int)
  /-- VOLTAGE_SENSOR_READ: Every 1 µs, the voltage sensors are read, and VOLTAGE_LOW is raised after 10 µs more than 50 mV low (R325). the sensors' readings in order, mV. -/
  | voltageSensorRead (rs : List Nat)
  /-- REGULATOR_POLL: Every 10 ms, the regulators are read and draw is updated (R326). the regulators' answers. -/
  | regulatorPoll (xs : List VrRead)
  /-- TRIM_PERIOD: Every trim_period, the trim is raised or lowered from margin_min (R328). the lowest margin report of the period. -/
  | trimPeriod (margin : Nat)
  /-- TRIM_VALIDATION: Every 1 s while validating, the corrected-error rate confirms or reverts the last step down (R328). -/
  | trimValidation
  /-- SLICE_AUTUMN_ENTRY: A slice idle for 1 µs enters Autumn (R330). the slice. -/
  | sliceAutumnEntry (sl : Nat)
  /-- SLICE_AUTUMN_WAKE: A start delimiter, a selection, a heartbeat or a window access returns an Autumn slice to Summer (R330). the slice. -/
  | sliceAutumnWake (sl : Nat)
  /-- SLICE_WINTER_ENTRY: A slice with every port idle and no admitted stream enters Winter (R331). the slice. -/
  | sliceWinterEntry (sl : Nat)
  /-- THAW_START: A wake cause starts a Winter slice's Thaw (R331). the slice. -/
  | thawStart (sl : Nat)
  /-- THAW_COMPLETE: One heartbeat passes each engine, and the slice returns to Summer (R331). the slice, and the engines that fail the heartbeat. -/
  | thawComplete (sl : Nat) (bad : List Nat)
  /-- THAW_TIMEOUT: Thaw not finished within 6 µs makes the slice fail itself (R331). the slice. -/
  | thawTimeout (sl : Nat)
  /-- COMPLEX_SLEEP: Both complexes enter Autumn or Winter together, saving the interrupt state (R334). Winter or Autumn, and a source whose edge comes during the entry. -/
  | complexSleep (winter : Bool) (edgeOf : Option Nat)
  /-- COMPLEX_WAKE: A wake source returns both complexes to Summer and restores the interrupt state (R334). -/
  | complexWake
  /-- PLL_UNLOCK: A PLL loses lock: a slice PLL fails its slice, and any other PLL raises PLL_UNLOCK and ALARM_N (R345). the clock domain, and whether its lock is back. -/
  | pllUnlock (dom : Nat) (back : Bool)
  /-- LOCKSTEP_MISMATCH: The comparator finds a mismatch, holds the transactions and starts a gap (R349). the core, the kind and the address of the transaction. -/
  | lockstepMismatch (core kind addr : Nat)
  /-- CHECKPOINT: Every 20 µs, or when a log fills, the core state is checkpointed and the logs restart (R350). -/
  | checkpoint
  /-- DIAGNOSIS_DONE: BIST and the ECC status give a verdict of transient, give-up or both failed (R351). the complexes' BIST results. -/
  | diagnosisDone (bistA bistB : Bool)
  /-- RESYNC_DONE: Resynchronisation completes, and lockstep runs live from the held transaction (R353). -/
  | resyncDone
  /-- REJOIN: RED_CX_CMD rejoin runs BIST on the given-up complex and starts the state copy (R354). -/
  | rejoin (a : Access)
  /-- REJOIN_COPY_DONE: The state copy completes, lockstep resumes and CX_REJOINED is raised (R354). -/
  | rejoinCopyDone
  /-- SERVICE_WATCHDOG: A missed watchdog signal restarts both complexes warm, or enters hold on the third restart (R358). -/
  | serviceWatchdog
  /-- WARM_RESTART_DONE: A warm restart finishes, and Folsor resumes from the hardware state (R359). -/
  | warmRestartDone
  /-- RETRY: RED_CX_CMD retry in autonomous hold runs BIST and restarts the passing complexes (R359). -/
  | retry (a : Access)
  /-- SLICE_CONTROL_MEMORY_ERROR: An uncorrectable error in a control memory makes the slice fail itself (R360). the slice. -/
  | sliceControlMemoryError (sl : Nat)
  /-- SLICE_WATCHDOG: No dispatch or no egress progress for 10 µs makes the slice fail itself (R360). the slice. -/
  | sliceWatchdog (sl : Nat)
  /-- TAKEOVER_FORWARD: SL16 completes the load and self-test and forwards; HOLD_END and SLICE_TAKEOVER follow (R363). the time since the give-up, ns. -/
  | takeoverForward (ns : Nat)
  /-- TAKEOVER_FAILURE: A failed takeover declares the four macros' ports down and raises TAKEOVER_FAILED (R367). the step that failed: 1 Thaw, 2 load, 3 self-test, 4 sequencers. -/
  | takeoverFailure (step : Nat)
  /-- FORCE_FAIL: RED_SLICE_CMD force_fail starts a takeover of a serving slice with cause 6 (R369). the slice, and force. -/
  | forceFail (a : Access) (sl : Nat) (force : Bool)
  /-- HAND_BACK: RED_SLICE_CMD hand_back power-cycles and tests the fenced slice before returning its macros (R369). the slice, and force. -/
  | handBack (a : Access) (sl : Nat) (force : Bool)
  /-- HAND_BACK_DONE: The macros move back to their own slice, and SL16 returns to Winter (R369). whether the slice passes its test, and the time since SL16's give-up, ns. -/
  | handBackDone (ok : Bool) (ns : Nat)
  /-- UPDATE_START: start breaks lockstep, and B loads the other image slot (R370). -/
  | updateStart (a : Access)
  /-- UPDATE_STAGED: Phase 1 completes and the update waits in ready (R370). the bytes of the other slot's image as its first and its second pass read them. -/
  | updateStaged (img again : List Nat)
  /-- UPDATE_SWAP: swap hands the service state to B, which commits the update change set (R370). -/
  | updateSwap (a : Access)
  /-- SWAP_DONE: B becomes owner, UPDATE_SWAPPED is raised and the state copy starts (R370). -/
  | swapDone
  /-- UPDATE_COPY_DONE: The copy completes, lockstep resumes, UPDATE_DONE is raised and boot-select is written (R370). -/
  | updateCopyDone
  /-- UPDATE_ABORT: abort in phase 1 or 2 ends the update and copies A's state back (R372). -/
  | updateAbort (a : Access)
  /-- SOURCE_EDGE: A rising source line sets both pending bits and delivers, or starts the group hold-off (R383). the source. -/
  | sourceEdge (n : Nat)
  /-- HOLDOFF_EXPIRY: A group hold-off timer expires and delivers the group to routing, the host and INT_N (R383). the group. -/
  | holdoffExpiry (g : Nat)
  /-- INTERRUPT_ACK: A core acknowledges its presented source, clearing core pending and stacking it (R385). the core. -/
  | interruptAck (c : Nat)
  /-- HANDLER_END: A core ends a handler and removes the source from its stack, lowering its threshold (R385). the core and the source. -/
  | handlerEnd (c n : Nat)
  /-- PMR_WRITE: A core changes its priority mask, which may withdraw a presentation (R384). the core and its new mask. -/
  | pmrWrite (c v : Nat)
  /-- SW_SET: INTC_SW_SET pulses a software source line (R379). the software source, 0 to 63. -/
  | swSet (a : Access) (n : Nat)
  /-- HPEND_CLEAR: A W1C of INTC_HPEND clears host pending bits, which re-pend if the line is still high (R381). the group and the bits to clear. -/
  | hpendClear (a : Access) (g mask : Nat)
  /-- MSIX_LINK_READY: A held MSI-X message is sent once the link reaches L0 and the function is in D0 (R396). the link's speed and width. -/
  | msixLinkReady (speed width : Nat)
  /-- MSIX_UNMASK: Unmasking a vector sends its PBA-pending message (R390). the vector. -/
  | msixUnmask (g : Nat)
  /-- ALLOC_SIZE: A read of POOL_ALLOC_SIZE allocates from the smallest fitting pool or returns 0xFFFF_FFFF (R403). the size window's word: i + 1 units of 128 bytes. -/
  | allocSize (a : Access) (i : Nat)
  /-- ALLOC_POOL: A read of POOL_ALLOC_POOL allocates from the named pool (R404). the pool. -/
  | allocPool (a : Access) (p : Nat)
  /-- POOL_FREE: A write of a handle to POOL_FREE checks it and frees the buffer (R410). the handle. -/
  | poolFree (a : Access) (h : Nat)
  /-- POOL_GIVE: A write to POOL_GIVE checks the handle and passes the buffer to the target (R410). the handle and the new owner. -/
  | poolGive (a : Access) (h target : Nat)
  /-- POOL_RECLAIM: A write of POOL_RECLAIM frees every buffer of a requester in the named pools (R412). the requester and the pools as bits. -/
  | poolReclaim (a : Access) (r pools : Nat)
  /-- POOL_BUFFER_ACCESS: A hardware agent's or core's buffer access is checked, and a failing access is not performed (R411). a core's access (`h` its address) or a hardware agent's, the requester, the handle, offset and length, and what the data read has met (0 nothing, 1 corrected, 2 uncorrectable). -/
  | poolBufferAccess (core : Bool) (r h off len err : Nat)
  /-- POOL_META_ERROR: An uncorrectable metadata error retires the buffer and raises POOL_META_ERR (R413). the pool, the buffer, and whether the error was corrected. -/
  | poolMetaError (p i : Nat) (corrected : Bool)
  /-- PWR_GOOD_RISE: PWR_GOOD rises: the rails are checked, the straps sampled and the boot voltage and boot started (R511). what the device finds. -/
  | pwrGoodRise (x : PowerUp)
  /-- BOOT_VOLTAGE_RETRY: Every 10 ms without an answer or voltage, the boot voltage setup repeats (R509). the regulators that answer, and whether the voltage has arrived. -/
  | bootVoltageRetry (answers : List Nat) (arrived : Bool)
  /-- BOOT_IMAGE_READ_DONE: The image is read and hashed, checked, and its records applied and committed (R426). the bytes of the image, or none where the flash could not be read. -/
  | bootImageReadDone (img : Option (List Nat))
  /-- BOOT_READY: Folsor starts, ready is set, forwarding starts and the stream requests are submitted (R426). milliseconds since PWR_GOOD. -/
  | bootReady (ms : Nat)
  /-- STREAM_REQ_RETRY: Every 1 s for up to 60 s, a failed STREAM_REQ is resubmitted (R428). the request of the image. -/
  | streamReqRetry (k : Nat)
  /-- FLASH_BURST_STALL: A burst with no strobe edge for 10 µs is abandoned and the flash is reset (R430). the flash address of the burst. -/
  | flashBurstStall (addr : Nat)
  /-- FLASH_BURST_REISSUE: 1 ms after a stall, the whole burst is reissued (R430). -/
  | flashBurstReissue
  /-- FLASH_LATE_EDGE: A strobe edge of an abandoned burst is ignored and counted (R430). late strobe edges. -/
  | flashLateEdge (n : Nat)
  /-- REBOOT: A write of reboot in no-image state restarts boot (R431). -/
  | reboot (a : Access)
  /-- BOOT_SELECT_WRITE: A write of CFG_BOOT_SEL starts writing a new boot-select record (R432). the slot chosen. -/
  | bootSelectWrite (a : Access) (slot : Nat)
  /-- BOOT_SELECT_DONE: The boot-select record write completes (R432). -/
  | bootSelectDone
  /-- BOOT_SELECT_FAIL: A boot-select write not complete within 1 s raises BOOT_SELECT_FAIL (R432). -/
  | bootSelectFail
  /-- CS_OPEN: CFG_CS op 1 opens a change set, discarding its entries (R434). the set. -/
  | csOpen (a : Access) (k : Nat)
  /-- CS_ARM: CFG_CS op 2 arms a set with its trigger, firing at once for trigger now (R436). the set. -/
  | csArm (a : Access) (k : Nat)
  /-- CS_DISARM: CFG_CS op 3 returns an armed set to open (R436). the set. -/
  | csDisarm (a : Access) (k : Nat)
  /-- CS_CLEAR: CFG_CS op 4 clears a set to empty (R434). the set. -/
  | csClear (a : Access) (k : Nat)
  /-- STAGE_DATA: A write of CFG_STAGE_DATA stages an entry into the named set (R435). the data; set, address and mask stand in their registers. -/
  | stageData (a : Access) (data : Nat)
  /-- CS_TIME_TRIGGER: A time base reaches T and fires its armed change set (R436). the set. -/
  | csTimeTrigger (k : Nat)
  /-- CS_COMMIT_POINT: All other staged values take effect in one cycle and CS_COMMITTED is raised (R437). the set. -/
  | csCommitPoint (k : Nat)
  /-- FLASH_READ: CFG_FLASH_CMD op 1 reads 256 bytes into the data registers (R442). -/
  | flashRead (a : Access)
  /-- FLASH_PROGRAM: CFG_FLASH_CMD op 2 programs 256 bytes from the data registers (R442). -/
  | flashProgram (a : Access)
  /-- FLASH_ERASE_4K: CFG_FLASH_CMD op 3 erases a 4 KiB sector (R442). -/
  | flashErase4k (a : Access)
  /-- FLASH_ERASE_64K: CFG_FLASH_CMD op 4 erases a 64 KiB block (R442). -/
  | flashErase64k (a : Access)
  /-- FLASH_COMMAND_DONE: A flash command completes, stalls or times out, and its result is set (R442). 0 done, 1 stalled, 3 timed out; the 256 bytes of a read. -/
  | flashCommandDone (res : Nat) (bytes : List Nat)
  /-- HELLO: A HELLO opens a handshake and is answered with CHALLENGE, or refused (R452). the message. -/
  | hello (m : MgmtMsg)
  /-- PROOF: A PROOF is verified and answered with OPEN or REFUSED (R452). the message. -/
  | proof (m : MgmtMsg)
  /-- CLOSE: A CLOSE request closes its session (R453). the message. -/
  | close (m : MgmtMsg)
  /-- SESSION_IDLE_TIMEOUT: A session idle for idle_timeout closes (R453). the session slot. -/
  | sessionIdleTimeout (i : Nat)
  /-- CREDENTIAL_LOCK_END: lock_time passes and the credential may authenticate again (R453). the credential. -/
  | credentialLockEnd (cred : Nat)
  /-- MAKER_GRANT: A write of grant starts a maker grant of the given minutes (R450). the minutes granted. -/
  | makerGrant (a : Access) (minutes : Nat)
  /-- MAKER_REVOKE: A write of revoke ends the grant and closes the maker sessions (R450). -/
  | makerRevoke (a : Access)
  /-- MAKER_GRANT_EXPIRY: The grant expires and closes every maker session (R450). -/
  | makerGrantExpiry
  /-- PROGRAM_INSTALLER_SLOT: ACC_FUSE_CMD op 1 programs the next installer key slot (R449). -/
  | programInstallerSlot (a : Access)
  /-- PROGRAM_MAKER_FUSE: ACC_FUSE_CMD op 2 programs a maker fuse word (R464). the fuse word. -/
  | programMakerFuse (a : Access) (addr : Nat)
  /-- AUDIT_RECORD_WRITE: Folsor takes a capture, stamps it and writes it into the audit ring (R456). ns between capture and stamp, and positions of the ring found bad. -/
  | auditRecordWrite (lag bad : Nat)
  /-- IDCODE: The TAP IDCODE instruction shifts out 0xB102_4743 (R461). -/
  | idcode
  /-- TAP_REG_READ: The TAP REG_READ instruction shifts in an address and shifts out its value with the observe role (R461). the address. -/
  | tapRegRead (addr : Nat)
  /-- TRACE_READ: The TAP TRACE_READ instruction shifts out the trace buffer from its oldest word (R461). -/
  | traceRead
  /-- BYPASS: The TAP BYPASS instruction selects the bypass register (R461). -/
  | bypass
  /-- EXTEST: The TAP EXTEST instruction performs IEEE 1149.1 boundary test in TEST_MODE (R461). the values loaded in the boundary cells. -/
  | extest (cells : List Nat)
  /-- SAMPLE_PRELOAD: The TAP SAMPLE/PRELOAD instruction captures or loads the boundary cells in TEST_MODE (R461). the values loaded in the boundary cells. -/
  | samplePreload (cells : List Nat)
  /-- EXTEST_PULSE: The TAP EXTEST_PULSE instruction performs IEEE 1149.6 test on SerDes lanes in TEST_MODE (R461). the values loaded in the boundary cells. -/
  | extestPulse (cells : List Nat)
  /-- EXTEST_TRAIN: The TAP EXTEST_TRAIN instruction performs IEEE 1149.6 test on SerDes lanes in TEST_MODE (R461). the values loaded in the boundary cells. -/
  | extestTrain (cells : List Nat)
  /-- HIGHZ: The TAP HIGHZ instruction floats the outputs in TEST_MODE (R461). -/
  | highz
  /-- CLAMP: The TAP CLAMP instruction holds the boundary outputs in TEST_MODE (R461). -/
  | clamp
  /-- PCIE_PERST_ASSERT: PCIE_PERST_N asserted resets the function, its rings and its punt queues (R470). -/
  | pciePerstAssert
  /-- FLR: A function-level reset resets the configuration space and the rings (R470). -/
  | flr
  /-- HOT_RESET: A PCIe hot reset resets the configuration space and the rings (R470). -/
  | hotReset
  /-- RING_TAIL_WRITE: A write of a ring's tail posts descriptors, or is refused if it overfills the ring (R471). the ring and its new tail. -/
  | ringTailWrite (a : Access) (k tail : Nat)
  /-- RING_ENABLE: Setting a ring's enable zeroes head and tail and starts it running (R478). the ring. -/
  | ringEnable (a : Access) (k : Nat)
  /-- RING_DISABLE: Clearing a ring's enable stops it after the descriptor in progress (R478). the ring. -/
  | ringDisable (a : Access) (k : Nat)
  /-- PUNT_DMA: A queued punt frame is copied into the next posted buffer and completed (R475). the ring, the buffer its next descriptor names, and the memory errors its reads meet. -/
  | puntDma (k addr : Nat) (x : PuntRead)
  /-- INJECT_DMA: An inject descriptor's frame is read, padded, checked and enqueued or sent into the pipeline (R476). the ring, the buffer and the inject word of its next descriptor, the bytes read, and the cell the allocator looks at first. -/
  | injectDma (k addr word : Nat) (data : List Nat) (cell : Nat)
  /-- RECORD_DMA: A telemetry or event record is written to a posted buffer of its ring (R477). the ring, and the buffer its next descriptor names. -/
  | recordDma (k addr len : Nat)
  /-- DMA_FLUSH_DONE: The zero-length read after a completion finishes, which sets ev_done and raises the ring's source (R474). the ring. -/
  | dmaFlushDone (k : Nat)
  /-- DMA_ERROR: A DMA error or completion timeout halts the ring and raises RING_HALT (R478). the ring, and whether the failing descriptor's completion can still be written. -/
  | dmaError (k : Nat) (canWrite : Bool)
  /-- ARP_REQUEST: A management port answers an ARP request for its address (R479). the management port, the address asked for, and the sender's MAC and IPv4 addresses. -/
  | arpRequest (m target mac ip : Nat)
  /-- NEIGHBOUR_SOLICITATION: A management port answers an IPv6 neighbour solicitation (R479). the management port, the address asked for, and the sender's MAC and IPv6 addresses. -/
  | neighbourSolicitation (m target mac ip : Nat)
  /-- ECHO_REQUEST: A management port answers an ICMP or ICMPv6 echo request (R479). the management port, IPv6 or IPv4, destination and source, identifier, sequence and data. -/
  | echoRequest (m : Nat) (v6 : Bool) (dst src id seq : Nat) (data : List Nat)
  /-- MGMT_OTHER_FRAME: Any other frame on a management port is dropped and counted in mgmt_other (R479). the management port. -/
  | mgmtOtherFrame (m : Nat)
  /-- MGMT_LINK_CHANGE: A management port's link goes up or down, and MGMT_LINK is raised (R489). the management port, and whether its link is up. -/
  | mgmtLinkChange (m : Nat) (up : Bool)
  /-- REG_READ: The management message REG_READ returns 1 to 256 register values (R482). the message. -/
  | regRead (m : MgmtMsg)
  /-- REG_WRITE: The management message REG_WRITE writes or stages 1 to 64 masked register entries (R482). the message. -/
  | regWrite (m : MgmtMsg)
  /-- TABLE_CMD: The management message TABLE_CMD issues a table command and returns its status and data (R482). the message. -/
  | tableCmd (m : MgmtMsg)
  /-- ADMIT: The management message ADMIT submits a stream request to admission (R482). the message. -/
  | admitReq (m : MgmtMsg)
  /-- RELEASE: The management message RELEASE releases a stream (R482). the message. -/
  | releaseReq (m : MgmtMsg)
  /-- QUERY: The management message QUERY returns a stream's state (R482). the message. -/
  | queryReq (m : MgmtMsg)
  /-- SERVICE_PARAM: The management message SERVICE_PARAM sets a service parameter, installer only (R482). the message. -/
  | serviceParam (m : MgmtMsg)
  /-- MODULE_RW: The management message MODULE_RW performs a CMIS access through an I²C master (R482). the message and the module's answer. -/
  | moduleRw (m : MgmtMsg) (ans : ModAnswer)
  /-- MGMT_HELD_REQUEST: After a gap, the held management requests are served in arrival order (R483). a module's answer, where the request held is MODULE_RW. -/
  | mgmtHeldRequest (ans : ModAnswer)
  /-- SMBUS_SET_ADDRESS: SMBus command 0x01 sets the register address (R484). the byte count, PEC (0 absent, 1 good, 2 bad), the address. -/
  | smbusSetAddress (count pec addr : Nat)
  /-- SMBUS_WRITE: SMBus command 0x02 writes the value and advances the address (R484). the byte count, PEC (0 absent, 1 good, 2 bad), the value. -/
  | smbusWrite (count pec value : Nat)
  /-- SMBUS_READ: SMBus command 0x03 returns the value and advances the address (R484). -/
  | smbusRead
  /-- SMBUS_SCL_TIMEOUT: SCL held low for 25 ms resets the SMBus target (R484). -/
  | smbusSclTimeout
  /-- I2C_STUCK: SDA low for 35 ms triggers recovery, and a bus still stuck raises I2C_STUCK and stops polling (R486). the bus, and whether SDA is low after the recovery. -/
  | i2cStuck (bus : Nat) (still : Bool)
  /-- I2C_RECOVERY_RETRY: Every 1 s, recovery of a stuck bus is retried (R486). the bus, and whether SDA is low after the recovery. -/
  | i2cRecoveryRetry (bus : Nat) (still : Bool)
  /-- EVENT_RECORD_WRITE: Folsor takes a capture and writes a stamped 64-byte record into the event ring (R497). ns between the capture and its stamp. -/
  | eventRecordWrite (lag : Nat)
  /-- COUNTER_EXPORT: Every cnt_period, the named counter sets are copied and sent as records (R499). -/
  | counterExport
  /-- HISTOGRAM_EXPORT: Every hist_period, the watch bins are copied and sent as records (R499). -/
  | histogramExport
  /-- DATAGRAM_TIMEOUT: 1 ms after its first record, a UDP export datagram is sent (R500). the destination. -/
  | datagramTimeout (d : Nat)
  /-- PWR_GOOD_FALL: PWR_GOOD low past its filter resets every domain but the always-on domain (R512). -/
  | pwrGoodFall
  /-- BROWN_OUT: A rail below its threshold for 10 µs resets as a PWR_GOOD fall and drives ALARM_N (R513). the rail. -/
  | brownOut (rail : Nat)
  /-- AON_POWER_ON: VDD_AON rises, and the always-on reset is released after 100 AON_CLK cycles (R510). -/
  | aonPowerOn
  /-- COMPLEX_SRAM_ECC_ERROR: An uncorrectable SRAM error detected in a service complex during a hitless update aborts the update, or leaves B serving simplex, or puts the device in autonomous hold (R372). the complex, and whether the error was corrected. -/
  | complexSramEccError (c : Nat) (corrected : Bool)
  /-- PCIE_LINK_DOWN: The PCIe link goes down, which sets ev_pcie and raises PCIE_LINK with cause 1 (R489). -/
  | pcieLinkDown
  /-- PCIE_AER_ERROR: The endpoint detects an AER error, counts pcie_aer, sets ev_pcie and raises PCIE_LINK with cause 4 (R489). -/
  | pcieAerError
  /-- PCIE_PERST_DEASSERT: PCIE_PERST_N deasserting releases PCIE_WAKE_N and lets the link train out of D3cold (R396). -/
  | pciePerstDeassert
  /-- ASPM_LINK_ENTRY: ASPM takes an idle PCIe link into L0s, L1 or an L1 substate (R396). the state entered: 2 L0s, 3 L1, 4 L1.1, 5 L1.2. -/
  | aspmLinkEntry (l : Nat)
  /-- D_STATE_CHANGE: The host places the function in D3hot or returns it to D0 through its power-management registers (R396). D3hot or D0, MSI-X Enable and PME_En. -/
  | dStateChange (hot msixEn pmeEn : Bool)
  /-- DELAY_REQ_INTERVAL: In the IEEE 1588 delay request-response profile, a slave port sends Delay_Req at its interval (R289). the port and the time base. -/
  | delayReqInterval (p b : Nat)
  /-- TABLE_COMMAND_DONE: A running table command, such as an LPM INSERT of up to 50 µs, finishes: lookups switch structure, busy clears and TBL_STATUS takes the result (R162). the table. -/
  | tableCommandDone (t : Nat)
  /-- RULE_COMMAND_DONE: A running SLC_RULE_CMD completes within 1 µs, busy clears and SLC_RULE_STATUS takes the result (R138). the slice. -/
  | ruleCommandDone (sl : Nat)
deriving DecidableEq, Repr

end Sys2Proof
end

