-- ==== Sys2Proof/Decode.lean ====
section
/-!
DEFINITION. Commands as words. The opcode table gives no row of this block any bits: its commands are accesses, messages, frames, pin
events and expiries, not encoded words. So no word spells a command.
-/

namespace Sys2Proof

/-- The command a word of `nbits` bits spells by the opcode table's bits: none, since no row has bits. -/
def decodeTableWord (_nbits _w : Nat) : Option Instr := none

end Sys2Proof
end

