-- ==== Sys2Proof/Config.lean ====
section
/-!
DEFINITION. What an implementation fixes and what the spec leaves open: uninterpreted constants for free values and
for the cryptographic functions (no body, so no proof can rest on a value of one), and the constants a log entry names.
-/

namespace Sys2Proof.Config

/-- The free value the machine draws at its `n`-th draw (log entry 1): nothing constrains it. -/
opaque freeValue : Nat → Nat

/-- A level at an outside input that no command of the table carries, by the number of the command in progress and the input
(log entry 1). -/
opaque freeInput : Nat → Nat → Nat

/-- Frequency in kHz of the clock domain of a SerDes macro, by the modes of its two octets (log entry 1): R521 says only what sets it. -/
opaque serdesKhz : Nat → Nat → Nat

/-- SHA-384 of a byte string, as 48 bytes read as a number (log entry 2): the spec names the function only. -/
opaque sha384 : List Nat → Nat

/-- Does an ECDSA P-384 signature (third) over a message (second) verify under a public key (first)? (log entry 2) -/
opaque ecdsaVerify : List Nat → List Nat → List Nat → Bool

/-- The ECDH P-384 shared secret of the device's ephemeral key (by its draw number) and a peer's public key (log entry 2). -/
opaque ecdh : Nat → List Nat → List Nat

/-- HMAC-SHA-384 of a message (second) under a key (first), truncated to 16 bytes (log entry 2). -/
opaque hmac16 : List Nat → List Nat → Nat

/-- The public ephemeral key the device draws at its `n`-th handshake (log entry 2). -/
opaque deviceKey : Nat → List Nat

/-- The SHA-384 hash of the maker's public key, which Tathirdo fuses (R450; log entry 2). -/
opaque makerHash : Nat

/-- Fused voltage codes (R309): `vid_p0` to `vid_p5`, `margin_lo`, `margin_hi`, in that order. The spec gives
their Reset as "fused" and bounds them by R309 (vid[P0] at most 0.81 V, vid[P5] at least 0.64 V, never rising toward P5); the model
names one table inside those bounds (log entry 3). -/
def fusedVid (k : Nat) : Nat := [84, 70, 57, 43, 30, 16, 0, 0].getD k 0

/-- Straps and ROM constants at reset (log entry 3): 0 = TEST_MODE, 1 = PCIE_EN, 2 = SMB_ADDR[2:0], 3 = ROM version. -/
def strapReset (_k : Nat) : Nat := 0

end Sys2Proof.Config
end

