-- ==== Sys2Proof/Machine/Field.lean ====
section
/-!
DEFINITION. What a register field, a register and a counter are: the types of the register map (R5 to R15).
-/

namespace Sys2Proof.Machine

/-- Access codes of R9; `hid` marks state of the device that no register shows. -/
inductive Acc where
  | ro | rw | w1c | w1s | rc | wo | st | hid
deriving DecidableEq, Repr

/-- Reset value of a field, by instance: one value, a table by instance (0 beyond its end), the instance divided or
multiplied by a number or taken modulo it, a fused voltage code, or a strap. -/
inductive Rst where
  | val (n : Nat) | tab (l : List Nat) | div (d : Nat) | mul (k : Nat) | cyc (n : Nat) | vid (k : Nat) | strap (k : Nat)
deriving DecidableEq, Repr

/-- What a write stores: any value, the nearest of a range, 0 from a bound on, or a rate of R220. -/
inductive Lim where
  | any | range (lo hi : Nat) | zeroFrom (n : Nat) | rate
deriving DecidableEq, Repr

/-- Which roles may write a field (R446): the installer, also the operator, also the maker, or as a rule of its own says. -/
inductive Right where
  | installer | operator | watcher | special
deriving DecidableEq, Repr

/-- A register field. -/
structure Fld where
  id : Nat
  lo : Nat
  width : Nat
  acc : Acc
  rst : Rst
  lim : Lim
  right : Right
deriving DecidableEq, Repr

/-- A register word: its base address, the count and stride of each of its indices (outermost first), the instances
behind a selector register (0 for none), and its fields; reserved bits are in no field and read 0 (R7). -/
structure Reg where
  id : Nat
  base : Nat
  dims : List (Nat × Nat)
  win : Nat
  fields : List Fld
deriving DecidableEq, Repr

/-- A counter (R14): its block, the address of its LO word, its indices, how many of its instances belong to one slice
(0 outside SLC), and the selector that picks its instance (0 none, 1 ADM stream, 2 TEL queue, 3 TEL stream). -/
structure Cnt where
  id : Nat
  blk : Nat
  base : Nat
  dims : List (Nat × Nat)
  per : Nat
  sel : Nat
deriving DecidableEq, Repr

/-- A field's value after power-on reset (R13). -/
def Rst.value (r : Rst) (i : Nat) : Nat :=
  match r with
  | .val n => n
  | .tab l => l.getD i 0
  | .div d => i / d
  | .mul k => i * k
  | .cyc n => i % n
  | .vid k => Config.fusedVid k
  | .strap k => Config.strapReset k

end Sys2Proof.Machine
end

