-- ==== Sys2Proof/Machine/Hid.lean ====
section
/-!
DEFINITION. State that no register shows: fields of one number each, addressed like register fields but by no bus
(access code `hid`), and lists of numbers. Each carries the rule that gives it to the machine.
-/

namespace Sys2Proof.Machine

/-- A list-valued piece of state. -/
structure Lst where
  id : Nat
deriving DecidableEq, Repr

/-- Time base b: 64-bit nanoseconds and 32-bit fraction, in units of 2^-32 ns (R274). -/
def TBC.count : Fld := ⟨2000, 0, 96, .hid, .val 0, .any, .special⟩
/-- Time base b: rate adjustment in units of 2^-32 ns a nanosecond, two's complement (R274, R293). -/
def TBC.adj : Fld := ⟨2001, 0, 33, .hid, .val 0, .any, .special⟩
/-- Time base b: difference still to be slewed out, units of 2^-32 ns, two's complement (R298). -/
def TBC.slew : Fld := ⟨2002, 0, 97, .hid, .val 0, .any, .special⟩
/-- The time PLL has locked since reset (R275). -/
def TBC.pll_locked : Fld := ⟨2003, 0, 1, .hid, .val 0, .any, .special⟩
/-- A gap is in force: fabric outputs of the complexes are held (R349, R355). -/
def HRED.gap : Fld := ⟨2004, 0, 1, .hid, .val 0, .any, .special⟩
/-- Captures lost since the last EVENTS_LOST (R496). -/
def HTEL.lost : Fld := ⟨2005, 0, 32, .hid, .val 0, .any, .special⟩
/-- A rate-limited event: occurrences since it was last raised. -/
def HEVT.count : Fld := ⟨2006, 0, 32, .hid, .val 0, .any, .special⟩
/-- A rate-limited event: TB0 when it was last raised, plus one; 0 = never. -/
def HEVT.last : Fld := ⟨2007, 0, 96, .hid, .val 0, .any, .special⟩
/-- A rate-limited event: payload of the first occurrence since it was last raised. -/
def LEVT.first : Lst := ⟨1⟩
/-- Service-memory buffer (pool * 32768 + index): allocated bit (R401). -/
def POOLM.allocated : Fld := ⟨2008, 0, 1, .hid, .val 0, .any, .special⟩
/-- Service-memory buffer: owner (R401). -/
def POOLM.owner : Fld := ⟨2009, 0, 5, .hid, .val 0, .any, .special⟩
/-- Service-memory buffer: generation (R400). -/
def POOLM.gen : Fld := ⟨2010, 0, 3, .hid, .val 0, .any, .special⟩
/-- Service-memory buffer: retired bit (R401, R413). -/
def POOLM.retired : Fld := ⟨2011, 0, 1, .hid, .val 0, .any, .special⟩
/-- Pool: first buffer of the reset free list that has not been taken yet (R401). -/
def POOLM.next : Fld := ⟨2012, 0, 16, .hid, .val 0, .any, .special⟩
/-- Pool: POOL_LOW has been raised and the count has not risen back (R414). -/
def POOLM.low : Fld := ⟨2013, 0, 1, .hid, .val 0, .any, .special⟩
/-- Pool: freed buffers in the order they joined the tail of the free list (R401). -/
def LPOOL.freed : Lst := ⟨2⟩
/-- Pool: retired buffers of the reset free list that had not been taken (R413). -/
def LPOOL.gone : Lst := ⟨3⟩
/-- Autonomous hold is in force (R357). -/
def HRED.hold : Fld := ⟨2014, 0, 1, .hid, .val 0, .any, .special⟩
/-- A warm restart is in progress (R359). -/
def HRED.restart : Fld := ⟨2015, 0, 1, .hid, .val 0, .any, .special⟩
/-- Group g: sources whose group has been delivered since they became host-pending (R391). -/
def HINT.deliv : Fld := ⟨2016, 0, 16, .hid, .val 0, .any, .special⟩
/-- Group g: core-pending sources released to routing (R383, R385). -/
def HINT.rel : Fld := ⟨2017, 0, 16, .hid, .val 0, .any, .special⟩
/-- Group g: hold-off timer (R383). -/
def HINT.timer : Fld := ⟨2018, 0, 97, .hid, .val 0, .any, .special⟩
/-- The round-robin pointer of routing (R385). -/
def HINT.rr : Fld := ⟨2019, 0, 2, .hid, .val 0, .any, .special⟩
/-- Group g: what a held message waits for: 1 = the link in L0, 2 = the function in D0 with MSI-X enabled (R396). -/
def HINT.held_for : Fld := ⟨2020, 0, 2, .hid, .val 0, .any, .special⟩
/-- Vector g: the MSI-X mask bit of its table entry (R390, R468). -/
def HINT.masked : Fld := ⟨2021, 0, 1, .hid, .val 1, .any, .special⟩
/-- Vector g: its bit in the PBA (R390). -/
def HINT.pba : Fld := ⟨2022, 0, 1, .hid, .val 0, .any, .special⟩
/-- Source n: TB0 latched when it became pending during a gap, plus one; 0 = none (R388, R356). -/
def HINT.pend_stamp : Fld := ⟨2023, 0, 97, .hid, .val 0, .any, .special⟩
/-- The source that woke the complexes, plus one; 0 = none (R388). -/
def HINT.wake_src : Fld := ⟨2024, 0, 11, .hid, .val 0, .any, .special⟩
/-- TB0 latched when the last wake was issued, plus one; 0 = none (R388). -/
def HINT.wake_stamp : Fld := ⟨2025, 0, 97, .hid, .val 0, .any, .special⟩
/-- Core c: the entry stamp handed over at its last acknowledgement (R388). -/
def HINT.entry_stamp : Fld := ⟨2026, 0, 96, .hid, .val 0, .any, .special⟩
/-- PME_En of the PCIe function (R396). -/
def HINT.pme_en : Fld := ⟨2027, 0, 1, .hid, .val 0, .any, .special⟩
/-- Core c: active interrupts, lowest first, each as ID + 1024 * priority (R384). -/
def LINT.stack : Lst := ⟨4⟩
/-- Sources whose present high level has been taken as an edge (R380). -/
def LINT.seen : Lst := ⟨5⟩
/-- Seq of the next event record (R497). -/
def HTEL.next_seq : Fld := ⟨2028, 0, 32, .hid, .val 0, .any, .special⟩
/-- HIF ring k: seq its read pointer into the event ring stands at (R498). -/
def HTEL.rptr : Fld := ⟨2029, 0, 32, .hid, .val 0, .any, .special⟩
/-- Telemetry profile k: its sample counter (R490). -/
def HTEL.samples : Fld := ⟨2030, 0, 16, .hid, .val 0, .any, .special⟩
/-- Millisecond of TB0 the postcard count belongs to (R493). -/
def HTEL.pc_win : Fld := ⟨2031, 0, 64, .hid, .val 0, .any, .special⟩
/-- Postcards made in that millisecond (R493). -/
def HTEL.pc_cnt : Fld := ⟨2032, 0, 32, .hid, .val 0, .any, .special⟩
/-- Destination d: records dropped for want of a buffer since the last EXPORT_DROP (R504). -/
def HTEL.drop_buf : Fld := ⟨2033, 0, 32, .hid, .val 0, .any, .special⟩
/-- Destination d: records dropped for want of a descriptor since the last EXPORT_DROP (R504). -/
def HTEL.drop_desc : Fld := ⟨2034, 0, 32, .hid, .val 0, .any, .special⟩
/-- TB0 of the last EXPORT_DROP, plus one; 0 = never (R504). -/
def HTEL.drop_last : Fld := ⟨2035, 0, 97, .hid, .val 0, .any, .special⟩
/-- Destination d: records in the open datagram (R500). -/
def HTEL.dg_count : Fld := ⟨2036, 0, 16, .hid, .val 0, .any, .special⟩
/-- Destination d: seq of its next datagram (R500). -/
def HTEL.dg_seq : Fld := ⟨2037, 0, 32, .hid, .val 0, .any, .special⟩
/-- Destination d: the 1 ms timer of the open datagram (R500). -/
def HTEL.dg_timer : Fld := ⟨2038, 0, 97, .hid, .val 0, .any, .special⟩
/-- Destination d: record bytes of the open datagram (R500). -/
def LTEL.dg : Lst := ⟨6⟩
/-- Destination d: pool handles of the records in the open datagram (R501). -/
def LTEL.dg_h : Lst := ⟨7⟩
/-- Vector g: the low word of the message address in its table entry, bits 1:0 clear (R468). -/
def HINT.addr_lo : Fld := ⟨2039, 0, 32, .hid, .val 0, .any, .special⟩
/-- Vector g: the high word of the message address in its table entry (R468). -/
def HINT.addr_hi : Fld := ⟨2040, 0, 32, .hid, .val 0, .any, .special⟩
/-- Vector g: the message data in its table entry (R468). -/
def HINT.data : Fld := ⟨2041, 0, 32, .hid, .val 0, .any, .special⟩
/-- Configuration space: Vendor ID (R467). -/
def HPCI.vendor : Fld := ⟨2042, 0, 16, .hid, .val 31297, .any, .special⟩
/-- Configuration space: Device ID (R467). -/
def HPCI.device : Fld := ⟨2043, 0, 16, .hid, .val 4132, .any, .special⟩
/-- Configuration space: revision (R467). -/
def HPCI.revision : Fld := ⟨2044, 0, 8, .hid, .val 176, .any, .special⟩
/-- Configuration space: class code (R467). -/
def HPCI.class_code : Fld := ⟨2045, 0, 24, .hid, .val 131072, .any, .special⟩
/-- Configuration space: MPS, 128 bytes times 2 to this (R467). -/
def HPCI.mps : Fld := ⟨2046, 0, 3, .hid, .val 0, .any, .special⟩
/-- Configuration space: MRRS, 128 bytes times 2 to this (R467). -/
def HPCI.mrrs : Fld := ⟨2047, 0, 3, .hid, .val 2, .any, .special⟩
/-- Configuration space: an error stands in the AER capability (R467, R470). -/
def HPCI.aer : Fld := ⟨2048, 0, 1, .hid, .val 0, .any, .special⟩
/-- The ring whose turn is next (R471). -/
def HHIF.turn : Fld := ⟨2049, 0, 4, .hid, .val 0, .any, .special⟩
/-- Frames handed to the management engine, oldest first (R475). -/
def LHIF.mq : Lst := ⟨8⟩
/-- Session, 0 = none: what the reply to its last in-band request needs of that request's headers (R480). -/
def LHIF.hdr : Lst := ⟨9⟩
/-- Ring k: zero-length reads outstanding (R474). -/
def HHIF.flush : Fld := ⟨2050, 0, 16, .hid, .val 0, .any, .special⟩
/-- Ring k: descriptors taken by records that wait for their DMA (R500). -/
def HHIF.used : Fld := ⟨2051, 0, 16, .hid, .val 0, .any, .special⟩
/-- Ring k: the injected frame its descriptor in progress waits for, plus one (R476, R478). -/
def HHIF.dma : Fld := ⟨2052, 0, 33, .hid, .val 0, .any, .special⟩
/-- Ring k: its punt queue, frame numbers, oldest first (R475). -/
def LHIF.punt : Lst := ⟨10⟩
/-- Next hop n, or group 2^18 + n: valid entries that name it (R165). -/
def HTBL.refs : Fld := ⟨2053, 0, 24, .hid, .val 0, .any, .special⟩
/-- Group n: frames whose result names it (R166). -/
def HTBL.holds : Fld := ⟨2054, 0, 21, .hid, .val 0, .any, .special⟩
/-- Next hop n, or group 2^18 + n: the 2 us of a retiring entry (R166). -/
def HTBL.retire : Fld := ⟨2055, 0, 97, .hid, .val 0, .any, .special⟩
/-- Entry (table * 2^22 + index): bad parity; for a stream slot bit 0 is the pool's copy and bit 1 the mirror's (R152, R169). -/
def HTBL.bad : Fld := ⟨2056, 0, 2, .hid, .val 0, .any, .special⟩
/-- Table t: result code a running command will publish (R160). -/
def HTBL.res : Fld := ⟨2057, 0, 4, .hid, .val 0, .any, .special⟩
/-- Table t: index a running command will publish (R160). -/
def HTBL.res_idx : Fld := ⟨2058, 0, 21, .hid, .val 0, .any, .special⟩
/-- LPM units in use (R153). -/
def HTBL.lpm_units : Fld := ⟨2059, 0, 21, .hid, .val 0, .any, .special⟩
/-- TB0 of the last ageing tick (R171). -/
def HTBL.tick_last : Fld := ⟨2060, 0, 96, .hid, .val 0, .any, .special⟩
/-- Bucket the ageing scan visits next (R172). -/
def HTBL.scan : Fld := ⟨2061, 0, 18, .hid, .val 0, .any, .special⟩
/-- Buckets left of the first sweep after frozen cleared (R164). -/
def HTBL.thaw_left : Fld := ⟨2062, 0, 19, .hid, .val 0, .any, .special⟩
/-- Change a running LPM command will make at its end: operation, prefix key, destination (R162). -/
def LTBL.lpm : Lst := ⟨11⟩
/-- Prefix keys whose prefix-store entry has bad parity (R169). -/
def LTBL.lpm_bad : Lst := ⟨12⟩
/-- Learn and move requests waiting, each (VID * 2^48 + MAC) * 1024 + port (R174). -/
def LTBL.fifo : Lst := ⟨13⟩
/-- L2 flushes in progress, each port * 2^20 + buckets left (R173). -/
def LTBL.flush : Lst := ⟨14⟩
/-- Number the next frame the device takes will have. -/
def HFRM.next : Fld := ⟨2063, 0, 32, .hid, .val 0, .any, .special⟩
/-- Frame f: the device holds it. -/
def FRM.live : Fld := ⟨2064, 0, 1, .hid, .val 0, .any, .special⟩
/-- Frame f: ingress port. -/
def FRM.port : Fld := ⟨2065, 0, 10, .hid, .val 0, .any, .special⟩
/-- Frame f: slice that took it. -/
def FRM.slice : Fld := ⟨2066, 0, 5, .hid, .val 0, .any, .special⟩
/-- Frame f: TB0 at its first bit at the ingress reference plane, in units of 2^-32 ns (R40). -/
def FRM.stamp : Fld := ⟨2067, 0, 96, .hid, .val 0, .any, .special⟩
/-- Frame f: the same instant in stamp_tb (R248). -/
def FRM.tbstamp : Fld := ⟨2068, 0, 96, .hid, .val 0, .any, .special⟩
/-- Frame f: early mark (R84). -/
def FRM.early : Fld := ⟨2069, 0, 1, .hid, .val 0, .any, .special⟩
/-- Frame f: arrived with an Ibyon tag. -/
def FRM.tagged : Fld := ⟨2070, 0, 1, .hid, .val 0, .any, .special⟩
/-- Frame f: type of the received tag (R248). -/
def FRM.ttype : Fld := ⟨2071, 0, 4, .hid, .val 0, .any, .special⟩
/-- Frame f: class of the received tag. -/
def FRM.tclass : Fld := ⟨2072, 0, 2, .hid, .val 0, .any, .special⟩
/-- Frame f: hop_count of the received tag. -/
def FRM.thops : Fld := ⟨2073, 0, 6, .hid, .val 0, .any, .special⟩
/-- Frame f: src_device of the received tag. -/
def FRM.tsrc : Fld := ⟨2074, 0, 12, .hid, .val 0, .any, .special⟩
/-- Frame f: flow_context of the received tag. -/
def FRM.tflow : Fld := ⟨2075, 0, 16, .hid, .val 0, .any, .special⟩
/-- Frame f: seq of the received tag. -/
def FRM.tseq : Fld := ⟨2076, 0, 16, .hid, .val 0, .any, .special⟩
/-- Frame f: stamp_ns of the received tag. -/
def FRM.tns : Fld := ⟨2077, 0, 32, .hid, .val 0, .any, .special⟩
/-- Frame f: stamp_frac of the received tag. -/
def FRM.tfrac : Fld := ⟨2078, 0, 16, .hid, .val 0, .any, .special⟩
/-- Frame f: slack of the received tag. -/
def FRM.tslack : Fld := ⟨2079, 0, 8, .hid, .val 0, .any, .special⟩
/-- Frame f: power_slack of the received tag. -/
def FRM.tpslack : Fld := ⟨2080, 0, 8, .hid, .val 0, .any, .special⟩
/-- Frame f: its last byte has arrived. -/
def FRM.ended : Fld := ⟨2081, 0, 1, .hid, .val 0, .any, .special⟩
/-- Frame f: closed as errored (R96). -/
def FRM.err : Fld := ⟨2082, 0, 1, .hid, .val 0, .any, .special⟩
/-- Frame f: length as R54 counts it, once ended. -/
def FRM.len : Fld := ⟨2083, 0, 15, .hid, .val 0, .any, .special⟩
/-- Frame f: head-buffer entry it holds: 1 = shared, 2 = reserved, 0 = none (R83, R85). -/
def FRM.head : Fld := ⟨2084, 0, 2, .hid, .val 0, .any, .special⟩
/-- Frame f: head words written to cells (R184). -/
def FRM.hwords : Fld := ⟨2085, 0, 3, .hid, .val 0, .any, .special⟩
/-- Frame f: 0 = not dispatched, 1 = in an engine, 2 = result waits in the resequencer, 3 = result released, 4 = held in a resequencing context. -/
def FRM.stage : Fld := ⟨2086, 0, 3, .hid, .val 0, .any, .special⟩
/-- Frame f: waits for re-dispatch from a fenced engine (R103). -/
def FRM.redisp : Fld := ⟨2087, 0, 1, .hid, .val 0, .any, .special⟩
/-- Frame f: per-port sequence number (R88). -/
def FRM.seq : Fld := ⟨2088, 0, 12, .hid, .val 0, .any, .special⟩
/-- Frame f: engine it was sent to. -/
def FRM.eng : Fld := ⟨2089, 0, 3, .hid, .val 0, .any, .special⟩
/-- Frame f: epoch of the engine at dispatch (R103). -/
def FRM.epoch : Fld := ⟨2090, 0, 4, .hid, .val 0, .any, .special⟩
/-- Frame f: TB0 of its dispatch plus one. -/
def FRM.disp : Fld := ⟨2091, 0, 97, .hid, .val 0, .any, .special⟩
/-- Frame f: TB0 of its first dispatch plus one (R91). -/
def FRM.disp1 : Fld := ⟨2092, 0, 97, .hid, .val 0, .any, .special⟩
/-- Frame f: its lookup has run, and the result is held for delivery. -/
def FRM.looked : Fld := ⟨2093, 0, 1, .hid, .val 0, .any, .special⟩
/-- Frame f: inject ring it came from plus one (R476). -/
def FRM.inj : Fld := ⟨2094, 0, 5, .hid, .val 0, .any, .special⟩
/-- Frame f, result: 0 = none, 1 = one egress, 2 = replicate group, 3 = punt, 4 = dropped. -/
def FRM.res : Fld := ⟨2095, 0, 3, .hid, .val 0, .any, .special⟩
/-- Frame f, result: admitted (R128). -/
def FRM.adm : Fld := ⟨2096, 0, 1, .hid, .val 0, .any, .special⟩
/-- Frame f, result: stream it is admitted as. -/
def FRM.stream : Fld := ⟨2097, 0, 16, .hid, .val 0, .any, .special⟩
/-- Frame f, result: its hop of that stream. -/
def FRM.hop : Fld := ⟨2098, 0, 6, .hid, .val 0, .any, .special⟩
/-- Frame f, result: egress port. -/
def FRM.eg : Fld := ⟨2099, 0, 10, .hid, .val 0, .any, .special⟩
/-- Frame f, result: subscriber node named plus one; 0 = none (R212). -/
def FRM.node : Fld := ⟨2100, 0, 16, .hid, .val 0, .any, .special⟩
/-- Frame f, result: queue named plus one; 0 = none (R212). -/
def FRM.queue : Fld := ⟨2101, 0, 4, .hid, .val 0, .any, .special⟩
/-- Frame f, result: replicate group whose holds it counts in, plus one (R166). -/
def FRM.group : Fld := ⟨2102, 0, 17, .hid, .val 0, .any, .special⟩
/-- Frame f, result: punt reason (R475). -/
def FRM.reason : Fld := ⟨2103, 0, 8, .hid, .val 0, .any, .special⟩
/-- Frame f, result: policer plus one; 0 = none. -/
def FRM.pol : Fld := ⟨2104, 0, 17, .hid, .val 0, .any, .special⟩
/-- Frame f: bytes its policer was charged (R234). -/
def FRM.polc : Fld := ⟨2105, 0, 15, .hid, .val 0, .any, .special⟩
/-- Frame f: buckets the charge was taken from: bit 0 = committed, bit 1 = peak. -/
def FRM.polt : Fld := ⟨2106, 0, 2, .hid, .val 0, .any, .special⟩
/-- Frame f, result: telemetry profile plus one (R490). -/
def FRM.tel : Fld := ⟨2107, 0, 5, .hid, .val 0, .any, .special⟩
/-- Frame f: sampled (R490). -/
def FRM.sampled : Fld := ⟨2108, 0, 1, .hid, .val 0, .any, .special⟩
/-- Frame f, result: next hop whose rewrite applies plus one; 0 = none (R159). -/
def FRM.nh : Fld := ⟨2109, 0, 19, .hid, .val 0, .any, .special⟩
/-- Frame f, result: contents of that next hop (R167). -/
def FRM.nhdata : Fld := ⟨2110, 0, 128, .hid, .val 0, .any, .special⟩
/-- Frame f: demoted by its policer (R235). -/
def FRM.dmiss : Fld := ⟨2111, 0, 1, .hid, .val 0, .any, .special⟩
/-- Frame f, result: a kind-2 template is pushed (R250). -/
def FRM.kpush : Fld := ⟨2112, 0, 1, .hid, .val 0, .any, .special⟩
/-- Frame f, account of its cells: 0 = none, 1 = receive, 2 = best effort, 3 = reserve share, 4 = shared region, admitted overflow, 5 = shared region, punt. -/
def FRM.acct : Fld := ⟨2113, 0, 3, .hid, .val 0, .any, .special⟩
/-- Frame f: priority group (R194). -/
def FRM.pg : Fld := ⟨2114, 0, 3, .hid, .val 0, .any, .special⟩
/-- Frame f: port of the reserve share it is charged to. -/
def FRM.rport : Fld := ⟨2115, 0, 10, .hid, .val 0, .any, .special⟩
/-- Frame f: cells of its chain that have returned already (R186). -/
def FRM.freed : Fld := ⟨2116, 0, 13, .hid, .val 0, .any, .special⟩
/-- Frame f, result: first member of its replicate group as looked up (R167). -/
def FRM.gbase : Fld := ⟨2117, 0, 19, .hid, .val 0, .any, .special⟩
/-- Frame f, result: members of its replicate group as looked up (R167). -/
def FRM.gcount : Fld := ⟨2118, 0, 11, .hid, .val 0, .any, .special⟩
/-- Frame f: descriptors, replicator and punt that still hold it (R188). -/
def FRM.refs : Fld := ⟨2119, 0, 11, .hid, .val 0, .any, .special⟩
/-- Frame f: a cell word of it was found uncorrectable. -/
def FRM.ecc : Fld := ⟨2120, 0, 1, .hid, .val 0, .any, .special⟩
/-- Frame f: its stream counted it in rx_frames (R494). -/
def FRM.rxdone : Fld := ⟨2121, 0, 1, .hid, .val 0, .any, .special⟩
/-- Frame f, result: valid containers. -/
def FRM.valid : Fld := ⟨2122, 0, 48, .hid, .val 0, .any, .special⟩
/-- Frame f: its bytes from the destination address on, as received so far. -/
def LFRM.bytes : Lst := ⟨15⟩
/-- Frame f: its cell chain (R182). -/
def LFRM.cells : Lst := ⟨16⟩
/-- Frame f, result: the 48 containers after SET_FIELD (R131). -/
def LFRM.cont : Lst := ⟨17⟩
/-- Frame f, result: header records, each kind * 65536 + position (R116). -/
def LFRM.recs : Lst := ⟨18⟩
/-- Frame f, result: write-backs, each container * 2^20 + position * 4 + width (R134). -/
def LFRM.wb : Lst := ⟨19⟩
/-- Frame f, result: headers to pop, each kind + 16 * occurrence (R134). -/
def LFRM.pops : Lst := ⟨20⟩
/-- Frame f, result: DEC_TTL operations, each kind + 16 * occurrence (R134). -/
def LFRM.decs : Lst := ⟨21⟩
/-- Frame f: the slice programs it was dispatched on, kept at a commit until it is looked up (R137): 1, then field, instance and value in turn. -/
def LFRM.prog : Lst := ⟨22⟩
/-- Frame f: the packed templates of the program it was dispatched on, kept at a commit (R137). -/
def LFRM.tmpl : Lst := ⟨23⟩
/-- Frame f, result: pushes, each as pushCode packs it (R135). -/
def LFRM.push : Lst := ⟨24⟩
/-- Frame f, result: mirror copies, each as mirrorCode packs its session (R133). -/
def LFRM.mirror : Lst := ⟨25⟩
/-- Number the next descriptor will have. -/
def HDSC.next : Fld := ⟨2123, 0, 32, .hid, .val 0, .any, .special⟩
/-- Descriptor d: the device holds it. -/
def DSC.live : Fld := ⟨2124, 0, 1, .hid, .val 0, .any, .special⟩
/-- Descriptor d: its frame. -/
def DSC.frame : Fld := ⟨2125, 0, 32, .hid, .val 0, .any, .special⟩
/-- Descriptor d: its queue, as BUF_Q_SEL numbers it. -/
def DSC.code : Fld := ⟨2126, 0, 20, .hid, .val 0, .any, .special⟩
/-- Descriptor d: egress port. -/
def DSC.eg : Fld := ⟨2127, 0, 10, .hid, .val 0, .any, .special⟩
/-- Descriptor d: of an admitted frame. -/
def DSC.adm : Fld := ⟨2128, 0, 1, .hid, .val 0, .any, .special⟩
/-- Descriptor d: of the scheduled class. -/
def DSC.sched : Fld := ⟨2129, 0, 1, .hid, .val 0, .any, .special⟩
/-- Descriptor d: stream it counts in. -/
def DSC.stream : Fld := ⟨2130, 0, 16, .hid, .val 0, .any, .special⟩
/-- Descriptor d: flow_context its tag carries plus one; 0 = the stream (R260). -/
def DSC.flow : Fld := ⟨2131, 0, 17, .hid, .val 0, .any, .special⟩
/-- Descriptor d: fabric sequence number assigned at enqueue plus one; 0 = the received one (R255). -/
def DSC.seq : Fld := ⟨2132, 0, 17, .hid, .val 0, .any, .special⟩
/-- Descriptor d: marked errored (R97). -/
def DSC.err : Fld := ⟨2133, 0, 1, .hid, .val 0, .any, .special⟩
/-- Descriptor d: TB0 of its enqueue, ns. -/
def DSC.enq : Fld := ⟨2134, 0, 96, .hid, .val 0, .any, .special⟩
/-- Descriptor d: cut through (R92, R93). -/
def DSC.cut : Fld := ⟨2135, 0, 1, .hid, .val 0, .any, .special⟩
/-- Descriptor d: its window has closed over it (R228). -/
def DSC.carried : Fld := ⟨2136, 0, 1, .hid, .val 0, .any, .special⟩
/-- Gated copy: time of the gate time base of its port from which its first window counts (R228). -/
def DSC.enqg : Fld := ⟨2137, 0, 64, .hid, .val 0, .any, .special⟩
/-- Descriptor d: its first bit has left. -/
def DSC.started : Fld := ⟨2138, 0, 1, .hid, .val 0, .any, .special⟩
/-- Descriptor d: TB0 of its first bit, in units of 2^-32 ns. -/
def DSC.start : Fld := ⟨2139, 0, 96, .hid, .val 0, .any, .special⟩
/-- Descriptor d: mirror session plus one (R133). -/
def DSC.mirror : Fld := ⟨2140, 0, 5, .hid, .val 0, .any, .special⟩
/-- Descriptor d: bytes the mirror copy is cut to; 0 = whole. -/
def DSC.trunc : Fld := ⟨2141, 0, 14, .hid, .val 0, .any, .special⟩
/-- Descriptor d: a copy the replicator made (R188). -/
def DSC.copy : Fld := ⟨2142, 0, 1, .hid, .val 0, .any, .special⟩
/-- Descriptor d, a group copy: contents of its next hop. -/
def DSC.nhdata : Fld := ⟨2143, 0, 128, .hid, .val 0, .any, .special⟩
/-- Descriptor d, a group copy: a next hop applies. -/
def DSC.nh : Fld := ⟨2144, 0, 1, .hid, .val 0, .any, .special⟩
/-- Descriptor d: sent as received, with no rewrite (a mirror copy, an injected frame). -/
def DSC.raw : Fld := ⟨2145, 0, 1, .hid, .val 0, .any, .special⟩
/-- Descriptor d: cells charged to its queue at enqueue (R492). -/
def DSC.depth : Fld := ⟨2146, 0, 21, .hid, .val 0, .any, .special⟩
/-- Descriptor d: cells of its frame's chain it has read for transmit (R188). -/
def DSC.read : Fld := ⟨2147, 0, 13, .hid, .val 0, .any, .special⟩
/-- Descriptor d: bytes charged to its buckets and deficit at its start (R215). -/
def DSC.charged : Fld := ⟨2148, 0, 15, .hid, .val 0, .any, .special⟩
/-- Descriptor d: charged at its start: bit 0 = node max, 1 = service max, 2 = node min, 3 = service min bucket, 4 = deficit under its service node, 5 = deficit under its port. -/
def DSC.buckets : Fld := ⟨2149, 0, 6, .hid, .val 0, .any, .special⟩
/-- Descriptor d: cells it has charged to its queue. -/
def DSC.cells : Fld := ⟨2150, 0, 8, .hid, .val 0, .any, .special⟩
/-- Descriptor d: will end with a corrupted FCS. -/
def DSC.corrupt : Fld := ⟨2151, 0, 1, .hid, .val 0, .any, .special⟩
/-- Descriptor d: a tag was sent with it. -/
def DSC.ntag : Fld := ⟨2152, 0, 1, .hid, .val 0, .any, .special⟩
/-- Descriptor d: the tag built at its start (R250). -/
def LDSC.tag : Lst := ⟨26⟩
/-- Descriptor d, a group copy: template push of its next hop. -/
def LDSC.push : Lst := ⟨27⟩
/-- Slice: reserved head-buffer entries in use (R85). -/
def HSLC.rsv : Fld := ⟨2153, 0, 9, .hid, .val 0, .any, .special⟩
/-- Slice: shared head-buffer entries in use (R85). -/
def HSLC.shr : Fld := ⟨2154, 0, 10, .hid, .val 0, .any, .special⟩
/-- Slice * 64 + slot: pointer over E0 to E7 (R87). -/
def HSLC.eptr : Fld := ⟨2155, 0, 3, .hid, .val 0, .any, .special⟩
/-- Slice: round-robin slot of early-marked dispatch (R86). -/
def HSLC.rr : Fld := ⟨2156, 0, 6, .hid, .val 0, .any, .special⟩
/-- Slice: round-robin slot of other dispatch (R86). -/
def HSLC.rr2 : Fld := ⟨2157, 0, 6, .hid, .val 0, .any, .special⟩
/-- Slice: turns the slot at rr2 has had in this round (R86). -/
def HSLC.turn : Fld := ⟨2158, 0, 4, .hid, .val 0, .any, .special⟩
/-- Slice * 8 + engine: the return test of R106 runs. -/
def HSLC.rtest : Fld := ⟨2159, 0, 1, .hid, .val 0, .any, .special⟩
/-- Slice * 64 + slot: skipped numbers whose result is still out (R91). -/
def LSLC.skipped : Lst := ⟨28⟩
/-- Slice: frames that hold a head-buffer entry, in arrival order. -/
def LSLC.heads : Lst := ⟨29⟩
/-- Rule slice * 65536 + index: its valid bit, 20 value words, 20 mask words and 16 action words (R126). -/
def LRULE.rule : Lst := ⟨30⟩
/-- Rule slice * 65536 + index: its value or mask memory has bad parity (R139). -/
def HRULE.bad : Fld := ⟨2160, 0, 1, .hid, .val 0, .any, .special⟩
/-- Rule slice * 65536 + index: treated as not valid until rewritten (R139). -/
def HRULE.inval : Fld := ⟨2161, 0, 1, .hid, .val 0, .any, .special⟩
/-- Slice: result code a running rule command will publish (R140). -/
def HRULE.res : Fld := ⟨2162, 0, 4, .hid, .val 0, .any, .special⟩
/-- Slice: valid bit a running READ will publish. -/
def HRULE.val : Fld := ⟨2163, 0, 1, .hid, .val 0, .any, .special⟩
/-- Cell c: 0 = free, 1 = in use, 2 = quarantine, 3 = retired (R201). -/
def CELL.state : Fld := ⟨2164, 0, 2, .hid, .val 0, .any, .special⟩
/-- Cell c: touched bit (R201). -/
def CELL.touched : Fld := ⟨2165, 0, 1, .hid, .val 0, .any, .special⟩
/-- Cell c: unowned in the last sweep (R201). -/
def CELL.unowned : Fld := ⟨2166, 0, 1, .hid, .val 0, .any, .special⟩
/-- Cell c: an uncorrectable error was found in it (R192). -/
def CELL.bad : Fld := ⟨2167, 0, 1, .hid, .val 0, .any, .special⟩
/-- Cell c: the account its tag names, as FRM.acct. -/
def CELL.acct : Fld := ⟨2168, 0, 3, .hid, .val 0, .any, .special⟩
/-- Cell c: port * 8 + group of the ingress account its tag names. -/
def CELL.inacc : Fld := ⟨2169, 0, 13, .hid, .val 0, .any, .special⟩
/-- Cell c: its words known to hold an uncorrectable error (R191). -/
def CELL.badw : Fld := ⟨2170, 0, 4, .hid, .val 0, .any, .special⟩
/-- Cell c: port of the reserve share its tag's account 3 names. -/
def CELL.eg : Fld := ⟨2171, 0, 10, .hid, .val 0, .any, .special⟩
/-- Cell c: copies its tag names, each (queue code * 1024 + egress port) * 4 + kind of charge (R199). -/
def LCELL.qs : Lst := ⟨31⟩
/-- Cells charged to the receive region (R196). -/
def HBUF.rx_used : Fld := ⟨2172, 0, 21, .hid, .val 0, .any, .special⟩
/-- Cells charged to the shared region (R195). -/
def HBUF.shared : Fld := ⟨2173, 0, 21, .hid, .val 0, .any, .special⟩
/-- Queue code: cells charged to it (R197). -/
def HBUF.q : Fld := ⟨2174, 0, 21, .hid, .val 0, .any, .special⟩
/-- Port * 8 + group: cells charged to the ingress account (R199). -/
def HBUF.inacc : Fld := ⟨2175, 0, 21, .hid, .val 0, .any, .special⟩
/-- A Harvest sweep is in progress (R201). -/
def HBUF.harvest : Fld := ⟨2176, 0, 1, .hid, .val 0, .any, .special⟩
/-- A whole sweep has completed since Harvest was last enabled (R202). -/
def HBUF.swept : Fld := ⟨2177, 0, 1, .hid, .val 0, .any, .special⟩
/-- Port: link hold timer (R203). -/
def HBUF.hold : Fld := ⟨2178, 0, 97, .hid, .val 0, .any, .special⟩
/-- Port: TB0 at which the hold began plus one. -/
def HBUF.hold0 : Fld := ⟨2179, 0, 97, .hid, .val 0, .any, .special⟩
/-- Port: stale drops during the hold (R209). -/
def HBUF.hold_stale : Fld := ⟨2180, 0, 32, .hid, .val 0, .any, .special⟩
/-- Priority group: multicast queue the replicator served last (R188). -/
def HBUF.mcrr : Fld := ⟨2181, 0, 8, .hid, .val 0, .any, .special⟩
/-- Multicast queue: copies of its head the replicator has made or refused. -/
def HBUF.mcpos : Fld := ⟨2182, 0, 11, .hid, .val 0, .any, .special⟩
/-- Queue code: descriptors, head first. -/
def LBUF.q : Lst := ⟨32⟩
/-- Cells of frames the device can no longer reach (R193). -/
def LBUF.cells_lost : Lst := ⟨33⟩
/-- Stream n: class of its request, 1 = scheduled, 2 = guaranteed (R19). -/
def STM.class_ : Fld := ⟨2183, 0, 2, .hid, .val 0, .any, .special⟩
/-- Stream n: frer (R19). -/
def STM.frer : Fld := ⟨2184, 0, 1, .hid, .val 0, .any, .special⟩
/-- Stream n: time base (R19). -/
def STM.tb : Fld := ⟨2185, 0, 3, .hid, .val 0, .any, .special⟩
/-- Stream n: gated queue (R19). -/
def STM.gq : Fld := ⟨2186, 0, 2, .hid, .val 0, .any, .special⟩
/-- Stream n: max_frame (R19). -/
def STM.maxf : Fld := ⟨2187, 0, 15, .hid, .val 0, .any, .special⟩
/-- Stream n: min_frame (R19). -/
def STM.minf : Fld := ⟨2188, 0, 15, .hid, .val 0, .any, .special⟩
/-- Stream n: rate, kb/s (R19). -/
def STM.rate : Fld := ⟨2189, 0, 32, .hid, .val 0, .any, .special⟩
/-- Stream n: burst (R19). -/
def STM.burst : Fld := ⟨2190, 0, 24, .hid, .val 0, .any, .special⟩
/-- Stream n: this device holds hop 0 of its request (R20). -/
def STM.first : Fld := ⟨2191, 0, 1, .hid, .val 0, .any, .special⟩
/-- Stream n: the spray pointer, the member index used last plus one (R254). -/
def STM.spray : Fld := ⟨2192, 0, 3, .hid, .val 0, .any, .special⟩
/-- Hop h of stream n (n * 32 + h): it is in the sums of R22. -/
def HOP.live : Fld := ⟨2193, 0, 1, .hid, .val 0, .any, .special⟩
/-- Hop: ingress port (R19). -/
def HOP.in_ : Fld := ⟨2194, 0, 10, .hid, .val 0, .any, .special⟩
/-- Hop: egress port (R19). -/
def HOP.eg : Fld := ⟨2195, 0, 10, .hid, .val 0, .any, .special⟩
/-- Hop: subscriber node (R19). -/
def HOP.node : Fld := ⟨2196, 0, 15, .hid, .val 0, .any, .special⟩
/-- Hop: queue 0 or 1 (R19). -/
def HOP.queue : Fld := ⟨2197, 0, 1, .hid, .val 0, .any, .special⟩
/-- Hop: b_in, the burst that reaches it (R29). -/
def HOP.bin : Fld := ⟨2198, 0, 40, .hid, .val 0, .any, .special⟩
/-- Hop: phase its gate window opens at, ns (R32). -/
def HOP.win : Fld := ⟨2199, 0, 64, .hid, .val 0, .any, .special⟩
/-- Hop: its drain span (R43). -/
def HOP.span : Fld := ⟨2200, 0, 97, .hid, .val 0, .any, .special⟩
/-- Stream n: its hops on this device, in hop order. -/
def LADM.hops : Lst := ⟨34⟩
/-- Exception episode (kind * 2^32 + port, slice, frame or time base): in progress (R37). -/
def EPI.live : Fld := ⟨2201, 0, 1, .hid, .val 0, .any, .special⟩
/-- Exception episode: TB0 at its start, ns. -/
def EPI.start : Fld := ⟨2202, 0, 96, .hid, .val 0, .any, .special⟩
/-- Exception episode: fault-loss increments of its streams. -/
def EPI.loss : Fld := ⟨2203, 0, 32, .hid, .val 0, .any, .special⟩
/-- Exception episode: streams it affects. -/
def LEPI.streams : Lst := ⟨35⟩
/-- Policer k: committed tokens, two's complement, in units of 1/8,000,000 byte (R232). -/
def HPOL.c : Fld := ⟨2204, 0, 64, .hid, .val 0, .any, .special⟩
/-- Policer k: peak tokens, in the same form. -/
def HPOL.p : Fld := ⟨2205, 0, 64, .hid, .val 0, .any, .special⟩
/-- Policer k: TB0 of its last refill, ns. -/
def HPOL.last : Fld := ⟨2206, 0, 96, .hid, .val 0, .any, .special⟩
/-- Context c: TB0 of its last arrival plus one (R256). -/
def RSQ.last : Fld := ⟨2207, 0, 97, .hid, .val 0, .any, .special⟩
/-- Context c: the last 1,024 numbers before next, newest last, each number * 2 + released (R256). -/
def LRSQ.hist : Lst := ⟨36⟩
/-- Context c: frames held, each number * 2^32 + frame (R256). -/
def LRSQ.slots : Lst := ⟨37⟩
/-- Frame f: TB0 at which a context took it, plus one. -/
def RSQ.since : Fld := ⟨2208, 0, 97, .hid, .val 0, .any, .special⟩
/-- Bundle b: its mask has been empty since BUNDLE_EMPTY was last raised (R254). -/
def HFAB.empty : Fld := ⟨2209, 0, 1, .hid, .val 0, .any, .special⟩
/-- Port: the frame it is receiving plus one; 0 = none (R98). -/
def HPRT.cur : Fld := ⟨2210, 0, 33, .hid, .val 0, .any, .special⟩
/-- Port: in a takeover gap (R363). -/
def HPRT.gap : Fld := ⟨2211, 0, 1, .hid, .val 0, .any, .special⟩
/-- Frame f: its Ibyon tag as received (R248). -/
def LFRM.rawtag : Lst := ⟨38⟩
/-- Bucket (kind * 32768 + node; kinds 0 node min, 1 node max, 2 service min, 3 service max): tokens, two's complement, units of 1/256 byte (R220). -/
def BKT.tokens : Fld := ⟨2212, 0, 40, .hid, .val 0, .any, .special⟩
/-- Bucket: what the last refill left below 1/256 byte, in units of 1/(256 * 31250) byte (R221). -/
def BKT.rem : Fld := ⟨2213, 0, 16, .hid, .val 0, .any, .special⟩
/-- Bucket: t_last, ns (R221). -/
def BKT.last : Fld := ⟨2214, 0, 96, .hid, .val 0, .any, .special⟩
/-- Bucket: rate in force, kb/s (R222). -/
def BKT.rate : Fld := ⟨2215, 0, 32, .hid, .val 0, .any, .special⟩
/-- Bucket: burst in force (R222). -/
def BKT.burst : Fld := ⟨2216, 0, 24, .hid, .val 0, .any, .special⟩
/-- Bucket: 0 = on no wheel, 1 = fine wheel, 2 = coarse wheel, 3 = coarse wheel, recheck (R223). -/
def BKT.place : Fld := ⟨2217, 0, 2, .hid, .val 0, .any, .special⟩
/-- Bucket: due time of its wheel entry, ns (R223). -/
def BKT.due : Fld := ⟨2218, 0, 97, .hid, .val 0, .any, .special⟩
/-- Pips the wheels have processed (R223). -/
def HSCH.pip : Fld := ⟨2219, 0, 96, .hid, .val 0, .any, .special⟩
/-- Fine wheel slot: buckets in it (R223). -/
def LSCH.fine : Lst := ⟨39⟩
/-- Coarse wheel slot: buckets in it (R223). -/
def LSCH.coarse : Lst := ⟨40⟩
/-- Due entries that wait for a later pip, each bucket * 2^64 + pip it fell due (R224). -/
def LSCH.late : Lst := ⟨41⟩
/-- Port: admitted node served last, round-robin (R216). -/
def HSCH.rra : Fld := ⟨2220, 0, 15, .hid, .val 0, .any, .special⟩
/-- Port: subscriber node served last in the minimum-rate pass (R216). -/
def HSCH.rrs : Fld := ⟨2221, 0, 15, .hid, .val 0, .any, .special⟩
/-- Port: service node served last in the minimum-rate pass (R216). -/
def HSCH.rrv : Fld := ⟨2222, 0, 12, .hid, .val 0, .any, .special⟩
/-- Subscriber node: queue its DWRR pointer stands at (R214). -/
def HSCH.ptr : Fld := ⟨2223, 0, 3, .hid, .val 2, .any, .special⟩
/-- Queue 8n + q of a subscriber node: deficit, two's complement bytes (R214). -/
def HSCH.dfc : Fld := ⟨2224, 0, 32, .hid, .val 0, .any, .special⟩
/-- Service node: child its DWRR pointer stands at (R216). -/
def HSCH.cptr : Fld := ⟨2225, 0, 15, .hid, .val 0, .any, .special⟩
/-- Subscriber node: deficit under its service node (R216). -/
def HSCH.cdef : Fld := ⟨2226, 0, 32, .hid, .val 0, .any, .special⟩
/-- Port: service node its DWRR pointer stands at (R216). -/
def HSCH.sptr : Fld := ⟨2227, 0, 12, .hid, .val 0, .any, .special⟩
/-- Service node: deficit under its port (R216). -/
def HSCH.sdef : Fld := ⟨2228, 0, 32, .hid, .val 0, .any, .special⟩
/-- Port: descriptor selected and not yet started plus one (R216). -/
def HSCH.sel : Fld := ⟨2229, 0, 33, .hid, .val 0, .any, .special⟩
/-- Port: gate time at which the window opens that a frame has waited for since its guard test failed, plus one (R216). -/
def HSCH.idle : Fld := ⟨2230, 0, 97, .hid, .val 0, .any, .special⟩
/-- Port: descriptor being sent plus one. -/
def HSCH.fly : Fld := ⟨2231, 0, 33, .hid, .val 0, .any, .special⟩
/-- Port, gate set in force: gate_enable (R229). -/
def GATE.enable : Fld := ⟨2232, 0, 1, .hid, .val 0, .any, .special⟩
/-- Port, gate set in force: gate_tb. -/
def GATE.tb : Fld := ⟨2233, 0, 3, .hid, .val 0, .any, .special⟩
/-- Port, gate set in force: active_list. -/
def GATE.list : Fld := ⟨2234, 0, 1, .hid, .val 0, .any, .special⟩
/-- Port, gate set in force: gcl_len. -/
def GATE.len : Fld := ⟨2235, 0, 11, .hid, .val 1, .any, .special⟩
/-- Port, gate set in force: gate_cycle. -/
def GATE.cycle : Fld := ⟨2236, 0, 30, .hid, .val 1000000, .any, .special⟩
/-- Port, gate set in force: gate_base. -/
def GATE.base : Fld := ⟨2237, 0, 64, .hid, .val 0, .any, .special⟩
/-- Port: gate_tb time of the commit the pending set waits behind. -/
def GATE.since : Fld := ⟨2238, 0, 97, .hid, .val 0, .any, .special⟩
/-- Queue code: last depth (R240). -/
def SMP.last_d : Fld := ⟨2239, 0, 21, .hid, .val 0, .any, .special⟩
/-- Queue code: minimum depth. -/
def SMP.min_d : Fld := ⟨2240, 0, 21, .hid, .val 0, .any, .special⟩
/-- Queue code: maximum depth. -/
def SMP.max_d : Fld := ⟨2241, 0, 21, .hid, .val 0, .any, .special⟩
/-- Queue code: last sojourn, ns (R240). -/
def SMP.last_s : Fld := ⟨2242, 0, 32, .hid, .val 0, .any, .special⟩
/-- Queue code: minimum sojourn. -/
def SMP.min_s : Fld := ⟨2243, 0, 32, .hid, .val 0, .any, .special⟩
/-- Queue code: maximum sojourn. -/
def SMP.max_s : Fld := ⟨2244, 0, 32, .hid, .val 0, .any, .special⟩
/-- Queue code: a sample has been taken since its minimum and maximum were cleared. -/
def SMP.any : Fld := ⟨2245, 0, 1, .hid, .val 0, .any, .special⟩
/-- Round r: number of its last raised boundary plus one (R264). -/
def HRND.last : Fld := ⟨2246, 0, 96, .hid, .val 0, .any, .special⟩
/-- Round r: number k of the next boundary plus one; 0 = the first at or after now (R264). -/
def HRND.next : Fld := ⟨2247, 0, 96, .hid, .val 0, .any, .special⟩
/-- Time base b: TB0 of its last step plus one (R302). -/
def HTB.stept : Fld := ⟨2248, 0, 97, .hid, .val 0, .any, .special⟩
/-- Time base b: its count before the first step of that cycle (R302). -/
def HTB.stepw : Fld := ⟨2249, 0, 96, .hid, .val 0, .any, .special⟩
/-- Time base b: it has been locked since reset (R294). -/
def HTB.ever : Fld := ⟨2250, 0, 1, .hid, .val 0, .any, .special⟩
/-- Time base b: integ of R293, two's complement, units of 2^-64 ppb. -/
def HTB.integ : Fld := ⟨2251, 0, 98, .hid, .val 0, .any, .special⟩
/-- Time base b: good of R293. -/
def HTB.good : Fld := ⟨2252, 0, 4, .hid, .val 0, .any, .special⟩
/-- Time base b: bad of R293. -/
def HTB.bad : Fld := ⟨2253, 0, 2, .hid, .val 0, .any, .special⟩
/-- Time base b: TB0 of its last offset measurement plus one (R293). -/
def HTB.last : Fld := ⟨2254, 0, 97, .hid, .val 0, .any, .special⟩
/-- Time base b: its last offset, two's complement, units of 2^-32 ns (R298). -/
def HTB.prev : Fld := ⟨2255, 0, 98, .hid, .val 0, .any, .special⟩
/-- Time base b: TB0 since its own instance has been locked, plus one, while src is 1 (R299). -/
def HTB.revert : Fld := ⟨2256, 0, 97, .hid, .val 0, .any, .special⟩
/-- Time base b: mean path delay of the delay request-response profile, units of 2^-32 ns, plus one; 0 = none. -/
def HTB.e2e : Fld := ⟨2257, 0, 64, .hid, .val 0, .any, .special⟩
/-- Time base b: origin of the last Sync, corrected, units of 2^-32 ns. -/
def HTB.t1 : Fld := ⟨2258, 0, 97, .hid, .val 0, .any, .special⟩
/-- Time base b: arrival of the last Sync, units of 2^-32 ns. -/
def HTB.t2 : Fld := ⟨2259, 0, 97, .hid, .val 0, .any, .special⟩
/-- Time base b: departure of its Delay_Req, units of 2^-32 ns, plus one; 0 = none outstanding. -/
def HTB.t3 : Fld := ⟨2260, 0, 97, .hid, .val 0, .any, .special⟩
/-- Time base b: rate adjustments in force while locked, each TB0 ns * 2^33 + adjustment, oldest first (R294). -/
def LTB.rates : Lst := ⟨42⟩
/-- Time base b * 1024 + port: path trace of the Announce held for the port (R289). -/
def LTB.path : Lst := ⟨43⟩
/-- Time base b * 1024 + port: the Announce held for the port (R289). -/
def LTB.ann : Lst := ⟨44⟩
/-- B * 1024 + port: a two-step Sync waits for its Follow_Up. -/
def HSY.wait : Fld := ⟨2261, 0, 1, .hid, .val 0, .any, .special⟩
/-- B * 1024 + port: sequence number of that Sync. -/
def HSY.seq : Fld := ⟨2262, 0, 16, .hid, .val 0, .any, .special⟩
/-- B * 1024 + port: its arrival, units of 2^-32 ns. -/
def HSY.t2 : Fld := ⟨2263, 0, 97, .hid, .val 0, .any, .special⟩
/-- B * 1024 + port: its correctionField, two's complement, units of 2^-16 ns. -/
def HSY.corr : Fld := ⟨2264, 0, 96, .hid, .val 0, .any, .special⟩
/-- B * 1024 + port: sequence number of the next Sync. -/
def HSY.txs : Fld := ⟨2265, 0, 16, .hid, .val 0, .any, .special⟩
/-- B * 1024 + port: sequence number of the next Announce. -/
def HSY.txa : Fld := ⟨2266, 0, 16, .hid, .val 0, .any, .special⟩
/-- B * 1024 + port: sequence number of the next Delay_Req. -/
def HSY.txd : Fld := ⟨2267, 0, 16, .hid, .val 0, .any, .special⟩
/-- B * 1024 + port: Sync interval a Signaling message asked for, signed log2 s; -128 = none (R289). -/
def HSY.isync : Fld := ⟨2268, 0, 8, .hid, .val 128, .any, .special⟩
/-- B * 1024 + port: Announce interval asked for. -/
def HSY.iann : Fld := ⟨2269, 0, 8, .hid, .val 128, .any, .special⟩
/-- Port: Pdelay_Req interval asked for. -/
def HPD.ipd : Fld := ⟨2270, 0, 8, .hid, .val 128, .any, .special⟩
/-- Port: a Pdelay_Req is outstanding (R284). -/
def HPD.wait : Fld := ⟨2271, 0, 1, .hid, .val 0, .any, .special⟩
/-- Port: its sequence number. -/
def HPD.seq : Fld := ⟨2272, 0, 16, .hid, .val 0, .any, .special⟩
/-- Port: TB0 at its departure, units of 2^-32 ns. -/
def HPD.t1 : Fld := ⟨2273, 0, 97, .hid, .val 0, .any, .special⟩
/-- Port: its Pdelay_Resp has arrived. -/
def HPD.got : Fld := ⟨2274, 0, 1, .hid, .val 0, .any, .special⟩
/-- Port: the responder's arrival time, units of 2^-32 ns. -/
def HPD.t2 : Fld := ⟨2275, 0, 97, .hid, .val 0, .any, .special⟩
/-- Port: TB0 at the response's arrival, units of 2^-32 ns. -/
def HPD.t4 : Fld := ⟨2276, 0, 97, .hid, .val 0, .any, .special⟩
/-- Port: correctionField of the response, two's complement, units of 2^-16 ns. -/
def HPD.corr : Fld := ⟨2277, 0, 96, .hid, .val 0, .any, .special⟩
/-- Port: t3 of the measurement before, plus one. -/
def HPD.t3p : Fld := ⟨2278, 0, 97, .hid, .val 0, .any, .special⟩
/-- Port: t4 of the measurement before. -/
def HPD.t4p : Fld := ⟨2279, 0, 97, .hid, .val 0, .any, .special⟩
/-- Port: neighbour rate ratio - 1, two's complement, units of 2^-32. -/
def HPD.ratio : Fld := ⟨2280, 0, 40, .hid, .val 0, .any, .special⟩
/-- Port: Pdelay_Req unanswered in a row (R284). -/
def HPD.lost : Fld := ⟨2281, 0, 2, .hid, .val 0, .any, .special⟩
/-- Port: figure admission last read plus one, ns (R285). -/
def HPD.used : Fld := ⟨2282, 0, 33, .hid, .val 0, .any, .special⟩
/-- Port: LINK_DELAY_CHANGE has been raised for the present excess (R285). -/
def HPD.told : Fld := ⟨2283, 0, 1, .hid, .val 0, .any, .special⟩
/-- Port: the peer's tx_ext plus one, units of 10 ps (R287). -/
def HPD.ptx : Fld := ⟨2284, 0, 16, .hid, .val 0, .any, .special⟩
/-- Port: the peer's rx_ext plus one. -/
def HPD.prx : Fld := ⟨2285, 0, 16, .hid, .val 0, .any, .special⟩
/-- Port: the last 8 accepted measurements, units of 2^-32 ns (R284). -/
def LPD.win : Lst := ⟨45⟩
/-- Port: PTP messages that wait, each six numbers: type, time base, sequence number and three more (R291). -/
def LTIM.tx : Lst := ⟨46⟩
/-- Port: fixed_delay of the peer's last capability frame, ps (R59). -/
def HPRT.pfix : Fld := ⟨2286, 0, 32, .hid, .val 0, .any, .special⟩
/-- TOUT pin: start in force (R300). -/
def HTOUT.start : Fld := ⟨2287, 0, 64, .hid, .val 0, .any, .special⟩
/-- TOUT pin: period in force. -/
def HTOUT.period : Fld := ⟨2288, 0, 32, .hid, .val 1000000000, .any, .special⟩
/-- TOUT pin: width in force. -/
def HTOUT.width : Fld := ⟨2289, 0, 24, .hid, .val 100, .any, .special⟩
/-- TOUT pin: tout_delay in force. -/
def HTOUT.delay : Fld := ⟨2290, 0, 16, .hid, .val 0, .any, .special⟩
/-- TOUT pin: time of its next pulse plus one; 0 = none. -/
def HTOUT.next : Fld := ⟨2291, 0, 65, .hid, .val 0, .any, .special⟩
/-- TOUT pin: time of its last pulse plus one; 0 = none. -/
def HTOUT.last : Fld := ⟨2292, 0, 65, .hid, .val 0, .any, .special⟩
/-- TOUT pin: TB0 at which the pulse in progress ends plus one. -/
def HTOUT.busy : Fld := ⟨2293, 0, 97, .hid, .val 0, .any, .special⟩
/-- TIN pin: TB0 of its last captured edge, plus one (R302). -/
def HTIN.last : Fld := ⟨2294, 0, 97, .hid, .val 0, .any, .special⟩
/-- TIN pin: captures held, each count in units of 2^-32 ns * 2 + edge (R302). -/
def LTIM.tin : Lst := ⟨47⟩
/-- Port: the first fault seen of the present run of faults (R72). -/
def HPRT.first : Fld := ⟨2295, 0, 3, .hid, .val 0, .any, .special⟩
/-- Port: down_debounce timer (R72). -/
def HPRT.debounce : Fld := ⟨2296, 0, 97, .hid, .val 0, .any, .special⟩
/-- Port: up_debounce timer (R60). -/
def HPRT.updeb : Fld := ⟨2297, 0, 97, .hid, .val 0, .any, .special⟩
/-- Port: the 100 ms after a failed bring-up step (R60). -/
def HPRT.retry : Fld := ⟨2298, 0, 97, .hid, .val 0, .any, .special⟩
/-- Port: the 1 ms a wake may take (R68). -/
def HPRT.wake : Fld := ⟨2299, 0, 97, .hid, .val 0, .any, .special⟩
/-- Port: the wake in progress has been counted (R68). -/
def HPRT.wcounted : Fld := ⟨2300, 0, 1, .hid, .val 0, .any, .special⟩
/-- Port: the 3.5 s timer of the capability exchange (R63). -/
def HPRT.lost : Fld := ⟨2301, 0, 97, .hid, .val 0, .any, .special⟩
/-- Port: TB0 at which its last capability frame was sent or fell due, plus one; 0 = the exchange does not run (R61). -/
def HPRT.captx : Fld := ⟨2302, 0, 97, .hid, .val 0, .any, .special⟩
/-- Port: a capability frame waits to be sent (R61, R219). -/
def HPRT.cap : Fld := ⟨2303, 0, 1, .hid, .val 0, .any, .special⟩
/-- Port: seq of its next capability frame (R61). -/
def HPRT.capseq : Fld := ⟨2304, 0, 32, .hid, .val 0, .any, .special⟩
/-- Port: it holds a peer record (R63). -/
def HPRT.rec : Fld := ⟨2305, 0, 1, .hid, .val 0, .any, .special⟩
/-- Port: TB0 from which quiet_idle counts, plus one (R66). -/
def HPRT.idle0 : Fld := ⟨2306, 0, 97, .hid, .val 0, .any, .special⟩
/-- Port: the 20 us it waits for an answer to its QUIET_REQ (R69). -/
def HPRT.reqd : Fld := ⟨2307, 0, 97, .hid, .val 0, .any, .special⟩
/-- Port: the 2 us after agreement (R67). -/
def HPRT.quiet2 : Fld := ⟨2308, 0, 97, .hid, .val 0, .any, .special⟩
/-- Port: a wake cause has come before the transmitter was turned off (R68). -/
def HPRT.wakeup : Fld := ⟨2309, 0, 1, .hid, .val 0, .any, .special⟩
/-- Port: the duration of a QUIET_HOLD received (R70). -/
def HPRT.hold : Fld := ⟨2310, 0, 97, .hid, .val 0, .any, .special⟩
/-- Port: AN_MISMATCH has been raised in this episode (R53). -/
def HPRT.mism : Fld := ⟨2311, 0, 1, .hid, .val 0, .any, .special⟩
/-- Port: it receives local fault sequences (R71). -/
def HPRT.lfrx : Fld := ⟨2312, 0, 1, .hid, .val 0, .any, .special⟩
/-- Port: remote fault sequences are received (R71). -/
def HPRT.rfrx : Fld := ⟨2313, 0, 1, .hid, .val 0, .any, .special⟩
/-- Port: reason of a QUIET_NAK that waits for the link to forward again; 0 = none (R66, R67). -/
def HPRT.nak : Fld := ⟨2314, 0, 3, .hid, .val 0, .any, .special⟩
/-- Port: it sends remote fault (R71). -/
def HPRT.rf : Fld := ⟨2315, 0, 1, .hid, .val 0, .any, .special⟩
/-- Port: link ordered sets acted on in the last 10 us, each its type, payload and TB0 (R65). -/
def LPRT.os : Lst := ⟨48⟩
/-- Port: the eight time bases at the first bit of the frame it is receiving, while the MAC keeps it (R281). -/
def LPRT.stamps : Lst := ⟨49⟩
/-- Port: bytes so far of a frame that does not enter the slice (R54, R62). -/
def LPRT.mac : Lst := ⟨50⟩
/-- Port: a frame it is receiving that does not enter the slice, as macKeep codes it; 0 = none (R54, R62). -/
def HPRT.mac : Fld := ⟨2316, 0, 4, .hid, .val 0, .any, .special⟩
/-- Port: TB0 of its link downs that still count toward a flap hold (R75). -/
def LPRT.flaps : Lst := ⟨51⟩
/-- Port: power-group messages that wait until it may send frames, each its length and its numbers (R268). -/
def LPRT.pgq : Lst := ⟨52⟩
/-- Port: link-local messages that wait for the link to forward, each its length and its numbers (R68). -/
def LPRT.llq : Lst := ⟨53⟩
/-- Lane: TB0 of its last tap step plus one (R57). -/
def HLN.step : Fld := ⟨2317, 0, 97, .hid, .val 0, .any, .special⟩
/-- Lane: its loss estimate exceeds the figure of R55 (R58). -/
def HLN.over : Fld := ⟨2318, 0, 1, .hid, .val 0, .any, .special⟩
/-- Lane: tap steps taken less steps reversed (R57). -/
def HLN.taps : Fld := ⟨2319, 0, 16, .hid, .val 0, .any, .special⟩
/-- Lane: steps whose 10 ms check is due, each its time and the symbol-error rate before it (R57). -/
def LLN.steps : Lst := ⟨54⟩
/-- Octet: the 10 ms ResetL pulse (R77). -/
def HOCT.pulse : Fld := ⟨2320, 0, 97, .hid, .val 0, .any, .special⟩
/-- Octet: TB0 of its last presence poll, plus one (R77). -/
def HOCT.poll : Fld := ⟨2321, 0, 97, .hid, .val 0, .any, .special⟩
/-- Octet: TB0 of its last monitor poll, plus one (R77). -/
def HOCT.mon : Fld := ⟨2322, 0, 97, .hid, .val 0, .any, .special⟩
/-- Octet: a module was left in low power because force_lp was 1. -/
def HOCT.held : Fld := ⟨2323, 0, 1, .hid, .val 0, .any, .special⟩
/-- Stream n: port its request came by plus one; 0 = submitted on this device (R34). -/
def STM.up : Fld := ⟨2324, 0, 11, .hid, .val 0, .any, .special⟩
/-- Stream n: port its request was forwarded by plus one; 0 = this is the last device (R34). -/
def STM.down : Fld := ⟨2325, 0, 11, .hid, .val 0, .any, .special⟩
/-- Stream n: gate cycle it was admitted with (R32). -/
def STM.cycle : Fld := ⟨2326, 0, 30, .hid, .val 0, .any, .special⟩
/-- Stream n: index of its first hop on this device. -/
def STM.h0 : Fld := ⟨2327, 0, 6, .hid, .val 0, .any, .special⟩
/-- Stream n: the wait for HOP_COMMIT or HOP_RELEASE (R34). -/
def HADM.wait : Fld := ⟨2328, 0, 97, .hid, .val 0, .any, .special⟩
/-- Port: the hop budget a removed bundle member's reservations stay (R252). -/
def HADM.extra : Fld := ⟨2329, 0, 97, .hid, .val 0, .any, .special⟩
/-- Stream n: its request, as packReq packs it. -/
def LADM.req : Lst := ⟨55⟩
/-- Stream n: where its result goes: 0 registers; 1 management engine, with path, port, session, counter, request_id and type; 2 image, with the request; 3 peer, with its port. -/
def LADM.src : Lst := ⟨56⟩
/-- Requests held while the engine is stopped, each its length and its job (R44). -/
def LADM.held : Lst := ⟨57⟩
/-- Hop: windows it holds, each a port, its opening phase and its length (R32, R45). -/
def LHOP.wins : Lst := ⟨58⟩
/-- Hop: egress ports removed from its bundle whose reservations still stand (R252). -/
def LHOP.extra : Lst := ⟨59⟩
/-- Hop: ingress ports removed from its bundle whose reservations still stand (R252). -/
def LHOP.extrai : Lst := ⟨60⟩
/-- Port: TB0 at which its last hold ended by link up, plus one (R204). -/
def HBUF.resumed : Fld := ⟨2330, 0, 97, .hid, .val 0, .any, .special⟩
/-- Port: the 1 us between stale checks (R203). -/
def HBUF.stale : Fld := ⟨2331, 0, 97, .hid, .val 0, .any, .special⟩
/-- Port: TB0 at which its selected descriptor was selected, in units of 2^-32 ns (R93). -/
def HSCH.selt : Fld := ⟨2332, 0, 97, .hid, .val 0, .any, .special⟩
/-- Queue code: its minimum and maximum start again from its next sample (R240). -/
def SMP.clr : Fld := ⟨2333, 0, 1, .hid, .val 0, .any, .special⟩
/-- A sweep of every queue has been taken (R239). -/
def HSMP.all : Fld := ⟨2334, 0, 1, .hid, .val 0, .any, .special⟩
/-- TB0 of the last sampler sweep plus one (R239). -/
def HSMP.last : Fld := ⟨2335, 0, 97, .hid, .val 0, .any, .special⟩
/-- Image stream request k: the code of its last result (R428). -/
def LADM.img : Lst := ⟨61⟩
/-- Origin: last origin_seq acted on plus one; 0 = none (R268). -/
def PGM.seq : Fld := ⟨2336, 0, 17, .hid, .val 0, .any, .special⟩
/-- Origin: it is a member (R268). -/
def PGM.member : Fld := ⟨2337, 0, 1, .hid, .val 0, .any, .special⟩
/-- Origin: TB0 of its last REPORT plus one. -/
def PGM.last : Fld := ⟨2338, 0, 97, .hid, .val 0, .any, .special⟩
/-- Origin: budget of its last REPORT, W. -/
def PGM.budget : Fld := ⟨2339, 0, 16, .hid, .val 0, .any, .special⟩
/-- Origin: draw of its last REPORT, W. -/
def PGM.draw : Fld := ⟨2340, 0, 16, .hid, .val 0, .any, .special⟩
/-- Origin: state byte of its last REPORT. -/
def PGM.state : Fld := ⟨2341, 0, 8, .hid, .val 0, .any, .special⟩
/-- Origin: the last 16 transfer numbers acted on (R269). -/
def LPGM.seen : Lst := ⟨62⟩
/-- Origin_seq of the next message this device creates (R267). -/
def HPG.seq : Fld := ⟨2342, 0, 16, .hid, .val 0, .any, .special⟩
/-- Number of its next transfer. -/
def HPG.tid : Fld := ⟨2343, 0, 16, .hid, .val 0, .any, .special⟩
/-- The 10 ms report timer (R268). -/
def HPG.next : Fld := ⟨2344, 0, 97, .hid, .val 0, .any, .special⟩
/-- The 1.1 s of listening (R338). -/
def HPG.join : Fld := ⟨2345, 0, 97, .hid, .val 0, .any, .special⟩
/-- PG_OVER_CAP has been raised in this episode (R341). -/
def HPG.over : Fld := ⟨2346, 0, 1, .hid, .val 0, .any, .special⟩
/-- Transfers not yet acknowledged, each its number, target, watts, TB0 at its first and at its last sending (R269). -/
def LPG.out : Lst := ⟨63⟩
/-- Targets of lost transfers (R340). -/
def LPG.lost : Lst := ⟨64⟩
/-- Droop stretch duty of the last 10 ms, 0.1 % (R267). -/
def HPWR.duty10 : Fld := ⟨2347, 0, 16, .hid, .val 0, .any, .special⟩
/-- The image's records have been applied, which sets trim to trim_init (R310). -/
def HPWR.run : Fld := ⟨2348, 0, 1, .hid, .val 0, .any, .special⟩
/-- The governor has started (R310). -/
def HPWR.gov : Fld := ⟨2349, 0, 1, .hid, .val 0, .any, .special⟩
/-- 64-byte words written to the shared buffer, modulo 2^48 (R312). -/
def HPWR.words : Fld := ⟨2350, 0, 48, .hid, .val 0, .any, .special⟩
/-- Set voltage, 2.5 mV steps above 0.600 V (R309). -/
def HPWR.vcode : Fld := ⟨2351, 0, 8, .hid, .val 0, .any, .special⟩
/-- P-state change in progress: 0 none; down: 1 waits for droop to clear, 2 slewing, 3 slew paused, 4 voltage lowering; up: 5 waits for the voltage, 6 slewing, 7 abandoned and slewing back, 8 voltage returning; forced: 9 slewing, 10 voltage lowering (R313, R314, R319). -/
def HPWR.step : Fld := ⟨2352, 0, 4, .hid, .val 0, .any, .special⟩
/-- Target of that change. -/
def HPWR.to : Fld := ⟨2353, 0, 3, .hid, .val 0, .any, .special⟩
/-- P-state before it. -/
def HPWR.old : Fld := ⟨2354, 0, 3, .hid, .val 0, .any, .special⟩
/-- TB0 at which an up-step's voltage settled plus one. -/
def HPWR.vt : Fld := ⟨2355, 0, 97, .hid, .val 0, .any, .special⟩
/-- The same of the last completed up-step; 0 = none since reset (R311). -/
def HPWR.uplast : Fld := ⟨2356, 0, 97, .hid, .val 0, .any, .special⟩
/-- The 200 us of an up-step's voltage (R313). -/
def HPWR.upto : Fld := ⟨2357, 0, 97, .hid, .val 0, .any, .special⟩
/-- TB0 of the last governor tick plus one (R311). -/
def HPWR.tgov : Fld := ⟨2358, 0, 97, .hid, .val 0, .any, .special⟩
/-- Demand_state (R312). -/
def HPWR.demand : Fld := ⟨2359, 0, 3, .hid, .val 0, .any, .special⟩
/-- TB0 of its last update plus one. -/
def HPWR.tdem : Fld := ⟨2360, 0, 97, .hid, .val 0, .any, .special⟩
/-- Frames received and words written in the last 1 s: TB0, frames, words (R312, R328). -/
def LPWR.fast : Lst := ⟨65⟩
/-- Corrected buffer errors counted in the last 1 s: TB0, count, 0 (R328). -/
def LPWR.slow : Lst := ⟨66⟩
/-- TB0 of the PSTATE_CHANGE events of the last 1 s (R313). -/
def LPWR.pc : Lst := ⟨67⟩
/-- Cap_state (R336). -/
def HPWR.caps : Fld := ⟨2361, 0, 3, .hid, .val 0, .any, .special⟩
/-- TB0 of its last change plus one. -/
def HPWR.capt : Fld := ⟨2362, 0, 97, .hid, .val 0, .any, .special⟩
/-- TB0 from which draw has exceeded dev_cap, plus one. -/
def HPWR.over : Fld := ⟨2363, 0, 97, .hid, .val 0, .any, .special⟩
/-- TB0 from which draw has been at or below dev_cap, plus one. -/
def HPWR.under : Fld := ⟨2364, 0, 97, .hid, .val 0, .any, .special⟩
/-- Droop_state (R318). -/
def HPWR.droopst : Fld := ⟨2365, 0, 3, .hid, .val 0, .any, .special⟩
/-- TB0 of the last 1 ms in which a domain was above 0.1 %, plus one. -/
def HPWR.quiet : Fld := ⟨2366, 0, 97, .hid, .val 0, .any, .special⟩
/-- TB0 at which droop_state last moved faster, plus one. -/
def HPWR.relax : Fld := ⟨2367, 0, 97, .hid, .val 0, .any, .special⟩
/-- TB0 from which every detector has been clear, plus one; 0 = since reset. -/
def HPWR.clear : Fld := ⟨2368, 0, 97, .hid, .val 0, .any, .special⟩
/-- TB0 of the last droop_state update plus one. -/
def HPWR.tdroop : Fld := ⟨2369, 0, 97, .hid, .val 0, .any, .special⟩
/-- TB0 of the last duty evaluation plus one (R317). -/
def HPWR.tduty : Fld := ⟨2370, 0, 97, .hid, .val 0, .any, .special⟩
/-- Clock domain of R315: stretch in force. -/
def HDRP.level : Fld := ⟨2371, 0, 2, .hid, .val 0, .any, .special⟩
/-- Domain: TB0 from which it has been in force, plus one. -/
def HDRP.since : Fld := ⟨2372, 0, 97, .hid, .val 0, .any, .special⟩
/-- Domain: 0 = no excursion episode, 1 = above 2 %, else TB0 from which it has been at or below plus two (R317). -/
def HDRP.exc : Fld := ⟨2373, 0, 97, .hid, .val 0, .any, .special⟩
/-- Domain: stretches ended in the last 10 ms, each start, end and level. -/
def LDRP.segs : Lst := ⟨68⟩
/-- VR_ALERT_N is asserted (R319). -/
def HPWR.asserted : Fld := ⟨2374, 0, 1, .hid, .val 0, .any, .special⟩
/-- TB0 of its last assertion plus one. -/
def HPWR.tas : Fld := ⟨2375, 0, 97, .hid, .val 0, .any, .special⟩
/-- TB0 of its last deassertion plus one. -/
def HPWR.tde : Fld := ⟨2376, 0, 97, .hid, .val 0, .any, .special⟩
/-- Alert_hold (R320). -/
def HPWR.alerth : Fld := ⟨2377, 0, 97, .hid, .val 0, .any, .special⟩
/-- Therm_state (R322). -/
def HPWR.therm : Fld := ⟨2378, 0, 3, .hid, .val 0, .any, .special⟩
/-- A throttle is in progress. -/
def HPWR.thr : Fld := ⟨2379, 0, 1, .hid, .val 0, .any, .special⟩
/-- TB0 at which it began plus one. -/
def HPWR.thr0 : Fld := ⟨2380, 0, 97, .hid, .val 0, .any, .special⟩
/-- TB0 from which tmax has been below the throttle's end, plus one. -/
def HPWR.cool : Fld := ⟨2381, 0, 97, .hid, .val 0, .any, .special⟩
/-- TB0 at which therm_state last moved faster, plus one. -/
def HPWR.tcool : Fld := ⟨2382, 0, 97, .hid, .val 0, .any, .special⟩
/-- TB0 of the last therm_state update plus one. -/
def HPWR.ttherm : Fld := ⟨2383, 0, 97, .hid, .val 0, .any, .special⟩
/-- TB0 of the last thermal reading plus one (R321). -/
def HPWR.tsens : Fld := ⟨2384, 0, 97, .hid, .val 0, .any, .special⟩
/-- TB0 of the last voltage reading plus one (R325). -/
def HPWR.tvs : Fld := ⟨2385, 0, 97, .hid, .val 0, .any, .special⟩
/-- TB0 of the last regulator poll plus one (R326). -/
def HPWR.tvr : Fld := ⟨2386, 0, 97, .hid, .val 0, .any, .special⟩
/-- TB0 of the last trim period plus one (R328). -/
def HPWR.ttrim : Fld := ⟨2387, 0, 97, .hid, .val 0, .any, .special⟩
/-- TB0 of the last validation check plus one. -/
def HPWR.tval : Fld := ⟨2388, 0, 97, .hid, .val 0, .any, .special⟩
/-- TB0 of the trim step under validation plus one. -/
def HPWR.vstart : Fld := ⟨2389, 0, 97, .hid, .val 0, .any, .special⟩
/-- Baseline of R328. -/
def HPWR.base : Fld := ⟨2390, 0, 32, .hid, .val 0, .any, .special⟩
/-- Thermal sensor: it has been read. -/
def HTHM.seen : Fld := ⟨2391, 0, 1, .hid, .val 0, .any, .special⟩
/-- Thermal sensor: TB0 from which it has differed from (valid) or agreed with (excluded) the median, plus one. -/
def HTHM.since : Fld := ⟨2392, 0, 97, .hid, .val 0, .any, .special⟩
/-- Voltage sensor: TB0 from which it has read more than 50 mV low, plus one. -/
def HVS.low : Fld := ⟨2393, 0, 97, .hid, .val 0, .any, .special⟩
/-- Regulator: its VOUT_MODE has been read (R326). -/
def HVR.known : Fld := ⟨2394, 0, 1, .hid, .val 0, .any, .special⟩
/-- Regulator: left out, its VOUT_MODE is not linear. -/
def HVR.out : Fld := ⟨2395, 0, 1, .hid, .val 0, .any, .special⟩
/-- Regulator: it has answered a telemetry read (R310). -/
def HVR.seen : Fld := ⟨2396, 0, 1, .hid, .val 0, .any, .special⟩
/-- Regulator: transactions failed in a row, 3 at most (R327). -/
def HVR.bad : Fld := ⟨2397, 0, 2, .hid, .val 0, .any, .special⟩
/-- Slice: the 6 us a Thaw may take (R331). -/
def HSLC.thaw : Fld := ⟨2398, 0, 97, .hid, .val 0, .any, .special⟩
/-- Slice: TB0 of its give-up plus one (R363). -/
def HSLC.give : Fld := ⟨2399, 0, 97, .hid, .val 0, .any, .special⟩
/-- Slice: writes to its window that wait in always-on configuration memory, each its offset and value (R332, R361). -/
def LSLC.img : Lst := ⟨69⟩
/-- Port: its macros are served by no slice after a failed takeover (R367). -/
def HPRT.unserved : Fld := ⟨2400, 0, 1, .hid, .val 0, .any, .special⟩
/-- TB0 at which the complexes entered Autumn, plus one (R334). -/
def HRED.cx0 : Fld := ⟨2401, 0, 97, .hid, .val 0, .any, .special⟩
/-- TB0 at which the gap began, plus one (R355). -/
def HRED.gap0 : Fld := ⟨2402, 0, 97, .hid, .val 0, .any, .special⟩
/-- TB0 of the last transient verdict, plus one (R353). -/
def HRED.trans : Fld := ⟨2403, 0, 97, .hid, .val 0, .any, .special⟩
/-- The gap in progress began in replay or within 1 s after a transient verdict (R353). -/
def HRED.second : Fld := ⟨2404, 0, 1, .hid, .val 0, .any, .special⟩
/-- Mode the warm restart in progress leads to. -/
def HRED.after : Fld := ⟨2405, 0, 3, .hid, .val 0, .any, .special⟩
/-- Slice under hand-back; 31 = none (R369). -/
def HRED.hb : Fld := ⟨2406, 0, 5, .hid, .val 31, .any, .special⟩
/-- The hand-back under way was forced. -/
def HRED.hbforce : Fld := ⟨2407, 0, 1, .hid, .val 0, .any, .special⟩
/-- TB0 of the last service signal missed, plus one (R358). -/
def HRED.wd : Fld := ⟨2408, 0, 97, .hid, .val 0, .any, .special⟩
/-- TB0 of the watchdog restarts of the last 10 minutes (R358). -/
def LRED.wd : Lst := ⟨70⟩
/-- Complex c: an uncorrectable SRAM error since the last checkpoint (R351). -/
def HCX.ecc : Fld := ⟨2409, 0, 1, .hid, .val 0, .any, .special⟩
/-- TB0 of the last checkpoint, plus one (R350). -/
def HCX.ckpt : Fld := ⟨2410, 0, 97, .hid, .val 0, .any, .special⟩
/-- Transactions of the complexes that the comparator holds in a gap, oldest first, five numbers each: 0 write or 1 read, core, address, mask, value (R349). -/
def LCX.held : Lst := ⟨71⟩
/-- Writes of the complexes released since the last checkpoint, four numbers each: core, address, mask, value (R353). -/
def LCX.sent : Lst := ⟨72⟩
/-- Replay log: address and value of each read response, 2^32 + source and stamp of each interrupt entry (R350). -/
def LCX.replay : Lst := ⟨73⟩
/-- Writes of LCX.sent checked so far in resynchronisation (R353). -/
def HCX.spos : Fld := ⟨2411, 0, 32, .hid, .val 0, .any, .special⟩
/-- Entries of the replay log served so far in resynchronisation (R353). -/
def HCX.rpos : Fld := ⟨2412, 0, 32, .hid, .val 0, .any, .special⟩
/-- Complex c: it has given up and is held in reset (R352). -/
def HCX.given : Fld := ⟨2413, 0, 1, .hid, .val 0, .any, .special⟩
/-- Slice: cause of its failure (R360). -/
def HSLC.cause : Fld := ⟨2414, 0, 3, .hid, .val 0, .any, .special⟩
/-- Slice: TB0 of its last heartbeat, plus one (R102). -/
def HSLC.hb : Fld := ⟨2415, 0, 97, .hid, .val 0, .any, .special⟩
/-- Number of the oldest capture in the audit FIFO (R456). -/
def HAUD.head : Fld := ⟨2416, 0, 64, .hid, .val 0, .any, .special⟩
/-- Number the next audit capture will have. -/
def HAUD.tail : Fld := ⟨2417, 0, 64, .hid, .val 0, .any, .special⟩
/-- Path: TB0 of its last kind 11 capture, plus one; 0 = never (R454). -/
def HAUD.last : Fld := ⟨2418, 0, 97, .hid, .val 0, .any, .special⟩
/-- Seq the next audit record will have (R457). -/
def HAUD.seq : Fld := ⟨2419, 0, 64, .hid, .val 0, .any, .special⟩
/-- Position of the audit ring the next record goes to (R458). -/
def HAUD.pos : Fld := ⟨2420, 0, 16, .hid, .val 0, .any, .special⟩
/-- Position of the audit ring: marked bad (R458). -/
def HAUD.badpos : Fld := ⟨2421, 0, 1, .hid, .val 0, .any, .special⟩
/-- Boot_count (R457). -/
def HAUD.boots : Fld := ⟨2422, 0, 16, .hid, .val 0, .any, .special⟩
/-- Capture n of the audit FIFO: kind, role, cred, path, result, addr, aux, old hash, new hash, TB0 at capture, and whether it was made during a gap (R454). -/
def LAUD.cap : Lst := ⟨74⟩
/-- Position of the audit ring: seq of the record it holds plus one, and the record's 16 words (R457). -/
def LAUD.ring : Lst := ⟨75⟩
/-- Session: TB0 of its last request, ns (R453). -/
def HACC.last : Fld := ⟨2423, 0, 96, .hid, .val 0, .any, .special⟩
/-- The maker grant's timer (R450). -/
def HACC.grant : Fld := ⟨2424, 0, 97, .hid, .val 0, .any, .special⟩
/-- Minutes of the maker grant in force (R450). -/
def HACC.mins : Fld := ⟨2425, 0, 11, .hid, .val 0, .any, .special⟩
/-- Session ID: a handshake waits for its PROOF (R452). -/
def HACC.wait : Fld := ⟨2426, 0, 1, .hid, .val 0, .any, .special⟩
/-- Session: last counter accepted plus one (R452). -/
def HACC.ctr : Fld := ⟨2427, 0, 33, .hid, .val 0, .any, .special⟩
/-- Credential: the lock_time it is refused for (R453). -/
def HACC.lock : Fld := ⟨2428, 0, 97, .hid, .val 0, .any, .special⟩
/-- Session: the handshake: credential, draw number of the device key, nonce, and path (R452). -/
def LACC.hs : Lst := ⟨76⟩
/-- Session: the client's ephemeral key bytes (R452). -/
def LACC.eph : Lst := ⟨77⟩
/-- Session: the whole public key an installer or the maker presented (R452). -/
def LACC.pub : Lst := ⟨78⟩
/-- Session: request_id last answered plus one, and the reply (R483). -/
def LHIF.reply : Lst := ⟨79⟩
/-- Session: its session key (R452). -/
def LACC.key : Lst := ⟨80⟩
/-- Operator index: its public key bytes; empty = deleted (R451). -/
def LACC.cred : Lst := ⟨81⟩
/-- Credential: TB0 of its failed proofs (R453). -/
def LACC.fails : Lst := ⟨82⟩
/-- Installer key slot n: its fused hash (R449). -/
def HFUSE.slot : Fld := ⟨2429, 0, 384, .hid, .val 0, .any, .special⟩
/-- Installer key slot n: its read-back differed, so its key cannot be used (R449). -/
def HFUSE.flaw : Fld := ⟨2430, 0, 1, .hid, .val 0, .any, .special⟩
/-- Maker fuse word n (R464). -/
def HFUSE.maker : Fld := ⟨2431, 0, 32, .hid, .val 0, .any, .special⟩
/-- Change set 0 to 3, 4 = boot, 5 = update: its entries, each address, mask and value (R434). -/
def LCS.ent : Lst := ⟨83⟩
/-- Boot or update change set: its table and rule commands in order, each its length, its record and its words (R427, R433). -/
def LCS.cmd : Lst := ⟨84⟩
/-- Change set: trigger it was armed with (R436). -/
def HCS.trig : Fld := ⟨2432, 0, 2, .hid, .val 0, .any, .special⟩
/-- Change set: time base it was armed with. -/
def HCS.tb : Fld := ⟨2433, 0, 3, .hid, .val 0, .any, .special⟩
/-- Change set: Round it was armed with. -/
def HCS.round : Fld := ⟨2434, 0, 4, .hid, .val 0, .any, .special⟩
/-- Change set: T it was armed with. -/
def HCS.time : Fld := ⟨2435, 0, 64, .hid, .val 0, .any, .special⟩
/-- Change set: path and role of the arming write, path + 8 * role + 64 * credential. -/
def HCS.who : Fld := ⟨2436, 0, 20, .hid, .val 0, .any, .special⟩
/-- Pair * 65536 + instance: pending value of its first field plus one (R441). -/
def HPAIR.lo : Fld := ⟨2437, 0, 33, .hid, .val 0, .any, .special⟩
/-- Pair * 65536 + instance: pending value of its second field plus one. -/
def HPAIR.hi : Fld := ⟨2438, 0, 33, .hid, .val 0, .any, .special⟩
/-- Boot: 0 core held in reset, 1 waits for the boot voltage, 2 an image is read, 3 its records are in force, 4 ready, 5 no image, 6 test mode (R426, R431, R462, R509). -/
def HBOOT.phase : Fld := ⟨2439, 0, 3, .hid, .val 0, .any, .special⟩
/-- Slot whose image is being read. -/
def HBOOT.slot : Fld := ⟨2440, 0, 1, .hid, .val 0, .any, .special⟩
/-- Bit n: slot n has failed in this boot (R431). -/
def HBOOT.tried : Fld := ⟨2441, 0, 2, .hid, .val 0, .any, .special⟩
/-- Boot voltage attempts so far (R509). -/
def HBOOT.volts : Fld := ⟨2442, 0, 16, .hid, .val 0, .any, .special⟩
/-- The always-on supply monitors or the boot voltage hold ALARM_N low (R509, R511, R513). -/
def HBOOT.alarm : Fld := ⟨2443, 0, 1, .hid, .val 0, .any, .special⟩
/-- Build_stamp of the image in use (R421). -/
def HBOOT.stamp : Fld := ⟨2444, 0, 64, .hid, .val 0, .any, .special⟩
/-- TB0 at which ready was set, plus one (R428). -/
def HBOOT.t0 : Fld := ⟨2445, 0, 97, .hid, .val 0, .any, .special⟩
/-- Flash command in progress: 0 none, else its op (R442). -/
def HFL.op : Fld := ⟨2446, 0, 3, .hid, .val 0, .any, .special⟩
/-- Address of the burst that last stalled (R430). -/
def HFL.burst : Fld := ⟨2447, 0, 32, .hid, .val 0, .any, .special⟩
/-- Times it has stalled. -/
def HFL.stalls : Fld := ⟨2448, 0, 3, .hid, .val 0, .any, .special⟩
/-- It waits to be reissued. -/
def HFL.wait : Fld := ⟨2449, 0, 1, .hid, .val 0, .any, .special⟩
/-- TB0 at which it was last reissued, plus one; 0 = not reissued. -/
def HFL.again : Fld := ⟨2450, 0, 97, .hid, .val 0, .any, .special⟩
/-- Boot-select sector: its record is valid (R432). -/
def HSEL.valid : Fld := ⟨2451, 0, 1, .hid, .val 0, .any, .special⟩
/-- Boot-select sector: seq of its record. -/
def HSEL.seq : Fld := ⟨2452, 0, 32, .hid, .val 0, .any, .special⟩
/-- Boot-select sector: slot its record names. -/
def HSEL.slot : Fld := ⟨2453, 0, 1, .hid, .val 0, .any, .special⟩
/-- Boot-select write in progress: the slot it names plus one. -/
def HSEL.busy : Fld := ⟨2454, 0, 2, .hid, .val 0, .any, .special⟩
/-- Request k: TB0 at which it is submitted again, plus one (R428). -/
def HREQ.due : Fld := ⟨2455, 0, 97, .hid, .val 0, .any, .special⟩
/-- Request k: its last result. -/
def HREQ.code : Fld := ⟨2456, 0, 8, .hid, .val 0, .any, .special⟩
/-- Image stream request k: 1 submitted, 2 failed and to be submitted again. -/
def HREQ.state : Fld := ⟨2457, 0, 2, .hid, .val 0, .any, .special⟩
/-- Buffer cells the image being booted holds (R426). -/
def HBOOT.cells : Fld := ⟨2458, 0, 20, .hid, .val 0, .any, .special⟩
/-- Stream requests of the image in use (R428). -/
def HREQ.count : Fld := ⟨2459, 0, 16, .hid, .val 0, .any, .special⟩
/-- Image stream request k: its words (R422). -/
def LREQ.words : Lst := ⟨85⟩
/-- After an abort, A copies its state into B (R372). -/
def HUPD.back : Fld := ⟨2460, 0, 1, .hid, .val 0, .any, .special⟩
/-- TB0 at which the swap began, plus one. -/
def HUPD.swap0 : Fld := ⟨2461, 0, 97, .hid, .val 0, .any, .special⟩
/-- Build_stamp of the staged image. -/
def HUPD.stamp : Fld := ⟨2462, 0, 64, .hid, .val 0, .any, .special⟩
/-- Staged image: its SERVICE_PARAM values, each its length and its bytes. -/
def LUPD.par : Lst := ⟨86⟩
/-- Staged image: its FW_PATCH records, each its length, then patch ID and code. -/
def LUPD.patch : Lst := ⟨87⟩
/-- The patches in force, each its length, then patch ID and code (R427). -/
def LFWP.code : Lst := ⟨88⟩
/-- Bytes of code they hold. -/
def HFWP.bytes : Fld := ⟨2463, 0, 32, .hid, .val 0, .any, .special⟩
/-- Management requests held during a gap, each its length and its numbers (R483). -/
def LHIF.held : Lst := ⟨89⟩
/-- The SMBus target's register address (R484). -/
def HHIF.smb : Fld := ⟨2464, 0, 32, .hid, .val 0, .any, .special⟩
/-- The TAP instruction register (R461). -/
def HTAP.ir : Fld := ⟨2465, 0, 8, .hid, .val 1, .any, .special⟩
/-- Boundary outputs in TEST_MODE: 0 the device's, 1 the cells', 2 floating (R461). -/
def HTAP.drive : Fld := ⟨2466, 0, 2, .hid, .val 0, .any, .special⟩
/-- The boundary cells as last loaded (R461). -/
def LTAP.cells : Lst := ⟨90⟩
/-- Port: TB0 of its last Pdelay_Req plus one, by which the next falls due (R284). -/
def HPD.ival : Fld := ⟨2467, 0, 97, .hid, .val 0, .any, .special⟩
/-- Port: TB0 at which it last sent its EXT_DELAY values by the 1 s period, plus one (R287). -/
def HPD.extt : Fld := ⟨2468, 0, 97, .hid, .val 0, .any, .special⟩
/-- Port: TB0 of its last EXT_REQ plus one (R287). -/
def HPD.extr : Fld := ⟨2469, 0, 97, .hid, .val 0, .any, .special⟩
/-- B * 1024 + port: TB0 of its last Sync plus one, by which the next falls due (R289). -/
def HSY.synct : Fld := ⟨2470, 0, 97, .hid, .val 0, .any, .special⟩
/-- B * 1024 + port: TB0 of its last Announce plus one (R289). -/
def HSY.annt : Fld := ⟨2471, 0, 97, .hid, .val 0, .any, .special⟩
/-- TB0 at which the last Harvest sweep began, plus one (R201). -/
def HBUF.hsweep : Fld := ⟨2472, 0, 97, .hid, .val 0, .any, .special⟩
/-- TB0 of the last counter export plus one (R499). -/
def HTEL.cntt : Fld := ⟨2473, 0, 97, .hid, .val 0, .any, .special⟩
/-- TB0 of the last histogram export plus one (R499). -/
def HTEL.hist : Fld := ⟨2474, 0, 97, .hid, .val 0, .any, .special⟩
/-- Trace buffer: the words of the latest packets, oldest first, 32,768 at most (R460). -/
def LTRC.buf : Lst := ⟨91⟩
/-- Words of it that the trace port has still to send. -/
def HTRC.wait : Fld := ⟨2475, 0, 16, .hid, .val 0, .any, .special⟩
/-- Packets dropped since the port fell behind. -/
def HTRC.drop : Fld := ⟨2476, 0, 16, .hid, .val 0, .any, .special⟩
/-- Change set k: the old hash of its commit (R455). -/
def HCS.old : Fld := ⟨2477, 0, 96, .hid, .val 0, .any, .special⟩
/-- Path: TB0 and register of each refusal on role grounds in the last 1 s, newest last (R454). -/
def LAUD.refused : Lst := ⟨92⟩
/-- The fields of a frame. -/
def gFRM : List Fld := [FRM.live, FRM.port, FRM.slice, FRM.stamp, FRM.tbstamp, FRM.early, FRM.tagged, FRM.ttype, FRM.tclass, FRM.thops, FRM.tsrc, FRM.tflow, FRM.tseq, FRM.tns, FRM.tfrac, FRM.tslack, FRM.tpslack, FRM.ended, FRM.err, FRM.len, FRM.head, FRM.hwords, FRM.stage, FRM.redisp, FRM.seq, FRM.eng, FRM.epoch, FRM.disp, FRM.disp1, FRM.looked, FRM.inj, FRM.res, FRM.adm, FRM.stream, FRM.hop, FRM.eg, FRM.node, FRM.queue, FRM.group, FRM.reason, FRM.pol, FRM.polc, FRM.polt, FRM.tel, FRM.sampled, FRM.nh, FRM.nhdata, FRM.dmiss, FRM.kpush, FRM.acct, FRM.pg, FRM.rport, FRM.freed, FRM.gbase, FRM.gcount, FRM.refs, FRM.ecc, FRM.rxdone, FRM.valid]
/-- The lists of a frame. -/
def lFRM : List Lst := [LFRM.bytes, LFRM.cells, LFRM.cont, LFRM.recs, LFRM.wb, LFRM.pops, LFRM.decs, LFRM.prog, LFRM.tmpl, LFRM.push, LFRM.mirror, LFRM.rawtag]
/-- The fields of a descriptor. -/
def gDSC : List Fld := [DSC.live, DSC.frame, DSC.code, DSC.eg, DSC.adm, DSC.sched, DSC.stream, DSC.flow, DSC.seq, DSC.err, DSC.enq, DSC.cut, DSC.carried, DSC.enqg, DSC.started, DSC.start, DSC.mirror, DSC.trunc, DSC.copy, DSC.nhdata, DSC.nh, DSC.raw, DSC.depth, DSC.read, DSC.charged, DSC.buckets, DSC.cells, DSC.corrupt, DSC.ntag]
/-- The lists of a descriptor. -/
def lDSC : List Lst := [LDSC.tag, LDSC.push]
/-- The fields of a hop. -/
def gHOP : List Fld := [HOP.live, HOP.in_, HOP.eg, HOP.node, HOP.queue, HOP.bin, HOP.win, HOP.span]
/-- The lists of a hop. -/
def lHOP : List Lst := [LHOP.wins, LHOP.extra, LHOP.extrai]
/-- The fields of a stream. -/
def gSTM : List Fld := [STM.class_, STM.frer, STM.tb, STM.gq, STM.maxf, STM.minf, STM.rate, STM.burst, STM.first, STM.spray, STM.up, STM.down, STM.cycle, STM.h0]
/-- The lists of a stream. -/
def lSTM : List Lst := []

end Sys2Proof.Machine
end

