-- ==== Sys2Proof/Machine/RegMap.lean ====
section
/-!
DEFINITION. The register map: every register, register field and counter of the device with its address,
bits, access code (R9), reset value (R13), stored range and writing right (R446), as the register tables of the
spec's chapters give them (R527 names the blocks). Read by the bus operations of Machine/Bus.lean.
-/

namespace Sys2Proof.Machine

def ADM_CTRL.adm_enable : Fld := ⟨0, 0, 1, .rw, .val 0, .any, .installer⟩
def ADM_CTRL.margin_enable : Fld := ⟨1, 1, 1, .rw, .val 1, .any, .installer⟩
def ADM_CTRL.port_limit_pct : Fld := ⟨2, 8, 7, .rw, .val 75, .range 1 75, .installer⟩
/-- ADM_CTRL. -/
def rADM_CTRL : Reg := ⟨0, 0x900000, [], 0, [ADM_CTRL.adm_enable, ADM_CTRL.margin_enable, ADM_CTRL.port_limit_pct]⟩
def ADM_DEV_LIMIT.rate_limit : Fld := ⟨3, 0, 16, .rw, .val 1024, .range 1 1024, .installer⟩
def ADM_DEV_LIMIT.fps_limit : Fld := ⟨4, 16, 16, .rw, .val 640, .range 1 640, .installer⟩
/-- ADM_DEV_LIMIT. -/
def rADM_DEV_LIMIT : Reg := ⟨1, 0x900004, [], 0, [ADM_DEV_LIMIT.rate_limit, ADM_DEV_LIMIT.fps_limit]⟩
def ADM_STATUS.busy : Fld := ⟨5, 0, 1, .ro, .val 0, .any, .installer⟩
def ADM_STATUS.hold : Fld := ⟨6, 1, 1, .ro, .val 0, .any, .installer⟩
def ADM_STATUS.tentative_pending : Fld := ⟨7, 2, 1, .ro, .val 0, .any, .installer⟩
def ADM_STATUS.over_limit : Fld := ⟨8, 3, 1, .ro, .val 0, .any, .installer⟩
def ADM_STATUS.admitted_count : Fld := ⟨9, 4, 17, .ro, .val 0, .any, .installer⟩
/-- ADM_STATUS. -/
def rADM_STATUS : Reg := ⟨2, 0x900008, [], 0, [ADM_STATUS.busy, ADM_STATUS.hold, ADM_STATUS.tentative_pending, ADM_STATUS.over_limit, ADM_STATUS.admitted_count]⟩
def ADM_DEV_LOAD_RATE.load_rate : Fld := ⟨10, 0, 27, .ro, .val 0, .any, .installer⟩
/-- ADM_DEV_LOAD_RATE. -/
def rADM_DEV_LOAD_RATE : Reg := ⟨3, 0x90000C, [], 0, [ADM_DEV_LOAD_RATE.load_rate]⟩
def ADM_DEV_LOAD_FPS.load_fps : Fld := ⟨11, 0, 24, .ro, .val 0, .any, .installer⟩
/-- ADM_DEV_LOAD_FPS. -/
def rADM_DEV_LOAD_FPS : Reg := ⟨4, 0x900010, [], 0, [ADM_DEV_LOAD_FPS.load_fps]⟩
def ADM_SNAPSHOT.snap : Fld := ⟨12, 0, 1, .wo, .val 0, .any, .watcher⟩
/-- ADM_SNAPSHOT. -/
def rADM_SNAPSHOT : Reg := ⟨5, 0x900014, [], 0, [ADM_SNAPSHOT.snap]⟩
def ADM_REQ_CMD.op : Fld := ⟨13, 0, 4, .wo, .val 0, .any, .operator⟩
def ADM_REQ_CMD.stream_id : Fld := ⟨14, 16, 16, .wo, .val 0, .any, .operator⟩
/-- ADM_REQ_CMD. -/
def rADM_REQ_CMD : Reg := ⟨6, 0x900020, [], 0, [ADM_REQ_CMD.op, ADM_REQ_CMD.stream_id]⟩
def ADM_REQ_STATUS.busy : Fld := ⟨15, 0, 1, .ro, .val 0, .any, .operator⟩
def ADM_REQ_STATUS.result : Fld := ⟨16, 8, 8, .ro, .val 0, .any, .operator⟩
def ADM_REQ_STATUS.failing_hop : Fld := ⟨17, 16, 5, .ro, .val 0, .any, .operator⟩
/-- ADM_REQ_STATUS. -/
def rADM_REQ_STATUS : Reg := ⟨7, 0x900024, [], 0, [ADM_REQ_STATUS.busy, ADM_REQ_STATUS.result, ADM_REQ_STATUS.failing_hop]⟩
def ADM_REQ_CLASS.class_ : Fld := ⟨18, 0, 2, .rw, .val 0, .any, .operator⟩
def ADM_REQ_CLASS.frer : Fld := ⟨19, 2, 1, .rw, .val 0, .any, .operator⟩
def ADM_REQ_CLASS.time_base : Fld := ⟨20, 3, 3, .rw, .val 0, .any, .operator⟩
def ADM_REQ_CLASS.gated_queue : Fld := ⟨21, 6, 2, .rw, .val 0, .any, .operator⟩
def ADM_REQ_CLASS.hop_count : Fld := ⟨22, 8, 6, .rw, .val 1, .any, .operator⟩
/-- ADM_REQ_CLASS. -/
def rADM_REQ_CLASS : Reg := ⟨8, 0x900028, [], 0, [ADM_REQ_CLASS.class_, ADM_REQ_CLASS.frer, ADM_REQ_CLASS.time_base, ADM_REQ_CLASS.gated_queue, ADM_REQ_CLASS.hop_count]⟩
def ADM_REQ_IDENT.ident_ref : Fld := ⟨23, 0, 21, .rw, .val 0, .any, .operator⟩
/-- ADM_REQ_IDENT. -/
def rADM_REQ_IDENT : Reg := ⟨9, 0x90002C, [], 0, [ADM_REQ_IDENT.ident_ref]⟩
def ADM_REQ_FRAME.max_frame : Fld := ⟨24, 0, 15, .rw, .val 1518, .any, .operator⟩
def ADM_REQ_FRAME.min_frame : Fld := ⟨25, 16, 15, .rw, .val 64, .any, .operator⟩
/-- ADM_REQ_FRAME. -/
def rADM_REQ_FRAME : Reg := ⟨10, 0x900030, [], 0, [ADM_REQ_FRAME.max_frame, ADM_REQ_FRAME.min_frame]⟩
def ADM_REQ_RATE.rate : Fld := ⟨26, 0, 32, .rw, .val 0, .any, .operator⟩
/-- ADM_REQ_RATE. -/
def rADM_REQ_RATE : Reg := ⟨11, 0x900034, [], 0, [ADM_REQ_RATE.rate]⟩
def ADM_REQ_BURST.burst : Fld := ⟨27, 0, 24, .rw, .val 0, .any, .operator⟩
/-- ADM_REQ_BURST. -/
def rADM_REQ_BURST : Reg := ⟨12, 0x900038, [], 0, [ADM_REQ_BURST.burst]⟩
def ADM_REQ_DEADLINE.deadline : Fld := ⟨28, 0, 32, .rw, .val 0, .any, .operator⟩
/-- ADM_REQ_DEADLINE. -/
def rADM_REQ_DEADLINE : Reg := ⟨13, 0x90003C, [], 0, [ADM_REQ_DEADLINE.deadline]⟩
def ADM_REQ_SCHED.send_offset : Fld := ⟨29, 0, 32, .rw, .val 0, .any, .operator⟩
/-- ADM_REQ_SCHED. -/
def rADM_REQ_SCHED : Reg := ⟨14, 0x900040, [], 0, [ADM_REQ_SCHED.send_offset]⟩
def ADM_REQ_HOPA.device_id : Fld := ⟨30, 0, 12, .rw, .val 0, .any, .operator⟩
def ADM_REQ_HOPA.ingress_port : Fld := ⟨31, 12, 10, .rw, .val 0, .any, .operator⟩
def ADM_REQ_HOPA.egress_port : Fld := ⟨32, 22, 10, .rw, .val 0, .any, .operator⟩
/-- ADM_REQ_HOPA. -/
def rADM_REQ_HOPA : Reg := ⟨15, 0x900100, [(32, 0x4)], 0, [ADM_REQ_HOPA.device_id, ADM_REQ_HOPA.ingress_port, ADM_REQ_HOPA.egress_port]⟩
def ADM_REQ_HOPB.sub_node : Fld := ⟨33, 0, 15, .rw, .val 0, .any, .operator⟩
def ADM_REQ_HOPB.queue : Fld := ⟨34, 15, 1, .rw, .val 0, .any, .operator⟩
/-- ADM_REQ_HOPB. -/
def rADM_REQ_HOPB : Reg := ⟨16, 0x900180, [(32, 0x4)], 0, [ADM_REQ_HOPB.sub_node, ADM_REQ_HOPB.queue]⟩
def ADM_PORT_SEL.port : Fld := ⟨35, 0, 10, .rw, .val 0, .any, .watcher⟩
/-- ADM_PORT_SEL. -/
def rADM_PORT_SEL : Reg := ⟨17, 0x900200, [], 0, [ADM_PORT_SEL.port]⟩
def ADM_PORT_BUDGET.hop_budget : Fld := ⟨36, 0, 24, .rw, .val 0, .any, .installer⟩
/-- ADM_PORT_BUDGET. -/
def rADM_PORT_BUDGET : Reg := ⟨18, 0x900204, [], 1024, [ADM_PORT_BUDGET.hop_budget]⟩
def ADM_PORT_LOAD_RATE.load_rate : Fld := ⟨37, 0, 28, .ro, .val 0, .any, .installer⟩
/-- ADM_PORT_LOAD_RATE. -/
def rADM_PORT_LOAD_RATE : Reg := ⟨19, 0x900208, [], 0, [ADM_PORT_LOAD_RATE.load_rate]⟩
def ADM_PORT_LOAD_BURST.load_burst : Fld := ⟨38, 0, 28, .ro, .val 0, .any, .installer⟩
/-- ADM_PORT_LOAD_BURST. -/
def rADM_PORT_LOAD_BURST : Reg := ⟨20, 0x90020C, [], 0, [ADM_PORT_LOAD_BURST.load_burst]⟩
def ADM_PORT_BOUND.bound : Fld := ⟨39, 0, 24, .ro, .val 0, .any, .installer⟩
/-- ADM_PORT_BOUND. -/
def rADM_PORT_BOUND : Reg := ⟨21, 0x900210, [], 0, [ADM_PORT_BOUND.bound]⟩
def ADM_PORT_MARGIN.margin_flag : Fld := ⟨40, 0, 1, .w1c, .val 0, .any, .installer⟩
/-- ADM_PORT_MARGIN. -/
def rADM_PORT_MARGIN : Reg := ⟨22, 0x900214, [], 1024, [ADM_PORT_MARGIN.margin_flag]⟩
def ADM_PORT_FIXED.fixed : Fld := ⟨41, 0, 24, .ro, .val 0, .any, .installer⟩
/-- ADM_PORT_FIXED. -/
def rADM_PORT_FIXED : Reg := ⟨23, 0x900218, [], 0, [ADM_PORT_FIXED.fixed]⟩
def ADM_STREAM_SEL.stream : Fld := ⟨42, 0, 16, .rw, .val 0, .any, .watcher⟩
/-- ADM_STREAM_SEL. -/
def rADM_STREAM_SEL : Reg := ⟨24, 0x900300, [], 0, [ADM_STREAM_SEL.stream]⟩
def ADM_STREAM_STAT.state : Fld := ⟨43, 0, 2, .ro, .val 0, .any, .installer⟩
def ADM_STREAM_STAT.exc_takeover : Fld := ⟨44, 2, 1, .w1c, .val 0, .any, .installer⟩
def ADM_STREAM_STAT.exc_mem : Fld := ⟨45, 3, 1, .w1c, .val 0, .any, .installer⟩
def ADM_STREAM_STAT.exc_link : Fld := ⟨46, 4, 1, .w1c, .val 0, .any, .installer⟩
def ADM_STREAM_STAT.exc_time : Fld := ⟨47, 5, 1, .w1c, .val 0, .any, .installer⟩
def ADM_STREAM_STAT.exc_supply : Fld := ⟨48, 6, 1, .w1c, .val 0, .any, .installer⟩
/-- ADM_STREAM_STAT. -/
def rADM_STREAM_STAT : Reg := ⟨25, 0x900304, [], 65536, [ADM_STREAM_STAT.state, ADM_STREAM_STAT.exc_takeover, ADM_STREAM_STAT.exc_mem, ADM_STREAM_STAT.exc_link, ADM_STREAM_STAT.exc_time, ADM_STREAM_STAT.exc_supply]⟩
def ADM_STREAM_BOUND.hop_bound : Fld := ⟨49, 0, 24, .ro, .val 0, .any, .installer⟩
/-- ADM_STREAM_BOUND. -/
def rADM_STREAM_BOUND : Reg := ⟨26, 0x900308, [], 0, [ADM_STREAM_BOUND.hop_bound]⟩
def PRT_MACRO_STATUS.pll_lock : Fld := ⟨50, 0, 2, .ro, .val 0, .any, .installer⟩
def PRT_MACRO_STATUS.serving_slice : Fld := ⟨51, 2, 5, .ro, .div 4, .any, .installer⟩
/-- PRT_MACRO_STATUS. -/
def rPRT_MACRO_STATUS : Reg := ⟨27, 0x4000000, [(64, 0x10000)], 0, [PRT_MACRO_STATUS.pll_lock, PRT_MACRO_STATUS.serving_slice]⟩
def PRT_SNAPSHOT.snap : Fld := ⟨52, 0, 1, .wo, .val 0, .any, .watcher⟩
/-- PRT_SNAPSHOT. -/
def rPRT_SNAPSHOT : Reg := ⟨28, 0x4000004, [], 0, [PRT_SNAPSHOT.snap]⟩
def PRT_OCT_CFG.mode : Fld := ⟨53, 0, 3, .st, .val 3, .any, .installer⟩
/-- PRT_OCT_CFG. -/
def rPRT_OCT_CFG : Reg := ⟨29, 0x4000100, [(64, 0x10000), (2, 0x20)], 0, [PRT_OCT_CFG.mode]⟩
def PRT_OCT_MODULE_MAP.i2c_master : Fld := ⟨54, 0, 3, .rw, .val 0, .any, .installer⟩
def PRT_OCT_MODULE_MAP.mux_addr : Fld := ⟨55, 3, 7, .rw, .val 0, .any, .installer⟩
def PRT_OCT_MODULE_MAP.mux_chan : Fld := ⟨56, 10, 3, .rw, .val 0, .any, .installer⟩
def PRT_OCT_MODULE_MAP.exp_addr : Fld := ⟨57, 13, 7, .rw, .val 0, .any, .installer⟩
def PRT_OCT_MODULE_MAP.exp_bit : Fld := ⟨58, 20, 3, .rw, .val 0, .any, .installer⟩
def PRT_OCT_MODULE_MAP.max_power_class : Fld := ⟨59, 23, 4, .rw, .val 1, .any, .installer⟩
def PRT_OCT_MODULE_MAP.module_en : Fld := ⟨60, 27, 1, .rw, .val 0, .any, .installer⟩
/-- PRT_OCT_MODULE_MAP. -/
def rPRT_OCT_MODULE_MAP : Reg := ⟨30, 0x4000104, [(64, 0x10000), (2, 0x20)], 0, [PRT_OCT_MODULE_MAP.i2c_master, PRT_OCT_MODULE_MAP.mux_addr, PRT_OCT_MODULE_MAP.mux_chan, PRT_OCT_MODULE_MAP.exp_addr, PRT_OCT_MODULE_MAP.exp_bit, PRT_OCT_MODULE_MAP.max_power_class, PRT_OCT_MODULE_MAP.module_en]⟩
def PRT_OCT_MODULE_STAT.present : Fld := ⟨61, 0, 1, .ro, .val 0, .any, .installer⟩
def PRT_OCT_MODULE_STAT.mod_state : Fld := ⟨62, 1, 3, .ro, .val 0, .any, .installer⟩
def PRT_OCT_MODULE_STAT.power_class : Fld := ⟨63, 4, 4, .ro, .val 0, .any, .installer⟩
def PRT_OCT_MODULE_STAT.cmis_rev : Fld := ⟨64, 8, 8, .ro, .val 0, .any, .installer⟩
def PRT_OCT_MODULE_STAT.ready : Fld := ⟨65, 16, 1, .ro, .val 0, .any, .installer⟩
def PRT_OCT_MODULE_STAT.power_denied : Fld := ⟨66, 17, 1, .w1c, .val 0, .any, .installer⟩
def PRT_OCT_MODULE_STAT.no_app : Fld := ⟨67, 18, 1, .w1c, .val 0, .any, .installer⟩
def PRT_OCT_MODULE_STAT.mod_event : Fld := ⟨68, 19, 1, .w1c, .val 0, .any, .installer⟩
/-- PRT_OCT_MODULE_STAT. -/
def rPRT_OCT_MODULE_STAT : Reg := ⟨31, 0x4000108, [(64, 0x10000), (2, 0x20)], 0, [PRT_OCT_MODULE_STAT.present, PRT_OCT_MODULE_STAT.mod_state, PRT_OCT_MODULE_STAT.power_class, PRT_OCT_MODULE_STAT.cmis_rev, PRT_OCT_MODULE_STAT.ready, PRT_OCT_MODULE_STAT.power_denied, PRT_OCT_MODULE_STAT.no_app, PRT_OCT_MODULE_STAT.mod_event]⟩
def PRT_OCT_MODULE_CTRL.mod_reset : Fld := ⟨69, 0, 1, .wo, .val 0, .any, .installer⟩
def PRT_OCT_MODULE_CTRL.force_lp : Fld := ⟨70, 1, 1, .rw, .val 0, .any, .installer⟩
/-- PRT_OCT_MODULE_CTRL. -/
def rPRT_OCT_MODULE_CTRL : Reg := ⟨32, 0x400010C, [(64, 0x10000), (2, 0x20)], 0, [PRT_OCT_MODULE_CTRL.mod_reset, PRT_OCT_MODULE_CTRL.force_lp]⟩
def PRT_PORT_CFG.admin_up : Fld := ⟨71, 0, 1, .rw, .val 0, .any, .special⟩
def PRT_PORT_CFG.medium : Fld := ⟨72, 1, 2, .st, .val 0, .any, .installer⟩
def PRT_PORT_CFG.an_enable : Fld := ⟨73, 3, 1, .st, .val 1, .any, .installer⟩
def PRT_PORT_CFG.lt_enable : Fld := ⟨74, 4, 1, .st, .val 1, .any, .installer⟩
def PRT_PORT_CFG.fec_mode : Fld := ⟨75, 5, 2, .st, .val 3, .any, .installer⟩
def PRT_PORT_CFG.ibyon_enable : Fld := ⟨76, 7, 1, .st, .val 0, .any, .installer⟩
def PRT_PORT_CFG.quiet_enable : Fld := ⟨77, 8, 1, .st, .val 0, .any, .installer⟩
def PRT_PORT_CFG.max_frame : Fld := ⟨78, 9, 15, .st, .val 1518, .any, .installer⟩
/-- PRT_PORT_CFG. -/
def rPRT_PORT_CFG : Reg := ⟨33, 0x4001000, [(64, 0x10000), (16, 0x100)], 0, [PRT_PORT_CFG.admin_up, PRT_PORT_CFG.medium, PRT_PORT_CFG.an_enable, PRT_PORT_CFG.lt_enable, PRT_PORT_CFG.fec_mode, PRT_PORT_CFG.ibyon_enable, PRT_PORT_CFG.quiet_enable, PRT_PORT_CFG.max_frame]⟩
def PRT_PORT_TIMERS.down_debounce : Fld := ⟨79, 0, 8, .rw, .val 20, .any, .installer⟩
def PRT_PORT_TIMERS.up_debounce : Fld := ⟨80, 8, 8, .rw, .val 10, .any, .installer⟩
def PRT_PORT_TIMERS.quiet_idle : Fld := ⟨81, 16, 16, .rw, .val 0, .any, .installer⟩
/-- PRT_PORT_TIMERS. -/
def rPRT_PORT_TIMERS : Reg := ⟨34, 0x4001004, [(64, 0x10000), (16, 0x100)], 0, [PRT_PORT_TIMERS.down_debounce, PRT_PORT_TIMERS.up_debounce, PRT_PORT_TIMERS.quiet_idle]⟩
def PRT_PORT_FLAP.flap_count : Fld := ⟨82, 0, 8, .rw, .val 10, .range 1 255, .installer⟩
def PRT_PORT_FLAP.flap_window : Fld := ⟨83, 8, 8, .rw, .val 10, .range 1 255, .installer⟩
def PRT_PORT_FLAP.degrade_threshold : Fld := ⟨84, 16, 16, .rw, .val 4096, .any, .installer⟩
/-- PRT_PORT_FLAP. -/
def rPRT_PORT_FLAP : Reg := ⟨35, 0x4001008, [(64, 0x10000), (16, 0x100)], 0, [PRT_PORT_FLAP.flap_count, PRT_PORT_FLAP.flap_window, PRT_PORT_FLAP.degrade_threshold]⟩
def PRT_PORT_STATUS.link_up : Fld := ⟨85, 0, 1, .ro, .val 0, .any, .installer⟩
def PRT_PORT_STATUS.state : Fld := ⟨86, 1, 3, .ro, .val 0, .any, .installer⟩
def PRT_PORT_STATUS.peer_zx : Fld := ⟨87, 4, 1, .ro, .val 0, .any, .installer⟩
def PRT_PORT_STATUS.tag_active : Fld := ⟨88, 5, 1, .ro, .val 0, .any, .installer⟩
def PRT_PORT_STATUS.degraded : Fld := ⟨89, 6, 1, .ro, .val 0, .any, .installer⟩
def PRT_PORT_STATUS.flap_hold : Fld := ⟨90, 7, 1, .w1c, .val 0, .any, .installer⟩
def PRT_PORT_STATUS.faults : Fld := ⟨91, 8, 6, .ro, .val 0, .any, .installer⟩
/-- PRT_PORT_STATUS. -/
def rPRT_PORT_STATUS : Reg := ⟨36, 0x400100C, [(64, 0x10000), (16, 0x100)], 0, [PRT_PORT_STATUS.link_up, PRT_PORT_STATUS.state, PRT_PORT_STATUS.peer_zx, PRT_PORT_STATUS.tag_active, PRT_PORT_STATUS.degraded, PRT_PORT_STATUS.flap_hold, PRT_PORT_STATUS.faults]⟩
def PRT_PORT_EVT.ev_link : Fld := ⟨92, 0, 1, .w1c, .val 0, .any, .installer⟩
def PRT_PORT_EVT.ev_degrade : Fld := ⟨93, 1, 1, .w1c, .val 0, .any, .installer⟩
def PRT_PORT_EVT.ev_peer : Fld := ⟨94, 2, 1, .w1c, .val 0, .any, .installer⟩
/-- PRT_PORT_EVT. -/
def rPRT_PORT_EVT : Reg := ⟨37, 0x4001010, [(64, 0x10000), (16, 0x100)], 0, [PRT_PORT_EVT.ev_link, PRT_PORT_EVT.ev_degrade, PRT_PORT_EVT.ev_peer]⟩
def PRT_PORT_PEER.peer_device : Fld := ⟨95, 0, 12, .ro, .val 0, .any, .installer⟩
def PRT_PORT_PEER.peer_port : Fld := ⟨96, 12, 10, .ro, .val 0, .any, .installer⟩
/-- PRT_PORT_PEER. -/
def rPRT_PORT_PEER : Reg := ⟨38, 0x4001014, [(64, 0x10000), (16, 0x100)], 0, [PRT_PORT_PEER.peer_device, PRT_PORT_PEER.peer_port]⟩
def PRT_PORT_PEER_CAP.peer_caps : Fld := ⟨97, 0, 16, .ro, .val 0, .any, .installer⟩
def PRT_PORT_PEER_CAP.peer_tag_version : Fld := ⟨98, 16, 8, .ro, .val 0, .any, .installer⟩
/-- PRT_PORT_PEER_CAP. -/
def rPRT_PORT_PEER_CAP : Reg := ⟨39, 0x4001018, [(64, 0x10000), (16, 0x100)], 0, [PRT_PORT_PEER_CAP.peer_caps, PRT_PORT_PEER_CAP.peer_tag_version]⟩
def PRT_PORT_DELAY.fixed_delay : Fld := ⟨99, 0, 16, .rw, .val 0, .any, .installer⟩
def PRT_PORT_DELAY.prop_ps_per_m : Fld := ⟨100, 16, 16, .rw, .val 4900, .range 1 65535, .installer⟩
/-- PRT_PORT_DELAY. -/
def rPRT_PORT_DELAY : Reg := ⟨40, 0x400101C, [(64, 0x10000), (16, 0x100)], 0, [PRT_PORT_DELAY.fixed_delay, PRT_PORT_DELAY.prop_ps_per_m]⟩
def PRT_PORT_CABLE.cable_cm : Fld := ⟨101, 0, 16, .ro, .val 0, .any, .installer⟩
def PRT_PORT_CABLE.cable_valid : Fld := ⟨102, 16, 1, .ro, .val 0, .any, .installer⟩
/-- PRT_PORT_CABLE. -/
def rPRT_PORT_CABLE : Reg := ⟨41, 0x4001020, [(64, 0x10000), (16, 0x100)], 0, [PRT_PORT_CABLE.cable_cm, PRT_PORT_CABLE.cable_valid]⟩
def PRT_PORT_LOOP.loopback : Fld := ⟨103, 0, 2, .rw, .val 0, .any, .installer⟩
/-- PRT_PORT_LOOP. -/
def rPRT_PORT_LOOP : Reg := ⟨42, 0x4001024, [(64, 0x10000), (16, 0x100)], 0, [PRT_PORT_LOOP.loopback]⟩
def PRT_LANE_CFG.tx_invert : Fld := ⟨104, 0, 1, .rw, .val 0, .any, .installer⟩
def PRT_LANE_CFG.rx_invert : Fld := ⟨105, 1, 1, .rw, .val 0, .any, .installer⟩
def PRT_LANE_CFG.prbs_gen : Fld := ⟨106, 2, 3, .rw, .val 0, .any, .installer⟩
def PRT_LANE_CFG.prbs_check : Fld := ⟨107, 5, 3, .rw, .val 0, .any, .installer⟩
def PRT_LANE_CFG.adapt_enable : Fld := ⟨108, 8, 1, .rw, .val 1, .any, .installer⟩
/-- PRT_LANE_CFG. -/
def rPRT_LANE_CFG : Reg := ⟨43, 0x4002000, [(64, 0x10000), (16, 0x40)], 0, [PRT_LANE_CFG.tx_invert, PRT_LANE_CFG.rx_invert, PRT_LANE_CFG.prbs_gen, PRT_LANE_CFG.prbs_check, PRT_LANE_CFG.adapt_enable]⟩
def PRT_LANE_STATUS.signal_detect : Fld := ⟨109, 0, 1, .ro, .val 0, .any, .installer⟩
def PRT_LANE_STATUS.cdr_lock : Fld := ⟨110, 1, 1, .ro, .val 0, .any, .installer⟩
def PRT_LANE_STATUS.prbs_lock : Fld := ⟨111, 2, 1, .ro, .val 0, .any, .installer⟩
def PRT_LANE_STATUS.loss_db : Fld := ⟨112, 3, 8, .ro, .val 0, .any, .installer⟩
def PRT_LANE_STATUS.loss_over_spec : Fld := ⟨113, 11, 1, .w1c, .val 0, .any, .installer⟩
/-- PRT_LANE_STATUS. -/
def rPRT_LANE_STATUS : Reg := ⟨44, 0x4002004, [(64, 0x10000), (16, 0x40)], 0, [PRT_LANE_STATUS.signal_detect, PRT_LANE_STATUS.cdr_lock, PRT_LANE_STATUS.prbs_lock, PRT_LANE_STATUS.loss_db, PRT_LANE_STATUS.loss_over_spec]⟩
def SLC_STATUS.macro_group : Fld := ⟨114, 0, 4, .ro, .tab [0,1,2,3,4,5,6,7,8,9,10,11,12,13,14,15,0], .any, .installer⟩
def SLC_STATUS.serving : Fld := ⟨115, 4, 1, .ro, .tab [1,1,1,1,1,1,1,1,1,1,1,1,1,1,1,1,0], .any, .installer⟩
def SLC_STATUS.fenced : Fld := ⟨116, 8, 8, .ro, .val 0, .any, .installer⟩
def SLC_STATUS.failed : Fld := ⟨117, 16, 1, .ro, .val 0, .any, .installer⟩
/-- SLC_STATUS. -/
def rSLC_STATUS : Reg := ⟨45, 0x10000000, [(17, 0x1000000)], 0, [SLC_STATUS.macro_group, SLC_STATUS.serving, SLC_STATUS.fenced, SLC_STATUS.failed]⟩
def SLC_SNAPSHOT.snap : Fld := ⟨118, 0, 1, .wo, .val 0, .any, .watcher⟩
/-- SLC_SNAPSHOT. -/
def rSLC_SNAPSHOT : Reg := ⟨46, 0x10000004, [(17, 0x1000000)], 0, [SLC_SNAPSHOT.snap]⟩
def SLC_ENG_CTRL.unfence : Fld := ⟨119, 0, 8, .wo, .val 0, .any, .installer⟩
/-- SLC_ENG_CTRL. -/
def rSLC_ENG_CTRL : Reg := ⟨47, 0x10000008, [(17, 0x1000000)], 0, [SLC_ENG_CTRL.unfence]⟩
def SLC_FENCE_LOG.engine : Fld := ⟨120, 0, 3, .ro, .val 0, .any, .installer⟩
def SLC_FENCE_LOG.cause : Fld := ⟨121, 3, 3, .ro, .val 0, .any, .installer⟩
def SLC_FENCE_LOG.redispatched : Fld := ⟨122, 6, 6, .ro, .val 0, .any, .installer⟩
def SLC_FENCE_LOG.dropped : Fld := ⟨123, 12, 6, .ro, .val 0, .any, .installer⟩
def SLC_FENCE_LOG.fences : Fld := ⟨124, 24, 8, .ro, .val 0, .any, .installer⟩
/-- SLC_FENCE_LOG. -/
def rSLC_FENCE_LOG : Reg := ⟨48, 0x1000000C, [(17, 0x1000000)], 0, [SLC_FENCE_LOG.engine, SLC_FENCE_LOG.cause, SLC_FENCE_LOG.redispatched, SLC_FENCE_LOG.dropped, SLC_FENCE_LOG.fences]⟩
def SLC_HEAD_STATUS.used : Fld := ⟨125, 0, 11, .ro, .val 0, .any, .installer⟩
def SLC_HEAD_STATUS.peak : Fld := ⟨126, 16, 11, .rc, .val 0, .any, .installer⟩
/-- SLC_HEAD_STATUS. -/
def rSLC_HEAD_STATUS : Reg := ⟨49, 0x10000010, [(17, 0x1000000)], 0, [SLC_HEAD_STATUS.used, SLC_HEAD_STATUS.peak]⟩
def SLC_HB_CFG.hb_period : Fld := ⟨127, 0, 8, .rw, .val 10, .range 1 255, .installer⟩
/-- SLC_HB_CFG. -/
def rSLC_HB_CFG : Reg := ⟨50, 0x10000014, [(17, 0x1000000)], 0, [SLC_HB_CFG.hb_period]⟩
def SLC_EVT.ev_fence : Fld := ⟨128, 0, 1, .w1c, .val 0, .any, .installer⟩
def SLC_EVT.ev_skip : Fld := ⟨129, 1, 1, .w1c, .val 0, .any, .installer⟩
def SLC_EVT.ev_head_drop : Fld := ⟨130, 2, 1, .w1c, .val 0, .any, .installer⟩
def SLC_EVT.ev_head_ecc : Fld := ⟨131, 3, 1, .w1c, .val 0, .any, .installer⟩
/-- SLC_EVT. -/
def rSLC_EVT : Reg := ⟨51, 0x10000018, [(17, 0x1000000)], 0, [SLC_EVT.ev_fence, SLC_EVT.ev_skip, SLC_EVT.ev_head_drop, SLC_EVT.ev_head_ecc]⟩
def SLC_ENG_STAT.epoch : Fld := ⟨132, 0, 4, .ro, .val 0, .any, .installer⟩
def SLC_ENG_STAT.fenced : Fld := ⟨133, 4, 1, .ro, .val 0, .any, .installer⟩
def SLC_ENG_STAT.cause : Fld := ⟨134, 5, 3, .ro, .val 0, .any, .installer⟩
def SLC_ENG_STAT.inflight : Fld := ⟨135, 8, 6, .ro, .val 0, .any, .installer⟩
/-- SLC_ENG_STAT. -/
def rSLC_ENG_STAT : Reg := ⟨52, 0x10000100, [(17, 0x1000000), (8, 0x4)], 0, [SLC_ENG_STAT.epoch, SLC_ENG_STAT.fenced, SLC_ENG_STAT.cause, SLC_ENG_STAT.inflight]⟩
def SLC_PORT_CFG.cut_enable : Fld := ⟨136, 0, 1, .rw, .val 1, .any, .installer⟩
def SLC_PORT_CFG.early_tag : Fld := ⟨137, 1, 1, .rw, .val 1, .any, .installer⟩
def SLC_PORT_CFG.early_all : Fld := ⟨138, 2, 1, .rw, .val 0, .any, .installer⟩
def SLC_PORT_CFG.early_pcp : Fld := ⟨139, 3, 8, .rw, .val 0, .any, .installer⟩
/-- SLC_PORT_CFG. -/
def rSLC_PORT_CFG : Reg := ⟨53, 0x10001000, [(17, 0x1000000), (64, 0x10)], 0, [SLC_PORT_CFG.cut_enable, SLC_PORT_CFG.early_tag, SLC_PORT_CFG.early_all, SLC_PORT_CFG.early_pcp]⟩
def SLC_PORT_SEQ.next_seq : Fld := ⟨140, 0, 12, .ro, .val 0, .any, .installer⟩
def SLC_PORT_SEQ.oldest : Fld := ⟨141, 16, 12, .ro, .val 0, .any, .installer⟩
/-- SLC_PORT_SEQ. -/
def rSLC_PORT_SEQ : Reg := ⟨54, 0x10001004, [(17, 0x1000000), (64, 0x10)], 0, [SLC_PORT_SEQ.next_seq, SLC_PORT_SEQ.oldest]⟩
def SLC_PRS_CTRL.window : Fld := ⟨142, 0, 4, .st, .val 4, .range 1 8, .installer⟩
def SLC_PRS_CTRL.max_trans : Fld := ⟨143, 4, 6, .st, .val 32, .range 1 32, .installer⟩
/-- SLC_PRS_CTRL. -/
def rSLC_PRS_CTRL : Reg := ⟨55, 0x10100000, [(17, 0x1000000)], 0, [SLC_PRS_CTRL.window, SLC_PRS_CTRL.max_trans]⟩
def SLC_CLS_CTRL.ttl_punt : Fld := ⟨144, 0, 1, .rw, .val 0, .any, .installer⟩
def SLC_CLS_CTRL.rule_scrub : Fld := ⟨145, 1, 1, .rw, .val 1, .any, .installer⟩
/-- SLC_CLS_CTRL. -/
def rSLC_CLS_CTRL : Reg := ⟨56, 0x10100004, [(17, 0x1000000)], 0, [SLC_CLS_CTRL.ttl_punt, SLC_CLS_CTRL.rule_scrub]⟩
def SLC_RULE_CMD.op : Fld := ⟨146, 0, 4, .wo, .val 0, .any, .installer⟩
def SLC_RULE_CMD.index : Fld := ⟨147, 4, 16, .wo, .val 0, .any, .installer⟩
/-- SLC_RULE_CMD. -/
def rSLC_RULE_CMD : Reg := ⟨57, 0x10100008, [(17, 0x1000000)], 0, [SLC_RULE_CMD.op, SLC_RULE_CMD.index]⟩
def SLC_RULE_STATUS.busy : Fld := ⟨148, 0, 1, .ro, .val 0, .any, .installer⟩
def SLC_RULE_STATUS.result : Fld := ⟨149, 4, 4, .ro, .val 0, .any, .installer⟩
def SLC_RULE_STATUS.valid : Fld := ⟨150, 8, 1, .ro, .val 0, .any, .installer⟩
/-- SLC_RULE_STATUS. -/
def rSLC_RULE_STATUS : Reg := ⟨58, 0x1010000C, [(17, 0x1000000)], 0, [SLC_RULE_STATUS.busy, SLC_RULE_STATUS.result, SLC_RULE_STATUS.valid]⟩
def SLC_CLS_EVT.ev_rule_parity : Fld := ⟨151, 0, 1, .w1c, .val 0, .any, .installer⟩
def SLC_CLS_EVT.ev_ttl_hold : Fld := ⟨152, 1, 1, .w1c, .val 0, .any, .installer⟩
/-- SLC_CLS_EVT. -/
def rSLC_CLS_EVT : Reg := ⟨59, 0x10100010, [(17, 0x1000000)], 0, [SLC_CLS_EVT.ev_rule_parity, SLC_CLS_EVT.ev_ttl_hold]⟩
def SLC_RULE_PARITY_LOG.index : Fld := ⟨153, 0, 16, .ro, .val 0, .any, .installer⟩
def SLC_RULE_PARITY_LOG.count : Fld := ⟨154, 16, 16, .ro, .val 0, .any, .installer⟩
/-- SLC_RULE_PARITY_LOG. -/
def rSLC_RULE_PARITY_LOG : Reg := ⟨60, 0x10100014, [(17, 0x1000000)], 0, [SLC_RULE_PARITY_LOG.index, SLC_RULE_PARITY_LOG.count]⟩
def SLC_RULE_DEST.dest : Fld := ⟨155, 0, 16, .rw, .val 0, .any, .installer⟩
/-- SLC_RULE_DEST. -/
def rSLC_RULE_DEST : Reg := ⟨61, 0x10100018, [(17, 0x1000000)], 0, [SLC_RULE_DEST.dest]⟩
def SLC_HASH_SEL_LO.sel : Fld := ⟨156, 0, 32, .st, .val 0, .any, .installer⟩
/-- SLC_HASH_SEL_LO. -/
def rSLC_HASH_SEL_LO : Reg := ⟨62, 0x10100020, [(17, 0x1000000), (3, 0x10)], 0, [SLC_HASH_SEL_LO.sel]⟩
def SLC_HASH_SEL_HI.sel : Fld := ⟨157, 0, 16, .st, .val 0, .any, .installer⟩
/-- SLC_HASH_SEL_HI. -/
def rSLC_HASH_SEL_HI : Reg := ⟨63, 0x10100024, [(17, 0x1000000), (3, 0x10)], 0, [SLC_HASH_SEL_HI.sel]⟩
def SLC_HASH_PAIR.a0 : Fld := ⟨158, 0, 6, .st, .val 0, .any, .installer⟩
def SLC_HASH_PAIR.b0 : Fld := ⟨159, 6, 6, .st, .val 0, .any, .installer⟩
def SLC_HASH_PAIR.n0 : Fld := ⟨160, 12, 3, .st, .val 0, .any, .installer⟩
def SLC_HASH_PAIR.v0 : Fld := ⟨161, 15, 1, .st, .val 0, .any, .installer⟩
def SLC_HASH_PAIR.a1 : Fld := ⟨162, 16, 6, .st, .val 0, .any, .installer⟩
def SLC_HASH_PAIR.b1 : Fld := ⟨163, 22, 6, .st, .val 0, .any, .installer⟩
def SLC_HASH_PAIR.n1 : Fld := ⟨164, 28, 3, .st, .val 0, .any, .installer⟩
def SLC_HASH_PAIR.v1 : Fld := ⟨165, 31, 1, .st, .val 0, .any, .installer⟩
/-- SLC_HASH_PAIR. -/
def rSLC_HASH_PAIR : Reg := ⟨64, 0x10100028, [(17, 0x1000000), (3, 0x10)], 0, [SLC_HASH_PAIR.a0, SLC_HASH_PAIR.b0, SLC_HASH_PAIR.n0, SLC_HASH_PAIR.v0, SLC_HASH_PAIR.a1, SLC_HASH_PAIR.b1, SLC_HASH_PAIR.n1, SLC_HASH_PAIR.v1]⟩
def SLC_HASH_SEED.seed : Fld := ⟨166, 0, 32, .st, .val 4294967295, .any, .installer⟩
/-- SLC_HASH_SEED. -/
def rSLC_HASH_SEED : Reg := ⟨65, 0x1010002C, [(17, 0x1000000), (3, 0x10)], 0, [SLC_HASH_SEED.seed]⟩
def SLC_PORT_PARSE.start_state : Fld := ⟨167, 0, 8, .st, .val 0, .any, .installer⟩
/-- SLC_PORT_PARSE. -/
def rSLC_PORT_PARSE : Reg := ⟨66, 0x10100100, [(17, 0x1000000), (64, 0x8)], 0, [SLC_PORT_PARSE.start_state]⟩
def SLC_PORT_SID.sid_types : Fld := ⟨168, 0, 4, .st, .val 1, .any, .installer⟩
/-- SLC_PORT_SID. -/
def rSLC_PORT_SID : Reg := ⟨67, 0x10100104, [(17, 0x1000000), (64, 0x8)], 0, [SLC_PORT_SID.sid_types]⟩
def SLC_RULE_KEY.word : Fld := ⟨169, 0, 32, .rw, .val 0, .any, .installer⟩
/-- SLC_RULE_KEY. -/
def rSLC_RULE_KEY : Reg := ⟨68, 0x10100400, [(17, 0x1000000), (20, 0x4)], 0, [SLC_RULE_KEY.word]⟩
def SLC_RULE_MASK.word : Fld := ⟨170, 0, 32, .rw, .val 0, .any, .installer⟩
/-- SLC_RULE_MASK. -/
def rSLC_RULE_MASK : Reg := ⟨69, 0x10100480, [(17, 0x1000000), (20, 0x4)], 0, [SLC_RULE_MASK.word]⟩
def SLC_RULE_ACT.word : Fld := ⟨171, 0, 32, .rw, .val 0, .any, .installer⟩
/-- SLC_RULE_ACT. -/
def rSLC_RULE_ACT : Reg := ⟨70, 0x10100500, [(17, 0x1000000), (16, 0x4)], 0, [SLC_RULE_ACT.word]⟩
def SLC_PRS_STATE_W0.hdr_kind : Fld := ⟨172, 0, 4, .st, .val 0, .any, .installer⟩
def SLC_PRS_STATE_W0.len_mode : Fld := ⟨173, 4, 1, .st, .val 0, .any, .installer⟩
def SLC_PRS_STATE_W0.len_add : Fld := ⟨174, 5, 8, .st, .val 0, .any, .installer⟩
def SLC_PRS_STATE_W0.len_offset : Fld := ⟨175, 13, 8, .st, .val 0, .any, .installer⟩
def SLC_PRS_STATE_W0.len_mask : Fld := ⟨176, 21, 8, .st, .val 0, .any, .installer⟩
def SLC_PRS_STATE_W0.len_shift : Fld := ⟨177, 29, 2, .st, .val 0, .any, .installer⟩
/-- SLC_PRS_STATE_W0. -/
def rSLC_PRS_STATE_W0 : Reg := ⟨71, 0x10200000, [(17, 0x1000000), (256, 0x8)], 0, [SLC_PRS_STATE_W0.hdr_kind, SLC_PRS_STATE_W0.len_mode, SLC_PRS_STATE_W0.len_add, SLC_PRS_STATE_W0.len_offset, SLC_PRS_STATE_W0.len_mask, SLC_PRS_STATE_W0.len_shift]⟩
def SLC_PRS_STATE_W1.ext_base : Fld := ⟨178, 0, 10, .st, .val 0, .any, .installer⟩
def SLC_PRS_STATE_W1.ext_count : Fld := ⟨179, 10, 4, .st, .val 0, .any, .installer⟩
def SLC_PRS_STATE_W1.sel_offset : Fld := ⟨180, 14, 8, .st, .val 0, .any, .installer⟩
def SLC_PRS_STATE_W1.default_profile : Fld := ⟨181, 22, 4, .st, .val 0, .any, .installer⟩
def SLC_PRS_STATE_W1.record : Fld := ⟨182, 26, 1, .st, .val 0, .any, .installer⟩
/-- SLC_PRS_STATE_W1. -/
def rSLC_PRS_STATE_W1 : Reg := ⟨72, 0x10200004, [(17, 0x1000000), (256, 0x8)], 0, [SLC_PRS_STATE_W1.ext_base, SLC_PRS_STATE_W1.ext_count, SLC_PRS_STATE_W1.sel_offset, SLC_PRS_STATE_W1.default_profile, SLC_PRS_STATE_W1.record]⟩
def SLC_PRS_TRANS_W0.state : Fld := ⟨183, 0, 8, .st, .val 0, .any, .installer⟩
def SLC_PRS_TRANS_W0.valid : Fld := ⟨184, 8, 1, .st, .val 0, .any, .installer⟩
/-- SLC_PRS_TRANS_W0. -/
def rSLC_PRS_TRANS_W0 : Reg := ⟨73, 0x10201000, [(17, 0x1000000), (1024, 0x10)], 0, [SLC_PRS_TRANS_W0.state, SLC_PRS_TRANS_W0.valid]⟩
def SLC_PRS_TRANS_W1.value : Fld := ⟨185, 0, 32, .st, .val 0, .any, .installer⟩
/-- SLC_PRS_TRANS_W1. -/
def rSLC_PRS_TRANS_W1 : Reg := ⟨74, 0x10201004, [(17, 0x1000000), (1024, 0x10)], 0, [SLC_PRS_TRANS_W1.value]⟩
def SLC_PRS_TRANS_W2.mask : Fld := ⟨186, 0, 32, .st, .val 0, .any, .installer⟩
/-- SLC_PRS_TRANS_W2. -/
def rSLC_PRS_TRANS_W2 : Reg := ⟨75, 0x10201008, [(17, 0x1000000), (1024, 0x10)], 0, [SLC_PRS_TRANS_W2.mask]⟩
def SLC_PRS_TRANS_W3.next_state : Fld := ⟨187, 0, 8, .st, .val 0, .any, .installer⟩
def SLC_PRS_TRANS_W3.profile : Fld := ⟨188, 8, 4, .st, .val 0, .any, .installer⟩
/-- SLC_PRS_TRANS_W3. -/
def rSLC_PRS_TRANS_W3 : Reg := ⟨76, 0x1020100C, [(17, 0x1000000), (1024, 0x10)], 0, [SLC_PRS_TRANS_W3.next_state, SLC_PRS_TRANS_W3.profile]⟩
def SLC_PRS_EXTRACT.offset : Fld := ⟨189, 0, 8, .st, .val 0, .any, .installer⟩
def SLC_PRS_EXTRACT.width : Fld := ⟨190, 8, 2, .st, .val 0, .any, .installer⟩
def SLC_PRS_EXTRACT.container : Fld := ⟨191, 10, 6, .st, .val 0, .any, .installer⟩
def SLC_PRS_EXTRACT.writeback : Fld := ⟨192, 16, 1, .st, .val 0, .any, .installer⟩
/-- SLC_PRS_EXTRACT. -/
def rSLC_PRS_EXTRACT : Reg := ⟨77, 0x10208000, [(17, 0x1000000), (1024, 0x4)], 0, [SLC_PRS_EXTRACT.offset, SLC_PRS_EXTRACT.width, SLC_PRS_EXTRACT.container, SLC_PRS_EXTRACT.writeback]⟩
def SLC_KEY_PROFILE_SLOTS.slots : Fld := ⟨193, 0, 32, .st, .val 0, .any, .installer⟩
/-- SLC_KEY_PROFILE_SLOTS. -/
def rSLC_KEY_PROFILE_SLOTS : Reg := ⟨78, 0x10210000, [(17, 0x1000000), (16, 0x20), (5, 0x4)], 0, [SLC_KEY_PROFILE_SLOTS.slots]⟩
def SLC_KEY_PROFILE_GRP.grp_a : Fld := ⟨194, 0, 7, .st, .val 0, .any, .installer⟩
def SLC_KEY_PROFILE_GRP.grp_b : Fld := ⟨195, 8, 7, .st, .val 0, .any, .installer⟩
/-- SLC_KEY_PROFILE_GRP. -/
def rSLC_KEY_PROFILE_GRP : Reg := ⟨79, 0x10210014, [(17, 0x1000000), (16, 0x20)], 0, [SLC_KEY_PROFILE_GRP.grp_a, SLC_KEY_PROFILE_GRP.grp_b]⟩
def SLC_SID_KEY.containers : Fld := ⟨196, 0, 32, .st, .val 0, .any, .installer⟩
/-- SLC_SID_KEY. -/
def rSLC_SID_KEY : Reg := ⟨80, 0x10211000, [(17, 0x1000000), (3, 0x10), (3, 0x4)], 0, [SLC_SID_KEY.containers]⟩
def SLC_RANGE_W0.lo : Fld := ⟨197, 0, 16, .st, .val 0, .any, .installer⟩
def SLC_RANGE_W0.hi : Fld := ⟨198, 16, 16, .st, .val 0, .any, .installer⟩
/-- SLC_RANGE_W0. -/
def rSLC_RANGE_W0 : Reg := ⟨81, 0x10220000, [(17, 0x1000000), (8192, 0x8)], 0, [SLC_RANGE_W0.lo, SLC_RANGE_W0.hi]⟩
def SLC_RANGE_W1.container : Fld := ⟨199, 0, 6, .st, .val 0, .any, .installer⟩
def SLC_RANGE_W1.half : Fld := ⟨200, 6, 1, .st, .val 0, .any, .installer⟩
def SLC_RANGE_W1.enable : Fld := ⟨201, 7, 1, .st, .val 0, .any, .installer⟩
/-- SLC_RANGE_W1. -/
def rSLC_RANGE_W1 : Reg := ⟨82, 0x10220004, [(17, 0x1000000), (8192, 0x8)], 0, [SLC_RANGE_W1.container, SLC_RANGE_W1.half, SLC_RANGE_W1.enable]⟩
def SLC_TEMPLATE_W0.kind : Fld := ⟨202, 0, 2, .st, .val 0, .any, .installer⟩
def SLC_TEMPLATE_W0.length : Fld := ⟨203, 2, 7, .st, .val 0, .any, .installer⟩
def SLC_TEMPLATE_W0.sub_count : Fld := ⟨204, 9, 3, .st, .val 0, .any, .installer⟩
def SLC_TEMPLATE_W0.fixups : Fld := ⟨205, 12, 4, .st, .val 0, .any, .installer⟩
def SLC_TEMPLATE_W0.ip_off : Fld := ⟨206, 16, 8, .st, .val 0, .any, .installer⟩
def SLC_TEMPLATE_W0.udp_off : Fld := ⟨207, 24, 8, .st, .val 0, .any, .installer⟩
/-- SLC_TEMPLATE_W0. -/
def rSLC_TEMPLATE_W0 : Reg := ⟨83, 0x10300000, [(17, 0x1000000), (256, 0x80)], 0, [SLC_TEMPLATE_W0.kind, SLC_TEMPLATE_W0.length, SLC_TEMPLATE_W0.sub_count, SLC_TEMPLATE_W0.fixups, SLC_TEMPLATE_W0.ip_off, SLC_TEMPLATE_W0.udp_off]⟩
def SLC_TEMPLATE_SUB.offset : Fld := ⟨208, 0, 6, .st, .val 0, .any, .installer⟩
def SLC_TEMPLATE_SUB.container : Fld := ⟨209, 6, 6, .st, .val 0, .any, .installer⟩
def SLC_TEMPLATE_SUB.width : Fld := ⟨210, 12, 2, .st, .val 0, .any, .installer⟩
/-- SLC_TEMPLATE_SUB. -/
def rSLC_TEMPLATE_SUB : Reg := ⟨84, 0x10300004, [(17, 0x1000000), (256, 0x80), (4, 0x4)], 0, [SLC_TEMPLATE_SUB.offset, SLC_TEMPLATE_SUB.container, SLC_TEMPLATE_SUB.width]⟩
def SLC_TEMPLATE_DATA.data : Fld := ⟨211, 0, 32, .st, .val 0, .any, .installer⟩
/-- SLC_TEMPLATE_DATA. -/
def rSLC_TEMPLATE_DATA : Reg := ⟨85, 0x10300040, [(17, 0x1000000), (256, 0x80), (16, 0x4)], 0, [SLC_TEMPLATE_DATA.data]⟩
def SLC_MIRROR_W0.port : Fld := ⟨212, 0, 10, .st, .val 0, .any, .installer⟩
def SLC_MIRROR_W0.node : Fld := ⟨213, 10, 15, .st, .val 0, .any, .installer⟩
def SLC_MIRROR_W0.queue : Fld := ⟨214, 25, 3, .st, .val 0, .any, .installer⟩
def SLC_MIRROR_W0.enable : Fld := ⟨215, 28, 1, .st, .val 0, .any, .installer⟩
/-- SLC_MIRROR_W0. -/
def rSLC_MIRROR_W0 : Reg := ⟨86, 0x10310000, [(17, 0x1000000), (16, 0x8)], 0, [SLC_MIRROR_W0.port, SLC_MIRROR_W0.node, SLC_MIRROR_W0.queue, SLC_MIRROR_W0.enable]⟩
def SLC_MIRROR_W1.truncate : Fld := ⟨216, 0, 8, .st, .val 0, .any, .installer⟩
/-- SLC_MIRROR_W1. -/
def rSLC_MIRROR_W1 : Reg := ⟨87, 0x10310004, [(17, 0x1000000), (16, 0x8)], 0, [SLC_MIRROR_W1.truncate]⟩
def SLC_DEF_ACT.word : Fld := ⟨217, 0, 32, .st, .val 0, .any, .installer⟩
/-- SLC_DEF_ACT. -/
def rSLC_DEF_ACT : Reg := ⟨88, 0x10480000, [(17, 0x1000000), (16, 0x40), (16, 0x4)], 0, [SLC_DEF_ACT.word]⟩
def TBL_CTRL.learn_enable : Fld := ⟨218, 0, 1, .rw, .val 1, .any, .installer⟩
def TBL_CTRL.scan_enable : Fld := ⟨219, 1, 1, .rw, .val 1, .any, .installer⟩
def TBL_CTRL.scrub_enable : Fld := ⟨220, 2, 1, .rw, .val 1, .any, .installer⟩
def TBL_CTRL.l3_miss_punt : Fld := ⟨221, 3, 1, .rw, .val 0, .any, .installer⟩
def TBL_CTRL.frozen : Fld := ⟨222, 4, 1, .ro, .val 0, .any, .installer⟩
/-- TBL_CTRL. -/
def rTBL_CTRL : Reg := ⟨89, 0x3000000, [], 0, [TBL_CTRL.learn_enable, TBL_CTRL.scan_enable, TBL_CTRL.scrub_enable, TBL_CTRL.l3_miss_punt, TBL_CTRL.frozen]⟩
def TBL_SNAPSHOT.snap : Fld := ⟨223, 0, 1, .wo, .val 0, .any, .watcher⟩
/-- TBL_SNAPSHOT. -/
def rTBL_SNAPSHOT : Reg := ⟨90, 0x3000004, [], 0, [TBL_SNAPSHOT.snap]⟩
def TBL_AGE_CFG.tick_ms : Fld := ⟨224, 0, 16, .rw, .val 1000, .range 1 65535, .installer⟩
def TBL_AGE_CFG.age_limit : Fld := ⟨225, 16, 15, .rw, .val 300, .range 1 32767, .installer⟩
/-- TBL_AGE_CFG. -/
def rTBL_AGE_CFG : Reg := ⟨91, 0x3000008, [], 0, [TBL_AGE_CFG.tick_ms, TBL_AGE_CFG.age_limit]⟩
def TBL_AGE_NOW.now : Fld := ⟨226, 0, 16, .ro, .val 0, .any, .installer⟩
/-- TBL_AGE_NOW. -/
def rTBL_AGE_NOW : Reg := ⟨92, 0x300000C, [], 0, [TBL_AGE_NOW.now]⟩
def TBL_LEARN_CFG.hold_ms : Fld := ⟨227, 0, 8, .rw, .val 10, .any, .installer⟩
def TBL_LEARN_CFG.flap_threshold : Fld := ⟨228, 8, 4, .rw, .val 5, .range 1 15, .installer⟩
def TBL_LEARN_CFG.flap_window : Fld := ⟨229, 12, 12, .rw, .val 1000, .range 100 4000, .installer⟩
/-- TBL_LEARN_CFG. -/
def rTBL_LEARN_CFG : Reg := ⟨93, 0x3000010, [], 0, [TBL_LEARN_CFG.hold_ms, TBL_LEARN_CFG.flap_threshold, TBL_LEARN_CFG.flap_window]⟩
def TBL_LEARN_STATUS.fifo_depth : Fld := ⟨230, 0, 13, .ro, .val 0, .any, .installer⟩
/-- TBL_LEARN_STATUS. -/
def rTBL_LEARN_STATUS : Reg := ⟨94, 0x3000014, [], 0, [TBL_LEARN_STATUS.fifo_depth]⟩
def TBL_ROUTER_MAC_LO.mac_lo : Fld := ⟨231, 0, 32, .rw, .val 0, .any, .installer⟩
/-- TBL_ROUTER_MAC_LO. -/
def rTBL_ROUTER_MAC_LO : Reg := ⟨95, 0x3000018, [], 0, [TBL_ROUTER_MAC_LO.mac_lo]⟩
def TBL_ROUTER_MAC_HI.mac_hi : Fld := ⟨232, 0, 16, .rw, .val 0, .any, .installer⟩
/-- TBL_ROUTER_MAC_HI. -/
def rTBL_ROUTER_MAC_HI : Reg := ⟨96, 0x300001C, [], 0, [TBL_ROUTER_MAC_HI.mac_hi]⟩
def TBL_EVT.ev_parity : Fld := ⟨233, 0, 1, .w1c, .val 0, .any, .installer⟩
def TBL_EVT.ev_flap : Fld := ⟨234, 1, 1, .w1c, .val 0, .any, .installer⟩
def TBL_EVT.ev_learn_full : Fld := ⟨235, 2, 1, .w1c, .val 0, .any, .installer⟩
def TBL_EVT.ev_contention : Fld := ⟨236, 3, 1, .w1c, .val 0, .any, .installer⟩
/-- TBL_EVT. -/
def rTBL_EVT : Reg := ⟨97, 0x3000020, [], 0, [TBL_EVT.ev_parity, TBL_EVT.ev_flap, TBL_EVT.ev_learn_full, TBL_EVT.ev_contention]⟩
def TBL_PARITY_LOG.table : Fld := ⟨237, 0, 3, .ro, .val 0, .any, .installer⟩
def TBL_PARITY_LOG.index : Fld := ⟨238, 3, 21, .ro, .val 0, .any, .installer⟩
def TBL_PARITY_LOG.count : Fld := ⟨239, 24, 8, .ro, .val 0, .any, .installer⟩
/-- TBL_PARITY_LOG. -/
def rTBL_PARITY_LOG : Reg := ⟨98, 0x3000024, [], 0, [TBL_PARITY_LOG.table, TBL_PARITY_LOG.index, TBL_PARITY_LOG.count]⟩
def TBL_PART_CFG.base : Fld := ⟨240, 0, 5, .st, .tab [0,16,28], .any, .installer⟩
def TBL_PART_CFG.size : Fld := ⟨241, 5, 6, .st, .tab [16,12,4], .any, .installer⟩
def TBL_PART_CFG.age_en : Fld := ⟨242, 11, 1, .st, .tab [1,0,0], .any, .installer⟩
/-- TBL_PART_CFG. -/
def rTBL_PART_CFG : Reg := ⟨99, 0x3000030, [(3, 0x4)], 0, [TBL_PART_CFG.base, TBL_PART_CFG.size, TBL_PART_CFG.age_en]⟩
def TBL_FWD_PROFILE_W0.da_hi : Fld := ⟨243, 0, 6, .st, .val 0, .any, .installer⟩
def TBL_FWD_PROFILE_W0.da_lo : Fld := ⟨244, 6, 6, .st, .val 0, .any, .installer⟩
def TBL_FWD_PROFILE_W0.sa_hi : Fld := ⟨245, 12, 6, .st, .val 0, .any, .installer⟩
def TBL_FWD_PROFILE_W0.sa_lo : Fld := ⟨246, 18, 6, .st, .val 0, .any, .installer⟩
def TBL_FWD_PROFILE_W0.vid_c : Fld := ⟨247, 24, 6, .st, .val 0, .any, .installer⟩
def TBL_FWD_PROFILE_W0.l2_en : Fld := ⟨248, 30, 1, .st, .val 0, .any, .installer⟩
/-- TBL_FWD_PROFILE_W0. -/
def rTBL_FWD_PROFILE_W0 : Reg := ⟨100, 0x3000040, [(16, 0x8)], 0, [TBL_FWD_PROFILE_W0.da_hi, TBL_FWD_PROFILE_W0.da_lo, TBL_FWD_PROFILE_W0.sa_hi, TBL_FWD_PROFILE_W0.sa_lo, TBL_FWD_PROFILE_W0.vid_c, TBL_FWD_PROFILE_W0.l2_en]⟩
def TBL_FWD_PROFILE_W1.ip_ver : Fld := ⟨249, 0, 2, .st, .val 0, .any, .installer⟩
def TBL_FWD_PROFILE_W1.dip_c : Fld := ⟨250, 2, 6, .st, .val 0, .any, .installer⟩
/-- TBL_FWD_PROFILE_W1. -/
def rTBL_FWD_PROFILE_W1 : Reg := ⟨101, 0x3000044, [(16, 0x8)], 0, [TBL_FWD_PROFILE_W1.ip_ver, TBL_FWD_PROFILE_W1.dip_c]⟩
def TBL_CMD.op : Fld := ⟨251, 0, 4, .wo, .val 0, .any, .special⟩
def TBL_CMD.index : Fld := ⟨252, 4, 21, .wo, .val 0, .any, .special⟩
def TBL_CMD.by_index : Fld := ⟨253, 25, 1, .wo, .val 0, .any, .special⟩
def TBL_CMD.longest : Fld := ⟨254, 26, 1, .wo, .val 0, .any, .special⟩
/-- TBL_CMD. -/
def rTBL_CMD : Reg := ⟨102, 0x3001000, [(6, 0x40)], 0, [TBL_CMD.op, TBL_CMD.index, TBL_CMD.by_index, TBL_CMD.longest]⟩
def TBL_STATUS.busy : Fld := ⟨255, 0, 1, .ro, .val 0, .any, .installer⟩
def TBL_STATUS.result : Fld := ⟨256, 4, 4, .ro, .val 0, .any, .installer⟩
def TBL_STATUS.index : Fld := ⟨257, 8, 21, .ro, .val 0, .any, .installer⟩
/-- TBL_STATUS. -/
def rTBL_STATUS : Reg := ⟨103, 0x3001004, [(6, 0x40)], 0, [TBL_STATUS.busy, TBL_STATUS.result, TBL_STATUS.index]⟩
def TBL_MOVE_DEST.dest : Fld := ⟨258, 0, 21, .rw, .val 0, .any, .installer⟩
/-- TBL_MOVE_DEST. -/
def rTBL_MOVE_DEST : Reg := ⟨104, 0x3001008, [(6, 0x40)], 0, [TBL_MOVE_DEST.dest]⟩
def TBL_DATA.data : Fld := ⟨259, 0, 32, .rw, .val 0, .any, .installer⟩
/-- TBL_DATA. -/
def rTBL_DATA : Reg := ⟨105, 0x3001010, [(6, 0x40), (8, 0x4)], 0, [TBL_DATA.data]⟩
def TBL_PORT_CFG.pvid : Fld := ⟨260, 0, 12, .rw, .val 1, .any, .installer⟩
def TBL_PORT_CFG.learn_en : Fld := ⟨261, 12, 1, .rw, .val 1, .any, .installer⟩
/-- TBL_PORT_CFG. -/
def rTBL_PORT_CFG : Reg := ⟨106, 0x3004000, [(1024, 0x4)], 0, [TBL_PORT_CFG.pvid, TBL_PORT_CFG.learn_en]⟩
def BUF_RX_CFG.rx_pool : Fld := ⟨262, 0, 10, .st, .val 64, .any, .installer⟩
def BUF_RX_CFG.rx_early : Fld := ⟨263, 10, 10, .st, .val 16, .any, .installer⟩
/-- BUF_RX_CFG. -/
def rBUF_RX_CFG : Reg := ⟨107, 0x1000000, [], 0, [BUF_RX_CFG.rx_pool, BUF_RX_CFG.rx_early]⟩
def BUF_SNAPSHOT.snap : Fld := ⟨264, 0, 1, .wo, .val 0, .any, .watcher⟩
/-- BUF_SNAPSHOT. -/
def rBUF_SNAPSHOT : Reg := ⟨108, 0x1000004, [], 0, [BUF_SNAPSHOT.snap]⟩
def BUF_FREE.free : Fld := ⟨265, 0, 21, .ro, .val 1048576, .any, .installer⟩
/-- BUF_FREE. -/
def rBUF_FREE : Reg := ⟨109, 0x1000008, [], 0, [BUF_FREE.free]⟩
def BUF_REGION_RX.rx_region : Fld := ⟨266, 0, 21, .ro, .val 0, .any, .installer⟩
/-- BUF_REGION_RX. -/
def rBUF_REGION_RX : Reg := ⟨110, 0x100000C, [], 0, [BUF_REGION_RX.rx_region]⟩
def BUF_REGION_RES.reserve_total : Fld := ⟨267, 0, 21, .ro, .val 0, .any, .installer⟩
/-- BUF_REGION_RES. -/
def rBUF_REGION_RES : Reg := ⟨111, 0x1000010, [], 0, [BUF_REGION_RES.reserve_total]⟩
def BUF_SHARED.shared_free : Fld := ⟨268, 0, 21, .ro, .val 0, .any, .installer⟩
/-- BUF_SHARED. -/
def rBUF_SHARED : Reg := ⟨112, 0x1000014, [], 0, [BUF_SHARED.shared_free]⟩
def BUF_HARVEST_CFG.harvest_period : Fld := ⟨269, 0, 10, .rw, .val 100, .range 10 1000, .installer⟩
def BUF_HARVEST_CFG.harvest_enable : Fld := ⟨270, 10, 1, .rw, .val 1, .any, .installer⟩
/-- BUF_HARVEST_CFG. -/
def rBUF_HARVEST_CFG : Reg := ⟨113, 0x1000018, [], 0, [BUF_HARVEST_CFG.harvest_period, BUF_HARVEST_CFG.harvest_enable]⟩
def BUF_HARVEST_STATUS.last_reclaimed : Fld := ⟨271, 0, 21, .ro, .val 0, .any, .installer⟩
def BUF_HARVEST_STATUS.sweeps : Fld := ⟨272, 21, 11, .ro, .val 0, .any, .installer⟩
/-- BUF_HARVEST_STATUS. -/
def rBUF_HARVEST_STATUS : Reg := ⟨114, 0x100001C, [], 0, [BUF_HARVEST_STATUS.last_reclaimed, BUF_HARVEST_STATUS.sweeps]⟩
def BUF_EVT.ev_ecc_uncorr : Fld := ⟨273, 0, 1, .w1c, .val 0, .any, .installer⟩
def BUF_EVT.ev_leak : Fld := ⟨274, 1, 1, .w1c, .val 0, .any, .installer⟩
def BUF_EVT.ev_retire : Fld := ⟨275, 2, 1, .w1c, .val 0, .any, .installer⟩
def BUF_EVT.ev_adm_drop : Fld := ⟨276, 3, 1, .w1c, .val 0, .any, .installer⟩
def BUF_EVT.ev_hold : Fld := ⟨277, 4, 1, .w1c, .val 0, .any, .installer⟩
/-- BUF_EVT. -/
def rBUF_EVT : Reg := ⟨115, 0x1000020, [], 0, [BUF_EVT.ev_ecc_uncorr, BUF_EVT.ev_leak, BUF_EVT.ev_retire, BUF_EVT.ev_adm_drop, BUF_EVT.ev_hold]⟩
def BUF_ECC_LOG.bank : Fld := ⟨278, 0, 9, .ro, .val 0, .any, .installer⟩
def BUF_ECC_LOG.row : Fld := ⟨279, 9, 13, .ro, .val 0, .any, .installer⟩
def BUF_ECC_LOG.kind : Fld := ⟨280, 22, 2, .ro, .val 0, .any, .installer⟩
def BUF_ECC_LOG.count : Fld := ⟨281, 24, 8, .ro, .val 0, .any, .installer⟩
/-- BUF_ECC_LOG. -/
def rBUF_ECC_LOG : Reg := ⟨116, 0x1000024, [], 0, [BUF_ECC_LOG.bank, BUF_ECC_LOG.row, BUF_ECC_LOG.kind, BUF_ECC_LOG.count]⟩
def BUF_RETIRED.retired : Fld := ⟨282, 0, 21, .ro, .val 0, .any, .installer⟩
/-- BUF_RETIRED. -/
def rBUF_RETIRED : Reg := ⟨117, 0x1000028, [], 0, [BUF_RETIRED.retired]⟩
def BUF_Q_SEL.kind : Fld := ⟨283, 0, 2, .rw, .val 0, .any, .watcher⟩
def BUF_Q_SEL.index : Fld := ⟨284, 2, 18, .rw, .val 0, .any, .watcher⟩
/-- BUF_Q_SEL. -/
def rBUF_Q_SEL : Reg := ⟨118, 0x100002C, [], 0, [BUF_Q_SEL.kind, BUF_Q_SEL.index]⟩
def BUF_Q_CELLS.cells : Fld := ⟨285, 0, 21, .ro, .val 0, .any, .installer⟩
/-- BUF_Q_CELLS. -/
def rBUF_Q_CELLS : Reg := ⟨119, 0x1000030, [], 0, [BUF_Q_CELLS.cells]⟩
def BUF_QPROF.alpha : Fld := ⟨286, 0, 4, .rw, .val 8, .range 0 11, .installer⟩
def BUF_QPROF.max_cells : Fld := ⟨287, 4, 21, .rw, .val 0, .any, .installer⟩
/-- BUF_QPROF. -/
def rBUF_QPROF : Reg := ⟨120, 0x1000040, [(16, 0x4)], 0, [BUF_QPROF.alpha, BUF_QPROF.max_cells]⟩
def BUF_PORT_CFG.link_hold : Fld := ⟨288, 0, 10, .rw, .val 0, .range 0 1000, .installer⟩
def BUF_PORT_CFG.port_max : Fld := ⟨289, 10, 21, .rw, .val 0, .any, .installer⟩
/-- BUF_PORT_CFG. -/
def rBUF_PORT_CFG : Reg := ⟨121, 0x1001000, [(1024, 0x20)], 0, [BUF_PORT_CFG.link_hold, BUF_PORT_CFG.port_max]⟩
def BUF_PORT_RESERVE.reserve : Fld := ⟨290, 0, 16, .st, .val 0, .any, .installer⟩
/-- BUF_PORT_RESERVE. -/
def rBUF_PORT_RESERVE : Reg := ⟨122, 0x1001004, [(1024, 0x20)], 0, [BUF_PORT_RESERVE.reserve]⟩
def BUF_PORT_PG.pcp_to_pg : Fld := ⟨291, 0, 24, .rw, .val 16434824, .any, .installer⟩
def BUF_PORT_PG.default_pg : Fld := ⟨292, 24, 3, .rw, .val 0, .any, .installer⟩
/-- BUF_PORT_PG. -/
def rBUF_PORT_PG : Reg := ⟨123, 0x1001008, [(1024, 0x20)], 0, [BUF_PORT_PG.pcp_to_pg, BUF_PORT_PG.default_pg]⟩
def BUF_PORT_PG_ALPHA.alpha_in : Fld := ⟨293, 0, 32, .rw, .val 2863311530, .any, .installer⟩
/-- BUF_PORT_PG_ALPHA. -/
def rBUF_PORT_PG_ALPHA : Reg := ⟨124, 0x100100C, [(1024, 0x20)], 0, [BUF_PORT_PG_ALPHA.alpha_in]⟩
def BUF_PORT_STATUS.hold_state : Fld := ⟨294, 0, 2, .ro, .val 2, .any, .installer⟩
def BUF_PORT_STATUS.hold_left : Fld := ⟨295, 2, 10, .ro, .val 0, .any, .installer⟩
/-- BUF_PORT_STATUS. -/
def rBUF_PORT_STATUS : Reg := ⟨125, 0x1001010, [(1024, 0x20)], 0, [BUF_PORT_STATUS.hold_state, BUF_PORT_STATUS.hold_left]⟩
def BUF_PORT_EG_CELLS.cells : Fld := ⟨296, 0, 21, .ro, .val 0, .any, .installer⟩
/-- BUF_PORT_EG_CELLS. -/
def rBUF_PORT_EG_CELLS : Reg := ⟨126, 0x1001014, [(1024, 0x20)], 0, [BUF_PORT_EG_CELLS.cells]⟩
def BUF_PORT_RES_CELLS.cells : Fld := ⟨297, 0, 21, .ro, .val 0, .any, .installer⟩
/-- BUF_PORT_RES_CELLS. -/
def rBUF_PORT_RES_CELLS : Reg := ⟨127, 0x1001018, [(1024, 0x20)], 0, [BUF_PORT_RES_CELLS.cells]⟩
def BUF_PORT_IN_CELLS.cells : Fld := ⟨298, 0, 21, .ro, .val 0, .any, .installer⟩
/-- BUF_PORT_IN_CELLS. -/
def rBUF_PORT_IN_CELLS : Reg := ⟨128, 0x100101C, [(1024, 0x20)], 0, [BUF_PORT_IN_CELLS.cells]⟩
def BUF_NODE_PROF.prof : Fld := ⟨299, 0, 32, .rw, .val 0, .any, .installer⟩
/-- BUF_NODE_PROF. -/
def rBUF_NODE_PROF : Reg := ⟨129, 0x1040000, [(32768, 0x4)], 0, [BUF_NODE_PROF.prof]⟩
def BUF_MCQ_PROF.prof : Fld := ⟨300, 0, 32, .rw, .val 0, .any, .installer⟩
/-- BUF_MCQ_PROF. -/
def rBUF_MCQ_PROF : Reg := ⟨130, 0x1060000, [(256, 0x4)], 0, [BUF_MCQ_PROF.prof]⟩
def SCH_CTRL.sample_enable : Fld := ⟨301, 0, 1, .rw, .val 1, .any, .installer⟩
def SCH_CTRL.sample_scope : Fld := ⟨302, 1, 1, .rw, .val 0, .any, .installer⟩
/-- SCH_CTRL. -/
def rSCH_CTRL : Reg := ⟨131, 0x2000000, [], 0, [SCH_CTRL.sample_enable, SCH_CTRL.sample_scope]⟩
def SCH_SNAPSHOT.snap : Fld := ⟨303, 0, 1, .wo, .val 0, .any, .watcher⟩
/-- SCH_SNAPSHOT. -/
def rSCH_SNAPSHOT : Reg := ⟨132, 0x2000004, [], 0, [SCH_SNAPSHOT.snap]⟩
def SCH_SAMPLE_CFG.period : Fld := ⟨304, 0, 20, .rw, .val 1000, .range 1 1000000, .installer⟩
/-- SCH_SAMPLE_CFG. -/
def rSCH_SAMPLE_CFG : Reg := ⟨133, 0x2000008, [], 0, [SCH_SAMPLE_CFG.period]⟩
def SCH_SAMPLE_STATUS.eff_period : Fld := ⟨305, 0, 20, .ro, .val 0, .any, .installer⟩
def SCH_SAMPLE_STATUS.overrun : Fld := ⟨306, 20, 1, .ro, .val 0, .any, .installer⟩
/-- SCH_SAMPLE_STATUS. -/
def rSCH_SAMPLE_STATUS : Reg := ⟨134, 0x200000C, [], 0, [SCH_SAMPLE_STATUS.eff_period, SCH_SAMPLE_STATUS.overrun]⟩
def SCH_EVT.ev_gcl_switch : Fld := ⟨307, 0, 1, .w1c, .val 0, .any, .installer⟩
def SCH_EVT.ev_gcl_step : Fld := ⟨308, 1, 1, .w1c, .val 0, .any, .installer⟩
def SCH_EVT.ev_gate_carry : Fld := ⟨309, 2, 1, .w1c, .val 0, .any, .installer⟩
def SCH_EVT.ev_sample_overrun : Fld := ⟨310, 3, 1, .w1c, .val 0, .any, .installer⟩
def SCH_EVT.ev_node_mismatch : Fld := ⟨311, 4, 1, .w1c, .val 0, .any, .installer⟩
def SCH_EVT.ev_over_contract : Fld := ⟨312, 5, 1, .w1c, .val 0, .any, .installer⟩
/-- SCH_EVT. -/
def rSCH_EVT : Reg := ⟨135, 0x2000010, [], 0, [SCH_EVT.ev_gcl_switch, SCH_EVT.ev_gcl_step, SCH_EVT.ev_gate_carry, SCH_EVT.ev_sample_overrun, SCH_EVT.ev_node_mismatch, SCH_EVT.ev_over_contract]⟩
def SCH_WHEEL_STATUS.max_lag : Fld := ⟨313, 0, 16, .rc, .val 0, .any, .installer⟩
/-- SCH_WHEEL_STATUS. -/
def rSCH_WHEEL_STATUS : Reg := ⟨136, 0x2000014, [], 0, [SCH_WHEEL_STATUS.max_lag]⟩
def SCH_Q_SEL.kind : Fld := ⟨314, 0, 2, .rw, .val 0, .any, .watcher⟩
def SCH_Q_SEL.index : Fld := ⟨315, 2, 18, .rw, .val 0, .any, .watcher⟩
/-- SCH_Q_SEL. -/
def rSCH_Q_SEL : Reg := ⟨137, 0x2000018, [], 0, [SCH_Q_SEL.kind, SCH_Q_SEL.index]⟩
def SCH_Q_CLEAR.clear : Fld := ⟨316, 0, 1, .wo, .val 0, .any, .operator⟩
/-- SCH_Q_CLEAR. -/
def rSCH_Q_CLEAR : Reg := ⟨138, 0x200001C, [], 0, [SCH_Q_CLEAR.clear]⟩
def SCH_Q_DEPTH.cells : Fld := ⟨317, 0, 21, .ro, .val 0, .any, .installer⟩
/-- SCH_Q_DEPTH. -/
def rSCH_Q_DEPTH : Reg := ⟨139, 0x2000020, [(3, 0x4)], 0, [SCH_Q_DEPTH.cells]⟩
def SCH_Q_SOJ.ns : Fld := ⟨318, 0, 32, .ro, .val 0, .any, .installer⟩
/-- SCH_Q_SOJ. -/
def rSCH_Q_SOJ : Reg := ⟨140, 0x200002C, [(3, 0x4)], 0, [SCH_Q_SOJ.ns]⟩
def SCH_SUB_W0.parent : Fld := ⟨319, 0, 12, .st, .div 8, .any, .installer⟩
def SCH_SUB_W0.ex_weight : Fld := ⟨320, 12, 8, .rw, .val 1, .range 1 255, .installer⟩
def SCH_SUB_W0.adm : Fld := ⟨321, 20, 1, .ro, .val 0, .any, .installer⟩
/-- SCH_SUB_W0. -/
def rSCH_SUB_W0 : Reg := ⟨141, 0x2100000, [(32768, 0x20)], 0, [SCH_SUB_W0.parent, SCH_SUB_W0.ex_weight, SCH_SUB_W0.adm]⟩
def SCH_SUB_W1.min_rate : Fld := ⟨322, 0, 32, .rw, .val 0, .rate, .installer⟩
/-- SCH_SUB_W1. -/
def rSCH_SUB_W1 : Reg := ⟨142, 0x2100004, [(32768, 0x20)], 0, [SCH_SUB_W1.min_rate]⟩
def SCH_SUB_W2.min_burst : Fld := ⟨323, 0, 24, .rw, .val 0, .any, .installer⟩
/-- SCH_SUB_W2. -/
def rSCH_SUB_W2 : Reg := ⟨143, 0x2100008, [(32768, 0x20)], 0, [SCH_SUB_W2.min_burst]⟩
def SCH_SUB_W3.max_rate : Fld := ⟨324, 0, 32, .rw, .val 0, .rate, .installer⟩
/-- SCH_SUB_W3. -/
def rSCH_SUB_W3 : Reg := ⟨144, 0x210000C, [(32768, 0x20)], 0, [SCH_SUB_W3.max_rate]⟩
def SCH_SUB_W4.max_burst : Fld := ⟨325, 0, 24, .rw, .val 0, .any, .installer⟩
/-- SCH_SUB_W4. -/
def rSCH_SUB_W4 : Reg := ⟨145, 0x2100010, [(32768, 0x20)], 0, [SCH_SUB_W4.max_burst]⟩
def SCH_SUB_W5.weight2 : Fld := ⟨326, 0, 8, .rw, .val 1, .range 1 255, .installer⟩
def SCH_SUB_W5.weight3 : Fld := ⟨327, 8, 8, .rw, .val 1, .range 1 255, .installer⟩
def SCH_SUB_W5.weight4 : Fld := ⟨328, 16, 8, .rw, .val 1, .range 1 255, .installer⟩
def SCH_SUB_W5.weight5 : Fld := ⟨329, 24, 8, .rw, .val 1, .range 1 255, .installer⟩
/-- SCH_SUB_W5. -/
def rSCH_SUB_W5 : Reg := ⟨146, 0x2100014, [(32768, 0x20)], 0, [SCH_SUB_W5.weight2, SCH_SUB_W5.weight3, SCH_SUB_W5.weight4, SCH_SUB_W5.weight5]⟩
def SCH_SUB_W6.weight6 : Fld := ⟨330, 0, 8, .rw, .val 1, .range 1 255, .installer⟩
def SCH_SUB_W6.weight7 : Fld := ⟨331, 8, 8, .rw, .val 1, .range 1 255, .installer⟩
def SCH_SUB_W6.quantum : Fld := ⟨332, 16, 12, .rw, .val 24, .range 1 4095, .installer⟩
/-- SCH_SUB_W6. -/
def rSCH_SUB_W6 : Reg := ⟨147, 0x2100018, [(32768, 0x20)], 0, [SCH_SUB_W6.weight6, SCH_SUB_W6.weight7, SCH_SUB_W6.quantum]⟩
def SCH_SUB_W7.min_conf : Fld := ⟨333, 0, 1, .ro, .val 0, .any, .installer⟩
def SCH_SUB_W7.max_conf : Fld := ⟨334, 1, 1, .ro, .val 1, .any, .installer⟩
def SCH_SUB_W7.backlog : Fld := ⟨335, 2, 1, .ro, .val 0, .any, .installer⟩
def SCH_SUB_W7.on_wheel : Fld := ⟨336, 3, 1, .ro, .val 0, .any, .installer⟩
/-- SCH_SUB_W7. -/
def rSCH_SUB_W7 : Reg := ⟨148, 0x210001C, [(32768, 0x20)], 0, [SCH_SUB_W7.min_conf, SCH_SUB_W7.max_conf, SCH_SUB_W7.backlog, SCH_SUB_W7.on_wheel]⟩
def SCH_SVC_W0.port : Fld := ⟨337, 0, 10, .st, .div 4, .any, .installer⟩
def SCH_SVC_W0.ex_weight : Fld := ⟨338, 10, 8, .rw, .val 1, .range 1 255, .installer⟩
/-- SCH_SVC_W0. -/
def rSCH_SVC_W0 : Reg := ⟨149, 0x2200000, [(4096, 0x20)], 0, [SCH_SVC_W0.port, SCH_SVC_W0.ex_weight]⟩
def SCH_SVC_W1.min_rate : Fld := ⟨339, 0, 32, .rw, .val 0, .rate, .installer⟩
/-- SCH_SVC_W1. -/
def rSCH_SVC_W1 : Reg := ⟨150, 0x2200004, [(4096, 0x20)], 0, [SCH_SVC_W1.min_rate]⟩
def SCH_SVC_W2.min_burst : Fld := ⟨340, 0, 24, .rw, .val 0, .any, .installer⟩
/-- SCH_SVC_W2. -/
def rSCH_SVC_W2 : Reg := ⟨151, 0x2200008, [(4096, 0x20)], 0, [SCH_SVC_W2.min_burst]⟩
def SCH_SVC_W3.max_rate : Fld := ⟨341, 0, 32, .rw, .val 0, .rate, .installer⟩
/-- SCH_SVC_W3. -/
def rSCH_SVC_W3 : Reg := ⟨152, 0x220000C, [(4096, 0x20)], 0, [SCH_SVC_W3.max_rate]⟩
def SCH_SVC_W4.max_burst : Fld := ⟨342, 0, 24, .rw, .val 0, .any, .installer⟩
/-- SCH_SVC_W4. -/
def rSCH_SVC_W4 : Reg := ⟨153, 0x2200010, [(4096, 0x20)], 0, [SCH_SVC_W4.max_burst]⟩
def SCH_SVC_W5.min_conf : Fld := ⟨343, 0, 1, .ro, .val 0, .any, .installer⟩
def SCH_SVC_W5.max_conf : Fld := ⟨344, 1, 1, .ro, .val 1, .any, .installer⟩
def SCH_SVC_W5.backlog : Fld := ⟨345, 2, 1, .ro, .val 0, .any, .installer⟩
def SCH_SVC_W5.on_wheel : Fld := ⟨346, 3, 1, .ro, .val 0, .any, .installer⟩
/-- SCH_SVC_W5. -/
def rSCH_SVC_W5 : Reg := ⟨154, 0x2200014, [(4096, 0x20)], 0, [SCH_SVC_W5.min_conf, SCH_SVC_W5.max_conf, SCH_SVC_W5.backlog, SCH_SVC_W5.on_wheel]⟩
def SCH_PORT_W0.default_node : Fld := ⟨347, 0, 15, .rw, .mul 32, .any, .installer⟩
def SCH_PORT_W0.default_queue : Fld := ⟨348, 15, 3, .rw, .val 2, .any, .installer⟩
def SCH_PORT_W0.node_quantum : Fld := ⟨349, 18, 12, .rw, .val 24, .range 1 4095, .installer⟩
/-- SCH_PORT_W0. -/
def rSCH_PORT_W0 : Reg := ⟨155, 0x2240000, [(1024, 0x40)], 0, [SCH_PORT_W0.default_node, SCH_PORT_W0.default_queue, SCH_PORT_W0.node_quantum]⟩
def SCH_PORT_W1.pcp_to_queue : Fld := ⟨350, 0, 24, .rw, .val 16434834, .any, .installer⟩
/-- SCH_PORT_W1. -/
def rSCH_PORT_W1 : Reg := ⟨156, 0x2240004, [(1024, 0x40)], 0, [SCH_PORT_W1.pcp_to_queue]⟩
def SCH_PORT_W2.gate_enable : Fld := ⟨351, 0, 1, .st, .val 0, .any, .installer⟩
def SCH_PORT_W2.gate_tb : Fld := ⟨352, 1, 3, .st, .val 0, .any, .installer⟩
def SCH_PORT_W2.active_list : Fld := ⟨353, 4, 1, .st, .val 0, .any, .installer⟩
def SCH_PORT_W2.gcl_len : Fld := ⟨354, 5, 11, .st, .val 1, .any, .installer⟩
/-- SCH_PORT_W2. -/
def rSCH_PORT_W2 : Reg := ⟨157, 0x2240008, [(1024, 0x40)], 0, [SCH_PORT_W2.gate_enable, SCH_PORT_W2.gate_tb, SCH_PORT_W2.active_list, SCH_PORT_W2.gcl_len]⟩
def SCH_PORT_W3.gate_cycle : Fld := ⟨355, 0, 30, .st, .val 1000000, .any, .installer⟩
/-- SCH_PORT_W3. -/
def rSCH_PORT_W3 : Reg := ⟨158, 0x224000C, [(1024, 0x40)], 0, [SCH_PORT_W3.gate_cycle]⟩
def SCH_PORT_W4.gate_base_lo : Fld := ⟨356, 0, 32, .st, .val 0, .any, .installer⟩
/-- SCH_PORT_W4. -/
def rSCH_PORT_W4 : Reg := ⟨159, 0x2240010, [(1024, 0x40)], 0, [SCH_PORT_W4.gate_base_lo]⟩
def SCH_PORT_W5.gate_base_hi : Fld := ⟨357, 0, 32, .st, .val 0, .any, .installer⟩
/-- SCH_PORT_W5. -/
def rSCH_PORT_W5 : Reg := ⟨160, 0x2240014, [(1024, 0x40)], 0, [SCH_PORT_W5.gate_base_hi]⟩
def SCH_PORT_W6.paused : Fld := ⟨358, 0, 1, .ro, .val 0, .any, .installer⟩
def SCH_PORT_W6.pause_cause : Fld := ⟨359, 1, 3, .ro, .val 0, .any, .installer⟩
def SCH_PORT_W6.list_pending : Fld := ⟨360, 4, 1, .ro, .val 0, .any, .installer⟩
/-- SCH_PORT_W6. -/
def rSCH_PORT_W6 : Reg := ⟨161, 0x2240018, [(1024, 0x40)], 0, [SCH_PORT_W6.paused, SCH_PORT_W6.pause_cause, SCH_PORT_W6.list_pending]⟩
def SCH_PORT_W7.entry : Fld := ⟨361, 0, 10, .ro, .val 0, .any, .installer⟩
def SCH_PORT_W7.open_ : Fld := ⟨362, 10, 4, .ro, .val 0, .any, .installer⟩
/-- SCH_PORT_W7. -/
def rSCH_PORT_W7 : Reg := ⟨162, 0x224001C, [(1024, 0x40)], 0, [SCH_PORT_W7.entry, SCH_PORT_W7.open_]⟩
def SCH_WATCH.kind : Fld := ⟨363, 0, 2, .rw, .val 0, .any, .installer⟩
def SCH_WATCH.index : Fld := ⟨364, 2, 18, .rw, .val 0, .any, .installer⟩
def SCH_WATCH.scale : Fld := ⟨365, 20, 4, .rw, .val 0, .any, .installer⟩
def SCH_WATCH.enable : Fld := ⟨366, 24, 1, .rw, .val 0, .any, .installer⟩
/-- SCH_WATCH. -/
def rSCH_WATCH : Reg := ⟨163, 0x2260000, [(4096, 0x4)], 0, [SCH_WATCH.kind, SCH_WATCH.index, SCH_WATCH.scale, SCH_WATCH.enable]⟩
def SCH_GCL.duration : Fld := ⟨367, 0, 24, .rw, .val 0, .any, .installer⟩
def SCH_GCL.open_ : Fld := ⟨368, 24, 4, .rw, .val 0, .any, .installer⟩
/-- SCH_GCL. -/
def rSCH_GCL : Reg := ⟨164, 0x2400000, [(1024, 0x2000), (2, 0x1000), (1024, 0x4)], 0, [SCH_GCL.duration, SCH_GCL.open_]⟩
def SCH_POL_W0.cir : Fld := ⟨369, 0, 32, .rw, .val 0, .any, .installer⟩
/-- SCH_POL_W0. -/
def rSCH_POL_W0 : Reg := ⟨165, 0x2C00000, [(65536, 0x40)], 0, [SCH_POL_W0.cir]⟩
def SCH_POL_W1.cbs : Fld := ⟨370, 0, 24, .rw, .val 0, .any, .installer⟩
/-- SCH_POL_W1. -/
def rSCH_POL_W1 : Reg := ⟨166, 0x2C00004, [(65536, 0x40)], 0, [SCH_POL_W1.cbs]⟩
def SCH_POL_W2.pir : Fld := ⟨371, 0, 32, .rw, .val 0, .any, .installer⟩
/-- SCH_POL_W2. -/
def rSCH_POL_W2 : Reg := ⟨167, 0x2C00008, [(65536, 0x40)], 0, [SCH_POL_W2.pir]⟩
def SCH_POL_W3.pbs : Fld := ⟨372, 0, 24, .rw, .val 0, .any, .installer⟩
/-- SCH_POL_W3. -/
def rSCH_POL_W3 : Reg := ⟨168, 0x2C0000C, [(65536, 0x40)], 0, [SCH_POL_W3.pbs]⟩
def SCH_POL_W4.enable : Fld := ⟨373, 0, 1, .rw, .val 0, .any, .installer⟩
def SCH_POL_W4.yellow_action : Fld := ⟨374, 1, 2, .rw, .val 0, .range 0 2, .installer⟩
def SCH_POL_W4.red_action : Fld := ⟨375, 3, 2, .rw, .val 2, .range 0 2, .installer⟩
def SCH_POL_W4.demote_queue : Fld := ⟨376, 5, 3, .rw, .val 2, .range 2 7, .installer⟩
def SCH_POL_W4.max_charge : Fld := ⟨377, 8, 15, .rw, .val 1518, .any, .installer⟩
def SCH_POL_W4.bound : Fld := ⟨378, 23, 1, .ro, .val 0, .any, .installer⟩
/-- SCH_POL_W4. -/
def rSCH_POL_W4 : Reg := ⟨169, 0x2C00010, [(65536, 0x40)], 0, [SCH_POL_W4.enable, SCH_POL_W4.yellow_action, SCH_POL_W4.red_action, SCH_POL_W4.demote_queue, SCH_POL_W4.max_charge, SCH_POL_W4.bound]⟩
def SCH_POL_W5.c_tokens : Fld := ⟨379, 0, 25, .ro, .val 0, .any, .installer⟩
/-- SCH_POL_W5. -/
def rSCH_POL_W5 : Reg := ⟨170, 0x2C00014, [(65536, 0x40)], 0, [SCH_POL_W5.c_tokens]⟩
def SCH_POL_W6.p_tokens : Fld := ⟨380, 0, 25, .ro, .val 0, .any, .installer⟩
/-- SCH_POL_W6. -/
def rSCH_POL_W6 : Reg := ⟨171, 0x2C00018, [(65536, 0x40)], 0, [SCH_POL_W6.p_tokens]⟩
def FAB_CTRL.device_id : Fld := ⟨381, 0, 12, .st, .val 0, .any, .installer⟩
def FAB_CTRL.stamp_tb : Fld := ⟨382, 12, 3, .st, .val 1, .any, .installer⟩
def FAB_CTRL.hop_limit : Fld := ⟨383, 15, 6, .rw, .val 32, .range 1 63, .installer⟩
/-- FAB_CTRL. -/
def rFAB_CTRL : Reg := ⟨172, 0xA00000, [], 0, [FAB_CTRL.device_id, FAB_CTRL.stamp_tb, FAB_CTRL.hop_limit]⟩
def FAB_SNAPSHOT.snap : Fld := ⟨384, 0, 1, .wo, .val 0, .any, .watcher⟩
/-- FAB_SNAPSHOT. -/
def rFAB_SNAPSHOT : Reg := ⟨173, 0xA00004, [], 0, [FAB_SNAPSHOT.snap]⟩
def FAB_EVT.ev_rsq : Fld := ⟨385, 0, 1, .w1c, .val 0, .any, .installer⟩
def FAB_EVT.ev_bundle : Fld := ⟨386, 1, 1, .w1c, .val 0, .any, .installer⟩
def FAB_EVT.ev_round : Fld := ⟨387, 2, 1, .w1c, .val 0, .any, .installer⟩
def FAB_EVT.ev_pg : Fld := ⟨388, 3, 1, .w1c, .val 0, .any, .installer⟩
def FAB_EVT.ev_tag : Fld := ⟨389, 4, 1, .w1c, .val 0, .any, .installer⟩
/-- FAB_EVT. -/
def rFAB_EVT : Reg := ⟨174, 0xA00008, [], 0, [FAB_EVT.ev_rsq, FAB_EVT.ev_bundle, FAB_EVT.ev_round, FAB_EVT.ev_pg, FAB_EVT.ev_tag]⟩
def FAB_RSQ_CFG.rsq_timeout : Fld := ⟨390, 0, 10, .st, .val 40, .range 1 1000, .installer⟩
def FAB_RSQ_CFG.reset_idle : Fld := ⟨391, 10, 10, .rw, .val 100, .range 1 1000, .installer⟩
/-- FAB_RSQ_CFG. -/
def rFAB_RSQ_CFG : Reg := ⟨175, 0xA0000C, [], 0, [FAB_RSQ_CFG.rsq_timeout, FAB_RSQ_CFG.reset_idle]⟩
def FAB_PG_CFG.group_id : Fld := ⟨392, 0, 16, .st, .val 0, .any, .installer⟩
def FAB_PG_CFG.pg_enable : Fld := ⟨393, 16, 1, .st, .val 0, .any, .installer⟩
/-- FAB_PG_CFG. -/
def rFAB_PG_CFG : Reg := ⟨176, 0xA00010, [], 0, [FAB_PG_CFG.group_id, FAB_PG_CFG.pg_enable]⟩
def FAB_PG_STATUS.members : Fld := ⟨394, 0, 9, .ro, .val 0, .any, .installer⟩
def FAB_PG_STATUS.pending : Fld := ⟨395, 9, 4, .ro, .val 0, .any, .installer⟩
def FAB_PG_STATUS.own_slack : Fld := ⟨396, 16, 8, .ro, .val 0, .any, .installer⟩
/-- FAB_PG_STATUS. -/
def rFAB_PG_STATUS : Reg := ⟨177, 0xA00014, [], 0, [FAB_PG_STATUS.members, FAB_PG_STATUS.pending, FAB_PG_STATUS.own_slack]⟩
def FAB_ROUND_W0.enable : Fld := ⟨397, 0, 1, .st, .val 0, .any, .installer⟩
def FAB_ROUND_W0.tb : Fld := ⟨398, 1, 3, .st, .val 0, .any, .installer⟩
def FAB_ROUND_W0.ev_en : Fld := ⟨399, 4, 1, .rw, .val 0, .any, .installer⟩
def FAB_ROUND_W0.mark_en : Fld := ⟨400, 5, 1, .rw, .val 0, .any, .installer⟩
/-- FAB_ROUND_W0. -/
def rFAB_ROUND_W0 : Reg := ⟨178, 0xA00100, [(16, 0x20)], 0, [FAB_ROUND_W0.enable, FAB_ROUND_W0.tb, FAB_ROUND_W0.ev_en, FAB_ROUND_W0.mark_en]⟩
def FAB_ROUND_W1.period : Fld := ⟨401, 0, 30, .st, .val 500000, .any, .installer⟩
/-- FAB_ROUND_W1. -/
def rFAB_ROUND_W1 : Reg := ⟨179, 0xA00104, [(16, 0x20)], 0, [FAB_ROUND_W1.period]⟩
def FAB_ROUND_W2.base_lo : Fld := ⟨402, 0, 32, .st, .val 0, .any, .installer⟩
/-- FAB_ROUND_W2. -/
def rFAB_ROUND_W2 : Reg := ⟨180, 0xA00108, [(16, 0x20)], 0, [FAB_ROUND_W2.base_lo]⟩
def FAB_ROUND_W3.base_hi : Fld := ⟨403, 0, 32, .st, .val 0, .any, .installer⟩
/-- FAB_ROUND_W3. -/
def rFAB_ROUND_W3 : Reg := ⟨181, 0xA0010C, [(16, 0x20)], 0, [FAB_ROUND_W3.base_hi]⟩
def FAB_ROUND_W4.boundary_num : Fld := ⟨404, 0, 32, .ro, .val 0, .any, .installer⟩
/-- FAB_ROUND_W4. -/
def rFAB_ROUND_W4 : Reg := ⟨182, 0xA00110, [(16, 0x20)], 0, [FAB_ROUND_W4.boundary_num]⟩
def FAB_ROUND_W5.last_lo : Fld := ⟨405, 0, 32, .ro, .val 0, .any, .installer⟩
/-- FAB_ROUND_W5. -/
def rFAB_ROUND_W5 : Reg := ⟨183, 0xA00114, [(16, 0x20)], 0, [FAB_ROUND_W5.last_lo]⟩
def FAB_ROUND_W6.last_hi : Fld := ⟨406, 0, 32, .ro, .val 0, .any, .installer⟩
/-- FAB_ROUND_W6. -/
def rFAB_ROUND_W6 : Reg := ⟨184, 0xA00118, [(16, 0x20)], 0, [FAB_ROUND_W6.last_hi]⟩
def FAB_PORT.bundle : Fld := ⟨407, 0, 7, .st, .val 0, .any, .installer⟩
def FAB_PORT.in_mask : Fld := ⟨408, 7, 1, .ro, .val 0, .any, .installer⟩
def FAB_PORT.peer_group : Fld := ⟨409, 8, 16, .ro, .val 0, .any, .installer⟩
/-- FAB_PORT. -/
def rFAB_PORT : Reg := ⟨185, 0xA01000, [(1024, 0x4)], 0, [FAB_PORT.bundle, FAB_PORT.in_mask, FAB_PORT.peer_group]⟩
def FAB_BUNDLE.lead : Fld := ⟨410, 0, 10, .ro, .val 0, .any, .installer⟩
def FAB_BUNDLE.members : Fld := ⟨411, 10, 4, .ro, .val 0, .any, .installer⟩
def FAB_BUNDLE.usable : Fld := ⟨412, 14, 4, .ro, .val 0, .any, .installer⟩
/-- FAB_BUNDLE. -/
def rFAB_BUNDLE : Reg := ⟨186, 0xA02000, [(128, 0x4)], 0, [FAB_BUNDLE.lead, FAB_BUNDLE.members, FAB_BUNDLE.usable]⟩
def FAB_STREAM_W0.ctx : Fld := ⟨413, 0, 14, .st, .val 0, .any, .installer⟩
def FAB_STREAM_W0.ctx_en : Fld := ⟨414, 14, 1, .st, .val 0, .any, .installer⟩
def FAB_STREAM_W0.round : Fld := ⟨415, 15, 5, .st, .val 0, .any, .installer⟩
def FAB_STREAM_W0.spray : Fld := ⟨416, 20, 1, .st, .val 0, .any, .installer⟩
def FAB_STREAM_W0.split : Fld := ⟨417, 21, 1, .st, .val 0, .any, .installer⟩
/-- FAB_STREAM_W0. -/
def rFAB_STREAM_W0 : Reg := ⟨187, 0xA40000, [(65536, 0x8)], 0, [FAB_STREAM_W0.ctx, FAB_STREAM_W0.ctx_en, FAB_STREAM_W0.round, FAB_STREAM_W0.spray, FAB_STREAM_W0.split]⟩
def FAB_STREAM_W1.partner : Fld := ⟨418, 0, 16, .st, .val 0, .any, .installer⟩
def FAB_STREAM_W1.tx_seq : Fld := ⟨419, 16, 16, .ro, .val 0, .any, .installer⟩
/-- FAB_STREAM_W1. -/
def rFAB_STREAM_W1 : Reg := ⟨188, 0xA40004, [(65536, 0x8)], 0, [FAB_STREAM_W1.partner, FAB_STREAM_W1.tx_seq]⟩
def FAB_RSQ.next : Fld := ⟨420, 0, 16, .ro, .val 0, .any, .installer⟩
def FAB_RSQ.held : Fld := ⟨421, 16, 11, .ro, .val 0, .any, .installer⟩
def FAB_RSQ.learned : Fld := ⟨422, 27, 1, .ro, .val 0, .any, .installer⟩
/-- FAB_RSQ. -/
def rFAB_RSQ : Reg := ⟨189, 0xAC0000, [(16384, 0x4)], 0, [FAB_RSQ.next, FAB_RSQ.held, FAB_RSQ.learned]⟩
def TIM_CTRL.latch_all : Fld := ⟨423, 0, 1, .wo, .val 0, .any, .operator⟩
def TIM_CTRL.refclk_ok : Fld := ⟨424, 1, 1, .ro, .val 0, .any, .installer⟩
def TIM_CTRL.on_backup : Fld := ⟨425, 2, 1, .ro, .val 0, .any, .installer⟩
def TIM_CTRL.tc_enable : Fld := ⟨426, 3, 1, .rw, .val 0, .any, .installer⟩
def TIM_CTRL.tc_p2p : Fld := ⟨427, 4, 1, .rw, .val 0, .any, .installer⟩
/-- TIM_CTRL. -/
def rTIM_CTRL : Reg := ⟨190, 0x600000, [], 0, [TIM_CTRL.latch_all, TIM_CTRL.refclk_ok, TIM_CTRL.on_backup, TIM_CTRL.tc_enable, TIM_CTRL.tc_p2p]⟩
def TIM_SNAPSHOT.snap : Fld := ⟨428, 0, 1, .wo, .val 0, .any, .watcher⟩
/-- TIM_SNAPSHOT. -/
def rTIM_SNAPSHOT : Reg := ⟨191, 0x600004, [], 0, [TIM_SNAPSHOT.snap]⟩
def TIM_EVT.ev_lock : Fld := ⟨429, 0, 1, .w1c, .val 0, .any, .installer⟩
def TIM_EVT.ev_step : Fld := ⟨430, 1, 1, .w1c, .val 0, .any, .installer⟩
def TIM_EVT.ev_hs : Fld := ⟨431, 2, 1, .w1c, .val 0, .any, .installer⟩
def TIM_EVT.ev_delay : Fld := ⟨432, 3, 1, .w1c, .val 0, .any, .installer⟩
def TIM_EVT.ev_tout : Fld := ⟨433, 4, 1, .w1c, .val 0, .any, .installer⟩
def TIM_EVT.ev_tin : Fld := ⟨434, 5, 1, .w1c, .val 0, .any, .installer⟩
def TIM_EVT.ev_refclk : Fld := ⟨435, 6, 1, .w1c, .val 0, .any, .installer⟩
/-- TIM_EVT. -/
def rTIM_EVT : Reg := ⟨192, 0x600008, [], 0, [TIM_EVT.ev_lock, TIM_EVT.ev_step, TIM_EVT.ev_hs, TIM_EVT.ev_delay, TIM_EVT.ev_tout, TIM_EVT.ev_tin, TIM_EVT.ev_refclk]⟩
def TIM_CLOCK_ID.clock_id : Fld := ⟨436, 0, 32, .st, .val 0, .any, .installer⟩
/-- TIM_CLOCK_ID. -/
def rTIM_CLOCK_ID : Reg := ⟨193, 0x60000C, [(2, 0x4)], 0, [TIM_CLOCK_ID.clock_id]⟩
def TIM_TB_W0.enable : Fld := ⟨437, 0, 1, .st, .val 0, .any, .installer⟩
def TIM_TB_W0.source : Fld := ⟨438, 1, 2, .st, .val 0, .any, .installer⟩
def TIM_TB_W0.tin : Fld := ⟨439, 3, 3, .st, .val 0, .any, .installer⟩
def TIM_TB_W0.step_enable : Fld := ⟨440, 6, 1, .st, .val 1, .any, .installer⟩
def TIM_TB_W0.domain : Fld := ⟨441, 7, 7, .st, .val 0, .any, .installer⟩
def TIM_TB_W0.profile : Fld := ⟨442, 14, 2, .st, .val 0, .any, .installer⟩
def TIM_TB_W0.transport : Fld := ⟨443, 16, 2, .st, .val 0, .any, .installer⟩
def TIM_TB_W0.one_step : Fld := ⟨444, 18, 1, .st, .val 0, .any, .installer⟩
def TIM_TB_W0.pair_en : Fld := ⟨445, 19, 1, .st, .val 0, .any, .installer⟩
def TIM_TB_W0.partner : Fld := ⟨446, 20, 3, .st, .val 0, .any, .installer⟩
def TIM_TB_W0.revert_en : Fld := ⟨447, 23, 1, .st, .val 1, .any, .installer⟩
/-- TIM_TB_W0. -/
def rTIM_TB_W0 : Reg := ⟨194, 0x600100, [(8, 0x80)], 0, [TIM_TB_W0.enable, TIM_TB_W0.source, TIM_TB_W0.tin, TIM_TB_W0.step_enable, TIM_TB_W0.domain, TIM_TB_W0.profile, TIM_TB_W0.transport, TIM_TB_W0.one_step, TIM_TB_W0.pair_en, TIM_TB_W0.partner, TIM_TB_W0.revert_en]⟩
def TIM_TB_W1.log_sync : Fld := ⟨448, 0, 4, .st, .val 13, .any, .installer⟩
def TIM_TB_W1.log_announce : Fld := ⟨449, 4, 4, .st, .val 0, .any, .installer⟩
def TIM_TB_W1.announce_timeout : Fld := ⟨450, 8, 4, .st, .val 3, .any, .installer⟩
def TIM_TB_W1.sync_timeout : Fld := ⟨451, 12, 4, .st, .val 3, .any, .installer⟩
def TIM_TB_W1.priority1 : Fld := ⟨452, 16, 8, .st, .val 128, .any, .installer⟩
def TIM_TB_W1.priority2 : Fld := ⟨453, 24, 8, .st, .val 128, .any, .installer⟩
/-- TIM_TB_W1. -/
def rTIM_TB_W1 : Reg := ⟨195, 0x600104, [(8, 0x80)], 0, [TIM_TB_W1.log_sync, TIM_TB_W1.log_announce, TIM_TB_W1.announce_timeout, TIM_TB_W1.sync_timeout, TIM_TB_W1.priority1, TIM_TB_W1.priority2]⟩
def TIM_TB_W2.kp_shift : Fld := ⟨454, 0, 5, .rw, .val 2, .any, .installer⟩
def TIM_TB_W2.ki_shift : Fld := ⟨455, 5, 5, .rw, .val 5, .any, .installer⟩
def TIM_TB_W2.max_adj : Fld := ⟨456, 10, 17, .rw, .val 100000, .range 1 100000, .installer⟩
/-- TIM_TB_W2. -/
def rTIM_TB_W2 : Reg := ⟨196, 0x600108, [(8, 0x80)], 0, [TIM_TB_W2.kp_shift, TIM_TB_W2.ki_shift, TIM_TB_W2.max_adj]⟩
def TIM_TB_W3.lock_threshold : Fld := ⟨457, 0, 8, .rw, .val 50, .any, .installer⟩
def TIM_TB_W3.unlock_threshold : Fld := ⟨458, 8, 8, .rw, .val 10, .any, .installer⟩
def TIM_TB_W3.step_threshold : Fld := ⟨459, 16, 8, .rw, .val 1, .range 1 255, .installer⟩
def TIM_TB_W3.lock_count : Fld := ⟨460, 24, 4, .rw, .val 8, .range 1 15, .installer⟩
/-- TIM_TB_W3. -/
def rTIM_TB_W3 : Reg := ⟨197, 0x60010C, [(8, 0x80)], 0, [TIM_TB_W3.lock_threshold, TIM_TB_W3.unlock_threshold, TIM_TB_W3.step_threshold, TIM_TB_W3.lock_count]⟩
def TIM_TB_W4.slew_limit : Fld := ⟨461, 0, 16, .rw, .val 20, .range 1 65535, .installer⟩
def TIM_TB_W4.revert_hold : Fld := ⟨462, 16, 8, .rw, .val 60, .range 1 255, .installer⟩
def TIM_TB_W4.class_limit : Fld := ⟨463, 24, 8, .rw, .val 255, .any, .installer⟩
/-- TIM_TB_W4. -/
def rTIM_TB_W4 : Reg := ⟨198, 0x600110, [(8, 0x80)], 0, [TIM_TB_W4.slew_limit, TIM_TB_W4.revert_hold, TIM_TB_W4.class_limit]⟩
def TIM_TB_W5.state : Fld := ⟨464, 0, 2, .ro, .val 0, .any, .installer⟩
def TIM_TB_W5.src : Fld := ⟨465, 2, 1, .ro, .val 0, .any, .installer⟩
def TIM_TB_W5.inst_state : Fld := ⟨466, 3, 2, .ro, .val 0, .any, .installer⟩
def TIM_TB_W5.gm_class : Fld := ⟨467, 5, 8, .ro, .val 0, .any, .installer⟩
def TIM_TB_W5.utc_offset : Fld := ⟨468, 13, 16, .ro, .val 0, .any, .installer⟩
def TIM_TB_W5.utc_valid : Fld := ⟨469, 29, 1, .ro, .val 0, .any, .installer⟩
/-- TIM_TB_W5. -/
def rTIM_TB_W5 : Reg := ⟨199, 0x600114, [(8, 0x80)], 0, [TIM_TB_W5.state, TIM_TB_W5.src, TIM_TB_W5.inst_state, TIM_TB_W5.gm_class, TIM_TB_W5.utc_offset, TIM_TB_W5.utc_valid]⟩
def TIM_TB_W6.offset : Fld := ⟨470, 0, 32, .ro, .val 0, .any, .installer⟩
/-- TIM_TB_W6. -/
def rTIM_TB_W6 : Reg := ⟨200, 0x600118, [(8, 0x80)], 0, [TIM_TB_W6.offset]⟩
def TIM_TB_W7.rate : Fld := ⟨471, 0, 32, .ro, .val 0, .any, .installer⟩
/-- TIM_TB_W7. -/
def rTIM_TB_W7 : Reg := ⟨201, 0x60011C, [(8, 0x80)], 0, [TIM_TB_W7.rate]⟩
def TIM_TB_W8.now_lo : Fld := ⟨472, 0, 32, .ro, .val 0, .any, .installer⟩
/-- TIM_TB_W8. -/
def rTIM_TB_W8 : Reg := ⟨202, 0x600120, [(8, 0x80)], 0, [TIM_TB_W8.now_lo]⟩
def TIM_TB_W9.now_hi : Fld := ⟨473, 0, 32, .ro, .val 0, .any, .installer⟩
/-- TIM_TB_W9. -/
def rTIM_TB_W9 : Reg := ⟨203, 0x600124, [(8, 0x80)], 0, [TIM_TB_W9.now_hi]⟩
def TIM_TB_W10.now_frac : Fld := ⟨474, 0, 16, .ro, .val 0, .any, .installer⟩
/-- TIM_TB_W10. -/
def rTIM_TB_W10 : Reg := ⟨204, 0x600128, [(8, 0x80)], 0, [TIM_TB_W10.now_frac]⟩
def TIM_TB_W11.op : Fld := ⟨475, 0, 2, .wo, .val 0, .any, .special⟩
/-- TIM_TB_W11. -/
def rTIM_TB_W11 : Reg := ⟨205, 0x60012C, [(8, 0x80)], 0, [TIM_TB_W11.op]⟩
def TIM_TB_W12.arg_lo : Fld := ⟨476, 0, 32, .rw, .val 0, .any, .installer⟩
/-- TIM_TB_W12. -/
def rTIM_TB_W12 : Reg := ⟨206, 0x600130, [(8, 0x80)], 0, [TIM_TB_W12.arg_lo]⟩
def TIM_TB_W13.arg_hi : Fld := ⟨477, 0, 32, .rw, .val 0, .any, .installer⟩
/-- TIM_TB_W13. -/
def rTIM_TB_W13 : Reg := ⟨207, 0x600134, [(8, 0x80)], 0, [TIM_TB_W13.arg_hi]⟩
def TIM_TB_W14.gm_lo : Fld := ⟨478, 0, 32, .ro, .val 0, .any, .installer⟩
/-- TIM_TB_W14. -/
def rTIM_TB_W14 : Reg := ⟨208, 0x600138, [(8, 0x80)], 0, [TIM_TB_W14.gm_lo]⟩
def TIM_TB_W15.gm_hi : Fld := ⟨479, 0, 32, .ro, .val 0, .any, .installer⟩
/-- TIM_TB_W15. -/
def rTIM_TB_W15 : Reg := ⟨209, 0x60013C, [(8, 0x80)], 0, [TIM_TB_W15.gm_hi]⟩
def TIM_PORT_W0.ptp_mask : Fld := ⟨480, 0, 7, .st, .val 0, .any, .installer⟩
def TIM_PORT_W0.delay_mode : Fld := ⟨481, 7, 1, .st, .val 1, .any, .installer⟩
def TIM_PORT_W0.log_pdelay : Fld := ⟨482, 8, 4, .st, .val 0, .any, .installer⟩
/-- TIM_PORT_W0. -/
def rTIM_PORT_W0 : Reg := ⟨210, 0x601000, [(1024, 0x20)], 0, [TIM_PORT_W0.ptp_mask, TIM_PORT_W0.delay_mode, TIM_PORT_W0.log_pdelay]⟩
def TIM_PORT_W1.tx_ext : Fld := ⟨483, 0, 16, .rw, .val 0, .any, .installer⟩
def TIM_PORT_W1.rx_ext : Fld := ⟨484, 16, 16, .rw, .val 0, .any, .installer⟩
/-- TIM_PORT_W1. -/
def rTIM_PORT_W1 : Reg := ⟨211, 0x601004, [(1024, 0x20)], 0, [TIM_PORT_W1.tx_ext, TIM_PORT_W1.rx_ext]⟩
def TIM_PORT_W2.asym_cfg : Fld := ⟨485, 0, 32, .rw, .val 0, .any, .installer⟩
/-- TIM_PORT_W2. -/
def rTIM_PORT_W2 : Reg := ⟨212, 0x601008, [(1024, 0x20)], 0, [TIM_PORT_W2.asym_cfg]⟩
def TIM_PORT_W3.delay_cfg : Fld := ⟨486, 0, 24, .rw, .val 0, .any, .installer⟩
/-- TIM_PORT_W3. -/
def rTIM_PORT_W3 : Reg := ⟨213, 0x60100C, [(1024, 0x20)], 0, [TIM_PORT_W3.delay_cfg]⟩
def TIM_PORT_W4.link_delay : Fld := ⟨487, 0, 32, .ro, .val 0, .any, .installer⟩
/-- TIM_PORT_W4. -/
def rTIM_PORT_W4 : Reg := ⟨214, 0x601010, [(1024, 0x20)], 0, [TIM_PORT_W4.link_delay]⟩
def TIM_PORT_W5.asym_used : Fld := ⟨488, 0, 32, .ro, .val 0, .any, .installer⟩
/-- TIM_PORT_W5. -/
def rTIM_PORT_W5 : Reg := ⟨215, 0x601014, [(1024, 0x20)], 0, [TIM_PORT_W5.asym_used]⟩
def TIM_PORT_W6.delay_valid : Fld := ⟨489, 0, 1, .ro, .val 0, .any, .installer⟩
def TIM_PORT_W6.asym_peer : Fld := ⟨490, 1, 1, .ro, .val 0, .any, .installer⟩
def TIM_PORT_W6.roles : Fld := ⟨491, 2, 14, .ro, .val 0, .any, .installer⟩
def TIM_PORT_W6.nrr : Fld := ⟨492, 16, 16, .ro, .val 0, .any, .installer⟩
/-- TIM_PORT_W6. -/
def rTIM_PORT_W6 : Reg := ⟨216, 0x601018, [(1024, 0x20)], 0, [TIM_PORT_W6.delay_valid, TIM_PORT_W6.asym_peer, TIM_PORT_W6.roles, TIM_PORT_W6.nrr]⟩
def TIM_TOUT_W0.mode : Fld := ⟨493, 0, 2, .rw, .val 0, .any, .installer⟩
def TIM_TOUT_W0.tb : Fld := ⟨494, 2, 3, .rw, .val 0, .any, .installer⟩
def TIM_TOUT_W0.round : Fld := ⟨495, 5, 4, .rw, .val 0, .any, .installer⟩
def TIM_TOUT_W0.polarity : Fld := ⟨496, 9, 1, .rw, .val 0, .any, .installer⟩
def TIM_TOUT_W0.squelch : Fld := ⟨497, 10, 1, .rw, .val 0, .any, .installer⟩
/-- TIM_TOUT_W0. -/
def rTIM_TOUT_W0 : Reg := ⟨217, 0x609000, [(16, 0x20)], 0, [TIM_TOUT_W0.mode, TIM_TOUT_W0.tb, TIM_TOUT_W0.round, TIM_TOUT_W0.polarity, TIM_TOUT_W0.squelch]⟩
def TIM_TOUT_W1.start_lo : Fld := ⟨498, 0, 32, .rw, .val 0, .any, .installer⟩
/-- TIM_TOUT_W1. -/
def rTIM_TOUT_W1 : Reg := ⟨218, 0x609004, [(16, 0x20)], 0, [TIM_TOUT_W1.start_lo]⟩
def TIM_TOUT_W2.start_hi : Fld := ⟨499, 0, 32, .rw, .val 0, .any, .installer⟩
/-- TIM_TOUT_W2. -/
def rTIM_TOUT_W2 : Reg := ⟨219, 0x609008, [(16, 0x20)], 0, [TIM_TOUT_W2.start_hi]⟩
def TIM_TOUT_W3.period : Fld := ⟨500, 0, 32, .rw, .val 1000000000, .range 20 4294967295, .installer⟩
/-- TIM_TOUT_W3. -/
def rTIM_TOUT_W3 : Reg := ⟨220, 0x60900C, [(16, 0x20)], 0, [TIM_TOUT_W3.period]⟩
def TIM_TOUT_W4.width : Fld := ⟨501, 0, 24, .rw, .val 100, .any, .installer⟩
/-- TIM_TOUT_W4. -/
def rTIM_TOUT_W4 : Reg := ⟨221, 0x609010, [(16, 0x20)], 0, [TIM_TOUT_W4.width]⟩
def TIM_TOUT_W5.tout_delay : Fld := ⟨502, 0, 16, .rw, .val 0, .any, .installer⟩
/-- TIM_TOUT_W5. -/
def rTIM_TOUT_W5 : Reg := ⟨222, 0x609014, [(16, 0x20)], 0, [TIM_TOUT_W5.tout_delay]⟩
def TIM_TOUT_W6.armed : Fld := ⟨503, 0, 1, .ro, .val 0, .any, .installer⟩
def TIM_TOUT_W6.missed : Fld := ⟨504, 1, 1, .w1c, .val 0, .any, .installer⟩
/-- TIM_TOUT_W6. -/
def rTIM_TOUT_W6 : Reg := ⟨223, 0x609018, [(16, 0x20)], 0, [TIM_TOUT_W6.armed, TIM_TOUT_W6.missed]⟩
def TIM_TIN_W0.enable : Fld := ⟨505, 0, 1, .rw, .val 0, .any, .installer⟩
def TIM_TIN_W0.edge : Fld := ⟨506, 1, 2, .rw, .val 1, .range 1 3, .installer⟩
def TIM_TIN_W0.tb : Fld := ⟨507, 3, 3, .rw, .val 0, .any, .installer⟩
def TIM_TIN_W0.int_en : Fld := ⟨508, 6, 1, .rw, .val 0, .any, .installer⟩
/-- TIM_TIN_W0. -/
def rTIM_TIN_W0 : Reg := ⟨224, 0x609200, [(8, 0x20)], 0, [TIM_TIN_W0.enable, TIM_TIN_W0.edge, TIM_TIN_W0.tb, TIM_TIN_W0.int_en]⟩
def TIM_TIN_W1.tin_delay : Fld := ⟨509, 0, 16, .rw, .val 0, .any, .installer⟩
/-- TIM_TIN_W1. -/
def rTIM_TIN_W1 : Reg := ⟨225, 0x609204, [(8, 0x20)], 0, [TIM_TIN_W1.tin_delay]⟩
def TIM_TIN_W2.fill : Fld := ⟨510, 0, 5, .ro, .val 0, .any, .installer⟩
def TIM_TIN_W2.overflow : Fld := ⟨511, 5, 1, .w1c, .val 0, .any, .installer⟩
def TIM_TIN_W2.head_edge : Fld := ⟨512, 6, 1, .ro, .val 0, .any, .installer⟩
/-- TIM_TIN_W2. -/
def rTIM_TIN_W2 : Reg := ⟨226, 0x609208, [(8, 0x20)], 0, [TIM_TIN_W2.fill, TIM_TIN_W2.overflow, TIM_TIN_W2.head_edge]⟩
def TIM_TIN_W3.pop : Fld := ⟨513, 0, 1, .wo, .val 0, .any, .operator⟩
/-- TIM_TIN_W3. -/
def rTIM_TIN_W3 : Reg := ⟨227, 0x60920C, [(8, 0x20)], 0, [TIM_TIN_W3.pop]⟩
def TIM_TIN_W4.cap_lo : Fld := ⟨514, 0, 32, .ro, .val 0, .any, .installer⟩
/-- TIM_TIN_W4. -/
def rTIM_TIN_W4 : Reg := ⟨228, 0x609210, [(8, 0x20)], 0, [TIM_TIN_W4.cap_lo]⟩
def TIM_TIN_W5.cap_hi : Fld := ⟨515, 0, 32, .ro, .val 0, .any, .installer⟩
/-- TIM_TIN_W5. -/
def rTIM_TIN_W5 : Reg := ⟨229, 0x609214, [(8, 0x20)], 0, [TIM_TIN_W5.cap_hi]⟩
def TIM_TIN_W6.cap_frac : Fld := ⟨516, 0, 16, .ro, .val 0, .any, .installer⟩
/-- TIM_TIN_W6. -/
def rTIM_TIN_W6 : Reg := ⟨230, 0x609218, [(8, 0x20)], 0, [TIM_TIN_W6.cap_frac]⟩
def PWR_CTRL.pfast : Fld := ⟨517, 0, 3, .rw, .val 0, .range 0 5, .installer⟩
def PWR_CTRL.perf_mode : Fld := ⟨518, 3, 1, .rw, .val 0, .any, .installer⟩
def PWR_CTRL.auto_autumn : Fld := ⟨519, 4, 1, .rw, .val 1, .any, .installer⟩
def PWR_CTRL.slice_winter_en : Fld := ⟨520, 5, 1, .rw, .val 0, .any, .installer⟩
def PWR_CTRL.cx_autumn_en : Fld := ⟨521, 6, 1, .rw, .val 1, .any, .installer⟩
def PWR_CTRL.cx_winter_en : Fld := ⟨522, 7, 1, .rw, .val 0, .any, .installer⟩
def PWR_CTRL.trim_enable : Fld := ⟨523, 8, 1, .rw, .val 1, .any, .installer⟩
/-- PWR_CTRL. -/
def rPWR_CTRL : Reg := ⟨231, 0x300000, [], 0, [PWR_CTRL.pfast, PWR_CTRL.perf_mode, PWR_CTRL.auto_autumn, PWR_CTRL.slice_winter_en, PWR_CTRL.cx_autumn_en, PWR_CTRL.cx_winter_en, PWR_CTRL.trim_enable]⟩
def PWR_SNAPSHOT.snap : Fld := ⟨524, 0, 1, .wo, .val 0, .any, .watcher⟩
/-- PWR_SNAPSHOT. -/
def rPWR_SNAPSHOT : Reg := ⟨232, 0x300004, [], 0, [PWR_SNAPSHOT.snap]⟩
def PWR_STATUS.p_state : Fld := ⟨525, 0, 3, .ro, .val 5, .any, .installer⟩
def PWR_STATUS.p_target : Fld := ⟨526, 3, 3, .ro, .val 5, .any, .installer⟩
def PWR_STATUS.step_busy : Fld := ⟨527, 6, 1, .ro, .val 0, .any, .installer⟩
def PWR_STATUS.limiter : Fld := ⟨528, 7, 3, .ro, .val 7, .any, .installer⟩
def PWR_STATUS.alert : Fld := ⟨529, 10, 1, .ro, .val 0, .any, .installer⟩
def PWR_STATUS.cap_unmet : Fld := ⟨530, 11, 1, .ro, .val 0, .any, .installer⟩
def PWR_STATUS.crit_path : Fld := ⟨531, 12, 1, .ro, .val 0, .any, .installer⟩
def PWR_STATUS.temp_over_spec : Fld := ⟨532, 13, 1, .ro, .val 0, .any, .installer⟩
def PWR_STATUS.thermtrip : Fld := ⟨533, 14, 1, .ro, .val 0, .any, .installer⟩
def PWR_STATUS.on_worst_case : Fld := ⟨534, 15, 1, .ro, .val 0, .any, .installer⟩
/-- PWR_STATUS. -/
def rPWR_STATUS : Reg := ⟨233, 0x300008, [], 0, [PWR_STATUS.p_state, PWR_STATUS.p_target, PWR_STATUS.step_busy, PWR_STATUS.limiter, PWR_STATUS.alert, PWR_STATUS.cap_unmet, PWR_STATUS.crit_path, PWR_STATUS.temp_over_spec, PWR_STATUS.thermtrip, PWR_STATUS.on_worst_case]⟩
def PWR_EVT.ev_abandon : Fld := ⟨535, 0, 1, .w1c, .val 0, .any, .installer⟩
def PWR_EVT.ev_alert : Fld := ⟨536, 1, 1, .w1c, .val 0, .any, .installer⟩
def PWR_EVT.ev_thermal : Fld := ⟨537, 2, 1, .w1c, .val 0, .any, .installer⟩
def PWR_EVT.ev_sensor : Fld := ⟨538, 3, 1, .w1c, .val 0, .any, .installer⟩
def PWR_EVT.ev_cap : Fld := ⟨539, 4, 1, .w1c, .val 0, .any, .installer⟩
def PWR_EVT.ev_trim : Fld := ⟨540, 5, 1, .w1c, .val 0, .any, .installer⟩
def PWR_EVT.ev_pmbus : Fld := ⟨541, 6, 1, .w1c, .val 0, .any, .installer⟩
def PWR_EVT.ev_group : Fld := ⟨542, 7, 1, .w1c, .val 0, .any, .installer⟩
/-- PWR_EVT. -/
def rPWR_EVT : Reg := ⟨234, 0x30000C, [], 0, [PWR_EVT.ev_abandon, PWR_EVT.ev_alert, PWR_EVT.ev_thermal, PWR_EVT.ev_sensor, PWR_EVT.ev_cap, PWR_EVT.ev_trim, PWR_EVT.ev_pmbus, PWR_EVT.ev_group]⟩
def PWR_CAP.power_limit : Fld := ⟨543, 0, 11, .rw, .val 1350, .range 200 1350, .installer⟩
def PWR_CAP.up_margin : Fld := ⟨544, 11, 7, .rw, .val 40, .range 5 127, .installer⟩
def PWR_CAP.load_thresh : Fld := ⟨545, 18, 7, .rw, .val 50, .range 1 100, .installer⟩
/-- PWR_CAP. -/
def rPWR_CAP : Reg := ⟨235, 0x300010, [], 0, [PWR_CAP.power_limit, PWR_CAP.up_margin, PWR_CAP.load_thresh]⟩
def PWR_DRAW.draw : Fld := ⟨546, 0, 11, .ro, .val 0, .any, .installer⟩
def PWR_DRAW.dev_cap : Fld := ⟨547, 11, 11, .ro, .val 1350, .any, .installer⟩
/-- PWR_DRAW. -/
def rPWR_DRAW : Reg := ⟨236, 0x300014, [], 0, [PWR_DRAW.draw, PWR_DRAW.dev_cap]⟩
def PWR_THERM.throttle_temp : Fld := ⟨548, 0, 8, .rw, .val 118, .range 80 118, .installer⟩
def PWR_THERM.alert_hold : Fld := ⟨549, 8, 8, .rw, .val 10, .range 1 255, .installer⟩
/-- PWR_THERM. -/
def rPWR_THERM : Reg := ⟨237, 0x300018, [], 0, [PWR_THERM.throttle_temp, PWR_THERM.alert_hold]⟩
def PWR_THERM_STATUS.tmax : Fld := ⟨550, 0, 11, .ro, .val 0, .any, .installer⟩
def PWR_THERM_STATUS.hottest : Fld := ⟨551, 11, 5, .ro, .val 0, .any, .installer⟩
def PWR_THERM_STATUS.valid_count : Fld := ⟨552, 16, 6, .ro, .val 0, .any, .installer⟩
/-- PWR_THERM_STATUS. -/
def rPWR_THERM_STATUS : Reg := ⟨238, 0x30001C, [], 0, [PWR_THERM_STATUS.tmax, PWR_THERM_STATUS.hottest, PWR_THERM_STATUS.valid_count]⟩
def PWR_DROOP_CFG.t1_mv : Fld := ⟨553, 0, 6, .rw, .val 25, .range 10 63, .installer⟩
def PWR_DROOP_CFG.t2_mv : Fld := ⟨554, 6, 6, .rw, .val 45, .any, .installer⟩
def PWR_DROOP_CFG.relief : Fld := ⟨555, 12, 8, .rw, .val 5, .range 1 20, .installer⟩
/-- PWR_DROOP_CFG. -/
def rPWR_DROOP_CFG : Reg := ⟨239, 0x300020, [], 0, [PWR_DROOP_CFG.t1_mv, PWR_DROOP_CFG.t2_mv, PWR_DROOP_CFG.relief]⟩
def PWR_TRIM_CFG.trim_init : Fld := ⟨556, 0, 6, .st, .val 0, .any, .installer⟩
def PWR_TRIM_CFG.trim_period : Fld := ⟨557, 6, 10, .rw, .val 60, .range 1 1023, .installer⟩
def PWR_TRIM_CFG.ce_limit : Fld := ⟨558, 16, 10, .rw, .val 100, .any, .installer⟩
def PWR_TRIM_CFG.validate : Fld := ⟨559, 26, 6, .rw, .val 10, .range 1 63, .installer⟩
/-- PWR_TRIM_CFG. -/
def rPWR_TRIM_CFG : Reg := ⟨240, 0x300024, [], 0, [PWR_TRIM_CFG.trim_init, PWR_TRIM_CFG.trim_period, PWR_TRIM_CFG.ce_limit, PWR_TRIM_CFG.validate]⟩
def PWR_TRIM_STATUS.trim : Fld := ⟨560, 0, 6, .ro, .val 0, .any, .installer⟩
def PWR_TRIM_STATUS.margin_min : Fld := ⟨561, 6, 8, .ro, .val 0, .any, .installer⟩
def PWR_TRIM_STATUS.trim_floor : Fld := ⟨562, 14, 6, .ro, .val 32, .any, .installer⟩
def PWR_TRIM_STATUS.validating : Fld := ⟨563, 20, 1, .ro, .val 0, .any, .installer⟩
/-- PWR_TRIM_STATUS. -/
def rPWR_TRIM_STATUS : Reg := ⟨241, 0x300028, [], 0, [PWR_TRIM_STATUS.trim, PWR_TRIM_STATUS.margin_min, PWR_TRIM_STATUS.trim_floor, PWR_TRIM_STATUS.validating]⟩
def PWR_VID0.vid_p0 : Fld := ⟨564, 0, 8, .ro, .vid 0, .any, .installer⟩
def PWR_VID0.vid_p1 : Fld := ⟨565, 8, 8, .ro, .vid 1, .any, .installer⟩
def PWR_VID0.vid_p2 : Fld := ⟨566, 16, 8, .ro, .vid 2, .any, .installer⟩
def PWR_VID0.vid_p3 : Fld := ⟨567, 24, 8, .ro, .vid 3, .any, .installer⟩
/-- PWR_VID0. -/
def rPWR_VID0 : Reg := ⟨242, 0x30002C, [], 0, [PWR_VID0.vid_p0, PWR_VID0.vid_p1, PWR_VID0.vid_p2, PWR_VID0.vid_p3]⟩
def PWR_VID1.vid_p4 : Fld := ⟨568, 0, 8, .ro, .vid 4, .any, .installer⟩
def PWR_VID1.vid_p5 : Fld := ⟨569, 8, 8, .ro, .vid 5, .any, .installer⟩
def PWR_VID1.margin_lo : Fld := ⟨570, 16, 8, .ro, .vid 6, .any, .installer⟩
def PWR_VID1.margin_hi : Fld := ⟨571, 24, 8, .ro, .vid 7, .any, .installer⟩
/-- PWR_VID1. -/
def rPWR_VID1 : Reg := ⟨243, 0x300030, [], 0, [PWR_VID1.vid_p4, PWR_VID1.vid_p5, PWR_VID1.margin_lo, PWR_VID1.margin_hi]⟩
def PWR_VCORE.v_set : Fld := ⟨572, 0, 11, .ro, .val 0, .any, .installer⟩
def PWR_VCORE.v_min : Fld := ⟨573, 11, 11, .rc, .val 0, .any, .installer⟩
/-- PWR_VCORE. -/
def rPWR_VCORE : Reg := ⟨244, 0x300034, [], 0, [PWR_VCORE.v_set, PWR_VCORE.v_min]⟩
def PWR_PG_CFG.group_cap : Fld := ⟨574, 0, 19, .st, .val 0, .any, .installer⟩
def PWR_PG_CFG.pg_size : Fld := ⟨575, 19, 9, .st, .val 1, .any, .installer⟩
/-- PWR_PG_CFG. -/
def rPWR_PG_CFG : Reg := ⟨245, 0x300040, [], 0, [PWR_PG_CFG.group_cap, PWR_PG_CFG.pg_size]⟩
def PWR_PG_CTRL.pg_min : Fld := ⟨576, 0, 11, .rw, .val 850, .any, .installer⟩
def PWR_PG_CTRL.donor_margin : Fld := ⟨577, 11, 7, .rw, .val 50, .range 5 127, .installer⟩
def PWR_PG_CTRL.claim : Fld := ⟨578, 18, 1, .wo, .val 0, .any, .installer⟩
/-- PWR_PG_CTRL. -/
def rPWR_PG_CTRL : Reg := ⟨246, 0x300044, [], 0, [PWR_PG_CTRL.pg_min, PWR_PG_CTRL.donor_margin, PWR_PG_CTRL.claim]⟩
def PWR_PG_STATUS.budget : Fld := ⟨579, 0, 11, .ro, .val 0, .any, .installer⟩
def PWR_PG_STATUS.unassigned : Fld := ⟨580, 11, 11, .ro, .val 0, .any, .installer⟩
def PWR_PG_STATUS.joining : Fld := ⟨581, 22, 1, .ro, .val 0, .any, .installer⟩
/-- PWR_PG_STATUS. -/
def rPWR_PG_STATUS : Reg := ⟨247, 0x300048, [], 0, [PWR_PG_STATUS.budget, PWR_PG_STATUS.unassigned, PWR_PG_STATUS.joining]⟩
def PWR_SLICE.state : Fld := ⟨582, 0, 2, .ro, .tab [0,0,0,0,0,0,0,0,0,0,0,0,0,0,0,0,2], .any, .installer⟩
def PWR_SLICE.max_depth : Fld := ⟨583, 2, 2, .rw, .val 2, .range 0 2, .installer⟩
def PWR_SLICE.winter_block : Fld := ⟨584, 4, 1, .ro, .val 0, .any, .installer⟩
/-- PWR_SLICE. -/
def rPWR_SLICE : Reg := ⟨248, 0x300100, [(17, 0x4)], 0, [PWR_SLICE.state, PWR_SLICE.max_depth, PWR_SLICE.winter_block]⟩
def PWR_CX.state : Fld := ⟨585, 0, 2, .ro, .val 0, .any, .installer⟩
/-- PWR_CX. -/
def rPWR_CX : Reg := ⟨249, 0x300180, [], 0, [PWR_CX.state]⟩
def PWR_VR.addr : Fld := ⟨586, 0, 7, .rw, .val 0, .any, .installer⟩
def PWR_VR.page : Fld := ⟨587, 7, 5, .rw, .val 0, .any, .installer⟩
def PWR_VR.rail : Fld := ⟨588, 12, 3, .rw, .val 0, .zeroFrom 7, .installer⟩
def PWR_VR.set_v : Fld := ⟨589, 15, 1, .rw, .val 0, .any, .installer⟩
def PWR_VR.enable : Fld := ⟨590, 16, 1, .rw, .val 0, .any, .installer⟩
/-- PWR_VR. -/
def rPWR_VR : Reg := ⟨250, 0x300200, [(16, 0x4)], 0, [PWR_VR.addr, PWR_VR.page, PWR_VR.rail, PWR_VR.set_v, PWR_VR.enable]⟩
def PWR_VR_TEL.power : Fld := ⟨591, 0, 11, .ro, .val 0, .any, .installer⟩
def PWR_VR_TEL.fault : Fld := ⟨592, 11, 1, .ro, .val 0, .any, .installer⟩
/-- PWR_VR_TEL. -/
def rPWR_VR_TEL : Reg := ⟨251, 0x300240, [(16, 0x4)], 0, [PWR_VR_TEL.power, PWR_VR_TEL.fault]⟩
def PWR_TEMP.temp : Fld := ⟨593, 0, 11, .ro, .val 0, .any, .installer⟩
def PWR_TEMP.valid : Fld := ⟨594, 11, 1, .ro, .val 0, .any, .installer⟩
/-- PWR_TEMP. -/
def rPWR_TEMP : Reg := ⟨252, 0x300300, [(32, 0x4)], 0, [PWR_TEMP.temp, PWR_TEMP.valid]⟩
def PWR_VSENSE.last : Fld := ⟨595, 0, 11, .ro, .val 0, .any, .installer⟩
def PWR_VSENSE.min : Fld := ⟨596, 11, 11, .rc, .val 0, .any, .installer⟩
/-- PWR_VSENSE. -/
def rPWR_VSENSE : Reg := ⟨253, 0x300400, [(64, 0x4)], 0, [PWR_VSENSE.last, PWR_VSENSE.min]⟩
def PWR_DROOP.level : Fld := ⟨597, 0, 2, .ro, .val 0, .any, .installer⟩
def PWR_DROOP.duty_max : Fld := ⟨598, 2, 8, .rc, .val 0, .any, .installer⟩
def PWR_DROOP.domain : Fld := ⟨599, 10, 5, .ro, .tab [0,0,0,1,1,1,2,2,2,3,3,3,4,4,4,5,5,5,6,6,6,7,7,7,8,8,8,9,9,9,10,10,10,11,11,11,12,12,12,13,13,13,14,14,14,15,15,15,16,16,16,17,17,17,18,18,18,19,19,19,20,20,20,21], .any, .installer⟩
/-- PWR_DROOP. -/
def rPWR_DROOP : Reg := ⟨254, 0x300500, [(64, 0x4)], 0, [PWR_DROOP.level, PWR_DROOP.duty_max, PWR_DROOP.domain]⟩
def CLK_STATUS.slice_lock : Fld := ⟨600, 0, 17, .ro, .val 0, .any, .installer⟩
def CLK_STATUS.quad_lock : Fld := ⟨601, 17, 4, .ro, .val 0, .any, .installer⟩
def CLK_STATUS.ref_lock : Fld := ⟨602, 21, 1, .ro, .val 0, .any, .installer⟩
def CLK_STATUS.cx_lock : Fld := ⟨603, 22, 2, .ro, .val 0, .any, .installer⟩
def CLK_STATUS.mgmt_lock : Fld := ⟨604, 24, 1, .ro, .val 0, .any, .installer⟩
/-- CLK_STATUS. -/
def rCLK_STATUS : Reg := ⟨255, 0x400000, [], 0, [CLK_STATUS.slice_lock, CLK_STATUS.quad_lock, CLK_STATUS.ref_lock, CLK_STATUS.cx_lock, CLK_STATUS.mgmt_lock]⟩
def CLK_CTRL.spread_en : Fld := ⟨605, 0, 1, .rw, .val 1, .any, .installer⟩
/-- CLK_CTRL. -/
def rCLK_CTRL : Reg := ⟨256, 0x400004, [], 0, [CLK_CTRL.spread_en]⟩
def CLK_DOM_SEL.domain : Fld := ⟨606, 0, 7, .rw, .val 0, .range 0 102, .watcher⟩
/-- CLK_DOM_SEL. -/
def rCLK_DOM_SEL : Reg := ⟨257, 0x400008, [], 0, [CLK_DOM_SEL.domain]⟩
def CLK_DOM_FREQ.freq_khz : Fld := ⟨607, 0, 24, .ro, .val 0, .any, .installer⟩
/-- CLK_DOM_FREQ. -/
def rCLK_DOM_FREQ : Reg := ⟨258, 0x40000C, [], 0, [CLK_DOM_FREQ.freq_khz]⟩
def CLK_EVT.ev_unlock : Fld := ⟨608, 0, 1, .w1c, .val 0, .any, .installer⟩
/-- CLK_EVT. -/
def rCLK_EVT : Reg := ⟨259, 0x400010, [], 0, [CLK_EVT.ev_unlock]⟩
def RED_CTRL.takeover_enable : Fld := ⟨609, 0, 1, .rw, .val 1, .any, .installer⟩
def RED_CTRL.simplex_alarm : Fld := ⟨610, 1, 1, .rw, .val 1, .any, .installer⟩
def RED_CTRL.wd_enable : Fld := ⟨611, 2, 1, .rw, .val 1, .any, .installer⟩
def RED_CTRL.qh_duration : Fld := ⟨612, 8, 8, .rw, .val 100, .range 50 255, .installer⟩
def RED_CTRL.wd_period : Fld := ⟨613, 16, 8, .rw, .val 100, .range 10 255, .installer⟩
/-- RED_CTRL. -/
def rRED_CTRL : Reg := ⟨260, 0x800000, [], 0, [RED_CTRL.takeover_enable, RED_CTRL.simplex_alarm, RED_CTRL.wd_enable, RED_CTRL.qh_duration, RED_CTRL.wd_period]⟩
def RED_SNAPSHOT.snap : Fld := ⟨614, 0, 1, .wo, .val 0, .any, .watcher⟩
/-- RED_SNAPSHOT. -/
def rRED_SNAPSHOT : Reg := ⟨261, 0x800004, [], 0, [RED_SNAPSHOT.snap]⟩
def RED_CX_STATUS.mode : Fld := ⟨615, 0, 3, .ro, .val 0, .any, .installer⟩
def RED_CX_STATUS.a_in_service : Fld := ⟨616, 3, 1, .ro, .val 1, .any, .installer⟩
def RED_CX_STATUS.b_in_service : Fld := ⟨617, 4, 1, .ro, .val 1, .any, .installer⟩
def RED_CX_STATUS.a_bist : Fld := ⟨618, 5, 1, .ro, .val 0, .any, .installer⟩
def RED_CX_STATUS.b_bist : Fld := ⟨619, 6, 1, .ro, .val 0, .any, .installer⟩
def RED_CX_STATUS.owner : Fld := ⟨620, 7, 1, .ro, .val 0, .any, .installer⟩
def RED_CX_STATUS.transients : Fld := ⟨621, 8, 8, .ro, .val 0, .any, .installer⟩
/-- RED_CX_STATUS. -/
def rRED_CX_STATUS : Reg := ⟨262, 0x800008, [], 0, [RED_CX_STATUS.mode, RED_CX_STATUS.a_in_service, RED_CX_STATUS.b_in_service, RED_CX_STATUS.a_bist, RED_CX_STATUS.b_bist, RED_CX_STATUS.owner, RED_CX_STATUS.transients]⟩
def RED_EVT.ev_mismatch : Fld := ⟨622, 0, 1, .w1c, .val 0, .any, .installer⟩
def RED_EVT.ev_hold : Fld := ⟨623, 1, 1, .w1c, .val 0, .any, .installer⟩
def RED_EVT.ev_takeover : Fld := ⟨624, 2, 1, .w1c, .val 0, .any, .installer⟩
def RED_EVT.ev_takeover_fail : Fld := ⟨625, 3, 1, .w1c, .val 0, .any, .installer⟩
def RED_EVT.ev_update : Fld := ⟨626, 4, 1, .w1c, .val 0, .any, .installer⟩
def RED_EVT.ev_watchdog : Fld := ⟨627, 5, 1, .w1c, .val 0, .any, .installer⟩
def RED_EVT.ev_rejoin : Fld := ⟨628, 6, 1, .w1c, .val 0, .any, .installer⟩
/-- RED_EVT. -/
def rRED_EVT : Reg := ⟨263, 0x80000C, [], 0, [RED_EVT.ev_mismatch, RED_EVT.ev_hold, RED_EVT.ev_takeover, RED_EVT.ev_takeover_fail, RED_EVT.ev_update, RED_EVT.ev_watchdog, RED_EVT.ev_rejoin]⟩
def RED_ALARM.hold : Fld := ⟨629, 0, 1, .ro, .val 0, .any, .installer⟩
def RED_ALARM.spare_fail : Fld := ⟨630, 1, 1, .ro, .val 0, .any, .installer⟩
def RED_ALARM.pll_unlock : Fld := ⟨631, 2, 1, .ro, .val 0, .any, .installer⟩
def RED_ALARM.simplex : Fld := ⟨632, 3, 1, .ro, .val 0, .any, .installer⟩
/-- RED_ALARM. -/
def rRED_ALARM : Reg := ⟨264, 0x800010, [], 0, [RED_ALARM.hold, RED_ALARM.spare_fail, RED_ALARM.pll_unlock, RED_ALARM.simplex]⟩
def RED_MISMATCH_LOG.core : Fld := ⟨633, 0, 2, .ro, .val 0, .any, .installer⟩
def RED_MISMATCH_LOG.kind : Fld := ⟨634, 2, 2, .ro, .val 0, .any, .installer⟩
def RED_MISMATCH_LOG.verdict : Fld := ⟨635, 4, 3, .ro, .val 0, .any, .installer⟩
/-- RED_MISMATCH_LOG. -/
def rRED_MISMATCH_LOG : Reg := ⟨265, 0x800014, [], 0, [RED_MISMATCH_LOG.core, RED_MISMATCH_LOG.kind, RED_MISMATCH_LOG.verdict]⟩
def RED_MISMATCH_ADDR.addr : Fld := ⟨636, 0, 32, .ro, .val 0, .any, .installer⟩
/-- RED_MISMATCH_ADDR. -/
def rRED_MISMATCH_ADDR : Reg := ⟨266, 0x800018, [], 0, [RED_MISMATCH_ADDR.addr]⟩
def RED_CX_CMD.rejoin : Fld := ⟨637, 0, 1, .wo, .val 0, .any, .installer⟩
def RED_CX_CMD.retry : Fld := ⟨638, 1, 1, .wo, .val 0, .any, .installer⟩
/-- RED_CX_CMD. -/
def rRED_CX_CMD : Reg := ⟨267, 0x80001C, [], 0, [RED_CX_CMD.rejoin, RED_CX_CMD.retry]⟩
def RED_SPARE_STATUS.serving_for : Fld := ⟨639, 0, 5, .ro, .val 31, .any, .installer⟩
def RED_SPARE_STATUS.spare_state : Fld := ⟨640, 5, 2, .ro, .val 0, .any, .installer⟩
def RED_SPARE_STATUS.failed : Fld := ⟨641, 7, 17, .ro, .val 0, .any, .installer⟩
/-- RED_SPARE_STATUS. -/
def rRED_SPARE_STATUS : Reg := ⟨268, 0x800020, [], 0, [RED_SPARE_STATUS.serving_for, RED_SPARE_STATUS.spare_state, RED_SPARE_STATUS.failed]⟩
def RED_TAKEOVER_LOG.slice : Fld := ⟨642, 0, 5, .ro, .val 0, .any, .installer⟩
def RED_TAKEOVER_LOG.cause : Fld := ⟨643, 5, 3, .ro, .val 0, .any, .installer⟩
def RED_TAKEOVER_LOG.result : Fld := ⟨644, 8, 1, .ro, .val 0, .any, .installer⟩
def RED_TAKEOVER_LOG.fail_step : Fld := ⟨645, 9, 3, .ro, .val 0, .any, .installer⟩
def RED_TAKEOVER_LOG.duration : Fld := ⟨646, 12, 20, .ro, .val 0, .any, .installer⟩
/-- RED_TAKEOVER_LOG. -/
def rRED_TAKEOVER_LOG : Reg := ⟨269, 0x800024, [], 0, [RED_TAKEOVER_LOG.slice, RED_TAKEOVER_LOG.cause, RED_TAKEOVER_LOG.result, RED_TAKEOVER_LOG.fail_step, RED_TAKEOVER_LOG.duration]⟩
def RED_SLICE_CMD.slice : Fld := ⟨647, 0, 5, .wo, .val 0, .any, .installer⟩
def RED_SLICE_CMD.op : Fld := ⟨648, 5, 2, .wo, .val 0, .any, .installer⟩
def RED_SLICE_CMD.force : Fld := ⟨649, 7, 1, .wo, .val 0, .any, .installer⟩
/-- RED_SLICE_CMD. -/
def rRED_SLICE_CMD : Reg := ⟨270, 0x800028, [], 0, [RED_SLICE_CMD.slice, RED_SLICE_CMD.op, RED_SLICE_CMD.force]⟩
def RED_UPDATE_CTRL.start : Fld := ⟨650, 0, 1, .wo, .val 0, .any, .installer⟩
def RED_UPDATE_CTRL.abort : Fld := ⟨651, 1, 1, .wo, .val 0, .any, .installer⟩
def RED_UPDATE_CTRL.swap : Fld := ⟨652, 2, 1, .wo, .val 0, .any, .installer⟩
/-- RED_UPDATE_CTRL. -/
def rRED_UPDATE_CTRL : Reg := ⟨271, 0x80002C, [], 0, [RED_UPDATE_CTRL.start, RED_UPDATE_CTRL.abort, RED_UPDATE_CTRL.swap]⟩
def RED_UPDATE_STATUS.phase : Fld := ⟨653, 0, 3, .ro, .val 0, .any, .installer⟩
def RED_UPDATE_STATUS.abort_reason : Fld := ⟨654, 3, 4, .ro, .val 0, .any, .installer⟩
def RED_UPDATE_STATUS.last_ok : Fld := ⟨655, 7, 1, .ro, .val 0, .any, .installer⟩
def RED_UPDATE_STATUS.swap_us : Fld := ⟨656, 16, 16, .ro, .val 0, .any, .installer⟩
/-- RED_UPDATE_STATUS. -/
def rRED_UPDATE_STATUS : Reg := ⟨272, 0x800030, [], 0, [RED_UPDATE_STATUS.phase, RED_UPDATE_STATUS.abort_reason, RED_UPDATE_STATUS.last_ok, RED_UPDATE_STATUS.swap_us]⟩
def INTC_STATUS.sleep_abort : Fld := ⟨657, 0, 1, .w1c, .val 0, .any, .watcher⟩
def INTC_STATUS.int_n : Fld := ⟨658, 1, 1, .ro, .val 0, .any, .installer⟩
def INTC_STATUS.cx_state : Fld := ⟨659, 2, 2, .ro, .val 0, .any, .installer⟩
def INTC_STATUS.wake_issued : Fld := ⟨660, 4, 1, .ro, .val 0, .any, .installer⟩
def INTC_STATUS.msix_waiting : Fld := ⟨661, 5, 1, .ro, .val 0, .any, .installer⟩
/-- INTC_STATUS. -/
def rINTC_STATUS : Reg := ⟨273, 0x500000, [], 0, [INTC_STATUS.sleep_abort, INTC_STATUS.int_n, INTC_STATUS.cx_state, INTC_STATUS.wake_issued, INTC_STATUS.msix_waiting]⟩
def INTC_SNAPSHOT.snap : Fld := ⟨662, 0, 1, .wo, .val 0, .any, .watcher⟩
/-- INTC_SNAPSHOT. -/
def rINTC_SNAPSHOT : Reg := ⟨274, 0x500004, [], 0, [INTC_SNAPSHOT.snap]⟩
def INTC_SW_SET.index : Fld := ⟨663, 0, 6, .wo, .val 0, .any, .installer⟩
def INTC_SW_SET.set : Fld := ⟨664, 8, 1, .wo, .val 0, .any, .installer⟩
/-- INTC_SW_SET. -/
def rINTC_SW_SET : Reg := ⟨275, 0x500008, [], 0, [INTC_SW_SET.index, INTC_SW_SET.set]⟩
def INTC_CORE.pmr : Fld := ⟨665, 0, 5, .ro, .val 16, .any, .installer⟩
def INTC_CORE.threshold : Fld := ⟨666, 5, 5, .ro, .val 16, .any, .installer⟩
def INTC_CORE.depth : Fld := ⟨667, 10, 5, .ro, .val 0, .any, .installer⟩
def INTC_CORE.presented : Fld := ⟨668, 15, 1, .ro, .val 0, .any, .installer⟩
def INTC_CORE.pres_id : Fld := ⟨669, 16, 10, .ro, .val 0, .any, .installer⟩
def INTC_CORE.in_service : Fld := ⟨670, 26, 1, .ro, .val 0, .any, .installer⟩
/-- INTC_CORE. -/
def rINTC_CORE : Reg := ⟨276, 0x500080, [(4, 0x4)], 0, [INTC_CORE.pmr, INTC_CORE.threshold, INTC_CORE.depth, INTC_CORE.presented, INTC_CORE.pres_id, INTC_CORE.in_service]⟩
def INTC_LINE.line : Fld := ⟨671, 0, 16, .ro, .val 0, .any, .installer⟩
/-- INTC_LINE. -/
def rINTC_LINE : Reg := ⟨277, 0x500100, [(64, 0x4)], 0, [INTC_LINE.line]⟩
def INTC_HPEND.hpend : Fld := ⟨672, 0, 16, .w1c, .val 0, .any, .watcher⟩
/-- INTC_HPEND. -/
def rINTC_HPEND : Reg := ⟨278, 0x500200, [(64, 0x4)], 0, [INTC_HPEND.hpend]⟩
def INTC_CPEND.cpend : Fld := ⟨673, 0, 16, .ro, .val 0, .any, .installer⟩
/-- INTC_CPEND. -/
def rINTC_CPEND : Reg := ⟨279, 0x500300, [(64, 0x4)], 0, [INTC_CPEND.cpend]⟩
def INTC_GRP.holdoff : Fld := ⟨674, 0, 16, .rw, .val 0, .any, .installer⟩
def INTC_GRP.running : Fld := ⟨675, 16, 1, .ro, .val 0, .any, .installer⟩
def INTC_GRP.fresh : Fld := ⟨676, 17, 1, .ro, .val 0, .any, .installer⟩
def INTC_GRP.msg_held : Fld := ⟨677, 18, 1, .ro, .val 0, .any, .installer⟩
/-- INTC_GRP. -/
def rINTC_GRP : Reg := ⟨280, 0x500400, [(64, 0x4)], 0, [INTC_GRP.holdoff, INTC_GRP.running, INTC_GRP.fresh, INTC_GRP.msg_held]⟩
def INTC_SRC.enable : Fld := ⟨678, 0, 1, .rw, .val 0, .any, .installer⟩
def INTC_SRC.priority : Fld := ⟨679, 1, 4, .rw, .val 0, .any, .installer⟩
def INTC_SRC.cores : Fld := ⟨680, 5, 4, .rw, .val 0, .any, .installer⟩
def INTC_SRC.host : Fld := ⟨681, 9, 1, .rw, .val 0, .any, .installer⟩
def INTC_SRC.int_n : Fld := ⟨682, 10, 1, .rw, .val 0, .any, .installer⟩
def INTC_SRC.wake : Fld := ⟨683, 11, 1, .rw, .val 1, .any, .installer⟩
/-- INTC_SRC. -/
def rINTC_SRC : Reg := ⟨281, 0x501000, [(1024, 0x4)], 0, [INTC_SRC.enable, INTC_SRC.priority, INTC_SRC.cores, INTC_SRC.host, INTC_SRC.int_n, INTC_SRC.wake]⟩
def POOL_CTRL.warm_reclaim : Fld := ⟨684, 0, 1, .rw, .val 1, .any, .installer⟩
/-- POOL_CTRL. -/
def rPOOL_CTRL : Reg := ⟨282, 0x700000, [], 0, [POOL_CTRL.warm_reclaim]⟩
def POOL_SNAPSHOT.snap : Fld := ⟨685, 0, 1, .wo, .val 0, .any, .watcher⟩
/-- POOL_SNAPSHOT. -/
def rPOOL_SNAPSHOT : Reg := ⟨283, 0x700004, [], 0, [POOL_SNAPSHOT.snap]⟩
def POOL_EVT.ev_bad_free : Fld := ⟨686, 0, 1, .w1c, .val 0, .any, .installer⟩
def POOL_EVT.ev_bad_use : Fld := ⟨687, 1, 1, .w1c, .val 0, .any, .installer⟩
def POOL_EVT.ev_low : Fld := ⟨688, 2, 1, .w1c, .val 0, .any, .installer⟩
def POOL_EVT.ev_meta : Fld := ⟨689, 3, 1, .w1c, .val 0, .any, .installer⟩
/-- POOL_EVT. -/
def rPOOL_EVT : Reg := ⟨284, 0x700008, [], 0, [POOL_EVT.ev_bad_free, POOL_EVT.ev_bad_use, POOL_EVT.ev_low, POOL_EVT.ev_meta]⟩
def POOL_ERR_LOG.requester : Fld := ⟨690, 0, 5, .ro, .val 0, .any, .installer⟩
def POOL_ERR_LOG.code : Fld := ⟨691, 5, 4, .ro, .val 0, .any, .installer⟩
def POOL_ERR_LOG.op : Fld := ⟨692, 9, 2, .ro, .val 0, .any, .installer⟩
def POOL_ERR_LOG.count : Fld := ⟨693, 24, 8, .ro, .val 0, .any, .installer⟩
/-- POOL_ERR_LOG. -/
def rPOOL_ERR_LOG : Reg := ⟨285, 0x70000C, [], 0, [POOL_ERR_LOG.requester, POOL_ERR_LOG.code, POOL_ERR_LOG.op, POOL_ERR_LOG.count]⟩
def POOL_ERR_HANDLE.handle : Fld := ⟨694, 0, 32, .ro, .val 0, .any, .installer⟩
/-- POOL_ERR_HANDLE. -/
def rPOOL_ERR_HANDLE : Reg := ⟨286, 0x700010, [], 0, [POOL_ERR_HANDLE.handle]⟩
def POOL_RECLAIM.requester : Fld := ⟨695, 0, 5, .wo, .val 0, .any, .installer⟩
def POOL_RECLAIM.pools : Fld := ⟨696, 8, 4, .wo, .val 0, .any, .installer⟩
/-- POOL_RECLAIM. -/
def rPOOL_RECLAIM : Reg := ⟨287, 0x700014, [], 0, [POOL_RECLAIM.requester, POOL_RECLAIM.pools]⟩
def POOL_INSPECT_SEL.pool : Fld := ⟨697, 0, 2, .rw, .val 0, .any, .watcher⟩
def POOL_INSPECT_SEL.index : Fld := ⟨698, 2, 15, .rw, .val 0, .any, .watcher⟩
/-- POOL_INSPECT_SEL. -/
def rPOOL_INSPECT_SEL : Reg := ⟨288, 0x700018, [], 0, [POOL_INSPECT_SEL.pool, POOL_INSPECT_SEL.index]⟩
def POOL_INSPECT.allocated : Fld := ⟨699, 0, 1, .ro, .val 0, .any, .installer⟩
def POOL_INSPECT.owner : Fld := ⟨700, 1, 5, .ro, .val 0, .any, .installer⟩
def POOL_INSPECT.gen : Fld := ⟨701, 6, 3, .ro, .val 0, .any, .installer⟩
def POOL_INSPECT.retired : Fld := ⟨702, 9, 1, .ro, .val 0, .any, .installer⟩
/-- POOL_INSPECT. -/
def rPOOL_INSPECT : Reg := ⟨289, 0x70001C, [], 0, [POOL_INSPECT.allocated, POOL_INSPECT.owner, POOL_INSPECT.gen, POOL_INSPECT.retired]⟩
def POOL_STATUS.free : Fld := ⟨703, 0, 16, .ro, .tab [32768,8192,2048,256], .any, .installer⟩
def POOL_STATUS.unused_res : Fld := ⟨704, 16, 16, .ro, .val 0, .any, .installer⟩
/-- POOL_STATUS. -/
def rPOOL_STATUS : Reg := ⟨290, 0x700020, [(4, 0x4)], 0, [POOL_STATUS.free, POOL_STATUS.unused_res]⟩
def POOL_LOW.low_mark : Fld := ⟨705, 0, 16, .rw, .val 0, .any, .installer⟩
/-- POOL_LOW. -/
def rPOOL_LOW : Reg := ⟨291, 0x700030, [(4, 0x4)], 0, [POOL_LOW.low_mark]⟩
def POOL_REQ_QR.quota : Fld := ⟨706, 0, 16, .st, .tab [32768,8192,2048,256,32768,8192,2048,256,32768,8192,2048,256,32768,8192,2048,256,0,0,0,64], .any, .installer⟩
def POOL_REQ_QR.reserve : Fld := ⟨707, 16, 16, .st, .tab [0,0,0,0,0,0,0,0,0,0,0,0,0,0,0,0,0,0,0,64], .any, .installer⟩
/-- POOL_REQ_QR. -/
def rPOOL_REQ_QR : Reg := ⟨292, 0x701000, [(32, 0x20), (4, 0x4)], 0, [POOL_REQ_QR.quota, POOL_REQ_QR.reserve]⟩
def POOL_REQ_W4.out0 : Fld := ⟨708, 0, 16, .ro, .val 0, .any, .installer⟩
def POOL_REQ_W4.out1 : Fld := ⟨709, 16, 16, .ro, .val 0, .any, .installer⟩
/-- POOL_REQ_W4. -/
def rPOOL_REQ_W4 : Reg := ⟨293, 0x701010, [(32, 0x20)], 0, [POOL_REQ_W4.out0, POOL_REQ_W4.out1]⟩
def POOL_REQ_W5.out2 : Fld := ⟨710, 0, 16, .ro, .val 0, .any, .installer⟩
def POOL_REQ_W5.out3 : Fld := ⟨711, 16, 16, .ro, .val 0, .any, .installer⟩
/-- POOL_REQ_W5. -/
def rPOOL_REQ_W5 : Reg := ⟨294, 0x701014, [(32, 0x20)], 0, [POOL_REQ_W5.out2, POOL_REQ_W5.out3]⟩
def POOL_REQ_W6.last_result : Fld := ⟨712, 0, 4, .ro, .val 0, .any, .installer⟩
/-- POOL_REQ_W6. -/
def rPOOL_REQ_W6 : Reg := ⟨295, 0x701018, [(32, 0x20)], 0, [POOL_REQ_W6.last_result]⟩
def POOL_ALLOC_SIZE.handle : Fld := ⟨713, 0, 32, .ro, .val 0, .any, .installer⟩
/-- POOL_ALLOC_SIZE. -/
def rPOOL_ALLOC_SIZE : Reg := ⟨296, 0x708004, [(128, 0x4)], 0, [POOL_ALLOC_SIZE.handle]⟩
def POOL_ALLOC_POOL.handle : Fld := ⟨714, 0, 32, .ro, .val 0, .any, .installer⟩
/-- POOL_ALLOC_POOL. -/
def rPOOL_ALLOC_POOL : Reg := ⟨297, 0x708400, [(4, 0x4)], 0, [POOL_ALLOC_POOL.handle]⟩
def POOL_FREE.handle : Fld := ⟨715, 0, 32, .wo, .val 0, .any, .operator⟩
/-- POOL_FREE. -/
def rPOOL_FREE : Reg := ⟨298, 0x708800, [], 0, [POOL_FREE.handle]⟩
def POOL_GIVE.handle : Fld := ⟨716, 0, 27, .wo, .val 0, .any, .operator⟩
def POOL_GIVE.target : Fld := ⟨717, 27, 5, .wo, .val 0, .any, .operator⟩
/-- POOL_GIVE. -/
def rPOOL_GIVE : Reg := ⟨299, 0x708804, [], 0, [POOL_GIVE.handle, POOL_GIVE.target]⟩
def CFG_BOOT_STATUS.slot_in_use : Fld := ⟨718, 0, 1, .ro, .val 0, .any, .installer⟩
def CFG_BOOT_STATUS.state : Fld := ⟨719, 1, 2, .ro, .val 0, .any, .installer⟩
def CFG_BOOT_STATUS.fallback : Fld := ⟨720, 3, 1, .ro, .val 0, .any, .installer⟩
def CFG_BOOT_STATUS.preferred : Fld := ⟨721, 4, 1, .ro, .val 0, .any, .installer⟩
def CFG_BOOT_STATUS.boot_ms : Fld := ⟨722, 5, 11, .ro, .val 0, .any, .installer⟩
def CFG_BOOT_STATUS.reboot : Fld := ⟨723, 16, 1, .wo, .val 0, .any, .special⟩
/-- CFG_BOOT_STATUS. -/
def rCFG_BOOT_STATUS : Reg := ⟨300, 0x100000, [], 0, [CFG_BOOT_STATUS.slot_in_use, CFG_BOOT_STATUS.state, CFG_BOOT_STATUS.fallback, CFG_BOOT_STATUS.preferred, CFG_BOOT_STATUS.boot_ms, CFG_BOOT_STATUS.reboot]⟩
def CFG_SNAPSHOT.snap : Fld := ⟨724, 0, 1, .wo, .val 0, .any, .watcher⟩
/-- CFG_SNAPSHOT. -/
def rCFG_SNAPSHOT : Reg := ⟨301, 0x100004, [], 0, [CFG_SNAPSHOT.snap]⟩
def CFG_EVT.ev_boot : Fld := ⟨725, 0, 1, .w1c, .val 0, .any, .installer⟩
def CFG_EVT.ev_cs : Fld := ⟨726, 1, 1, .w1c, .val 0, .any, .installer⟩
def CFG_EVT.ev_pair : Fld := ⟨727, 2, 1, .w1c, .val 0, .any, .installer⟩
def CFG_EVT.ev_flash : Fld := ⟨728, 3, 1, .w1c, .val 0, .any, .installer⟩
/-- CFG_EVT. -/
def rCFG_EVT : Reg := ⟨302, 0x100008, [], 0, [CFG_EVT.ev_boot, CFG_EVT.ev_cs, CFG_EVT.ev_pair, CFG_EVT.ev_flash]⟩
def CFG_BOOT_LOG.reason : Fld := ⟨729, 0, 4, .ro, .val 0, .any, .installer⟩
def CFG_BOOT_LOG.accepted : Fld := ⟨730, 4, 1, .ro, .val 0, .any, .installer⟩
def CFG_BOOT_LOG.skipped : Fld := ⟨731, 5, 3, .ro, .val 0, .any, .installer⟩
def CFG_BOOT_LOG.record : Fld := ⟨732, 8, 24, .ro, .val 0, .any, .installer⟩
/-- CFG_BOOT_LOG. -/
def rCFG_BOOT_LOG : Reg := ⟨303, 0x10000C, [(2, 0x4)], 0, [CFG_BOOT_LOG.reason, CFG_BOOT_LOG.accepted, CFG_BOOT_LOG.skipped, CFG_BOOT_LOG.record]⟩
def CFG_BOOT_FAIL_ADDR.addr : Fld := ⟨733, 0, 32, .ro, .val 0, .any, .installer⟩
/-- CFG_BOOT_FAIL_ADDR. -/
def rCFG_BOOT_FAIL_ADDR : Reg := ⟨304, 0x100014, [], 0, [CFG_BOOT_FAIL_ADDR.addr]⟩
def CFG_INCONSISTENT.pending : Fld := ⟨734, 0, 4, .ro, .val 0, .any, .installer⟩
def CFG_INCONSISTENT.instance : Fld := ⟨735, 4, 16, .ro, .val 0, .any, .installer⟩
def CFG_INCONSISTENT.pair : Fld := ⟨736, 20, 4, .ro, .val 0, .any, .installer⟩
def CFG_INCONSISTENT.count : Fld := ⟨737, 24, 8, .ro, .val 0, .any, .installer⟩
/-- CFG_INCONSISTENT. -/
def rCFG_INCONSISTENT : Reg := ⟨305, 0x100018, [], 0, [CFG_INCONSISTENT.pending, CFG_INCONSISTENT.instance, CFG_INCONSISTENT.pair, CFG_INCONSISTENT.count]⟩
def CFG_PATH_CS.pcie : Fld := ⟨738, 0, 3, .rw, .val 7, .any, .operator⟩
def CFG_PATH_CS.smbus : Fld := ⟨739, 4, 3, .rw, .val 7, .any, .operator⟩
def CFG_PATH_CS.mgmt : Fld := ⟨740, 8, 3, .rw, .val 7, .any, .operator⟩
/-- CFG_PATH_CS. -/
def rCFG_PATH_CS : Reg := ⟨306, 0x10001C, [], 0, [CFG_PATH_CS.pcie, CFG_PATH_CS.smbus, CFG_PATH_CS.mgmt]⟩
def CFG_BOOT_SEL.slot : Fld := ⟨741, 0, 1, .wo, .val 0, .any, .special⟩
def CFG_BOOT_SEL.write : Fld := ⟨742, 1, 1, .wo, .val 0, .any, .special⟩
/-- CFG_BOOT_SEL. -/
def rCFG_BOOT_SEL : Reg := ⟨307, 0x100020, [], 0, [CFG_BOOT_SEL.slot, CFG_BOOT_SEL.write]⟩
def CFG_STAGE_CS.cs : Fld := ⟨743, 0, 2, .rw, .val 0, .any, .operator⟩
/-- CFG_STAGE_CS. -/
def rCFG_STAGE_CS : Reg := ⟨308, 0x100024, [], 0, [CFG_STAGE_CS.cs]⟩
def CFG_STAGE_ADDR.addr : Fld := ⟨744, 0, 32, .rw, .val 0, .any, .operator⟩
/-- CFG_STAGE_ADDR. -/
def rCFG_STAGE_ADDR : Reg := ⟨309, 0x100028, [], 0, [CFG_STAGE_ADDR.addr]⟩
def CFG_STAGE_MASK.mask : Fld := ⟨745, 0, 32, .rw, .val 4294967295, .any, .operator⟩
/-- CFG_STAGE_MASK. -/
def rCFG_STAGE_MASK : Reg := ⟨310, 0x10002C, [], 0, [CFG_STAGE_MASK.mask]⟩
def CFG_STAGE_DATA.data : Fld := ⟨746, 0, 32, .wo, .val 0, .any, .operator⟩
/-- CFG_STAGE_DATA. -/
def rCFG_STAGE_DATA : Reg := ⟨311, 0x100030, [], 0, [CFG_STAGE_DATA.data]⟩
def CFG_CS_W0.op : Fld := ⟨747, 0, 3, .wo, .val 0, .any, .operator⟩
/-- CFG_CS_W0. -/
def rCFG_CS_W0 : Reg := ⟨312, 0x100100, [(4, 0x20)], 0, [CFG_CS_W0.op]⟩
def CFG_CS_W1.trigger : Fld := ⟨748, 0, 2, .rw, .val 0, .zeroFrom 3, .operator⟩
def CFG_CS_W1.tb : Fld := ⟨749, 2, 3, .rw, .val 0, .any, .operator⟩
def CFG_CS_W1.round : Fld := ⟨750, 5, 4, .rw, .val 0, .any, .operator⟩
/-- CFG_CS_W1. -/
def rCFG_CS_W1 : Reg := ⟨313, 0x100104, [(4, 0x20)], 0, [CFG_CS_W1.trigger, CFG_CS_W1.tb, CFG_CS_W1.round]⟩
def CFG_CS_W2.time_lo : Fld := ⟨751, 0, 32, .rw, .val 0, .any, .operator⟩
/-- CFG_CS_W2. -/
def rCFG_CS_W2 : Reg := ⟨314, 0x100108, [(4, 0x20)], 0, [CFG_CS_W2.time_lo]⟩
def CFG_CS_W3.time_hi : Fld := ⟨752, 0, 32, .rw, .val 0, .any, .operator⟩
/-- CFG_CS_W3. -/
def rCFG_CS_W3 : Reg := ⟨315, 0x10010C, [(4, 0x20)], 0, [CFG_CS_W3.time_hi]⟩
def CFG_CS_W4.state : Fld := ⟨753, 0, 3, .ro, .val 0, .any, .installer⟩
def CFG_CS_W4.overflow : Fld := ⟨754, 3, 1, .ro, .val 0, .any, .installer⟩
def CFG_CS_W4.result : Fld := ⟨755, 4, 4, .ro, .val 0, .any, .installer⟩
def CFG_CS_W4.entries : Fld := ⟨756, 8, 17, .ro, .val 0, .any, .installer⟩
/-- CFG_CS_W4. -/
def rCFG_CS_W4 : Reg := ⟨316, 0x100110, [(4, 0x20)], 0, [CFG_CS_W4.state, CFG_CS_W4.overflow, CFG_CS_W4.result, CFG_CS_W4.entries]⟩
def CFG_CS_W5.fail_entry : Fld := ⟨757, 0, 16, .ro, .val 0, .any, .installer⟩
def CFG_CS_W5.cmd_errors : Fld := ⟨758, 16, 16, .ro, .val 0, .any, .installer⟩
/-- CFG_CS_W5. -/
def rCFG_CS_W5 : Reg := ⟨317, 0x100114, [(4, 0x20)], 0, [CFG_CS_W5.fail_entry, CFG_CS_W5.cmd_errors]⟩
def CFG_FLASH_ADDR.addr : Fld := ⟨759, 0, 32, .rw, .val 0, .any, .special⟩
/-- CFG_FLASH_ADDR. -/
def rCFG_FLASH_ADDR : Reg := ⟨318, 0x100200, [], 0, [CFG_FLASH_ADDR.addr]⟩
def CFG_FLASH_CMD.op : Fld := ⟨760, 0, 3, .wo, .val 0, .any, .special⟩
/-- CFG_FLASH_CMD. -/
def rCFG_FLASH_CMD : Reg := ⟨319, 0x100204, [], 0, [CFG_FLASH_CMD.op]⟩
def CFG_FLASH_STATUS.busy : Fld := ⟨761, 0, 1, .ro, .val 0, .any, .special⟩
def CFG_FLASH_STATUS.result : Fld := ⟨762, 1, 3, .ro, .val 0, .any, .special⟩
/-- CFG_FLASH_STATUS. -/
def rCFG_FLASH_STATUS : Reg := ⟨320, 0x100208, [], 0, [CFG_FLASH_STATUS.busy, CFG_FLASH_STATUS.result]⟩
def CFG_FLASH_DATA.data : Fld := ⟨763, 0, 32, .rw, .val 0, .any, .special⟩
/-- CFG_FLASH_DATA. -/
def rCFG_FLASH_DATA : Reg := ⟨321, 0x100300, [(64, 0x4)], 0, [CFG_FLASH_DATA.data]⟩
def ACC_STATUS.key_slot : Fld := ⟨764, 0, 3, .ro, .val 0, .any, .installer⟩
def ACC_STATUS.maker_active : Fld := ⟨765, 3, 1, .ro, .val 0, .any, .installer⟩
def ACC_STATUS.sessions : Fld := ⟨766, 4, 4, .ro, .val 0, .any, .installer⟩
def ACC_STATUS.test_mode : Fld := ⟨767, 8, 1, .ro, .strap 0, .any, .installer⟩
/-- ACC_STATUS. -/
def rACC_STATUS : Reg := ⟨322, 0x200000, [], 0, [ACC_STATUS.key_slot, ACC_STATUS.maker_active, ACC_STATUS.sessions, ACC_STATUS.test_mode]⟩
def ACC_SNAPSHOT.snap : Fld := ⟨768, 0, 1, .wo, .val 0, .any, .watcher⟩
/-- ACC_SNAPSHOT. -/
def rACC_SNAPSHOT : Reg := ⟨323, 0x200004, [], 0, [ACC_SNAPSHOT.snap]⟩
def ACC_EVT.ev_auth : Fld := ⟨769, 0, 1, .w1c, .val 0, .any, .watcher⟩
def ACC_EVT.ev_maker : Fld := ⟨770, 1, 1, .w1c, .val 0, .any, .watcher⟩
def ACC_EVT.ev_audit : Fld := ⟨771, 2, 1, .w1c, .val 0, .any, .watcher⟩
def ACC_EVT.ev_key : Fld := ⟨772, 3, 1, .w1c, .val 0, .any, .watcher⟩
/-- ACC_EVT. -/
def rACC_EVT : Reg := ⟨324, 0x200008, [], 0, [ACC_EVT.ev_auth, ACC_EVT.ev_maker, ACC_EVT.ev_audit, ACC_EVT.ev_key]⟩
def ACC_PATH_ROLE.pcie_role : Fld := ⟨773, 0, 2, .rw, .val 1, .range 0 2, .installer⟩
def ACC_PATH_ROLE.smbus_role : Fld := ⟨774, 2, 2, .rw, .val 0, .range 0 2, .installer⟩
/-- ACC_PATH_ROLE. -/
def rACC_PATH_ROLE : Reg := ⟨325, 0x20000C, [], 0, [ACC_PATH_ROLE.pcie_role, ACC_PATH_ROLE.smbus_role]⟩
def ACC_OP_ENV.op_admit : Fld := ⟨775, 0, 1, .rw, .val 0, .any, .installer⟩
def ACC_OP_ENV.op_arm_now : Fld := ⟨776, 1, 1, .rw, .val 0, .any, .installer⟩
def ACC_OP_ENV.op_arm_timed : Fld := ⟨777, 2, 1, .rw, .val 0, .any, .installer⟩
/-- ACC_OP_ENV. -/
def rACC_OP_ENV : Reg := ⟨326, 0x200010, [], 0, [ACC_OP_ENV.op_admit, ACC_OP_ENV.op_arm_now, ACC_OP_ENV.op_arm_timed]⟩
def ACC_SESSION_CFG.idle_timeout : Fld := ⟨778, 0, 16, .rw, .val 300, .range 10 65535, .installer⟩
def ACC_SESSION_CFG.lock_limit : Fld := ⟨779, 16, 4, .rw, .val 5, .range 1 15, .installer⟩
def ACC_SESSION_CFG.lock_time : Fld := ⟨780, 20, 12, .rw, .val 60, .range 1 4095, .installer⟩
/-- ACC_SESSION_CFG. -/
def rACC_SESSION_CFG : Reg := ⟨327, 0x200014, [], 0, [ACC_SESSION_CFG.idle_timeout, ACC_SESSION_CFG.lock_limit, ACC_SESSION_CFG.lock_time]⟩
def ACC_MAKER_GRANT.minutes : Fld := ⟨781, 0, 11, .rw, .val 0, .range 0 1440, .installer⟩
def ACC_MAKER_GRANT.grant : Fld := ⟨782, 11, 1, .wo, .val 0, .any, .installer⟩
def ACC_MAKER_GRANT.revoke : Fld := ⟨783, 12, 1, .wo, .val 0, .any, .installer⟩
def ACC_MAKER_GRANT.remaining : Fld := ⟨784, 13, 11, .ro, .val 0, .any, .installer⟩
/-- ACC_MAKER_GRANT. -/
def rACC_MAKER_GRANT : Reg := ⟨328, 0x200018, [], 0, [ACC_MAKER_GRANT.minutes, ACC_MAKER_GRANT.grant, ACC_MAKER_GRANT.revoke, ACC_MAKER_GRANT.remaining]⟩
def ACC_FUSE_CMD.op : Fld := ⟨785, 0, 2, .wo, .val 0, .any, .special⟩
def ACC_FUSE_CMD.fuse_addr : Fld := ⟨786, 2, 10, .wo, .val 0, .any, .installer⟩
def ACC_FUSE_CMD.busy : Fld := ⟨787, 12, 1, .ro, .val 0, .any, .installer⟩
def ACC_FUSE_CMD.result : Fld := ⟨788, 13, 2, .ro, .val 0, .any, .installer⟩
/-- ACC_FUSE_CMD. -/
def rACC_FUSE_CMD : Reg := ⟨329, 0x20001C, [], 0, [ACC_FUSE_CMD.op, ACC_FUSE_CMD.fuse_addr, ACC_FUSE_CMD.busy, ACC_FUSE_CMD.result]⟩
def ACC_AUDIT_STATUS.fifo_fill : Fld := ⟨789, 0, 13, .ro, .val 0, .any, .installer⟩
def ACC_AUDIT_STATUS.audit_fault : Fld := ⟨790, 13, 1, .ro, .val 0, .any, .installer⟩
def ACC_AUDIT_STATUS.good : Fld := ⟨791, 14, 17, .ro, .val 65536, .any, .installer⟩
def ACC_AUDIT_STATUS.valid : Fld := ⟨792, 31, 1, .ro, .val 0, .any, .installer⟩
/-- ACC_AUDIT_STATUS. -/
def rACC_AUDIT_STATUS : Reg := ⟨330, 0x200020, [], 0, [ACC_AUDIT_STATUS.fifo_fill, ACC_AUDIT_STATUS.audit_fault, ACC_AUDIT_STATUS.good, ACC_AUDIT_STATUS.valid]⟩
def ACC_AUDIT_SEQ.seq : Fld := ⟨793, 0, 32, .ro, .val 0, .any, .installer⟩
/-- ACC_AUDIT_SEQ. -/
def rACC_AUDIT_SEQ : Reg := ⟨331, 0x200024, [(2, 0x4)], 0, [ACC_AUDIT_SEQ.seq]⟩
def ACC_AUDIT_SEL.sel : Fld := ⟨794, 0, 32, .rw, .val 0, .any, .watcher⟩
/-- ACC_AUDIT_SEL. -/
def rACC_AUDIT_SEL : Reg := ⟨332, 0x20002C, [(2, 0x4)], 0, [ACC_AUDIT_SEL.sel]⟩
def ACC_TRACE_CFG.trace_en : Fld := ⟨795, 0, 1, .rw, .val 0, .any, .installer⟩
/-- ACC_TRACE_CFG. -/
def rACC_TRACE_CFG : Reg := ⟨333, 0x200034, [], 0, [ACC_TRACE_CFG.trace_en]⟩
def ACC_AUDIT_REC.rec : Fld := ⟨796, 0, 32, .ro, .val 0, .any, .installer⟩
/-- ACC_AUDIT_REC. -/
def rACC_AUDIT_REC : Reg := ⟨334, 0x200040, [(16, 0x4)], 0, [ACC_AUDIT_REC.rec]⟩
def ACC_OP_PORTS.ports : Fld := ⟨797, 0, 32, .rw, .val 0, .any, .installer⟩
/-- ACC_OP_PORTS. -/
def rACC_OP_PORTS : Reg := ⟨335, 0x200100, [(32, 0x4)], 0, [ACC_OP_PORTS.ports]⟩
def ACC_FUSE_DATA.data : Fld := ⟨798, 0, 32, .wo, .val 0, .any, .special⟩
/-- ACC_FUSE_DATA. -/
def rACC_FUSE_DATA : Reg := ⟨336, 0x200200, [(12, 0x4)], 0, [ACC_FUSE_DATA.data]⟩
def ACC_SESSION.cred : Fld := ⟨799, 0, 16, .ro, .val 0, .any, .installer⟩
def ACC_SESSION.role : Fld := ⟨800, 16, 2, .ro, .val 0, .any, .installer⟩
def ACC_SESSION.path : Fld := ⟨801, 18, 3, .ro, .val 0, .any, .installer⟩
def ACC_SESSION.idle : Fld := ⟨802, 21, 11, .ro, .val 0, .any, .installer⟩
/-- ACC_SESSION. -/
def rACC_SESSION : Reg := ⟨337, 0x200300, [(8, 0x4)], 0, [ACC_SESSION.cred, ACC_SESSION.role, ACC_SESSION.path, ACC_SESSION.idle]⟩
def HIF_STATUS.pcie_present : Fld := ⟨803, 0, 1, .ro, .strap 1, .any, .installer⟩
def HIF_STATUS.link : Fld := ⟨804, 1, 3, .ro, .val 0, .any, .installer⟩
def HIF_STATUS.d_state : Fld := ⟨805, 4, 2, .ro, .val 0, .any, .installer⟩
def HIF_STATUS.speed : Fld := ⟨806, 6, 3, .ro, .val 0, .any, .installer⟩
def HIF_STATUS.width : Fld := ⟨807, 9, 3, .ro, .val 0, .any, .installer⟩
def HIF_STATUS.msix_en : Fld := ⟨808, 12, 1, .ro, .val 0, .any, .installer⟩
def HIF_STATUS.mgmt_up : Fld := ⟨809, 13, 2, .ro, .val 0, .any, .installer⟩
def HIF_STATUS.i2c_stuck : Fld := ⟨810, 15, 8, .ro, .val 0, .any, .installer⟩
/-- HIF_STATUS. -/
def rHIF_STATUS : Reg := ⟨338, 0xC00000, [], 0, [HIF_STATUS.pcie_present, HIF_STATUS.link, HIF_STATUS.d_state, HIF_STATUS.speed, HIF_STATUS.width, HIF_STATUS.msix_en, HIF_STATUS.mgmt_up, HIF_STATUS.i2c_stuck]⟩
def HIF_SNAPSHOT.snap : Fld := ⟨811, 0, 1, .wo, .val 0, .any, .watcher⟩
/-- HIF_SNAPSHOT. -/
def rHIF_SNAPSHOT : Reg := ⟨339, 0xC00004, [], 0, [HIF_SNAPSHOT.snap]⟩
def HIF_EVT.ev_pcie : Fld := ⟨812, 0, 1, .w1c, .val 0, .any, .watcher⟩
def HIF_EVT.ev_mgmt0 : Fld := ⟨813, 1, 1, .w1c, .val 0, .any, .watcher⟩
def HIF_EVT.ev_mgmt1 : Fld := ⟨814, 2, 1, .w1c, .val 0, .any, .watcher⟩
def HIF_EVT.ev_i2c : Fld := ⟨815, 3, 1, .w1c, .val 0, .any, .watcher⟩
def HIF_EVT.ev_overflow : Fld := ⟨816, 4, 1, .w1c, .val 0, .any, .watcher⟩
/-- HIF_EVT. -/
def rHIF_EVT : Reg := ⟨340, 0xC00008, [], 0, [HIF_EVT.ev_pcie, HIF_EVT.ev_mgmt0, HIF_EVT.ev_mgmt1, HIF_EVT.ev_i2c, HIF_EVT.ev_overflow]⟩
def HIF_MGMT_CFG.udp_port : Fld := ⟨817, 0, 16, .rw, .val 23128, .any, .installer⟩
def HIF_MGMT_CFG.mgmt_reason : Fld := ⟨818, 16, 8, .rw, .val 4, .any, .installer⟩
/-- HIF_MGMT_CFG. -/
def rHIF_MGMT_CFG : Reg := ⟨341, 0xC0000C, [], 0, [HIF_MGMT_CFG.udp_port, HIF_MGMT_CFG.mgmt_reason]⟩
def HIF_BUS_CFG.pec_req : Fld := ⟨819, 0, 1, .rw, .val 0, .any, .installer⟩
def HIF_BUS_CFG.pmb_speed : Fld := ⟨820, 1, 2, .rw, .val 1, .range 0 2, .installer⟩
def HIF_BUS_CFG.pmb_pec : Fld := ⟨821, 3, 1, .rw, .val 1, .any, .installer⟩
def HIF_BUS_CFG.i2c_speed : Fld := ⟨822, 4, 16, .rw, .val 21845, .any, .installer⟩
/-- HIF_BUS_CFG. -/
def rHIF_BUS_CFG : Reg := ⟨342, 0xC00010, [], 0, [HIF_BUS_CFG.pec_req, HIF_BUS_CFG.pmb_speed, HIF_BUS_CFG.pmb_pec, HIF_BUS_CFG.i2c_speed]⟩
def HIF_PUNT_MAP.ring : Fld := ⟨823, 0, 32, .rw, .val 0, .any, .installer⟩
/-- HIF_PUNT_MAP. -/
def rHIF_PUNT_MAP : Reg := ⟨343, 0xC00020, [(32, 0x4)], 0, [HIF_PUNT_MAP.ring]⟩
def HIF_MGMT_W0.enable : Fld := ⟨824, 0, 1, .rw, .val 1, .any, .installer⟩
def HIF_MGMT_W0.speed : Fld := ⟨825, 1, 1, .rw, .val 0, .any, .installer⟩
def HIF_MGMT_W0.an_enable : Fld := ⟨826, 2, 1, .rw, .val 1, .any, .installer⟩
/-- HIF_MGMT_W0. -/
def rHIF_MGMT_W0 : Reg := ⟨344, 0xC00100, [(2, 0x20)], 0, [HIF_MGMT_W0.enable, HIF_MGMT_W0.speed, HIF_MGMT_W0.an_enable]⟩
def HIF_MGMT_W1.mac_lo : Fld := ⟨827, 0, 32, .rw, .val 0, .any, .installer⟩
/-- HIF_MGMT_W1. -/
def rHIF_MGMT_W1 : Reg := ⟨345, 0xC00104, [(2, 0x20)], 0, [HIF_MGMT_W1.mac_lo]⟩
def HIF_MGMT_W2.mac_hi : Fld := ⟨828, 0, 16, .rw, .val 0, .any, .installer⟩
/-- HIF_MGMT_W2. -/
def rHIF_MGMT_W2 : Reg := ⟨346, 0xC00108, [(2, 0x20)], 0, [HIF_MGMT_W2.mac_hi]⟩
def HIF_MGMT_W3.ipv4 : Fld := ⟨829, 0, 32, .rw, .val 0, .any, .installer⟩
/-- HIF_MGMT_W3. -/
def rHIF_MGMT_W3 : Reg := ⟨347, 0xC0010C, [(2, 0x20)], 0, [HIF_MGMT_W3.ipv4]⟩
def HIF_MGMT_V6.ipv6 : Fld := ⟨830, 0, 32, .rw, .val 0, .any, .installer⟩
/-- HIF_MGMT_V6. -/
def rHIF_MGMT_V6 : Reg := ⟨348, 0xC00110, [(2, 0x20), (4, 0x4)], 0, [HIF_MGMT_V6.ipv6]⟩
def HIF_RING_W0.base_lo : Fld := ⟨831, 6, 26, .rw, .val 0, .any, .installer⟩
/-- HIF_RING_W0. -/
def rHIF_RING_W0 : Reg := ⟨349, 0xC01000, [(16, 0x40)], 0, [HIF_RING_W0.base_lo]⟩
def HIF_RING_W1.base_hi : Fld := ⟨832, 0, 32, .rw, .val 0, .any, .installer⟩
/-- HIF_RING_W1. -/
def rHIF_RING_W1 : Reg := ⟨350, 0xC01004, [(16, 0x40)], 0, [HIF_RING_W1.base_hi]⟩
def HIF_RING_W2.enable : Fld := ⟨833, 0, 1, .rw, .val 0, .any, .installer⟩
def HIF_RING_W2.kind : Fld := ⟨834, 1, 2, .rw, .cyc 4, .any, .installer⟩
def HIF_RING_W2.log_size : Fld := ⟨835, 3, 5, .rw, .val 10, .range 6 16, .installer⟩
/-- HIF_RING_W2. -/
def rHIF_RING_W2 : Reg := ⟨351, 0xC01008, [(16, 0x40)], 0, [HIF_RING_W2.enable, HIF_RING_W2.kind, HIF_RING_W2.log_size]⟩
def HIF_RING_W3.tail : Fld := ⟨836, 0, 32, .rw, .val 0, .any, .operator⟩
/-- HIF_RING_W3. -/
def rHIF_RING_W3 : Reg := ⟨352, 0xC0100C, [(16, 0x40)], 0, [HIF_RING_W3.tail]⟩
def HIF_RING_W4.head : Fld := ⟨837, 0, 32, .ro, .val 0, .any, .installer⟩
/-- HIF_RING_W4. -/
def rHIF_RING_W4 : Reg := ⟨353, 0xC01010, [(16, 0x40)], 0, [HIF_RING_W4.head]⟩
def HIF_RING_W5.state : Fld := ⟨838, 0, 2, .ro, .val 0, .any, .installer⟩
def HIF_RING_W5.queued : Fld := ⟨839, 2, 9, .ro, .val 0, .any, .installer⟩
/-- HIF_RING_W5. -/
def rHIF_RING_W5 : Reg := ⟨354, 0xC01014, [(16, 0x40)], 0, [HIF_RING_W5.state, HIF_RING_W5.queued]⟩
def HIF_RING_W6.ev_done : Fld := ⟨840, 0, 1, .w1c, .val 0, .any, .watcher⟩
def HIF_RING_W6.ev_halt : Fld := ⟨841, 1, 1, .w1c, .val 0, .any, .watcher⟩
def HIF_RING_W6.ev_drop : Fld := ⟨842, 2, 1, .w1c, .val 0, .any, .watcher⟩
/-- HIF_RING_W6. -/
def rHIF_RING_W6 : Reg := ⟨355, 0xC01018, [(16, 0x40)], 0, [HIF_RING_W6.ev_done, HIF_RING_W6.ev_halt, HIF_RING_W6.ev_drop]⟩
def TEL_CTRL.post_rate : Fld := ⟨843, 0, 16, .rw, .val 1000, .any, .installer⟩
/-- TEL_CTRL. -/
def rTEL_CTRL : Reg := ⟨356, 0xB00000, [], 0, [TEL_CTRL.post_rate]⟩
def TEL_SNAPSHOT.snap : Fld := ⟨844, 0, 1, .wo, .val 0, .any, .watcher⟩
/-- TEL_SNAPSHOT. -/
def rTEL_SNAPSHOT : Reg := ⟨357, 0xB00004, [], 0, [TEL_SNAPSHOT.snap]⟩
def TEL_EVT.ev_lost : Fld := ⟨845, 0, 1, .w1c, .val 0, .any, .watcher⟩
def TEL_EVT.ev_export : Fld := ⟨846, 1, 1, .w1c, .val 0, .any, .watcher⟩
/-- TEL_EVT. -/
def rTEL_EVT : Reg := ⟨358, 0xB00008, [], 0, [TEL_EVT.ev_lost, TEL_EVT.ev_export]⟩
def TEL_SNAP_ALL.snap_all : Fld := ⟨847, 0, 1, .wo, .val 0, .any, .watcher⟩
/-- TEL_SNAP_ALL. -/
def rTEL_SNAP_ALL : Reg := ⟨359, 0xB0000C, [], 0, [TEL_SNAP_ALL.snap_all]⟩
def TEL_EXPORT_CFG.cnt_period : Fld := ⟨848, 0, 12, .rw, .val 0, .range 0 3600, .installer⟩
def TEL_EXPORT_CFG.cnt_sets : Fld := ⟨849, 12, 8, .rw, .val 0, .any, .installer⟩
def TEL_EXPORT_CFG.hist_period : Fld := ⟨850, 20, 12, .rw, .val 0, .range 0 3600, .installer⟩
/-- TEL_EXPORT_CFG. -/
def rTEL_EXPORT_CFG : Reg := ⟨360, 0xB00010, [], 0, [TEL_EXPORT_CFG.cnt_period, TEL_EXPORT_CFG.cnt_sets, TEL_EXPORT_CFG.hist_period]⟩
def TEL_EVT_STATUS.fifo_fill : Fld := ⟨851, 0, 11, .ro, .val 0, .any, .installer⟩
def TEL_EVT_STATUS.valid : Fld := ⟨852, 31, 1, .ro, .val 0, .any, .installer⟩
/-- TEL_EVT_STATUS. -/
def rTEL_EVT_STATUS : Reg := ⟨361, 0xB00014, [], 0, [TEL_EVT_STATUS.fifo_fill, TEL_EVT_STATUS.valid]⟩
def TEL_EVT_SEL.seq : Fld := ⟨853, 0, 32, .rw, .val 0, .any, .watcher⟩
/-- TEL_EVT_SEL. -/
def rTEL_EVT_SEL : Reg := ⟨362, 0xB00018, [], 0, [TEL_EVT_SEL.seq]⟩
def TEL_Q_SEL.kind : Fld := ⟨854, 0, 2, .rw, .val 0, .any, .watcher⟩
def TEL_Q_SEL.index : Fld := ⟨855, 2, 18, .rw, .val 0, .any, .watcher⟩
/-- TEL_Q_SEL. -/
def rTEL_Q_SEL : Reg := ⟨363, 0xB0001C, [], 0, [TEL_Q_SEL.kind, TEL_Q_SEL.index]⟩
def TEL_STREAM_SEL.stream : Fld := ⟨856, 0, 16, .rw, .val 0, .any, .watcher⟩
/-- TEL_STREAM_SEL. -/
def rTEL_STREAM_SEL : Reg := ⟨364, 0xB00020, [], 0, [TEL_STREAM_SEL.stream]⟩
def TEL_PROF.enable : Fld := ⟨857, 0, 1, .rw, .val 0, .any, .installer⟩
def TEL_PROF.sample_shift : Fld := ⟨858, 1, 4, .rw, .val 0, .any, .installer⟩
def TEL_PROF.last_only : Fld := ⟨859, 5, 1, .rw, .val 0, .any, .installer⟩
def TEL_PROF.drop_report : Fld := ⟨860, 6, 1, .rw, .val 0, .any, .installer⟩
def TEL_PROF.threshold : Fld := ⟨861, 7, 24, .rw, .val 0, .any, .installer⟩
/-- TEL_PROF. -/
def rTEL_PROF : Reg := ⟨365, 0xB00100, [(16, 0x4)], 0, [TEL_PROF.enable, TEL_PROF.sample_shift, TEL_PROF.last_only, TEL_PROF.drop_report, TEL_PROF.threshold]⟩
def TEL_DEST_W0.kind : Fld := ⟨862, 0, 2, .rw, .val 0, .any, .installer⟩
def TEL_DEST_W0.ring : Fld := ⟨863, 2, 4, .rw, .val 0, .any, .installer⟩
def TEL_DEST_W0.types : Fld := ⟨864, 6, 4, .rw, .val 0, .any, .installer⟩
def TEL_DEST_W0.ipv6 : Fld := ⟨865, 10, 1, .rw, .val 0, .any, .installer⟩
/-- TEL_DEST_W0. -/
def rTEL_DEST_W0 : Reg := ⟨366, 0xB00200, [(4, 0x20)], 0, [TEL_DEST_W0.kind, TEL_DEST_W0.ring, TEL_DEST_W0.types, TEL_DEST_W0.ipv6]⟩
def TEL_DEST_W1.udp_port : Fld := ⟨866, 0, 16, .rw, .val 0, .any, .installer⟩
/-- TEL_DEST_W1. -/
def rTEL_DEST_W1 : Reg := ⟨367, 0xB00204, [(4, 0x20)], 0, [TEL_DEST_W1.udp_port]⟩
def TEL_DEST_ADDR.addr : Fld := ⟨867, 0, 32, .rw, .val 0, .any, .installer⟩
/-- TEL_DEST_ADDR. -/
def rTEL_DEST_ADDR : Reg := ⟨368, 0xB00208, [(4, 0x20), (4, 0x4)], 0, [TEL_DEST_ADDR.addr]⟩
def TEL_DEST_W6.dst_mac_lo : Fld := ⟨868, 0, 32, .rw, .val 0, .any, .installer⟩
/-- TEL_DEST_W6. -/
def rTEL_DEST_W6 : Reg := ⟨369, 0xB00218, [(4, 0x20)], 0, [TEL_DEST_W6.dst_mac_lo]⟩
def TEL_DEST_W7.dst_mac_hi : Fld := ⟨869, 0, 16, .rw, .val 0, .any, .installer⟩
/-- TEL_DEST_W7. -/
def rTEL_DEST_W7 : Reg := ⟨370, 0xB0021C, [(4, 0x20)], 0, [TEL_DEST_W7.dst_mac_hi]⟩
def TEL_EVT_REC.rec : Fld := ⟨870, 0, 32, .ro, .val 0, .any, .installer⟩
/-- TEL_EVT_REC. -/
def rTEL_EVT_REC : Reg := ⟨371, 0xB00800, [(16, 0x4)], 0, [TEL_EVT_REC.rec]⟩
def GLB_DEVICE_ID.device_id : Fld := ⟨871, 0, 32, .ro, .val 4132, .any, .installer⟩
/-- GLB_DEVICE_ID. -/
def rGLB_DEVICE_ID : Reg := ⟨372, 0x0, [], 0, [GLB_DEVICE_ID.device_id]⟩
def GLB_VENDOR_ID.vendor_id : Fld := ⟨872, 0, 32, .ro, .val 31297, .any, .installer⟩
/-- GLB_VENDOR_ID. -/
def rGLB_VENDOR_ID : Reg := ⟨373, 0x4, [], 0, [GLB_VENDOR_ID.vendor_id]⟩
def GLB_STEPPING.stepping : Fld := ⟨873, 0, 8, .ro, .val 176, .any, .installer⟩
/-- GLB_STEPPING. -/
def rGLB_STEPPING : Reg := ⟨374, 0x8, [], 0, [GLB_STEPPING.stepping]⟩
def GLB_ROM_VERSION.rom_version : Fld := ⟨874, 0, 32, .ro, .strap 3, .any, .installer⟩
/-- GLB_ROM_VERSION. -/
def rGLB_ROM_VERSION : Reg := ⟨375, 0xC, [], 0, [GLB_ROM_VERSION.rom_version]⟩
def GLB_STATUS.reset_cause : Fld := ⟨875, 0, 2, .ro, .val 0, .any, .installer⟩
def GLB_STATUS.brownout_rail : Fld := ⟨876, 2, 3, .ro, .val 0, .any, .installer⟩
def GLB_STATUS.alarm : Fld := ⟨877, 5, 1, .ro, .val 0, .any, .installer⟩
def GLB_STATUS.test_mode : Fld := ⟨878, 6, 1, .ro, .strap 0, .any, .installer⟩
def GLB_STATUS.pcie_en : Fld := ⟨879, 7, 1, .ro, .strap 1, .any, .installer⟩
def GLB_STATUS.smb_addr : Fld := ⟨880, 8, 3, .ro, .strap 2, .any, .installer⟩
/-- GLB_STATUS. -/
def rGLB_STATUS : Reg := ⟨376, 0x10, [], 0, [GLB_STATUS.reset_cause, GLB_STATUS.brownout_rail, GLB_STATUS.alarm, GLB_STATUS.test_mode, GLB_STATUS.pcie_en, GLB_STATUS.smb_addr]⟩
def GLB_CTRL.win16_mode : Fld := ⟨881, 0, 1, .rw, .val 0, .any, .installer⟩
/-- GLB_CTRL. -/
def rGLB_CTRL : Reg := ⟨377, 0x14, [], 0, [GLB_CTRL.win16_mode]⟩
def GLB_SNAPSHOT.snap : Fld := ⟨882, 0, 1, .wo, .val 0, .any, .watcher⟩
/-- GLB_SNAPSHOT. -/
def rGLB_SNAPSHOT : Reg := ⟨378, 0x18, [], 0, [GLB_SNAPSHOT.snap]⟩
def GLB_ACC_ERR_ADDR.addr : Fld := ⟨883, 0, 32, .ro, .val 0, .any, .installer⟩
/-- GLB_ACC_ERR_ADDR. -/
def rGLB_ACC_ERR_ADDR : Reg := ⟨379, 0x1C, [], 0, [GLB_ACC_ERR_ADDR.addr]⟩
def GLB_ACC_ERR_INFO.path : Fld := ⟨884, 0, 3, .ro, .val 0, .any, .installer⟩
def GLB_ACC_ERR_INFO.write : Fld := ⟨885, 3, 1, .ro, .val 0, .any, .installer⟩
def GLB_ACC_ERR_INFO.kind : Fld := ⟨886, 4, 3, .ro, .val 0, .any, .installer⟩
def GLB_ACC_ERR_INFO.role : Fld := ⟨887, 8, 8, .ro, .val 0, .any, .installer⟩
/-- GLB_ACC_ERR_INFO. -/
def rGLB_ACC_ERR_INFO : Reg := ⟨380, 0x20, [], 0, [GLB_ACC_ERR_INFO.path, GLB_ACC_ERR_INFO.write, GLB_ACC_ERR_INFO.kind, GLB_ACC_ERR_INFO.role]⟩
def GLB_PAD_SLEW.tout : Fld := ⟨888, 0, 2, .rw, .val 2, .any, .installer⟩
def GLB_PAD_SLEW.flash : Fld := ⟨889, 2, 2, .rw, .val 3, .any, .installer⟩
def GLB_PAD_SLEW.jtag : Fld := ⟨890, 4, 2, .rw, .val 1, .any, .installer⟩
def GLB_PAD_SLEW.trace : Fld := ⟨891, 6, 2, .rw, .val 2, .any, .installer⟩
/-- GLB_PAD_SLEW. -/
def rGLB_PAD_SLEW : Reg := ⟨381, 0x24, [], 0, [GLB_PAD_SLEW.tout, GLB_PAD_SLEW.flash, GLB_PAD_SLEW.jtag, GLB_PAD_SLEW.trace]⟩
def GLB_SCRATCH.scratch : Fld := ⟨892, 0, 32, .rw, .val 0, .any, .operator⟩
/-- GLB_SCRATCH. -/
def rGLB_SCRATCH : Reg := ⟨382, 0x28, [], 0, [GLB_SCRATCH.scratch]⟩
/-- Reserved words of SCH_SVC (R7). -/
def rSCH_SVC_RSV : Reg := ⟨383, 0x2200018, [(4096, 0x20), (2, 0x4)], 0, []⟩
/-- Reserved words of SCH_PORT (R7). -/
def rSCH_PORT_RSV : Reg := ⟨384, 0x2240020, [(1024, 0x40), (8, 0x4)], 0, []⟩
/-- Reserved words of SCH_POL (R7). -/
def rSCH_POL_RSV : Reg := ⟨385, 0x2C0001C, [(65536, 0x40)], 0, []⟩
/-- Reserved words of SCH_POL (R7). -/
def rSCH_POL_RSV2 : Reg := ⟨386, 0x2C00038, [(65536, 0x40), (2, 0x4)], 0, []⟩
/-- Reserved words of FAB_ROUND (R7). -/
def rFAB_ROUND_RSV : Reg := ⟨387, 0xA0011C, [(16, 0x20)], 0, []⟩
/-- Reserved words of TIM_PORT (R7). -/
def rTIM_PORT_RSV : Reg := ⟨388, 0x60101C, [(1024, 0x20)], 0, []⟩
/-- Reserved words of TIM_TOUT (R7). -/
def rTIM_TOUT_RSV : Reg := ⟨389, 0x60901C, [(16, 0x20)], 0, []⟩
/-- Reserved words of TIM_TIN (R7). -/
def rTIM_TIN_RSV : Reg := ⟨390, 0x60921C, [(8, 0x20)], 0, []⟩
/-- Reserved words of POOL_REQ (R7). -/
def rPOOL_REQ_RSV : Reg := ⟨391, 0x70101C, [(32, 0x20)], 0, []⟩
/-- Reserved words of CFG_CS (R7). -/
def rCFG_CS_RSV : Reg := ⟨392, 0x100118, [(4, 0x20), (2, 0x4)], 0, []⟩
/-- Reserved words of HIF_RING (R7). -/
def rHIF_RING_RSV : Reg := ⟨393, 0xC0101C, [(16, 0x40)], 0, []⟩
/-- Reserved words of SLC_KEY_PROFILE (R7). -/
def rSLC_KEY_PROFILE_RSV : Reg := ⟨394, 0x10210018, [(17, 0x1000000), (16, 0x20), (2, 0x4)], 0, []⟩
/-- Reserved words of SLC_TEMPLATE (R7). -/
def rSLC_TEMPLATE_RSV : Reg := ⟨395, 0x10300014, [(17, 0x1000000), (256, 0x80), (11, 0x4)], 0, []⟩

def cnt_GLB_access_errors : Cnt := ⟨0, 0, 0x40, [], 0, 0⟩
def cnt_CFG_flash_stalls : Cnt := ⟨1, 1, 0x100040, [], 0, 0⟩
def cnt_CFG_flash_late_edges : Cnt := ⟨2, 1, 0x100048, [], 0, 0⟩
def cnt_CFG_boot_rx_drop : Cnt := ⟨3, 1, 0x100050, [], 0, 0⟩
def cnt_CFG_cs_commits : Cnt := ⟨4, 1, 0x100058, [], 0, 0⟩
def cnt_CFG_cs_fails : Cnt := ⟨5, 1, 0x100060, [], 0, 0⟩
def cnt_CFG_pair_holds : Cnt := ⟨6, 1, 0x100068, [], 0, 0⟩
def cnt_ACC_auth_ok : Cnt := ⟨7, 2, 0x200080, [], 0, 0⟩
def cnt_ACC_auth_fail : Cnt := ⟨8, 2, 0x200088, [], 0, 0⟩
def cnt_ACC_denied : Cnt := ⟨9, 2, 0x200090, [], 0, 0⟩
def cnt_ACC_replay_drop : Cnt := ⟨10, 2, 0x200098, [], 0, 0⟩
def cnt_ACC_audit_records : Cnt := ⟨11, 2, 0x2000A0, [], 0, 0⟩
def cnt_ACC_audit_overwrites : Cnt := ⟨12, 2, 0x2000A8, [], 0, 0⟩
def cnt_ACC_audit_refused : Cnt := ⟨13, 2, 0x2000B0, [], 0, 0⟩
def cnt_PWR_pstate_changes : Cnt := ⟨14, 3, 0x300080, [], 0, 0⟩
def cnt_PWR_step_abandon : Cnt := ⟨15, 3, 0x300088, [], 0, 0⟩
def cnt_PWR_vr_alert : Cnt := ⟨16, 3, 0x300090, [], 0, 0⟩
def cnt_PWR_throttle_ms : Cnt := ⟨17, 3, 0x300098, [], 0, 0⟩
def cnt_PWR_droop_l1 : Cnt := ⟨18, 3, 0x3000A0, [], 0, 0⟩
def cnt_PWR_droop_l2 : Cnt := ⟨19, 3, 0x3000A8, [], 0, 0⟩
def cnt_PWR_excursion : Cnt := ⟨20, 3, 0x3000B0, [], 0, 0⟩
def cnt_PWR_trim_steps : Cnt := ⟨21, 3, 0x3000B8, [], 0, 0⟩
def cnt_PWR_trim_reverts : Cnt := ⟨22, 3, 0x3000C0, [], 0, 0⟩
def cnt_PWR_pg_watts_out : Cnt := ⟨23, 3, 0x3000C8, [], 0, 0⟩
def cnt_PWR_pg_watts_in : Cnt := ⟨24, 3, 0x3000D0, [], 0, 0⟩
def cnt_PWR_pmbus_err : Cnt := ⟨25, 3, 0x3000D8, [], 0, 0⟩
def cnt_INTC_core_deliveries : Cnt := ⟨26, 5, 0x500040, [], 0, 0⟩
def cnt_INTC_msix_sent : Cnt := ⟨27, 5, 0x500048, [], 0, 0⟩
def cnt_INTC_msix_link_wake : Cnt := ⟨28, 5, 0x500050, [], 0, 0⟩
def cnt_INTC_msix_held : Cnt := ⟨29, 5, 0x500058, [], 0, 0⟩
def cnt_INTC_repend : Cnt := ⟨30, 5, 0x500060, [], 0, 0⟩
def cnt_INTC_sleep_abort : Cnt := ⟨31, 5, 0x500068, [], 0, 0⟩
def cnt_TIM_ptp_rx : Cnt := ⟨32, 6, 0x600040, [], 0, 0⟩
def cnt_TIM_ptp_tx : Cnt := ⟨33, 6, 0x600048, [], 0, 0⟩
def cnt_TIM_ptp_bad : Cnt := ⟨34, 6, 0x600050, [], 0, 0⟩
def cnt_TIM_ptp_mgmt_drop : Cnt := ⟨35, 6, 0x600058, [], 0, 0⟩
def cnt_TIM_pdelay_lost : Cnt := ⟨36, 6, 0x600060, [], 0, 0⟩
def cnt_TIM_delay_spike : Cnt := ⟨37, 6, 0x600068, [], 0, 0⟩
def cnt_TIM_tc_fwd : Cnt := ⟨38, 6, 0x600070, [], 0, 0⟩
def cnt_TIM_tc_v6_unmod : Cnt := ⟨39, 6, 0x600078, [], 0, 0⟩
def cnt_TIM_tin_glitch : Cnt := ⟨40, 6, 0x600080, [], 0, 0⟩
def cnt_TIM_tin_overflow : Cnt := ⟨41, 6, 0x600088, [], 0, 0⟩
def cnt_TIM_tout_missed : Cnt := ⟨42, 6, 0x600090, [], 0, 0⟩
def cnt_POOL_alloc_ok : Cnt := ⟨43, 7, 0x700040, [], 0, 0⟩
def cnt_POOL_alloc_empty : Cnt := ⟨44, 7, 0x700048, [], 0, 0⟩
def cnt_POOL_alloc_quota : Cnt := ⟨45, 7, 0x700050, [], 0, 0⟩
def cnt_POOL_free_reject : Cnt := ⟨46, 7, 0x700058, [], 0, 0⟩
def cnt_POOL_give_reject : Cnt := ⟨47, 7, 0x700060, [], 0, 0⟩
def cnt_POOL_use_reject : Cnt := ⟨48, 7, 0x700068, [], 0, 0⟩
def cnt_POOL_reclaimed : Cnt := ⟨49, 7, 0x700070, [], 0, 0⟩
def cnt_POOL_meta_retire : Cnt := ⟨50, 7, 0x700078, [], 0, 0⟩
def cnt_RED_mismatch : Cnt := ⟨51, 8, 0x800040, [], 0, 0⟩
def cnt_RED_transient : Cnt := ⟨52, 8, 0x800048, [], 0, 0⟩
def cnt_RED_give_up : Cnt := ⟨53, 8, 0x800050, [], 0, 0⟩
def cnt_RED_takeover : Cnt := ⟨54, 8, 0x800058, [], 0, 0⟩
def cnt_RED_takeover_fail : Cnt := ⟨55, 8, 0x800060, [], 0, 0⟩
def cnt_RED_late_slice_discard : Cnt := ⟨56, 8, 0x800068, [], 0, 0⟩
def cnt_RED_update_done : Cnt := ⟨57, 8, 0x800070, [], 0, 0⟩
def cnt_RED_update_abort : Cnt := ⟨58, 8, 0x800078, [], 0, 0⟩
def cnt_RED_wd_restart : Cnt := ⟨59, 8, 0x800080, [], 0, 0⟩
def cnt_RED_rejoin_fail : Cnt := ⟨60, 8, 0x800088, [], 0, 0⟩
def cnt_RED_gap_rx_drop : Cnt := ⟨61, 8, 0x801000, [(1024, 0x10)], 0, 0⟩
def cnt_RED_gap_tx_abort : Cnt := ⟨62, 8, 0x801008, [(1024, 0x10)], 0, 0⟩
def cnt_ADM_admit : Cnt := ⟨63, 9, 0x900400, [], 0, 0⟩
def cnt_ADM_reject : Cnt := ⟨64, 9, 0x900408, [], 0, 0⟩
def cnt_ADM_breach : Cnt := ⟨65, 9, 0x900410, [], 0, 0⟩
def cnt_ADM_margin : Cnt := ⟨66, 9, 0x900418, [], 0, 0⟩
def cnt_ADM_late : Cnt := ⟨67, 9, 0x900310, [], 0, 1⟩
def cnt_ADM_fault_loss : Cnt := ⟨68, 9, 0x900318, [], 0, 1⟩
def cnt_FAB_tag_bad : Cnt := ⟨69, 10, 0xA00040, [], 0, 0⟩
def cnt_FAB_tag_mismatch : Cnt := ⟨70, 10, 0xA00048, [], 0, 0⟩
def cnt_FAB_hop_limit_drop : Cnt := ⟨71, 10, 0xA00050, [], 0, 0⟩
def cnt_FAB_rsq_skip : Cnt := ⟨72, 10, 0xA00058, [], 0, 0⟩
def cnt_FAB_rsq_late : Cnt := ⟨73, 10, 0xA00060, [], 0, 0⟩
def cnt_FAB_frer_dup : Cnt := ⟨74, 10, 0xA00068, [], 0, 0⟩
def cnt_FAB_bundle_empty : Cnt := ⟨75, 10, 0xA00070, [], 0, 0⟩
def cnt_FAB_round_mismatch : Cnt := ⟨76, 10, 0xA00078, [], 0, 0⟩
def cnt_FAB_pg_rx : Cnt := ⟨77, 10, 0xA00080, [], 0, 0⟩
def cnt_FAB_pg_tx : Cnt := ⟨78, 10, 0xA00088, [], 0, 0⟩
def cnt_FAB_pg_bad : Cnt := ⟨79, 10, 0xA00090, [], 0, 0⟩
def cnt_FAB_frer_copies : Cnt := ⟨80, 10, 0xA00098, [], 0, 0⟩
def cnt_TEL_postcards : Cnt := ⟨81, 11, 0xB00040, [], 0, 0⟩
def cnt_TEL_postcard_rate_drop : Cnt := ⟨82, 11, 0xB00048, [], 0, 0⟩
def cnt_TEL_export_records : Cnt := ⟨83, 11, 0xB00050, [], 0, 0⟩
def cnt_TEL_export_no_buf : Cnt := ⟨84, 11, 0xB00058, [], 0, 0⟩
def cnt_TEL_export_no_desc : Cnt := ⟨85, 11, 0xB00060, [], 0, 0⟩
def cnt_TEL_evt_records : Cnt := ⟨86, 11, 0xB00068, [], 0, 0⟩
def cnt_TEL_evt_lost : Cnt := ⟨87, 11, 0xB00070, [], 0, 0⟩
def cnt_TEL_evt_overwrite : Cnt := ⟨88, 11, 0xB00078, [], 0, 0⟩
def cnt_TEL_eng_ecc_corr : Cnt := ⟨89, 11, 0xB00080, [], 0, 0⟩
def cnt_TEL_head_ecc_corr : Cnt := ⟨90, 11, 0xB00088, [], 0, 0⟩
def cnt_TEL_svc_ecc_corr : Cnt := ⟨91, 11, 0xB00090, [], 0, 0⟩
def cnt_TEL_cx_ecc_corr : Cnt := ⟨92, 11, 0xB00098, [], 0, 0⟩
def cnt_TEL_q_tx_frames : Cnt := ⟨93, 11, 0xB00400, [], 0, 2⟩
def cnt_TEL_q_tx_bytes : Cnt := ⟨94, 11, 0xB00408, [], 0, 2⟩
def cnt_TEL_q_drops : Cnt := ⟨95, 11, 0xB00410, [], 0, 2⟩
def cnt_TEL_s_rx_frames : Cnt := ⟨96, 11, 0xB00420, [], 0, 3⟩
def cnt_TEL_s_rx_bytes : Cnt := ⟨97, 11, 0xB00428, [], 0, 3⟩
def cnt_TEL_s_tx_frames : Cnt := ⟨98, 11, 0xB00430, [], 0, 3⟩
def cnt_HIF_mgmt_rx : Cnt := ⟨99, 12, 0xC00200, [], 0, 0⟩
def cnt_HIF_mgmt_tx : Cnt := ⟨100, 12, 0xC00208, [], 0, 0⟩
def cnt_HIF_mgmt_other : Cnt := ⟨101, 12, 0xC00210, [], 0, 0⟩
def cnt_HIF_mgmt_no_buf : Cnt := ⟨102, 12, 0xC00218, [], 0, 0⟩
def cnt_HIF_mgmt_overflow : Cnt := ⟨103, 12, 0xC00220, [], 0, 0⟩
def cnt_HIF_mgmt_bad : Cnt := ⟨104, 12, 0xC00228, [], 0, 0⟩
def cnt_HIF_smb_err : Cnt := ⟨105, 12, 0xC00230, [], 0, 0⟩
def cnt_HIF_i2c_err : Cnt := ⟨106, 12, 0xC00238, [], 0, 0⟩
def cnt_HIF_pcie_aer : Cnt := ⟨107, 12, 0xC00240, [], 0, 0⟩
def cnt_HIF_completions : Cnt := ⟨108, 12, 0xC01020, [(16, 0x40)], 0, 0⟩
def cnt_HIF_bytes : Cnt := ⟨109, 12, 0xC01028, [(16, 0x40)], 0, 0⟩
def cnt_HIF_punt_drop : Cnt := ⟨110, 12, 0xC01030, [(16, 0x40)], 0, 0⟩
def cnt_HIF_inject_refused : Cnt := ⟨111, 12, 0xC01038, [(16, 0x40)], 0, 0⟩
def cnt_BUF_ecc_corr : Cnt := ⟨112, 13, 0x1000100, [], 0, 0⟩
def cnt_BUF_ecc_uncorr : Cnt := ⟨113, 13, 0x1000108, [], 0, 0⟩
def cnt_BUF_link_ecc_corr : Cnt := ⟨114, 13, 0x1000110, [], 0, 0⟩
def cnt_BUF_link_ecc_uncorr : Cnt := ⟨115, 13, 0x1000118, [], 0, 0⟩
def cnt_BUF_leak_cells : Cnt := ⟨116, 13, 0x1000120, [], 0, 0⟩
def cnt_BUF_quarantine_pass : Cnt := ⟨117, 13, 0x1000128, [], 0, 0⟩
def cnt_BUF_quarantine_retire : Cnt := ⟨118, 13, 0x1000130, [], 0, 0⟩
def cnt_BUF_mc_copies : Cnt := ⟨119, 13, 0x1000138, [], 0, 0⟩
def cnt_BUF_rx_pool_drop : Cnt := ⟨120, 13, 0x1010000, [(1024, 0x40)], 0, 0⟩
def cnt_BUF_pg_drop : Cnt := ⟨121, 13, 0x1010008, [(1024, 0x40)], 0, 0⟩
def cnt_BUF_tail_drop : Cnt := ⟨122, 13, 0x1010010, [(1024, 0x40)], 0, 0⟩
def cnt_BUF_adm_no_cell : Cnt := ⟨123, 13, 0x1010018, [(1024, 0x40)], 0, 0⟩
def cnt_BUF_stale_drop : Cnt := ⟨124, 13, 0x1010020, [(1024, 0x40)], 0, 0⟩
def cnt_BUF_flush_drop : Cnt := ⟨125, 13, 0x1010028, [(1024, 0x40)], 0, 0⟩
def cnt_BUF_link_down_drop : Cnt := ⟨126, 13, 0x1010030, [(1024, 0x40)], 0, 0⟩
def cnt_BUF_mc_copy_drop : Cnt := ⟨127, 13, 0x1010038, [(1024, 0x40)], 0, 0⟩
def cnt_SCH_wheel_late : Cnt := ⟨128, 14, 0x2000080, [], 0, 0⟩
def cnt_SCH_samples_taken : Cnt := ⟨129, 14, 0x2000088, [], 0, 0⟩
def cnt_SCH_tx_admitted : Cnt := ⟨130, 14, 0x2250000, [(1024, 0x40)], 0, 0⟩
def cnt_SCH_tx_gated : Cnt := ⟨131, 14, 0x2250008, [(1024, 0x40)], 0, 0⟩
def cnt_SCH_gate_carry : Cnt := ⟨132, 14, 0x2250010, [(1024, 0x40)], 0, 0⟩
def cnt_SCH_err_removed : Cnt := ⟨133, 14, 0x2250018, [(1024, 0x40)], 0, 0⟩
def cnt_SCH_node_mismatch : Cnt := ⟨134, 14, 0x2250020, [(1024, 0x40)], 0, 0⟩
def cnt_SCH_q01_remap : Cnt := ⟨135, 14, 0x2250028, [(1024, 0x40)], 0, 0⟩
def cnt_SCH_bins : Cnt := ⟨136, 14, 0x2280000, [(4096, 0x100), (32, 0x8)], 0, 0⟩
def cnt_SCH_pol_green : Cnt := ⟨137, 14, 0x2C00020, [(65536, 0x40)], 0, 0⟩
def cnt_SCH_pol_yellow : Cnt := ⟨138, 14, 0x2C00028, [(65536, 0x40)], 0, 0⟩
def cnt_SCH_pol_red : Cnt := ⟨139, 14, 0x2C00030, [(65536, 0x40)], 0, 0⟩
def cnt_TBL_fwd_l2_hit : Cnt := ⟨140, 15, 0x3002000, [], 0, 0⟩
def cnt_TBL_fwd_flood : Cnt := ⟨141, 15, 0x3002008, [], 0, 0⟩
def cnt_TBL_fwd_host_hit : Cnt := ⟨142, 15, 0x3002010, [], 0, 0⟩
def cnt_TBL_fwd_lpm_hit : Cnt := ⟨143, 15, 0x3002018, [], 0, 0⟩
def cnt_TBL_fwd_l3_miss : Cnt := ⟨144, 15, 0x3002020, [], 0, 0⟩
def cnt_TBL_fwd_vlan_drop : Cnt := ⟨145, 15, 0x3002028, [], 0, 0⟩
def cnt_TBL_fwd_none : Cnt := ⟨146, 15, 0x3002030, [], 0, 0⟩
def cnt_TBL_fwd_hairpin : Cnt := ⟨147, 15, 0x3002038, [], 0, 0⟩
def cnt_TBL_fwd_bad_ref : Cnt := ⟨148, 15, 0x3002040, [], 0, 0⟩
def cnt_TBL_fwd_parity_miss : Cnt := ⟨149, 15, 0x3002048, [], 0, 0⟩
def cnt_TBL_learn_new : Cnt := ⟨150, 15, 0x3002050, [], 0, 0⟩
def cnt_TBL_learn_move : Cnt := ⟨151, 15, 0x3002058, [], 0, 0⟩
def cnt_TBL_learn_dup : Cnt := ⟨152, 15, 0x3002060, [], 0, 0⟩
def cnt_TBL_learn_contention : Cnt := ⟨153, 15, 0x3002068, [], 0, 0⟩
def cnt_TBL_learn_pinned : Cnt := ⟨154, 15, 0x3002070, [], 0, 0⟩
def cnt_TBL_learn_static : Cnt := ⟨155, 15, 0x3002078, [], 0, 0⟩
def cnt_TBL_learn_fifo_drop : Cnt := ⟨156, 15, 0x3002080, [], 0, 0⟩
def cnt_TBL_learn_full : Cnt := ⟨157, 15, 0x3002088, [], 0, 0⟩
def cnt_TBL_learn_frozen : Cnt := ⟨158, 15, 0x3002090, [], 0, 0⟩
def cnt_TBL_age_removed : Cnt := ⟨159, 15, 0x3002098, [], 0, 0⟩
def cnt_TBL_age_flush : Cnt := ⟨160, 15, 0x30020A0, [], 0, 0⟩
def cnt_TBL_stream_mirror_corr : Cnt := ⟨161, 15, 0x30020A8, [], 0, 0⟩
def cnt_PRT_rx_frames : Cnt := ⟨162, 16, 0x4001040, [(64, 0x10000), (16, 0x100)], 0, 0⟩
def cnt_PRT_rx_bytes : Cnt := ⟨163, 16, 0x4001048, [(64, 0x10000), (16, 0x100)], 0, 0⟩
def cnt_PRT_rx_fcs_err : Cnt := ⟨164, 16, 0x4001050, [(64, 0x10000), (16, 0x100)], 0, 0⟩
def cnt_PRT_rx_oversize : Cnt := ⟨165, 16, 0x4001058, [(64, 0x10000), (16, 0x100)], 0, 0⟩
def cnt_PRT_rx_undersize : Cnt := ⟨166, 16, 0x4001060, [(64, 0x10000), (16, 0x100)], 0, 0⟩
def cnt_PRT_rx_mac_ctrl : Cnt := ⟨167, 16, 0x4001068, [(64, 0x10000), (16, 0x100)], 0, 0⟩
def cnt_PRT_rx_ctrl : Cnt := ⟨168, 16, 0x4001070, [(64, 0x10000), (16, 0x100)], 0, 0⟩
def cnt_PRT_rx_ctrl_bad : Cnt := ⟨169, 16, 0x4001078, [(64, 0x10000), (16, 0x100)], 0, 0⟩
def cnt_PRT_rx_os_unknown : Cnt := ⟨170, 16, 0x4001080, [(64, 0x10000), (16, 0x100)], 0, 0⟩
def cnt_PRT_tx_frames : Cnt := ⟨171, 16, 0x4001088, [(64, 0x10000), (16, 0x100)], 0, 0⟩
def cnt_PRT_tx_bytes : Cnt := ⟨172, 16, 0x4001090, [(64, 0x10000), (16, 0x100)], 0, 0⟩
def cnt_PRT_tx_err_fcs : Cnt := ⟨173, 16, 0x4001098, [(64, 0x10000), (16, 0x100)], 0, 0⟩
def cnt_PRT_fec_corr_sym : Cnt := ⟨174, 16, 0x40010A0, [(64, 0x10000), (16, 0x100)], 0, 0⟩
def cnt_PRT_fec_uncorr : Cnt := ⟨175, 16, 0x40010A8, [(64, 0x10000), (16, 0x100)], 0, 0⟩
def cnt_PRT_link_down : Cnt := ⟨176, 16, 0x40010B0, [(64, 0x10000), (16, 0x100)], 0, 0⟩
def cnt_PRT_an_mismatch : Cnt := ⟨177, 16, 0x40010B8, [(64, 0x10000), (16, 0x100)], 0, 0⟩
def cnt_PRT_bringup_retry : Cnt := ⟨178, 16, 0x40010C0, [(64, 0x10000), (16, 0x100)], 0, 0⟩
def cnt_PRT_adapt_revert : Cnt := ⟨179, 16, 0x40010C8, [(64, 0x10000), (16, 0x100)], 0, 0⟩
def cnt_PRT_quiet_entry : Cnt := ⟨180, 16, 0x40010D0, [(64, 0x10000), (16, 0x100)], 0, 0⟩
def cnt_PRT_quiet_wake : Cnt := ⟨181, 16, 0x40010D8, [(64, 0x10000), (16, 0x100)], 0, 0⟩
def cnt_PRT_quiet_refused : Cnt := ⟨182, 16, 0x40010E0, [(64, 0x10000), (16, 0x100)], 0, 0⟩
def cnt_PRT_prbs_err : Cnt := ⟨183, 16, 0x4002008, [(64, 0x10000), (16, 0x40)], 0, 0⟩
def cnt_SLC_epoch_discard : Cnt := ⟨184, 17, 0x10000200, [(17, 0x1000000)], 1, 0⟩
def cnt_SLC_head_ecc : Cnt := ⟨185, 17, 0x10000208, [(17, 0x1000000)], 1, 0⟩
def cnt_SLC_head_drop : Cnt := ⟨186, 17, 0x10004000, [(17, 0x1000000), (64, 0x80)], 64, 0⟩
def cnt_SLC_reseq_skip : Cnt := ⟨187, 17, 0x10004008, [(17, 0x1000000), (64, 0x80)], 64, 0⟩
def cnt_SLC_reseq_late : Cnt := ⟨188, 17, 0x10004010, [(17, 0x1000000), (64, 0x80)], 64, 0⟩
def cnt_SLC_fence_redispatch : Cnt := ⟨189, 17, 0x10004018, [(17, 0x1000000), (64, 0x80)], 64, 0⟩
def cnt_SLC_fence_drop : Cnt := ⟨190, 17, 0x10004020, [(17, 0x1000000), (64, 0x80)], 64, 0⟩
def cnt_SLC_rx_discard_err : Cnt := ⟨191, 17, 0x10004028, [(17, 0x1000000), (64, 0x80)], 64, 0⟩
def cnt_SLC_cut_abort : Cnt := ⟨192, 17, 0x10004030, [(17, 0x1000000), (64, 0x80)], 64, 0⟩
def cnt_SLC_cut_underrun : Cnt := ⟨193, 17, 0x10004038, [(17, 0x1000000), (64, 0x80)], 64, 0⟩
def cnt_SLC_ct_frames : Cnt := ⟨194, 17, 0x10004040, [(17, 0x1000000), (64, 0x80)], 64, 0⟩
def cnt_SLC_sf_frames : Cnt := ⟨195, 17, 0x10004048, [(17, 0x1000000), (64, 0x80)], 64, 0⟩
def cnt_SLC_parse_window : Cnt := ⟨196, 17, 0x10100800, [(17, 0x1000000)], 1, 0⟩
def cnt_SLC_parse_depth : Cnt := ⟨197, 17, 0x10100808, [(17, 0x1000000)], 1, 0⟩
def cnt_SLC_parse_no_trans : Cnt := ⟨198, 17, 0x10100810, [(17, 0x1000000)], 1, 0⟩
def cnt_SLC_parse_truncated : Cnt := ⟨199, 17, 0x10100818, [(17, 0x1000000)], 1, 0⟩
def cnt_SLC_ipv4_csum_bad : Cnt := ⟨200, 17, 0x10100820, [(17, 0x1000000)], 1, 0⟩
def cnt_SLC_rule_miss : Cnt := ⟨201, 17, 0x10100828, [(17, 0x1000000)], 1, 0⟩
def cnt_SLC_act_drop : Cnt := ⟨202, 17, 0x10100830, [(17, 0x1000000)], 1, 0⟩
def cnt_SLC_act_ignored : Cnt := ⟨203, 17, 0x10100838, [(17, 0x1000000)], 1, 0⟩
def cnt_SLC_ttl_expired : Cnt := ⟨204, 17, 0x10100840, [(17, 0x1000000)], 1, 0⟩
def cnt_SLC_ttl_hold : Cnt := ⟨205, 17, 0x10100848, [(17, 0x1000000)], 1, 0⟩
def cnt_SLC_ttl_punt : Cnt := ⟨206, 17, 0x10100850, [(17, 0x1000000)], 1, 0⟩
def cnt_SLC_mirror_drop : Cnt := ⟨207, 17, 0x10100858, [(17, 0x1000000)], 1, 0⟩
def cnt_SLC_sid_unadmitted : Cnt := ⟨208, 17, 0x10100860, [(17, 0x1000000)], 1, 0⟩
def cnt_SLC_sid_port_mismatch : Cnt := ⟨209, 17, 0x10100868, [(17, 0x1000000)], 1, 0⟩
def cnt_SLC_act_oversize : Cnt := ⟨210, 17, 0x10100870, [(17, 0x1000000)], 1, 0⟩
def cnt_SLC_rule_hits : Cnt := ⟨211, 17, 0x10400000, [(17, 0x1000000), (65536, 0x8)], 65536, 0⟩

def regsGLB0 : List Reg := [rGLB_DEVICE_ID, rGLB_VENDOR_ID, rGLB_STEPPING, rGLB_ROM_VERSION, rGLB_STATUS, rGLB_CTRL, rGLB_SNAPSHOT, rGLB_ACC_ERR_ADDR, rGLB_ACC_ERR_INFO, rGLB_PAD_SLEW, rGLB_SCRATCH]
/-- The registers of block GLB. -/
def regsGLB : List Reg := regsGLB0
/-- The counters of block GLB. -/
def cntsGLB : List Cnt := [cnt_GLB_access_errors]
def regsCFG0 : List Reg := [rCFG_BOOT_STATUS, rCFG_SNAPSHOT, rCFG_EVT, rCFG_BOOT_LOG, rCFG_BOOT_FAIL_ADDR, rCFG_INCONSISTENT, rCFG_PATH_CS, rCFG_BOOT_SEL, rCFG_STAGE_CS, rCFG_STAGE_ADDR, rCFG_STAGE_MASK, rCFG_STAGE_DATA, rCFG_CS_W0, rCFG_CS_W1, rCFG_CS_W2, rCFG_CS_W3, rCFG_CS_W4, rCFG_CS_W5, rCFG_FLASH_ADDR, rCFG_FLASH_CMD]
def regsCFG1 : List Reg := [rCFG_FLASH_STATUS, rCFG_FLASH_DATA, rCFG_CS_RSV]
/-- The registers of block CFG. -/
def regsCFG : List Reg := regsCFG0 ++ regsCFG1
/-- The counters of block CFG. -/
def cntsCFG : List Cnt := [cnt_CFG_flash_stalls, cnt_CFG_flash_late_edges, cnt_CFG_boot_rx_drop, cnt_CFG_cs_commits, cnt_CFG_cs_fails, cnt_CFG_pair_holds]
def regsACC0 : List Reg := [rACC_STATUS, rACC_SNAPSHOT, rACC_EVT, rACC_PATH_ROLE, rACC_OP_ENV, rACC_SESSION_CFG, rACC_MAKER_GRANT, rACC_FUSE_CMD, rACC_AUDIT_STATUS, rACC_AUDIT_SEQ, rACC_AUDIT_SEL, rACC_TRACE_CFG, rACC_AUDIT_REC, rACC_OP_PORTS, rACC_FUSE_DATA, rACC_SESSION]
/-- The registers of block ACC. -/
def regsACC : List Reg := regsACC0
/-- The counters of block ACC. -/
def cntsACC : List Cnt := [cnt_ACC_auth_ok, cnt_ACC_auth_fail, cnt_ACC_denied, cnt_ACC_replay_drop, cnt_ACC_audit_records, cnt_ACC_audit_overwrites, cnt_ACC_audit_refused]
def regsPWR0 : List Reg := [rPWR_CTRL, rPWR_SNAPSHOT, rPWR_STATUS, rPWR_EVT, rPWR_CAP, rPWR_DRAW, rPWR_THERM, rPWR_THERM_STATUS, rPWR_DROOP_CFG, rPWR_TRIM_CFG, rPWR_TRIM_STATUS, rPWR_VID0, rPWR_VID1, rPWR_VCORE, rPWR_PG_CFG, rPWR_PG_CTRL, rPWR_PG_STATUS, rPWR_SLICE, rPWR_CX, rPWR_VR]
def regsPWR1 : List Reg := [rPWR_VR_TEL, rPWR_TEMP, rPWR_VSENSE, rPWR_DROOP]
/-- The registers of block PWR. -/
def regsPWR : List Reg := regsPWR0 ++ regsPWR1
/-- The counters of block PWR. -/
def cntsPWR : List Cnt := [cnt_PWR_pstate_changes, cnt_PWR_step_abandon, cnt_PWR_vr_alert, cnt_PWR_throttle_ms, cnt_PWR_droop_l1, cnt_PWR_droop_l2, cnt_PWR_excursion, cnt_PWR_trim_steps, cnt_PWR_trim_reverts, cnt_PWR_pg_watts_out, cnt_PWR_pg_watts_in, cnt_PWR_pmbus_err]
def regsCLK0 : List Reg := [rCLK_STATUS, rCLK_CTRL, rCLK_DOM_SEL, rCLK_DOM_FREQ, rCLK_EVT]
/-- The registers of block CLK. -/
def regsCLK : List Reg := regsCLK0
/-- The counters of block CLK. -/
def cntsCLK : List Cnt := []
def regsINTC0 : List Reg := [rINTC_STATUS, rINTC_SNAPSHOT, rINTC_SW_SET, rINTC_CORE, rINTC_LINE, rINTC_HPEND, rINTC_CPEND, rINTC_GRP, rINTC_SRC]
/-- The registers of block INTC. -/
def regsINTC : List Reg := regsINTC0
/-- The counters of block INTC. -/
def cntsINTC : List Cnt := [cnt_INTC_core_deliveries, cnt_INTC_msix_sent, cnt_INTC_msix_link_wake, cnt_INTC_msix_held, cnt_INTC_repend, cnt_INTC_sleep_abort]
def regsTIM0 : List Reg := [rTIM_CTRL, rTIM_SNAPSHOT, rTIM_EVT, rTIM_CLOCK_ID, rTIM_TB_W0, rTIM_TB_W1, rTIM_TB_W2, rTIM_TB_W3, rTIM_TB_W4, rTIM_TB_W5, rTIM_TB_W6, rTIM_TB_W7, rTIM_TB_W8, rTIM_TB_W9, rTIM_TB_W10, rTIM_TB_W11, rTIM_TB_W12, rTIM_TB_W13, rTIM_TB_W14, rTIM_TB_W15]
def regsTIM1 : List Reg := [rTIM_PORT_W0, rTIM_PORT_W1, rTIM_PORT_W2, rTIM_PORT_W3, rTIM_PORT_W4, rTIM_PORT_W5, rTIM_PORT_W6, rTIM_TOUT_W0, rTIM_TOUT_W1, rTIM_TOUT_W2, rTIM_TOUT_W3, rTIM_TOUT_W4, rTIM_TOUT_W5, rTIM_TOUT_W6, rTIM_TIN_W0, rTIM_TIN_W1, rTIM_TIN_W2, rTIM_TIN_W3, rTIM_TIN_W4, rTIM_TIN_W5]
def regsTIM2 : List Reg := [rTIM_TIN_W6, rTIM_PORT_RSV, rTIM_TOUT_RSV, rTIM_TIN_RSV]
/-- The registers of block TIM. -/
def regsTIM : List Reg := regsTIM0 ++ regsTIM1 ++ regsTIM2
/-- The counters of block TIM. -/
def cntsTIM : List Cnt := [cnt_TIM_ptp_rx, cnt_TIM_ptp_tx, cnt_TIM_ptp_bad, cnt_TIM_ptp_mgmt_drop, cnt_TIM_pdelay_lost, cnt_TIM_delay_spike, cnt_TIM_tc_fwd, cnt_TIM_tc_v6_unmod, cnt_TIM_tin_glitch, cnt_TIM_tin_overflow, cnt_TIM_tout_missed]
def regsPOOL0 : List Reg := [rPOOL_CTRL, rPOOL_SNAPSHOT, rPOOL_EVT, rPOOL_ERR_LOG, rPOOL_ERR_HANDLE, rPOOL_RECLAIM, rPOOL_INSPECT_SEL, rPOOL_INSPECT, rPOOL_STATUS, rPOOL_LOW, rPOOL_REQ_QR, rPOOL_REQ_W4, rPOOL_REQ_W5, rPOOL_REQ_W6, rPOOL_ALLOC_SIZE, rPOOL_ALLOC_POOL, rPOOL_FREE, rPOOL_GIVE, rPOOL_REQ_RSV]
/-- The registers of block POOL. -/
def regsPOOL : List Reg := regsPOOL0
/-- The counters of block POOL. -/
def cntsPOOL : List Cnt := [cnt_POOL_alloc_ok, cnt_POOL_alloc_empty, cnt_POOL_alloc_quota, cnt_POOL_free_reject, cnt_POOL_give_reject, cnt_POOL_use_reject, cnt_POOL_reclaimed, cnt_POOL_meta_retire]
def regsRED0 : List Reg := [rRED_CTRL, rRED_SNAPSHOT, rRED_CX_STATUS, rRED_EVT, rRED_ALARM, rRED_MISMATCH_LOG, rRED_MISMATCH_ADDR, rRED_CX_CMD, rRED_SPARE_STATUS, rRED_TAKEOVER_LOG, rRED_SLICE_CMD, rRED_UPDATE_CTRL, rRED_UPDATE_STATUS]
/-- The registers of block RED. -/
def regsRED : List Reg := regsRED0
/-- The counters of block RED. -/
def cntsRED : List Cnt := [cnt_RED_mismatch, cnt_RED_transient, cnt_RED_give_up, cnt_RED_takeover, cnt_RED_takeover_fail, cnt_RED_late_slice_discard, cnt_RED_update_done, cnt_RED_update_abort, cnt_RED_wd_restart, cnt_RED_rejoin_fail, cnt_RED_gap_rx_drop, cnt_RED_gap_tx_abort]
def regsADM0 : List Reg := [rADM_CTRL, rADM_DEV_LIMIT, rADM_STATUS, rADM_DEV_LOAD_RATE, rADM_DEV_LOAD_FPS, rADM_SNAPSHOT, rADM_REQ_CMD, rADM_REQ_STATUS, rADM_REQ_CLASS, rADM_REQ_IDENT, rADM_REQ_FRAME, rADM_REQ_RATE, rADM_REQ_BURST, rADM_REQ_DEADLINE, rADM_REQ_SCHED, rADM_REQ_HOPA, rADM_REQ_HOPB, rADM_PORT_SEL, rADM_PORT_BUDGET, rADM_PORT_LOAD_RATE]
def regsADM1 : List Reg := [rADM_PORT_LOAD_BURST, rADM_PORT_BOUND, rADM_PORT_MARGIN, rADM_PORT_FIXED, rADM_STREAM_SEL, rADM_STREAM_STAT, rADM_STREAM_BOUND]
/-- The registers of block ADM. -/
def regsADM : List Reg := regsADM0 ++ regsADM1
/-- The counters of block ADM. -/
def cntsADM : List Cnt := [cnt_ADM_admit, cnt_ADM_reject, cnt_ADM_breach, cnt_ADM_margin, cnt_ADM_late, cnt_ADM_fault_loss]
def regsFAB0 : List Reg := [rFAB_CTRL, rFAB_SNAPSHOT, rFAB_EVT, rFAB_RSQ_CFG, rFAB_PG_CFG, rFAB_PG_STATUS, rFAB_ROUND_W0, rFAB_ROUND_W1, rFAB_ROUND_W2, rFAB_ROUND_W3, rFAB_ROUND_W4, rFAB_ROUND_W5, rFAB_ROUND_W6, rFAB_PORT, rFAB_BUNDLE, rFAB_STREAM_W0, rFAB_STREAM_W1, rFAB_RSQ, rFAB_ROUND_RSV]
/-- The registers of block FAB. -/
def regsFAB : List Reg := regsFAB0
/-- The counters of block FAB. -/
def cntsFAB : List Cnt := [cnt_FAB_tag_bad, cnt_FAB_tag_mismatch, cnt_FAB_hop_limit_drop, cnt_FAB_rsq_skip, cnt_FAB_rsq_late, cnt_FAB_frer_dup, cnt_FAB_bundle_empty, cnt_FAB_round_mismatch, cnt_FAB_pg_rx, cnt_FAB_pg_tx, cnt_FAB_pg_bad, cnt_FAB_frer_copies]
def regsTEL0 : List Reg := [rTEL_CTRL, rTEL_SNAPSHOT, rTEL_EVT, rTEL_SNAP_ALL, rTEL_EXPORT_CFG, rTEL_EVT_STATUS, rTEL_EVT_SEL, rTEL_Q_SEL, rTEL_STREAM_SEL, rTEL_PROF, rTEL_DEST_W0, rTEL_DEST_W1, rTEL_DEST_ADDR, rTEL_DEST_W6, rTEL_DEST_W7, rTEL_EVT_REC]
/-- The registers of block TEL. -/
def regsTEL : List Reg := regsTEL0
/-- The counters of block TEL. -/
def cntsTEL : List Cnt := [cnt_TEL_postcards, cnt_TEL_postcard_rate_drop, cnt_TEL_export_records, cnt_TEL_export_no_buf, cnt_TEL_export_no_desc, cnt_TEL_evt_records, cnt_TEL_evt_lost, cnt_TEL_evt_overwrite, cnt_TEL_eng_ecc_corr, cnt_TEL_head_ecc_corr, cnt_TEL_svc_ecc_corr, cnt_TEL_cx_ecc_corr, cnt_TEL_q_tx_frames, cnt_TEL_q_tx_bytes, cnt_TEL_q_drops, cnt_TEL_s_rx_frames, cnt_TEL_s_rx_bytes, cnt_TEL_s_tx_frames]
def regsHIF0 : List Reg := [rHIF_STATUS, rHIF_SNAPSHOT, rHIF_EVT, rHIF_MGMT_CFG, rHIF_BUS_CFG, rHIF_PUNT_MAP, rHIF_MGMT_W0, rHIF_MGMT_W1, rHIF_MGMT_W2, rHIF_MGMT_W3, rHIF_MGMT_V6, rHIF_RING_W0, rHIF_RING_W1, rHIF_RING_W2, rHIF_RING_W3, rHIF_RING_W4, rHIF_RING_W5, rHIF_RING_W6, rHIF_RING_RSV]
/-- The registers of block HIF. -/
def regsHIF : List Reg := regsHIF0
/-- The counters of block HIF. -/
def cntsHIF : List Cnt := [cnt_HIF_mgmt_rx, cnt_HIF_mgmt_tx, cnt_HIF_mgmt_other, cnt_HIF_mgmt_no_buf, cnt_HIF_mgmt_overflow, cnt_HIF_mgmt_bad, cnt_HIF_smb_err, cnt_HIF_i2c_err, cnt_HIF_pcie_aer, cnt_HIF_completions, cnt_HIF_bytes, cnt_HIF_punt_drop, cnt_HIF_inject_refused]
def regsBUF0 : List Reg := [rBUF_RX_CFG, rBUF_SNAPSHOT, rBUF_FREE, rBUF_REGION_RX, rBUF_REGION_RES, rBUF_SHARED, rBUF_HARVEST_CFG, rBUF_HARVEST_STATUS, rBUF_EVT, rBUF_ECC_LOG, rBUF_RETIRED, rBUF_Q_SEL, rBUF_Q_CELLS, rBUF_QPROF, rBUF_PORT_CFG, rBUF_PORT_RESERVE, rBUF_PORT_PG, rBUF_PORT_PG_ALPHA, rBUF_PORT_STATUS, rBUF_PORT_EG_CELLS]
def regsBUF1 : List Reg := [rBUF_PORT_RES_CELLS, rBUF_PORT_IN_CELLS, rBUF_NODE_PROF, rBUF_MCQ_PROF]
/-- The registers of block BUF. -/
def regsBUF : List Reg := regsBUF0 ++ regsBUF1
/-- The counters of block BUF. -/
def cntsBUF : List Cnt := [cnt_BUF_ecc_corr, cnt_BUF_ecc_uncorr, cnt_BUF_link_ecc_corr, cnt_BUF_link_ecc_uncorr, cnt_BUF_leak_cells, cnt_BUF_quarantine_pass, cnt_BUF_quarantine_retire, cnt_BUF_mc_copies, cnt_BUF_rx_pool_drop, cnt_BUF_pg_drop, cnt_BUF_tail_drop, cnt_BUF_adm_no_cell, cnt_BUF_stale_drop, cnt_BUF_flush_drop, cnt_BUF_link_down_drop, cnt_BUF_mc_copy_drop]
def regsSCH0 : List Reg := [rSCH_CTRL, rSCH_SNAPSHOT, rSCH_SAMPLE_CFG, rSCH_SAMPLE_STATUS, rSCH_EVT, rSCH_WHEEL_STATUS, rSCH_Q_SEL, rSCH_Q_CLEAR, rSCH_Q_DEPTH, rSCH_Q_SOJ, rSCH_SUB_W0, rSCH_SUB_W1, rSCH_SUB_W2, rSCH_SUB_W3, rSCH_SUB_W4, rSCH_SUB_W5, rSCH_SUB_W6, rSCH_SUB_W7, rSCH_SVC_W0, rSCH_SVC_W1]
def regsSCH1 : List Reg := [rSCH_SVC_W2, rSCH_SVC_W3, rSCH_SVC_W4, rSCH_SVC_W5, rSCH_PORT_W0, rSCH_PORT_W1, rSCH_PORT_W2, rSCH_PORT_W3, rSCH_PORT_W4, rSCH_PORT_W5, rSCH_PORT_W6, rSCH_PORT_W7, rSCH_WATCH, rSCH_GCL, rSCH_POL_W0, rSCH_POL_W1, rSCH_POL_W2, rSCH_POL_W3, rSCH_POL_W4, rSCH_POL_W5]
def regsSCH2 : List Reg := [rSCH_POL_W6, rSCH_SVC_RSV, rSCH_PORT_RSV, rSCH_POL_RSV, rSCH_POL_RSV2]
/-- The registers of block SCH. -/
def regsSCH : List Reg := regsSCH0 ++ regsSCH1 ++ regsSCH2
/-- The counters of block SCH. -/
def cntsSCH : List Cnt := [cnt_SCH_wheel_late, cnt_SCH_samples_taken, cnt_SCH_tx_admitted, cnt_SCH_tx_gated, cnt_SCH_gate_carry, cnt_SCH_err_removed, cnt_SCH_node_mismatch, cnt_SCH_q01_remap, cnt_SCH_bins, cnt_SCH_pol_green, cnt_SCH_pol_yellow, cnt_SCH_pol_red]
def regsTBL0 : List Reg := [rTBL_CTRL, rTBL_SNAPSHOT, rTBL_AGE_CFG, rTBL_AGE_NOW, rTBL_LEARN_CFG, rTBL_LEARN_STATUS, rTBL_ROUTER_MAC_LO, rTBL_ROUTER_MAC_HI, rTBL_EVT, rTBL_PARITY_LOG, rTBL_PART_CFG, rTBL_FWD_PROFILE_W0, rTBL_FWD_PROFILE_W1, rTBL_CMD, rTBL_STATUS, rTBL_MOVE_DEST, rTBL_DATA, rTBL_PORT_CFG]
/-- The registers of block TBL. -/
def regsTBL : List Reg := regsTBL0
/-- The counters of block TBL. -/
def cntsTBL : List Cnt := [cnt_TBL_fwd_l2_hit, cnt_TBL_fwd_flood, cnt_TBL_fwd_host_hit, cnt_TBL_fwd_lpm_hit, cnt_TBL_fwd_l3_miss, cnt_TBL_fwd_vlan_drop, cnt_TBL_fwd_none, cnt_TBL_fwd_hairpin, cnt_TBL_fwd_bad_ref, cnt_TBL_fwd_parity_miss, cnt_TBL_learn_new, cnt_TBL_learn_move, cnt_TBL_learn_dup, cnt_TBL_learn_contention, cnt_TBL_learn_pinned, cnt_TBL_learn_static, cnt_TBL_learn_fifo_drop, cnt_TBL_learn_full, cnt_TBL_learn_frozen, cnt_TBL_age_removed, cnt_TBL_age_flush, cnt_TBL_stream_mirror_corr]
def regsPRT0 : List Reg := [rPRT_MACRO_STATUS, rPRT_SNAPSHOT, rPRT_OCT_CFG, rPRT_OCT_MODULE_MAP, rPRT_OCT_MODULE_STAT, rPRT_OCT_MODULE_CTRL, rPRT_PORT_CFG, rPRT_PORT_TIMERS, rPRT_PORT_FLAP, rPRT_PORT_STATUS, rPRT_PORT_EVT, rPRT_PORT_PEER, rPRT_PORT_PEER_CAP, rPRT_PORT_DELAY, rPRT_PORT_CABLE, rPRT_PORT_LOOP, rPRT_LANE_CFG, rPRT_LANE_STATUS]
/-- The registers of block PRT. -/
def regsPRT : List Reg := regsPRT0
/-- The counters of block PRT. -/
def cntsPRT : List Cnt := [cnt_PRT_rx_frames, cnt_PRT_rx_bytes, cnt_PRT_rx_fcs_err, cnt_PRT_rx_oversize, cnt_PRT_rx_undersize, cnt_PRT_rx_mac_ctrl, cnt_PRT_rx_ctrl, cnt_PRT_rx_ctrl_bad, cnt_PRT_rx_os_unknown, cnt_PRT_tx_frames, cnt_PRT_tx_bytes, cnt_PRT_tx_err_fcs, cnt_PRT_fec_corr_sym, cnt_PRT_fec_uncorr, cnt_PRT_link_down, cnt_PRT_an_mismatch, cnt_PRT_bringup_retry, cnt_PRT_adapt_revert, cnt_PRT_quiet_entry, cnt_PRT_quiet_wake, cnt_PRT_quiet_refused, cnt_PRT_prbs_err]
def regsSLC0 : List Reg := [rSLC_STATUS, rSLC_SNAPSHOT, rSLC_ENG_CTRL, rSLC_FENCE_LOG, rSLC_HEAD_STATUS, rSLC_HB_CFG, rSLC_EVT, rSLC_ENG_STAT, rSLC_PORT_CFG, rSLC_PORT_SEQ, rSLC_PRS_CTRL, rSLC_CLS_CTRL, rSLC_RULE_CMD, rSLC_RULE_STATUS, rSLC_CLS_EVT, rSLC_RULE_PARITY_LOG, rSLC_RULE_DEST, rSLC_HASH_SEL_LO, rSLC_HASH_SEL_HI, rSLC_HASH_PAIR]
def regsSLC1 : List Reg := [rSLC_HASH_SEED, rSLC_PORT_PARSE, rSLC_PORT_SID, rSLC_RULE_KEY, rSLC_RULE_MASK, rSLC_RULE_ACT, rSLC_PRS_STATE_W0, rSLC_PRS_STATE_W1, rSLC_PRS_TRANS_W0, rSLC_PRS_TRANS_W1, rSLC_PRS_TRANS_W2, rSLC_PRS_TRANS_W3, rSLC_PRS_EXTRACT, rSLC_KEY_PROFILE_SLOTS, rSLC_KEY_PROFILE_GRP, rSLC_SID_KEY, rSLC_RANGE_W0, rSLC_RANGE_W1, rSLC_TEMPLATE_W0, rSLC_TEMPLATE_SUB]
def regsSLC2 : List Reg := [rSLC_TEMPLATE_DATA, rSLC_MIRROR_W0, rSLC_MIRROR_W1, rSLC_DEF_ACT, rSLC_KEY_PROFILE_RSV, rSLC_TEMPLATE_RSV]
/-- The registers of block SLC. -/
def regsSLC : List Reg := regsSLC0 ++ regsSLC1 ++ regsSLC2
/-- The counters of block SLC. -/
def cntsSLC : List Cnt := [cnt_SLC_epoch_discard, cnt_SLC_head_ecc, cnt_SLC_head_drop, cnt_SLC_reseq_skip, cnt_SLC_reseq_late, cnt_SLC_fence_redispatch, cnt_SLC_fence_drop, cnt_SLC_rx_discard_err, cnt_SLC_cut_abort, cnt_SLC_cut_underrun, cnt_SLC_ct_frames, cnt_SLC_sf_frames, cnt_SLC_parse_window, cnt_SLC_parse_depth, cnt_SLC_parse_no_trans, cnt_SLC_parse_truncated, cnt_SLC_ipv4_csum_bad, cnt_SLC_rule_miss, cnt_SLC_act_drop, cnt_SLC_act_ignored, cnt_SLC_ttl_expired, cnt_SLC_ttl_hold, cnt_SLC_ttl_punt, cnt_SLC_mirror_drop, cnt_SLC_sid_unadmitted, cnt_SLC_sid_port_mismatch, cnt_SLC_act_oversize, cnt_SLC_rule_hits]

end Sys2Proof.Machine
end

