-- ==== Sys2Proof/Machine/Store.lean ====
section
/-!
DEFINITION. Sparse plain data: a finite map keyed by pairs of numbers, kept as a list in rising key order with one
entry a key. Registers, counters, table entries and buffer cells are held this way. `Store` is the map of numbers.
-/

namespace Sys2Proof.Machine

/-- A key: which thing, and which of its instances. -/
abbrev Key := Nat × Nat

/-- A finite map in rising key order. -/
abbrev Map (α : Type) := List (Key × α)

/-- A map of numbers. -/
abbrev Store := Map Nat

/-- Rising order of keys. -/
def keyLt (a b : Key) : Bool := a.1 < b.1 || (a.1 == b.1 && a.2 < b.2)

/-- The value a key holds, if any. -/
def mget {α : Type} : Map α → Key → Option α
  | [], _ => none
  | (k', v) :: m, k => if k' = k then some v else mget m k

/-- The map without a key. -/
def mdel {α : Type} (m : Map α) (k : Key) : Map α := m.filter (fun e => e.1 ≠ k)

/-- Insert before the first greater key (the key itself is not in the map). -/
def minsert {α : Type} (k : Key) (v : α) : Map α → Map α
  | [] => [(k, v)]
  | (k', v') :: m => if keyLt k k' then (k, v) :: (k', v') :: m else (k', v') :: minsert k v m

/-- The map with a key set. -/
def mput {α : Type} (m : Map α) (k : Key) (v : α) : Map α := minsert k v (mdel m k)

/-- The value a key holds, or a default. -/
def mgetD {α : Type} (m : Map α) (k : Key) (d : α) : α := (mget m k).getD d

/-- Set a key, or remove it where the value is what an absent key reads as (the canonical form). -/
def mputD {α : Type} [DecidableEq α] (m : Map α) (k : Key) (v d : α) : Map α :=
  if v = d then mdel m k else mput m k v

/-- The entries of one kind: their instances and values. -/
def mkind {α : Type} (m : Map α) (a : Nat) : List (Nat × α) :=
  m.filterMap (fun e => if e.1.1 = a then some (e.1.2, e.2) else none)

/-- Strictly rising keys. -/
def mwf {α : Type} : Map α → Bool
  | [] => true
  | [_] => true
  | (k, _) :: (k', v') :: m => keyLt k k' && mwf ((k', v') :: m)

end Sys2Proof.Machine
end

