-- ==== Sys2Proof/Machine/Types.lean ====
section
/-!
DEFINITION. The records State holds: observations the device has made at its outside, captures waiting for the event and
audit rings, and the objects of each block that are not single numbers.
-/

namespace Sys2Proof.Machine

/-- What kind of thing the device put on one of its outside interfaces. -/
inductive OutKind where
  | frame | orderedSet | remoteFault | capFrame | ctrlFrame | admMsg | fabMsg | ptp | heartbeat
  | msix | pmPme | hostWrite | hostRead | mgmt | mgmtFrame | udp | i2c | pmbus | flash | smbus | tap | trace
  | touT | modRst | busRead
deriving DecidableEq, Repr

/-- One observation: the kind, the port, pin, ring or master it left by, and its content. -/
structure Out where
  kind : OutKind
  at_ : Nat
  args : List Nat
deriving DecidableEq, Repr

/-- A capture in TEL's capture FIFO (R496): the command it was made in, its event code and payload words, the TB0 value at
capture, and whether it was made during a gap (R356). -/
structure Capture where
  cyc : Nat
  code : Nat
  payload : List Nat
  stamp : Nat
  gap : Bool
deriving DecidableEq, Repr

/-- A record of the event ring (R497): its seq and its sixteen words. -/
structure EvtRec where
  seq : Nat
  words : List Nat
deriving DecidableEq, Repr
/-- A record waiting for the DMA of a HIF ring: the ring, its pool-2 handle (R501), and its bytes. -/
structure Rec where
  ring : Nat
  handle : Nat
  bytes : List Nat
deriving DecidableEq, Repr

end Sys2Proof.Machine
end

