-- ==== Sys2Proof/Machine/State.lean ====
section
/-!
DEFINITION. The state of the device as plain data, the reasons a step can stop, and the state after reset.
-/

namespace Sys2Proof.Machine

/-- Faults. None is raised: every stop the spec names leaves the device running. -/
inductive Fault where
  /-- Raised by no meaning. Safe. -/
  | none_
deriving DecidableEq, Repr

/-- Refusals. -/
inductive Refusal where
  /-- The command has no meaning yet. Safe. -/
  | notModelled (mnemonic : String)
deriving DecidableEq, Repr

/-- Levels of the output pins a rule drives; true = high. -/
structure Pins where
  alarmN : Bool
  intN : Bool
  thermtripN : Bool
  pcieWakeN : Bool
deriving DecidableEq, Repr

/-- The state. Register fields and the single numbers no register shows are held in `regs` by field and instance, so that
one lemma says what a write changes; counters and their snapshot copies in `cnts` and `snaps`; lists of numbers in
`lists`; and the objects of Types.lean under their own names. -/
structure State where
  regs : Store
  cnts : Store
  snaps : Store
  lists : Map (List Nat)
  /-- Entries of TBL's tables by table and index, as the numbers their words spell (R145); LPM prefixes by key. -/
  tbl : Store
  telFifo : List Capture
  evtRing : List EvtRec
  /-- Export records that wait for their ring's DMA (R500). -/
  recs : List Rec
  pins : Pins
  out : List Out
  /-- The model's own: how many free values have been drawn (log entry 1). -/
  fresh : Nat
  /-- The model's own: the number of the command in progress. -/
  cyc : Nat
  /-- Commands waiting, first in, first out. -/
  pending : List Instr
deriving DecidableEq, Repr

/-- The machine right after power-on reset: every register field and counter at its reset value (R13: an empty store reads
as the Reset column), no frame, no event, every queue empty, pins inactive. -/
def State.reset : State where
  regs := []
  cnts := []
  snaps := []
  lists := []
  tbl := []
  telFifo := []
  evtRing := []
  recs := []
  pins := ⟨true, true, true, true⟩
  out := []
  fresh := 0
  cyc := 0
  pending := []

end Sys2Proof.Machine
end

