-- ==== Sys2Proof/Machine/Ops.lean ====
section
/-!
DEFINITION. The named operations over State that every meaning is built from: register fields, lists, counters and their
snapshots, free values, observations, time bases and one-shot timers, events (R496), and the cyclic redundancy checks.
-/

namespace Sys2Proof.Machine

/-! ### Register fields -/

/-- A field's value: what the store holds, or the reset value (R13). -/
def rd (f : Fld) (i : Nat) (s : State) : Nat := mgetD s.regs (f.id, i) (f.rst.value i)

/-- A one-bit field as a truth value. -/
def rdB (f : Fld) (i : Nat) (s : State) : Bool := rd f i s != 0

/-- Set a field; the value is cut to the field's width. -/
def wr (f : Fld) (i v : Nat) (s : State) : State :=
  { s with regs := mputD s.regs (f.id, i) (v % 2 ^ f.width) (f.rst.value i) }

/-- Set a one-bit field from a truth value. -/
def wrB (f : Fld) (i : Nat) (b : Bool) (s : State) : State := wr f i (b2n b) s

/-- Add to a field, modulo its width. -/
def addF (f : Fld) (i n : Nat) (s : State) : State := wr f i (rd f i s + n) s

/-- Subtract from a field, stopping at 0. -/
def subF (f : Fld) (i n : Nat) (s : State) : State := wr f i (rd f i s - n) s

/-- Add to a field, stopping at its largest value. -/
def addSat (f : Fld) (i n : Nat) (s : State) : State := wr f i (min (rd f i s + n) (2 ^ f.width - 1)) s

/-- Bit `k` of a field. -/
def rdBit (f : Fld) (i k : Nat) (s : State) : Bool := (rd f i s).testBit k

/-- Set bit `k` of a field. -/
def setFBit (f : Fld) (i k : Nat) (s : State) : State := wr f i (setBit (rd f i s) k) s

/-- Clear bit `k` of a field. -/
def clrFBit (f : Fld) (i k : Nat) (s : State) : State := wr f i (clrBit (rd f i s) k) s

/-- A field read as a two's-complement number. -/
def rdI (f : Fld) (i : Nat) (s : State) : Int := sgn f.width (rd f i s)

/-- Set a field to a two's-complement number. -/
def wrI (f : Fld) (i : Nat) (x : Int) (s : State) : State := wr f i (unsgn f.width x) s

/-- The instances of a field that hold something other than its reset value. -/
def touched (f : Fld) (s : State) : List Nat := (mkind s.regs f.id).map (·.1)

/-- Put a field back to its reset value. -/
def resetF (f : Fld) (i : Nat) (s : State) : State := { s with regs := mdel s.regs (f.id, i) }

/-! ### Lists of numbers -/

/-- A list of State. -/
def getL (l : Lst) (i : Nat) (s : State) : List Nat := mgetD s.lists (l.id, i) []

/-- Set a list of State. -/
def setL (l : Lst) (i : Nat) (v : List Nat) (s : State) : State := { s with lists := mputD s.lists (l.id, i) v [] }

/-- Append to a list of State. -/
def pushL (l : Lst) (i : Nat) (v : Nat) (s : State) : State := setL l i (getL l i s ++ [v]) s

/-! ### Folding a state change over a list -/

/-- Apply a change for each element in order. -/
def forEach {α : Type} (l : List α) (f : α → State → State) (s : State) : State := l.foldl (fun t a => f a t) s

/-- Apply a change when a condition holds. -/
def when' (b : Bool) (f : State → State) (s : State) : State := if b then f s else s

/-! ### Counters (R14, R15) -/

/-- A counter's live value. -/
def cnt (c : Cnt) (i : Nat) (s : State) : Nat := mgetD s.cnts (c.id, i) 0

/-- Count `n`; a counter wraps at 2^64 (R14). -/
def incBy (c : Cnt) (i n : Nat) (s : State) : State :=
  { s with cnts := mputD s.cnts (c.id, i) ((cnt c i s + n) % 2 ^ 64) 0 }

/-- Count one. -/
def inc (c : Cnt) (i : Nat) (s : State) : State := incBy c i 1 s

/-- Set a counter to 0 (only where a rule clears one). -/
def clrCnt (c : Cnt) (i : Nat) (s : State) : State := { s with cnts := mdel s.cnts (c.id, i) }

/-- The copy of a counter that register reads return (R15). -/
def snapOf (c : Cnt) (i : Nat) (s : State) : Nat := mgetD s.snaps (c.id, i) 0

/-- Copy the live values of the keys that satisfy a test, all at once (R15). -/
def snapWhere (p : Key → Bool) (s : State) : State :=
  { s with snaps := (s.snaps.filter (fun e => !p e.1)) |> fun keep =>
      (s.cnts.filter (fun e => p e.1)).foldr (fun e m => mput m e.1 e.2) keep }

/-- Copy every counter of a block. -/
def snapBlock (cs : List Cnt) (s : State) : State := snapWhere (fun k => cs.any (fun c => c.id == k.1)) s

/-! ### Free values and observations -/

/-- Draw a free value of `w` bits: nothing constrains it (log entry 1). -/
def drawFree (w : Nat) (s : State) : Nat × State := (Config.freeValue s.fresh % 2 ^ w, { s with fresh := s.fresh + 1 })

/-- Record what the device puts on an outside interface. -/
def emit (k : OutKind) (a : Nat) (args : List Nat) (s : State) : State := { s with out := s.out ++ [⟨k, a, args⟩] }

/-- A PMBus transaction with the regulator at address `a`, with its first word 1 where it carries a PEC byte (R485). -/
def pmbus (a : Nat) (bytes : List Nat) (s : State) : State := emit .pmbus a (rd HIF_BUS_CFG.pmb_pec 0 s :: bytes) s

/-! ### Time (R274): counts in units of 2^-32 ns -/

/-- A time base's count in whole nanoseconds. -/
def tbNs (b : Nat) (s : State) : Nat := rd TBC.count b s / 2 ^ 32

/-- TB0, the free-running local time, in nanoseconds. -/
def now (s : State) : Nat := tbNs 0 s

/-- What a time base that slews out a difference (R298) adds to `n` nominal nanoseconds: at most slew_limit ppb of them. -/
def slewPart (n b : Nat) (s : State) : Int :=
  let lim : Int := (n * rd TIM_TB_W4.slew_limit b s * 2 ^ 32 / 1000000000 : Nat)
  clampInt (-lim) lim (rdI TBC.slew b s)

/-- One time base moves on by `n` cycles of the time PLL, each one nominal nanosecond times (1 + rate adjustment), with any
slew of R298 (R274: TB1 to TB7 count whether enable reads 1 or 0). -/
def tbPass (n b : Nat) (s : State) : State :=
  let c := slewPart n b s
  wrI TBC.slew b (rdI TBC.slew b s - c) s
    |> wrI TBC.count b ((rd TBC.count b s : Int) + n * ((2 ^ 32 : Int) + rdI TBC.adj b s) + c)

/-- `n` nanoseconds of the time PLL pass (log entry 4): every running time base moves on. Before the PLL first locks,
time bases stand (R275). -/
def pass (n : Nat) (s : State) : State :=
  if rdB TBC.pll_locked 0 s then forEach [0, 1, 2, 3, 4, 5, 6, 7] (tbPass n) s else s

/-- Time passes until TB0 reaches `t`. -/
def passTo (t : Nat) (s : State) : State := if now s < t then pass (t - now s) s else s

/-- Time passes until time base `b` reaches `t` ns, at the rate it runs at. -/
def passTb (b t : Nat) (s : State) : State :=
  if rd TBC.count b s < t * 2 ^ 32 then
    pass (ceilDiv (t * 2 ^ 32 - rd TBC.count b s) (unsgn 33 ((2 ^ 32 : Int) + rdI TBC.adj b s))) s
  else s

/-- Start a one-shot timer of `d` ns. A timer field holds its deadline in TB0 plus one, and 0 while it does not run. -/
def arm (f : Fld) (i d : Nat) (s : State) : State := wr f i (now s + d + 1) s

/-- Stop a timer. -/
def disarm (f : Fld) (i : Nat) (s : State) : State := wr f i 0 s

/-- Is a timer running? -/
def running (f : Fld) (i : Nat) (s : State) : Bool := rd f i s != 0

/-- A running timer expires: time has passed to its deadline, it stops, and its effect follows. A timer that does not
run cannot expire: nothing happens (log entry 5). -/
def expire (f : Fld) (i : Nat) (k : State → State) (s : State) : State :=
  if rd f i s = 0 then s else k (disarm f i (passTo (rd f i s - 1) s))

/-- An action that recurs every `n` ns: time passes until `n` ns after the last one. `f` holds TB0 of the last plus one. -/
def every (f : Fld) (i n : Nat) (k : State → State) (s : State) : State :=
  let s := if rd f i s = 0 then s else passTo (rd f i s - 1 + n) s
  k (wr f i (now s + 1) s)

/-! ### Rates over a window (R312, R328, R337) -/

/-- Triples of a list. -/
def triples : List Nat → List (Nat × Nat × Nat)
  | a :: b :: c :: l => (a, b, c) :: triples l
  | _ => []

/-- A list of triples laid flat. -/
def flat3 (l : List (Nat × Nat × Nat)) : List Nat := l.flatMap (fun x => [x.1, x.2.1, x.2.2])

/-- Note what is counted now for a rate; what lies more than 1 s back is forgotten. -/
def rateAdd (l : Lst) (a b : Nat) (s : State) : State :=
  setL l 0 (flat3 ((triples (getL l 0 s)).filter (fun x => now s ≤ x.1 + 1000000000) ++ [(now s, a, b)])) s

/-- What has been noted in the last `w` ns. -/
def rateOf (l : Lst) (w : Nat) (s : State) : Nat × Nat :=
  let k := (triples (getL l 0 s)).filter (fun x => decide (now s < x.1 + w))
  ((k.map (·.2.1)).sum, (k.map (·.2.2)).sum)

/-- A frame is received (R312, R328). -/
def rxNote (s : State) : State := rateAdd LPWR.fast 1 0 s

/-- Buffer words are written (R312). -/
def wordsNote (n : Nat) (s : State) : State := rateAdd LPWR.fast 0 n (addF HPWR.words 0 n s)

/-- Corrected buffer errors are counted (R190, R328). -/
def eccNote (c : Cnt) (n : Nat) (s : State) : State := rateAdd LPWR.slow n 0 (incBy c 0 n s)

/-! ### A slice at rest (R330) -/

/-- SLICE_AUTUMN_WAKE (R330). -/
def autumnWake (sl : Nat) (s : State) : State := if rd PWR_SLICE.state sl s = 1 then wr PWR_SLICE.state sl 0 s else s

/-! ### Events (R496) -/

/-- A 64-bit payload field as two words, low word first (R497). -/
def w64 (v : Nat) : List Nat := [v % 2 ^ 32, v / 2 ^ 32 % 2 ^ 32]

/-- A signed payload word. -/
def wI (x : Int) : Nat := unsgn 32 x

/-- A signed 64-bit payload field as two words. -/
def wI64 (x : Int) : List Nat := w64 (unsgn 64 x)

/-- Place a capture after every capture of an earlier command or of no greater code (R496: captures made in one core
cycle enter in ascending event code). -/
def insCapture (c : Capture) : List Capture → List Capture
  | [] => [c]
  | d :: l => if d.cyc = c.cyc && c.code < d.code then c :: d :: l else d :: insCapture c l

/-- Raise an event: a capture enters TEL's FIFO of 1,024; one that finds it full is lost and counted (R496). -/
def raise (code : Nat) (payload : List Nat) (s : State) : State :=
  if s.telFifo.length < 1024 then
    { s with telFifo := insCapture ⟨s.cyc, code, payload, now s, rdB HRED.gap 0 s || rdB HRED.restart 0 s⟩ s.telFifo }
  else addF HTEL.lost 0 1 (inc cnt_TEL_evt_lost 0 s)

/-- May an event raised at most once per `win` ns for each `sub` be raised now? -/
def limDue (code sub win : Nat) (s : State) : Bool :=
  let k := code * 65536 + sub
  rd HEVT.last k s = 0 || rd HEVT.last k s - 1 + win ≤ now s

/-- Raise an event at most once per `win` ns for each `sub`: an occurrence inside the window is counted and waits for the
first occurrence after it. The payload is that of the first occurrence since the last event, followed by the count. -/
def raiseLim (code sub win : Nat) (payload : List Nat) (s : State) : State :=
  let k := code * 65536 + sub
  let first := if getL LEVT.first k s = [] then payload else getL LEVT.first k s
  let n := rd HEVT.count k s + 1
  if limDue code sub win s then
    raise code (first ++ [n]) (wr HEVT.last k (now s + 1) (wr HEVT.count k 0 (setL LEVT.first k [] s)))
  else wr HEVT.count k n (setL LEVT.first k first s)

/-- Raise an event whose payload carries no count, at most once per `win` ns for each `sub`. -/
def raiseOnce (code sub win : Nat) (payload : List Nat) (s : State) : State :=
  let k := code * 65536 + sub
  if limDue code sub win s then raise code payload (wr HEVT.last k (now s + 1) s) else s

/-- A rate-limited event of a block, with the bit of its event register that says it was raised. -/
def raiseLimEv (ev : Fld) (i code sub win : Nat) (payload : List Nat) (s : State) : State :=
  raiseLim code sub win payload (if limDue code sub win s then wr ev i 1 s else s)

/-! ### Cyclic redundancy checks -/

/-- One bit of a reflected CRC register with polynomial `p`. -/
def crcBit (p c : Nat) : Nat := if c % 2 = 1 then (c / 2) ^^^ p else c / 2

/-- One byte into a reflected 32-bit CRC register. -/
def crcByte (p c b : Nat) : Nat :=
  crcBit p (crcBit p (crcBit p (crcBit p (crcBit p (crcBit p (crcBit p (crcBit p (c ^^^ (b % 256)))))))))

/-- A reflected 32-bit CRC over bytes, from a start value, with the final inversion. -/
def crc32 (p init : Nat) (bs : List Nat) : Nat := (bs.foldl (crcByte p) init) ^^^ 0xFFFFFFFF

/-- CRC-32 of IEEE 802.3. -/
def crcIeee (bs : List Nat) : Nat := crc32 0xEDB88320 0xFFFFFFFF bs

/-- One bit, most significant first, into an unreflected 32-bit CRC register. -/
def crcMsbBit (p c : Nat) : Nat := if c.testBit 31 then ((c * 2) % 2 ^ 32) ^^^ p else c * 2

/-- One byte into an unreflected CRC register. -/
def crcMsbByte (p c b : Nat) : Nat :=
  crcMsbBit p (crcMsbBit p (crcMsbBit p (crcMsbBit p (crcMsbBit p (crcMsbBit p (crcMsbBit p (crcMsbBit p
    (c ^^^ ((b % 256) * 2 ^ 24)))))))))

/-- The CRC of R122: no reflection, no final inversion. -/
def crcMsb (p init : Nat) (bs : List Nat) : Nat := bs.foldl (crcMsbByte p) init

/-- The polynomials of R122: CRC-32, CRC-32C, CRC-32K. -/
def crcPoly (h : Nat) : Nat := [0x04C11DB7, 0x1EDC6F41, 0x741B8CD7].getD h 0

/-- Is a destination index in range (R146)? -/
def destInRange (d : Nat) : Bool := if bitOf d 19 then bitsOf d 16 3 = 0 else !bitOf d 18

end Sys2Proof.Machine
end

