-- ==== Sys2Proof/Machine/Strm.lean ====
section
/-!
DEFINITION. Ports as the octet modes give them (R2, R50), bundles (R252 to R254), the hops of streams on this device
(R19, R128, R535), fault-loss counters and exception episodes (R36 to R38).
-/

namespace Sys2Proof.Machine

/-! ### Ports (R2, R50) -/

/-- Lanes per port of an octet mode. -/
def modeLanes (m : Nat) : Nat := [8, 4, 2].getD m 1

/-- MAC rate of an octet mode in Gb/s. -/
def modeRate (m : Nat) : Nat := [1600, 800, 400, 200, 100, 50, 25, 10].getD m 10

/-- Mode of the octet a port number lies in. -/
def portMode (p : Nat) (s : State) : Nat := rd PRT_OCT_CFG.mode (p / 8) s

/-- Does a port exist under its octet's mode (R2)? -/
def portExists (p : Nat) (s : State) : Bool := p < 1024 && p % 8 % modeLanes (portMode p s) = 0

/-- R_port in Gb/s. -/
def portRate (p : Nat) (s : State) : Nat := modeRate (portMode p s)

/-- Per-frame overhead o of a port (R21): the tag counts wherever ibyon_enable is set (R64). -/
def portO (p : Nat) (s : State) : Nat := if rdB PRT_PORT_CFG.ibyon_enable p s then 36 else 20

/-- Overhead of a frame as sent now: with a tag or without (R215). -/
def sentO (p : Nat) (s : State) : Nat := if rdB PRT_PORT_STATUS.tag_active p s then 36 else 20

/-- Largest frame of a port. -/
def portMax (p : Nat) (s : State) : Nat := rd PRT_PORT_CFG.max_frame p s

/-- Is a port's link usable for enqueue and selection: up, and neither holding nor flushed? -/
def portUp (p : Nat) (s : State) : Bool := rdB PRT_PORT_STATUS.link_up p s && rd BUF_PORT_STATUS.hold_state p s = 0

/-! ### Waking a quiet link (R66 to R69) -/

/-- A quiet port begins to wake (R68): its transmitter turns on, and 1 ms runs. -/
def wakeStart (p : Nat) (s : State) : State :=
  wr PRT_PORT_STATUS.state p 6 s |> arm HPRT.wake p 1000000 |> wr HPRT.wcounted p 0

/-- A wake cause of R68: a quiet port wakes; one that has sent its agreement, or waits for the answer, keeps it for when the
attempt ends. -/
def wakeCause (p : Nat) (s : State) : State :=
  if rd PRT_PORT_STATUS.state p s = 5 then wakeStart p s
  else if running HPRT.reqd p s || running HPRT.quiet2 p s then wr HPRT.wakeup p 1 s else s

/-- A data frame is enqueued for a port, leaves it or is received by it: quiet_idle counts afresh (R66). -/
def dataFrame (p : Nat) (s : State) : State := wr HPRT.idle0 p (now s + 1) s

/-- Arrival stamp in base `b` of the frame a port receives (R40, R280, R281): the count at its first bit, where the MAC has kept it, else
the count now. -/
def rxStamp (p b : Nat) (s : State) : Nat := (getL LPRT.stamps p s).getD b (rd TBC.count b s)

/-! ### Slices at rest (R329, R331) -/

/-- Is a slice in Winter or Thawing? -/
def sliceAsleep (sl : Nat) (s : State) : Bool := 2 ≤ rd PWR_SLICE.state sl s

/-- A wake cause starts a Winter slice's Thaw (R331). -/
def thawBegin (sl : Nat) (s : State) : State :=
  if rd PWR_SLICE.state sl s = 2 then arm HSLC.thaw sl 6000 (wr PWR_SLICE.state sl 3 s) else s

/-! ### Bundles (R252 to R254) -/

/-- Bundle of a port; 0 = none. -/
def bundleOf (p : Nat) (s : State) : Nat := rd FAB_PORT.bundle p s

/-- Members of a bundle in ascending port number. -/
def bundlePorts (b : Nat) (s : State) : List Nat :=
  if b = 0 then [] else (touched FAB_PORT.bundle s).filter (fun p => rd FAB_PORT.bundle p s = b)

/-- The lead of a port's bundle, or the port itself. -/
def portLead (p : Nat) (s : State) : Nat :=
  match bundlePorts (bundleOf p s) s with
  | [] => p
  | l :: _ => l

/-- Ports a hop that names `p` uses: the whole bundle where it names a lead (R253). -/
def hopPorts (p : Nat) (s : State) : List Nat :=
  match bundlePorts (bundleOf p s) s with
  | [] => [p]
  | l :: m => if l = p then l :: m else [p]

/-- Refresh a bundle's registers: in_mask of its members, lead, members and usable. With a member in the mask an episode of R254 is
over. -/
def bundleNote (b : Nat) (s : State) : State :=
  if b = 0 then s
  else
    let ms := bundlePorts b s
    let s := forEach ms (fun p t => wrB FAB_PORT.in_mask p (portUp p t) t) s
    wr FAB_BUNDLE.lead b (ms.headD 0) s |> wr FAB_BUNDLE.members b ms.length
      |> wr FAB_BUNDLE.usable b (ms.filter (fun p => portUp p s)).length
      |> (fun t => if ms.any (fun p => portUp p s) then wr HFAB.empty b 0 t else t)

/-! ### Hops (R128, R535) -/

/-- State of a stream: 0 = free, 1 = tentative, 2 = admitted, 3 = draining. -/
def strState (n : Nat) (s : State) : Nat := rd ADM_STREAM_STAT.state n s

/-- Streams in some state other than free. -/
def busyStreams (s : State) : List Nat := (touched ADM_STREAM_STAT.state s).filter (fun n => strState n s ≠ 0)

/-- Keys of a stream's hops on this device. -/
def hopKeys (n : Nat) (s : State) : List Nat := (getL LADM.hops n s).map (n * 32 + ·)

/-- The hop of a stream whose ingress is a port, or the lead of its bundle (R128, R253). -/
def hopFor (n p : Nat) (s : State) : Option Nat := (hopKeys n s).find? (fun k => rd HOP.in_ k s = p || rd HOP.in_ k s = portLead p s)

/-- Does a hop use a port (R535)? -/
def hopUses (k p : Nat) (s : State) : Bool :=
  rd HOP.in_ k s = p || rd HOP.eg k s = p || rd HOP.in_ k s = portLead p s || rd HOP.eg k s = portLead p s

/-- Does an admitted stream use a port (R535)? -/
def portUsed (p : Nat) (s : State) : Bool := (busyStreams s).any (fun n => (hopKeys n s).any (fun k => hopUses k p s))

/-- Streams in state admitted with a hop that satisfies a test. -/
def streamsWith (f : Nat → Bool) (s : State) : List Nat :=
  (busyStreams s).filter (fun n => strState n s = 2 && (hopKeys n s).any f)

/-- Streams in state admitted that enter or leave by a port (R36). -/
def streamsOn (p : Nat) (s : State) : List Nat := streamsWith (fun k => hopUses k p s) s

/-- Streams in state admitted whose ingress or egress port a slice serves (R36). -/
def streamsOnSlice (sl : Nat) (s : State) : List Nat :=
  streamsWith (fun k => (hopPorts (rd HOP.in_ k s) s ++ hopPorts (rd HOP.eg k s) s).any
    (fun p => rd PRT_MACRO_STATUS.serving_slice (p / 16) s = sl)) s

/-- Subscriber node of a guaranteed hop's frames on egress port `p`: the hop's node where it is attached to the port, else the
port's default node (R212; a bundle member other than the lead). -/
def hopNode (k p : Nat) (s : State) : Nat :=
  let v := rd HOP.node k s
  if rd SCH_SVC_W0.port (rd SCH_SUB_W0.parent v s) s = p then v else rd SCH_PORT_W0.default_node p s

/-- Is a subscriber node an admitted node (R213)? -/
def admNode (v : Nat) (s : State) : Bool :=
  (busyStreams s).any (fun n => rd STM.class_ n s = 2 && (hopKeys n s).any (fun k =>
    rd HOP.node k s = v || (hopPorts (rd HOP.eg k s) s).any (fun p => hopNode k p s = v)))

/-! ### Exceptions (R36 to R38) -/

/-- The flag of an exception kind: 1 takeover, 2 memory, 3 link, 4 time lock. -/
def excFlag (kind : Nat) : Fld :=
  match kind with
  | 1 => ADM_STREAM_STAT.exc_takeover
  | 2 => ADM_STREAM_STAT.exc_mem
  | 3 => ADM_STREAM_STAT.exc_link
  | _ => ADM_STREAM_STAT.exc_time

/-- Key of an episode. -/
def epiKey (kind x : Nat) : Nat := kind * 2 ^ 32 + x

/-- An episode begins (R37): flags set, EXCEPTION_START raised. `x` names the episode and `shown` the port, slice or time
base its events carry. -/
def epiStart (kind x shown : Nat) (streams : List Nat) (s : State) : State :=
  let k := epiKey kind x
  if rdB EPI.live k s then s
  else
    forEach streams (fun n t => wr (excFlag kind) n 1 t) s |> wr EPI.live k 1 |> wr EPI.start k (now s) |> wr EPI.loss k 0
      |> setL LEPI.streams k streams |> raise 0x0901 [kind, shown, streams.length]

/-- A stream joins an episode in progress. -/
def epiJoin (kind x n : Nat) (s : State) : State :=
  let k := epiKey kind x
  if !rdB EPI.live k s || (getL LEPI.streams k s).contains n then s else wr (excFlag kind) n 1 (pushL LEPI.streams k n s)

/-- An episode ends (R37): EXCEPTION_END raised. -/
def epiEnd (kind x shown : Nat) (s : State) : State :=
  let k := epiKey kind x
  if !rdB EPI.live k s then s
  else
    raise 0x0902 ([kind, shown, (getL LEPI.streams k s).length] ++ w64 (rd EPI.start k s) ++ [rd EPI.loss k s]) s
      |> resetF EPI.live k |> resetF EPI.start k |> resetF EPI.loss k |> setL LEPI.streams k []

/-- A stream loses a frame (R36): its fault-loss counter, and the sums of the episodes that affect it. -/
def faultLoss (n : Nat) (s : State) : State :=
  inc cnt_ADM_fault_loss n s |> forEach ((touched EPI.live s).filter (fun k => (getL LEPI.streams k s).contains n))
    (fun k t => addF EPI.loss k 1 t)

/-- Any of a stream's five flags (R40). -/
def anyExc (n : Nat) (s : State) : Bool :=
  rdB ADM_STREAM_STAT.exc_takeover n s || rdB ADM_STREAM_STAT.exc_mem n s || rdB ADM_STREAM_STAT.exc_link n s ||
    rdB ADM_STREAM_STAT.exc_time n s || rdB ADM_STREAM_STAT.exc_supply n s

end Sys2Proof.Machine
end

