-- ==== Sys2Proof/Machine/Addr.lean ====
section
/-!
DEFINITION. The address map (R5, R527, R528): which register or counter half an address names, and the value of a word.
-/

namespace Sys2Proof.Machine

/-- What an address names. -/
inductive Hit where
  | reg (r : Reg) (i : Nat) | cnt (c : Cnt) (i : Nat) (hi : Bool) | none_
deriving DecidableEq, Repr

/-- The instance an offset names, row-major over a register's indices; the strides fall from the outermost index on. -/
def decIdx : List (Nat × Nat) → Nat → Nat → Option Nat
  | [], off, acc => if off = 0 then some acc else none
  | (n, st) :: ds, off, acc => if off / st < n then decIdx ds (off % st) (acc * n + off / st) else none

/-- The offset of an instance. -/
def encIdx : List (Nat × Nat) → Nat → Nat
  | [], _ => 0
  | (_, st) :: ds, i => i / (ds.map (·.1)).prod * st + encIdx ds (i % (ds.map (·.1)).prod)

/-- The address of a register's instance. -/
def regAddr (r : Reg) (i : Nat) : Nat := r.base + encIdx r.dims i

/-- The registers of the block whose window holds an address (R527). -/
def blockRegs (a : Nat) : List Reg :=
  if a < 0x1000000 then
    match a / 0x100000 with
    | 0 => regsGLB | 1 => regsCFG | 2 => regsACC | 3 => regsPWR | 4 => regsCLK | 5 => regsINTC | 6 => regsTIM
    | 7 => regsPOOL | 8 => regsRED | 9 => regsADM | 10 => regsFAB | 11 => regsTEL | 12 => regsHIF | _ => []
  else if a < 0x4400000 then
    match a / 0x1000000 with
    | 1 => regsBUF | 2 => regsSCH | 3 => regsTBL | _ => regsPRT
  else if 0x10000000 ≤ a && a < 0x21000000 then regsSLC else []

/-- The counters of that block. -/
def blockCnts (a : Nat) : List Cnt :=
  if a < 0x1000000 then
    match a / 0x100000 with
    | 0 => cntsGLB | 1 => cntsCFG | 2 => cntsACC | 3 => cntsPWR | 4 => cntsCLK | 5 => cntsINTC | 6 => cntsTIM
    | 7 => cntsPOOL | 8 => cntsRED | 9 => cntsADM | 10 => cntsFAB | 11 => cntsTEL | 12 => cntsHIF | _ => []
  else if a < 0x4400000 then
    match a / 0x1000000 with
    | 1 => cntsBUF | 2 => cntsSCH | 3 => cntsTBL | _ => cntsPRT
  else if 0x10000000 ≤ a && a < 0x21000000 then cntsSLC else []

/-- The instance a windowed register shows: the one its selector register names. -/
def winInst (r : Reg) (i : Nat) (s : State) : Nat :=
  if r.win = 1024 then rd ADM_PORT_SEL.port 0 s else if r.win = 65536 then rd ADM_STREAM_SEL.stream 0 s else i

/-- Find the register of an address in a list. -/
def findReg (a : Nat) : List Reg → Option (Reg × Nat)
  | [] => none
  | r :: rs => match (if a < r.base then none else decIdx r.dims (a - r.base) 0) with
    | some i => some (r, i)
    | none => findReg a rs

/-- The queue a selector register's kind and index name, as BUF_Q_SEL numbers queues. -/
def selCode (kind index : Fld) (s : State) : Nat := rd kind 0 s + 4 * rd index 0 s

/-- The instance of a counter behind a selector. -/
def cntInst (c : Cnt) (i : Nat) (s : State) : Nat :=
  match c.sel with
  | 1 => rd ADM_STREAM_SEL.stream 0 s
  | 2 => selCode TEL_Q_SEL.kind TEL_Q_SEL.index s
  | 3 => rd TEL_STREAM_SEL.stream 0 s
  | _ => i

/-- Find the counter half of an address in a list. -/
def findCnt (a : Nat) : List Cnt → Option (Cnt × Nat × Bool)
  | [] => none
  | c :: cs =>
    match (if a < c.base then none else decIdx c.dims (a - c.base) 0) with
    | some i => some (c, i, false)
    | none => match (if a < c.base + 4 then none else decIdx c.dims (a - c.base - 4) 0) with
      | some i => some (c, i, true)
      | none => findCnt a cs

/-- PRT_SNAPSHOT is mapped in macro 0 alone (R81), and bundles begin at 1 (R270). -/
def mapped (r : Reg) (i : Nat) : Bool := (r.id ≠ rPRT_SNAPSHOT.id || i = 0) && (r.id ≠ rFAB_BUNDLE.id || i ≠ 0)

/-- What an address names (R8, R527). -/
def locate (a : Nat) (s : State) : Hit :=
  match findReg a (blockRegs a) with
  | some (r, i) => if mapped r i then .reg r (winInst r i s) else .none_
  | none => match findCnt a (blockCnts a) with
    | some (c, i, hi) => .cnt c (cntInst c i s) hi
    | none => .none_

/-- Is an address word-aligned (R6)? -/
def aligned (a : Nat) : Bool := a % 4 = 0

/-- Is the register one of a PRT port slot (R81)? -/
def portReg (r : Reg) : Bool := r.base / 0x1000 = 0x4001

/-- A port slot register of a port that does not exist (R81). -/
def absentPort (r : Reg) (i : Nat) (s : State) : Bool := portReg r && !portExists i s

/-- The word mask of the fields that satisfy a test. -/
def maskOf (p : Fld → Bool) (r : Reg) : Nat :=
  ((r.fields.filter p).map (fun f => (2 ^ f.width - 1) * 2 ^ f.lo)).sum

/-- A word composed of the values of its fields. -/
def compose (v : Fld → Nat) (r : Reg) : Nat := (r.fields.map (fun f => v f % 2 ^ f.width * 2 ^ f.lo)).sum

/-- The part of a written word that lies in a field. -/
def part (f : Fld) (w : Nat) : Nat := bitsOf w f.lo f.width

/-- The word of the stored fields that a masked write `(old & ~mask) | (value & mask)` starts from and ends in (R422, R435). -/
def maskedWord (r : Reg) (i mask value : Nat) (s : State) : Nat :=
  ((compose (fun f => rd f i s) r) &&& (0xFFFFFFFF - mask % 2 ^ 32)) ||| (value &&& mask) % 2 ^ 32

end Sys2Proof.Machine
end

