-- ==== Sys2Proof/Machine/Pool.lean ====
section
/-!
DEFINITION. The buffer pool manager (R399 to R418): pools and handles, allocation, free, give and use checks, reclaim,
metadata errors and the low watermark.
-/

namespace Sys2Proof.Machine

/-- Buffer size of a pool in bytes (R399). -/
def poolSize (p : Nat) : Nat := [128, 512, 2048, 16384].getD p 0

/-- Buffers in a pool (R399). -/
def poolCount (p : Nat) : Nat := [32768, 8192, 2048, 256].getD p 0

/-- Key of buffer `i` of pool `p` in the metadata fields. -/
def poolKey (p i : Nat) : Nat := p * 32768 + i

/-- The field of a requester's outstanding count in a pool. -/
def poolOutF (p : Nat) : Fld :=
  match p with
  | 0 => POOL_REQ_W4.out0
  | 1 => POOL_REQ_W4.out1
  | 2 => POOL_REQ_W5.out2
  | _ => POOL_REQ_W5.out3

/-- outstanding[r][p]. -/
def poolOut (r p : Nat) (s : State) : Nat := rd (poolOutF p) r s

/-- quota[r][p]. -/
def poolQuota (r p : Nat) (s : State) : Nat := rd POOL_REQ_QR.quota (r * 4 + p) s

/-- reserve[r][p]. -/
def poolReserve (r p : Nat) (s : State) : Nat := rd POOL_REQ_QR.reserve (r * 4 + p) s

/-- unused(x) of R404. -/
def poolUnused (x p : Nat) (s : State) : Nat := poolReserve x p s - poolOut x p s

/-- Sum of unused reserves over the requesters of a list. -/
def poolUnusedSum (xs : List Nat) (p : Nat) (s : State) : Nat := (xs.map (fun x => poolUnused x p s)).sum

/-- The requesters a sum over reserves runs over. -/
def poolRequesters : List Nat := List.range 32

/-- The handle of a buffer (R400). -/
def poolHandle (p i gen : Nat) : Nat := gen * 2 ^ 24 + p * 0x400000 + i * poolSize p

/-- First buffer of the reset free list from `i` on that is not retired. -/
def poolSkip (gone : List Nat) : Nat → Nat → Nat
  | 0, i => i
  | n + 1, i => if gone.contains i then poolSkip gone n (i + 1) else i

/-- Head of a pool's free list (R401): first the buffers of the reset list in order, then the freed ones. -/
def poolHead (p : Nat) (s : State) : Option Nat :=
  let i := poolSkip (getL LPOOL.gone p s) (getL LPOOL.gone p s).length (rd POOLM.next p s)
  if i < poolCount p then some i else (getL LPOOL.freed p s).head?

/-- Take the head off a pool's free list. -/
def poolPop (p : Nat) (s : State) : State :=
  let i := poolSkip (getL LPOOL.gone p s) (getL LPOOL.gone p s).length (rd POOLM.next p s)
  if i < poolCount p then wr POOLM.next p (i + 1) s else setL LPOOL.freed p (getL LPOOL.freed p s).tail s

/-- After a pool's free count has changed: POOL_STATUS unused_res, and the low watermark (R414). -/
def poolNote (p : Nat) (s : State) : State :=
  let s := wr POOL_STATUS.unused_res p (poolUnusedSum poolRequesters p s) s
  let low := rd POOL_LOW.low_mark p s
  let free := rd POOL_STATUS.free p s
  if low ≠ 0 && free < low then
    if rdB POOLM.low p s then s
    else raise 0x0703 [p, free] (wr POOL_EVT.ev_low 0 1 (wr POOLM.low p 1 s))
  else wr POOLM.low p 0 s

/-- alloc(r, p) of R404: the handle read and the state after. -/
def poolAlloc (r p : Nat) (s : State) : Nat × State :=
  if poolQuota r p s ≤ poolOut r p s then
    (0xFFFFFFFF, inc cnt_POOL_alloc_quota 0 (wr POOL_REQ_W6.last_result r 2 s))
  else
    let others := poolUnusedSum (poolRequesters.filter (· ≠ r)) p s
    let fail := (0xFFFFFFFF, inc cnt_POOL_alloc_empty 0 (wr POOL_REQ_W6.last_result r 1 s))
    if rd POOL_STATUS.free p s = 0 || (poolUnused r p s = 0 && rd POOL_STATUS.free p s ≤ others) then fail
    else
      match poolHead p s with
      | none => fail
      | some i =>
        let k := poolKey p i
        let g := (rd POOLM.gen k s + 1) % 8
        let s := poolPop p s |> wr POOLM.gen k g |> wr POOLM.allocated k 1 |> wr POOLM.owner k r
          |> addF (poolOutF p) r 1 |> subF POOL_STATUS.free p 1 |> inc cnt_POOL_alloc_ok 0
          |> wr POOL_REQ_W6.last_result r 0
        (poolHandle p i g, poolNote p s)

/-- The smallest pool whose buffers hold `n` units of 128 bytes (R403). -/
def poolFor (n : Nat) : Nat := if n * 128 ≤ 128 then 0 else if n * 128 ≤ 512 then 1 else if n * 128 ≤ 2048 then 2 else 3

/-- The pool, index and generation a handle's bits name. -/
def handlePool (h : Nat) : Nat := bitsOf h 22 2
def handleIndex (h : Nat) : Nat := bitsOf h 0 22 / poolSize (handlePool h)
def handleGen (h : Nat) : Nat := bitsOf h 24 3

/-- Checks 2 to 6 of R410 on a handle named by writer `r`: the code of the first that fails, 0 when all pass. -/
def poolCheck (r h : Nat) (s : State) : Nat :=
  let p := handlePool h
  let k := poolKey p (handleIndex h)
  if bitsOf h 0 22 % poolSize p ≠ 0 then 4
  else if rdB POOLM.retired k s then 9
  else if !rdB POOLM.allocated k s then 5
  else if rd POOLM.gen k s ≠ handleGen h then 6
  else if rd POOLM.owner k s ≠ r then 7
  else 0

/-- Log a rejection (R410, R411): POOL_ERR_LOG and POOL_ERR_HANDLE. -/
def poolLog (r code op h : Nat) (s : State) : State :=
  wr POOL_ERR_LOG.requester 0 r s |> wr POOL_ERR_LOG.code 0 code |> wr POOL_ERR_LOG.op 0 op
    |> addF POOL_ERR_LOG.count 0 1 |> wr POOL_ERR_HANDLE.handle 0 h

/-- Reject a free (op 0) or a give (op 1) (R410, R418). -/
def poolReject (r code op h : Nat) (s : State) : State :=
  poolLog r code op h s |> wr POOL_REQ_W6.last_result r code
    |> inc (if op = 0 then cnt_POOL_free_reject else cnt_POOL_give_reject) 0
    |> wr POOL_EVT.ev_bad_free 0 1 |> raiseLim 0x0701 0 1000000 [r, op, code, h]

/-- Put an allocated buffer back on its free list (R410). -/
def poolRelease (p i : Nat) (s : State) : State :=
  let k := poolKey p i
  let o := rd POOLM.owner k s
  wr POOLM.allocated k 0 s |> subF (poolOutF p) o 1 |> pushL LPOOL.freed p i |> addF POOL_STATUS.free p 1 |> poolNote p

/-- A write of `v` to POOL_FREE by requester `r` (R410). -/
def poolFree (r v : Nat) (s : State) : State :=
  if bitsOf v 27 5 ≠ 0 then poolReject r 3 0 v s
  else if poolCheck r v s ≠ 0 then poolReject r (poolCheck r v s) 0 v s
  else poolRelease (handlePool v) (handleIndex v) s |> wr POOL_REQ_W6.last_result r 0

/-- The reserved requester IDs (R402). -/
def poolReserved (r : Nat) : Bool := [6, 7, 26, 27, 28].contains r

/-- A write of `v` to POOL_GIVE by requester `r` (R410): bits 26:0 handle, bits 31:27 target. -/
def poolGive (r v : Nat) (s : State) : State :=
  let h := bitsOf v 0 27
  let t := bitsOf v 27 5
  let p := handlePool h
  let k := poolKey p (handleIndex h)
  if poolReserved t then poolReject r 3 1 h s
  else if poolCheck r h s ≠ 0 then poolReject r (poolCheck r h s) 1 h s
  else if poolQuota t p s ≤ poolOut t p s then poolReject r 2 1 h s
  else wr POOLM.owner k t s |> subF (poolOutF p) r 1 |> addF (poolOutF p) t 1
    |> wr POOL_REQ_W6.last_result r 0 |> poolNote p

/-- A rejected use (R411, R418). -/
def poolBadUse (r code op h : Nat) (s : State) : State :=
  poolLog r code op h s |> inc cnt_POOL_use_reject 0 |> wr POOL_EVT.ev_bad_use 0 1 |> raiseLim 0x0702 0 1000000 [r, code, h]

/-- A hardware agent's use of a buffer by handle, offset and length (R411): does it pass? -/
def poolUseCode (r h off len : Nat) (s : State) : Nat :=
  if bitsOf h 27 5 ≠ 0 then 3
  else if poolCheck r h s ≠ 0 then poolCheck r h s
  else if poolSize (handlePool h) < off + len then 8 else 0

/-- One of the device's own agents reads `len` bytes of a buffer it holds (R411): where a check fails the access is not performed, and
what it was for is given up (log entry 179). -/
def poolOwn (r h len : Nat) (k : State → State) (s : State) : State :=
  let code := poolUseCode r h 0 len s
  if code ≠ 0 then poolBadUse r code 2 h s else k s

/-- A core's use of a service-memory address (R411): checks 3, 4 and 6 on the buffer that contains it. -/
def poolCoreCode (r addr : Nat) (s : State) : Nat :=
  let p := bitsOf addr 22 2
  let k := poolKey p (bitsOf addr 0 22 / poolSize p)
  if rdB POOLM.retired k s then 9
  else if !rdB POOLM.allocated k s then 5
  else if rd POOLM.owner k s ≠ r then 7 else 0

/-- Free every allocated buffer of requester `r` in pool `p` (R412); those of requester 4 in pool 3 hold the patches (R427). -/
def poolReclaim1 (r p : Nat) (s : State) : State :=
  let mine := (touched POOLM.allocated s).filter (fun k => k / 32768 = p && rd POOLM.owner k s = r && !rdB POOLM.retired k s)
  let s := if r = 4 && p = 3 then setL LFWP.code 0 [] (wr HFWP.bytes 0 0 s) else s
  forEach mine (fun k t => inc cnt_POOL_reclaimed 0 (poolRelease p (k % 32768) t)) s

/-- POOL_RECLAIM (R412). -/
def poolReclaim (r pools : Nat) (s : State) : State :=
  forEach [0, 1, 2, 3] (fun p t => if pools.testBit p then poolReclaim1 r p t else t) s

/-- An uncorrectable metadata error retires buffer `i` of pool `p` (R413). -/
def poolRetire (p i : Nat) (s : State) : State :=
  let k := poolKey p i
  if poolCount p ≤ i || rdB POOLM.retired k s then s
  else
    let alloc := rdB POOLM.allocated k s
    let s' :=
      if alloc then s
      else if (getL LPOOL.freed p s).contains i then
        setL LPOOL.freed p ((getL LPOOL.freed p s).filter (· ≠ i)) s |> subF POOL_STATUS.free p 1
      else pushL LPOOL.gone p i s |> subF POOL_STATUS.free p 1
    wr POOLM.retired k 1 s' |> inc cnt_POOL_meta_retire 0 |> wr POOL_EVT.ev_meta 0 1
      |> raise 0x0704 [p, i, if alloc then rd POOLM.owner k s else 0] |> poolNote p

/-- Free a buffer held by a hardware requester when it is done with it. -/
def poolDone (r h : Nat) (s : State) : State := if h = 0xFFFFFFFF then s else poolFree r h s

end Sys2Proof.Machine
end

