-- ==== Sys2Proof/Machine/Tel.lean ====
section
/-!
DEFINITION. Telemetry (R490 to R504): event records, record export to HIF rings and UDP collectors, counter and histogram
records, and the sampling and rate of postcards. The HIF ring helpers that exports need stand here too (R471 to R474).
-/

namespace Sys2Proof.Machine

/-! ### DMA rings (R471 to R474, R478) -/

/-- Descriptors a ring holds posted: (tail − head) mod 2^32 (R471). -/
def ringPosted (k : Nat) (s : State) : Nat := (rd HIF_RING_W3.tail k s + 2 ^ 32 - rd HIF_RING_W4.head k s) % 2 ^ 32

/-- Entries of a ring: 2^log_size (R471). -/
def ringSize (k : Nat) (s : State) : Nat := 2 ^ rd HIF_RING_W2.log_size k s

/-- Is a ring enabled and running? -/
def ringRuns (k : Nat) (s : State) : Bool := rdB HIF_RING_W2.enable k s && rd HIF_RING_W5.state k s = 1

/-- Is the endpoint there (R466)? Without it nothing passes on PCIe. -/
def pcieOn (s : State) : Bool := rdB HIF_STATUS.pcie_present 0 s

/-- Host address of the descriptor at a ring's head (R471). -/
def ringDesc (k : Nat) (s : State) : Nat :=
  rd HIF_RING_W0.base_lo k s * 64 + rd HIF_RING_W1.base_hi k s * 2 ^ 32 + 32 * (rd HIF_RING_W4.head k s % ringSize k s)

/-- The 16 completion bytes of the descriptor at the head (R473). -/
def completionBytes (k len status reason port stamp : Nat) (s : State) : List Nat :=
  let phase := 1 - (rd HIF_RING_W4.head k s / ringSize k s) % 2
  leBytes 2 len ++ [status, reason] ++ leBytes 2 port ++ [0, 0] ++ leBytes 8 (stamp % 2 ^ 63 + phase * 2 ^ 63)

/-- Write the completion of the descriptor at the head, raise head past it and issue the zero-length read (R473, R474). -/
def ringComplete (k len status reason port stamp : Nat) (s : State) : State :=
  emit .hostWrite k (w64 (ringDesc k s + 16) ++ completionBytes k len status reason port stamp s) s
    |> emit .hostRead k (w64 (ringDesc k s + 16))
    |> wr HIF_RING_W4.head k (rd HIF_RING_W4.head k s + 1)
    |> addF HHIF.flush k 1 |> inc cnt_HIF_completions k |> incBy cnt_HIF_bytes k len

/-! ### Export destinations (R500, R501) -/

/-- Raise EXPORT_DROP for destination `d`, at most once per 1 s (R504). -/
def exportDrop (d : Nat) (s : State) : State :=
  if running HTEL.drop_last 0 s && now s < rd HTEL.drop_last 0 s - 1 + 1000000000 then s
  else raise 0x0B02 [d, rd HTEL.drop_buf d s, rd HTEL.drop_desc d s] s |> wr TEL_EVT.ev_export 0 1
    |> wr HTEL.drop_buf d 0 |> wr HTEL.drop_desc d 0 |> wr HTEL.drop_last 0 (now s + 1)

/-- A record finds no buffer (R501). -/
def exportNoBuf (d : Nat) (s : State) : State := exportDrop d (addF HTEL.drop_buf d 1 (inc cnt_TEL_export_no_buf 0 s))

/-- A record finds no posted descriptor (R500). -/
def exportNoDesc (d : Nat) (s : State) : State := exportDrop d (addF HTEL.drop_desc d 1 (inc cnt_TEL_export_no_desc 0 s))

/-- The header of a UDP export datagram (R500). -/
def dgHeader (d : Nat) (s : State) : List Nat :=
  leBytes 2 0x5A54 ++ [1, rd HTEL.dg_count d s % 256] ++ leBytes 2 (rd FAB_CTRL.device_id 0 s) ++ [0, 0]
    ++ leBytes 4 (rd HTEL.dg_seq d s) ++ [0, 0, 0, 0]

/-- A destination's open datagram leaves (R500); its buffers go back to the pool. -/
def dgSend (d : Nat) (s : State) : State :=
  if rd HTEL.dg_count d s = 0 then disarm HTEL.dg_timer d s
  else
    emit .udp (rd TEL_DEST_W0.kind d s - 2)
      ([rd TEL_DEST_W0.ipv6 d s] ++ (List.range 4).map (fun w => rd TEL_DEST_ADDR.addr (d * 4 + w) s)
        ++ [rd TEL_DEST_W1.udp_port d s, rd TEL_DEST_W6.dst_mac_lo d s, rd TEL_DEST_W7.dst_mac_hi d s]
        ++ dgHeader d s ++ getL LTEL.dg d s) s
    |> incBy cnt_TEL_export_records 0 (rd HTEL.dg_count d s)
    |> forEach (getL LTEL.dg_h d s) (poolDone 5)
    |> setL LTEL.dg d [] |> setL LTEL.dg_h d [] |> wr HTEL.dg_count d 0 |> addF HTEL.dg_seq d 1 |> disarm HTEL.dg_timer d

/-- Most record bytes a datagram holds (R500). -/
def dgLimit (d : Nat) (s : State) : Nat := if rdB TEL_DEST_W0.ipv6 d s then 1436 else 1456

/-- Pack a record into a destination's open datagram (R500). -/
def dgAdd (d h : Nat) (bytes : List Nat) (s : State) : State :=
  let s := if dgLimit d s < (getL LTEL.dg d s).length + bytes.length then dgSend d s else s
  let s := if rd HTEL.dg_count d s = 0 then arm HTEL.dg_timer d 1000000 s else s
  let s := setL LTEL.dg d (getL LTEL.dg d s ++ bytes) s |> pushL LTEL.dg_h d h |> addF HTEL.dg_count d 1
  if dgLimit d s < (getL LTEL.dg d s).length + 64 then dgSend d s else s

/-- Send a record to destination `d` (R500, R501). -/
def exportTo (d : Nat) (bytes : List Nat) (s : State) : State :=
  match rd TEL_DEST_W0.kind d s with
  | 0 => s
  | 1 =>
    let k := rd TEL_DEST_W0.ring d s
    if rd HIF_RING_W2.kind k s ≠ 2 || !ringRuns k s || ringPosted k s ≤ rd HHIF.used k s then exportNoDesc d s
    else
      let (h, s) := poolAlloc 5 2 s
      if h = 0xFFFFFFFF then exportNoBuf d s
      else addF HHIF.used k 1 { s with recs := s.recs ++ [⟨k, h, bytes⟩] }
  | _ =>
    let (h, s) := poolAlloc 5 2 s
    if h = 0xFFFFFFFF then exportNoBuf d s else dgAdd d h bytes s

/-- Send a record of a type (0 postcards, 1 counters, 2 histograms, 3 events) to every destination that takes it. -/
def exportAll (ty : Nat) (bytes : List Nat) (s : State) : State :=
  forEach [0, 1, 2, 3] (fun d t => if rdBit TEL_DEST_W0.types d ty t then exportTo d bytes t else t) s

/-! ### Event records (R496 to R498) -/

/-- May Folsor write records now? Not before it starts (R429), in a gap, in resynchronisation or in autonomous hold (R497). -/
def folsorWrites (s : State) : Bool := rd CFG_BOOT_STATUS.state 0 s ≠ 0 && !rdB HRED.gap 0 s && !rdB HRED.hold 0 s && !rdB HRED.restart 0 s

/-- The sixteen words of an event record (R497). -/
def evtWords (flags code seq stamp : Nat) (payload : List Nat) : List Nat :=
  [4 + flags * 256 + code * 65536, seq] ++ w64 stamp ++ (payload ++ List.replicate 12 0).take 12

/-- The bytes of record words. -/
def wordsBytes (ws : List Nat) : List Nat := ws.flatMap (leBytes 4)

/-- Group of the interrupt source that reports an event (R378): by its block, and for slices and macros by the slice, port, lane or octet it
names first; ADM has no source. -/
def evtGroup (code : Nat) (payload : List Nat) : Option Nat :=
  let x := payload.headD 0
  let blk := code / 256
  if blk = 0x09 then none
  else if blk = 0x0C then some 51
  else if blk < 0x10 || blk = 0x30 then some 50
  else if blk = 0x10 then some (2 * x)
  else if blk = 0x40 then some (34 + (if code < 0x4009 then x / 16 else x / 2) / 4)
  else none

/-- Longest time a stamp lies after its condition (R283): 200 ns, and the hold-off of the source's group when one is set, which expires
within 40 ns after its setting (R383). -/
def lagMost (g : Option Nat) (s : State) : Nat :=
  match g with
  | some k => 200 + (if rd INTC_GRP.holdoff k s = 0 then 0 else rd INTC_GRP.holdoff k s * 100 + 40)
  | none => 200

/-- Write a capture as the next record of the event ring; the newest overwrites the oldest of 8,192 (R497). -/
def writeEvt (c : Capture) (lag : Nat) (s : State) : State :=
  let lost := rd HTEL.lost 0 s
  let seq := rd HTEL.next_seq 0 s
  let stamp := if c.gap then c.stamp else c.stamp + min lag (lagMost (evtGroup c.code c.payload) s)
  let ws := evtWords (b2n c.gap + 2 * b2n (lost ≠ 0)) c.code seq stamp c.payload
  let ring := s.evtRing ++ [⟨seq, ws⟩]
  let s := { s with evtRing := if 8192 < ring.length then ring.tail else ring }
    |> wr HTEL.next_seq 0 (seq + 1) |> inc cnt_TEL_evt_records 0 |> wr HTEL.lost 0 0
    |> exportAll 3 (wordsBytes ws)
  if lost ≠ 0 then raise 0x0B01 [lost] (wr TEL_EVT.ev_lost 0 1 s) else s

/-- Folsor takes the next capture and writes its record (R497). -/
def takeCapture (lag : Nat) (s : State) : State :=
  match s.telFifo with
  | [] => s
  | c :: l => if folsorWrites s then writeEvt c lag { s with telFifo := l } else s

/-- The record of a seq, if the event ring still holds it (R498). -/
def evtFind (seq : Nat) (s : State) : Option EvtRec := s.evtRing.find? (fun r => r.seq = seq)

/-- Records overwritten before ring `k` took them are skipped and counted (R498). -/
def evtSkip (k : Nat) (s : State) : State :=
  match s.evtRing.head? with
  | none => s
  | some r =>
    let behind := (r.seq + 2 ^ 32 - rd HTEL.rptr k s) % 2 ^ 32
    if behind < 2 ^ 31 && behind ≠ 0 then wr HTEL.rptr k r.seq (incBy cnt_TEL_evt_overwrite 0 behind s) else s

/-! ### Postcards (R490 to R493) -/

/-- A frame is marked with profile `k` at lookup: is it sampled? (R490) -/
def telMark (k : Nat) (s : State) : Bool × State :=
  if !rdB TEL_PROF.enable k s then (false, s)
  else
    let n := rd HTEL.samples k s + 1
    if 2 ^ rd TEL_PROF.sample_shift k s ≤ n then (true, wr HTEL.samples k 0 s) else (false, wr HTEL.samples k n s)

/-- Make a postcard within the rate of R493, and within the engine's 20 million records per second (R501), and send it. -/
def postcard (bytes : List Nat) (s : State) : State :=
  let ms := now s / 1000000
  let s := if rd HTEL.pc_win 0 s = ms then s else wr HTEL.pc_cnt 0 0 (wr HTEL.pc_win 0 ms s)
  if min (rd TEL_CTRL.post_rate 0 s) 20000 ≤ rd HTEL.pc_cnt 0 s then inc cnt_TEL_postcard_rate_drop 0 s
  else exportAll 0 bytes (inc cnt_TEL_postcards 0 (addF HTEL.pc_cnt 0 1 s))

/-! ### Counter and histogram export (R499) -/

/-- A counter record (R499). -/
def cntRecord (set inst : Nat) (vals : List Nat) (s : State) : List Nat :=
  [2, set] ++ leBytes 2 vals.length ++ leBytes 4 inst ++ leBytes 8 (now s) ++ vals.flatMap (leBytes 8)

/-- The counters of a port in a set, in the order the owning chapter lists them. -/
def setPortCnts (set : Nat) : List Cnt :=
  match set with
  | 0 => [cnt_PRT_rx_frames, cnt_PRT_rx_bytes, cnt_PRT_rx_fcs_err, cnt_PRT_rx_oversize, cnt_PRT_rx_undersize,
      cnt_PRT_rx_mac_ctrl, cnt_PRT_rx_ctrl, cnt_PRT_rx_ctrl_bad, cnt_PRT_rx_os_unknown, cnt_PRT_tx_frames, cnt_PRT_tx_bytes,
      cnt_PRT_tx_err_fcs, cnt_PRT_fec_corr_sym, cnt_PRT_fec_uncorr, cnt_PRT_link_down, cnt_PRT_an_mismatch,
      cnt_PRT_bringup_retry, cnt_PRT_adapt_revert, cnt_PRT_quiet_entry, cnt_PRT_quiet_wake, cnt_PRT_quiet_refused]
  | 1 => [cnt_SLC_head_drop, cnt_SLC_reseq_skip, cnt_SLC_reseq_late, cnt_SLC_fence_redispatch, cnt_SLC_fence_drop,
      cnt_SLC_rx_discard_err, cnt_SLC_cut_abort, cnt_SLC_cut_underrun, cnt_SLC_ct_frames, cnt_SLC_sf_frames]
  | 2 => [cnt_BUF_rx_pool_drop, cnt_BUF_pg_drop, cnt_BUF_tail_drop, cnt_BUF_adm_no_cell, cnt_BUF_stale_drop,
      cnt_BUF_flush_drop, cnt_BUF_link_down_drop, cnt_BUF_mc_copy_drop]
  | 3 => [cnt_SCH_tx_admitted, cnt_SCH_tx_gated, cnt_SCH_gate_carry, cnt_SCH_err_removed, cnt_SCH_node_mismatch, cnt_SCH_q01_remap]
  | _ => [cnt_RED_gap_rx_drop, cnt_RED_gap_tx_abort]

/-- Device counters of the blocks, by block base bits 31:20. -/
def deviceCnts : List (Nat × List Cnt) :=
  [(0x000, cntsGLB), (0x001, cntsCFG), (0x002, cntsACC), (0x003, cntsPWR), (0x005, cntsINTC), (0x006, cntsTIM),
   (0x007, cntsPOOL), (0x008, cntsRED.take 10), (0x009, cntsADM.take 4), (0x00A, cntsFAB), (0x00B, cntsTEL.take 12),
   (0x00C, cntsHIF.take 9), (0x010, cntsBUF.take 8), (0x020, cntsSCH.take 2), (0x030, cntsTBL)]

/-- Slice and slot whose SLC counters serve a port: its own slice, or SL16 while that serves the port's slice (R110). -/
def servSlice (p : Nat) (s : State) : Nat := rd PRT_MACRO_STATUS.serving_slice (p / 16) s

/-- The index of a port in the per-slice port registers. -/
def slot (p : Nat) (s : State) : Nat := servSlice p s * 64 + p % 64

/-- The queues of the device as BUF_Q_SEL numbers them: unicast, gated, multicast. -/
def queueCodes : List Nat :=
  (List.range 262144).map (fun i => i * 4) ++ (List.range 4096).map (fun i => i * 4 + 1) ++ (List.range 2048).map (fun i => i * 4 + 2)

/-- Every counter record of a set (R499), copied at one instant. -/
def setRecords (set : Nat) (s : State) : List (List Nat) :=
  if set < 5 then
    (List.range 1024).map (fun p =>
      cntRecord set p ((setPortCnts set).map (fun c => cnt c (if set = 1 then slot p s else p) s)) s)
  else if set = 5 then
    queueCodes.map (fun q => cntRecord 5 q [cnt cnt_TEL_q_tx_frames q s, cnt cnt_TEL_q_tx_bytes q s, cnt cnt_TEL_q_drops q s] s)
  else if set = 6 then
    (List.range 65536).map (fun i => cntRecord 6 i [cnt cnt_TEL_s_rx_frames i s, cnt cnt_TEL_s_rx_bytes i s, cnt cnt_TEL_s_tx_frames i s] s)
  else
    deviceCnts.map (fun e => cntRecord 7 e.1 (e.2.map (fun c => cnt c 0 s)) s)
      ++ (List.range 17).map (fun sl => cntRecord 7 (0x100 + 16 * sl)
        (([cnt_SLC_epoch_discard, cnt_SLC_head_ecc] ++ ((cntsSLC.drop 12).take 15)).map (fun c => cnt c sl s)) s)

/-- COUNTER_EXPORT (R499). -/
def counterExport (s : State) : State :=
  if rd TEL_EXPORT_CFG.cnt_period 0 s = 0 then s
  else every HTEL.cntt 0 (rd TEL_EXPORT_CFG.cnt_period 0 s * 1000000000) (fun s =>
    let recs := (List.range 8).flatMap (fun n => if rdBit TEL_EXPORT_CFG.cnt_sets 0 n s then setRecords n s else [])
    forEach recs (exportAll 1) s) s

/-- HISTOGRAM_EXPORT (R499): one record for each enabled watch entry. -/
def histogramExport (s : State) : State :=
  if rd TEL_EXPORT_CFG.hist_period 0 s = 0 then s
  else every HTEL.hist 0 (rd TEL_EXPORT_CFG.hist_period 0 s * 1000000000) (fun s =>
    let ws := (touched SCH_WATCH.enable s).filter (fun w => rdB SCH_WATCH.enable w s)
    let recs := ws.map (fun w => [3, rd SCH_WATCH.scale w s] ++ leBytes 2 w
      ++ leBytes 4 (rd SCH_WATCH.kind w s + 4 * rd SCH_WATCH.index w s) ++ leBytes 8 (now s)
      ++ (List.range 32).flatMap (fun b => leBytes 8 (cnt cnt_SCH_bins (w * 32 + b) s)))
    forEach recs (exportAll 2) s) s

end Sys2Proof.Machine
end

