-- ==== Sys2Proof/Machine/Aud.lean ====
section
/-!
DEFINITION. Roles (R445), the access-error log (R531, R533) and the audit ring (R454 to R459).
-/

namespace Sys2Proof.Machine

/-! ### Roles and access errors -/

/-- The role an access carries (R445): none for BAR2 (R468), image records and Folsor's own work. -/
def accRole (a : Access) (s : State) : Option Nat :=
  match a.path with
  | .pcie => some (rd ACC_PATH_ROLE.pcie_role 0 s)
  | .smbus => some (rd ACC_PATH_ROLE.smbus_role 0 s)
  | .mgmt0 => some (rd ACC_SESSION.role a.who s)
  | .mgmt1 => some (rd ACC_SESSION.role a.who s)
  | .inband => some (rd ACC_SESSION.role a.who s)
  | .tap => some 0
  | .export_ => some 0
  | .ring => none
  | .bar2 => none
  | .core => none
  | .image => none

/-- The path code of GLB_ACC_ERR_INFO (R531). -/
def errPath (p : Path) : Nat :=
  match p with
  | .pcie => 0
  | .smbus => 1
  | .mgmt0 => 2
  | .mgmt1 => 2
  | .inband => 2
  | .image => 4
  | .core => 3
  | .tap => 3
  | .export_ => 3
  | .ring => 3
  | .bar2 => 0

/-- The path code of an audit record (R457). -/
def auditPath (p : Path) : Nat :=
  match p with
  | .pcie => 0
  | .smbus => 1
  | .mgmt0 => 2
  | .mgmt1 => 3
  | .inband => 4
  | .core => 5
  | .image => 5
  | .tap => 5
  | .export_ => 5
  | .ring => 5
  | .bar2 => 0

/-- The credential field of an audit record (R457). -/
def credOf (a : Access) (s : State) : Nat :=
  match a.path with
  | .pcie => 0x0300
  | .smbus => 0x0301
  | .mgmt0 => rd ACC_SESSION.cred a.who s
  | .mgmt1 => rd ACC_SESSION.cred a.who s
  | .inband => rd ACC_SESSION.cred a.who s
  | .core => 0x0400
  | .image => 0x0400
  | .tap => 0x0400
  | .export_ => 0x0400
  | .ring => 0x0400
  | .bar2 => 0x0300

/-- Count an access error and log it (R8, R533). -/
def accErr (a : Access) (addr kind : Nat) (write : Bool) (s : State) : State :=
  inc cnt_GLB_access_errors 0 s |> wr GLB_ACC_ERR_ADDR.addr 0 addr |> wr GLB_ACC_ERR_INFO.path 0 (errPath a.path)
    |> wrB GLB_ACC_ERR_INFO.write 0 write |> wr GLB_ACC_ERR_INFO.kind 0 kind |> wr GLB_ACC_ERR_INFO.role 0 ((accRole a s).getD 0)

/-! ### Audit captures -/

/-- Who made an audited action: role, credential and path codes of R457. -/
abbrev Who := Nat × Nat × Nat

/-- Who makes an access. -/
def whoOf (a : Access) (s : State) : Who := ((accRole a s).getD 0, credOf a s, auditPath a.path)

/-- Pack and unpack who armed a change set. -/
def packWho (w : Who) : Nat := w.2.2 + 8 * w.1 + 64 * w.2.1

/-- See `packWho`. -/
def unpackWho (n : Nat) : Who := (n / 8 % 8, n / 64, n % 8)

/-- The device itself, for the boot image and for what no access asks. -/
def whoImage : Who := (0, 0x0400, 5)

/-- The first 12 bytes of a SHA-384 digest (R455), as a number read big-endian. -/
def hash12 (bs : List Nat) : Nat := Config.sha384 bs / 2 ^ 288 % 2 ^ 96

/-- Is there room in the audit FIFO? The last 16 of its 4,096 entries are kept for writes of RED_CX_CMD (R456). -/
def auditRoom (reserved : Bool) (s : State) : Bool := auditFillOf s < (if reserved then 4096 else 4080)
where
  /-- Captures in the audit FIFO. -/
  auditFillOf (s : State) : Nat := rd HAUD.tail 0 s - rd HAUD.head 0 s

/-- Capture an audited action (R454). One that finds no entry free is lost (log entry 30). -/
def auditPut (reserved : Bool) (kind result addr aux : Nat) (hashes : Nat × Nat) (w : Who) (s : State) : State :=
  if !auditRoom reserved s then s
  else
    let n := rd HAUD.tail 0 s
    setL LAUD.cap n [kind, w.1, w.2.1, w.2.2, result, addr, aux, hashes.1, hashes.2, now s, b2n (rdB HRED.gap 0 s || rdB HRED.restart 0 s)] s |> wr HAUD.tail 0 (n + 1)

/-- Capture an action whose hash fields are 0. -/
def audit (kind result addr aux : Nat) (w : Who) (s : State) : State := auditPut false kind result addr aux (0, 0) w s

/-- The bytes a kind 1 hash covers (R455). -/
def regBytes (addr v : Nat) : List Nat := leBytes 4 addr ++ leBytes 4 v

/-- Pairs of a list. -/
def pairsOf : List Nat → List (Nat × Nat)
  | a :: b :: l => (a, b) :: pairsOf l
  | _ => []

/-- A refusal on role grounds: counted in denied and as an access error, and captured at most once per second for each path,
with the refusals of the last second and the first of them (R447, R454). -/
def refuse (a : Access) (addr : Nat) (s : State) : State :=
  let p := auditPath a.path
  let s := inc cnt_ACC_denied 0 (accErr a addr 3 true s)
  let l := (pairsOf (getL LAUD.refused p s)).filter (fun x => now s < x.1 + 1000000000) ++ [(now s, addr)]
  let s := setL LAUD.refused p (l.flatMap (fun x => [x.1, x.2])) s
  if rd HAUD.last p s = 0 || rd HAUD.last p s - 1 + 1000000000 ≤ now s then
    audit 11 1 ((l.head?.map (·.2)).getD addr) l.length (whoOf a s) (wr HAUD.last p (now s + 1) s)
  else s

/-- A privileged write that finds only reserved entries free is refused (R456). -/
def auditFull (a : Access) (addr : Nat) (s : State) : State :=
  let s := inc cnt_ACC_audit_refused 0 (accErr a addr 4 true s)
  raise 0x0D04 [auditPath a.path, cnt cnt_ACC_audit_refused 0 s % 2 ^ 32] (wr ACC_EVT.ev_audit 0 1 s)

/-! ### The ring (R457, R458) -/

/-- The sixteen words of an audit record. -/
def auditWords (seq stamp boots lag : Nat) (c : List Nat) : List Nat :=
  let g := fun k => c.getD k 0
  let body := leBytes 8 seq ++ leBytes 8 stamp ++ [g 0, g 1] ++ leBytes 2 (g 2) ++ [g 3, g 4] ++ leBytes 2 boots ++ leBytes 4 (g 5)
    ++ leBytes 4 (g 6) ++ beBytes 12 (g 7) ++ beBytes 12 (g 8) ++ leBytes 4 (min lag 0xFFFFFFFF)
  let all := body ++ leBytes 4 (crcIeee body)
  (List.range 16).map (fun k => leNat ((all.drop (4 * k)).take 4))

/-- The first good position from `p` on, over `n` positions. -/
def goodPos (p : Nat) (s : State) : Nat → Nat
  | 0 => p
  | n + 1 => if rdB HAUD.badpos p s then goodPos ((p + 1) % 65536) s n else p

/-- A write that fails read-back marks its position bad (R458). -/
def badPos (s : State) : State :=
  let p := goodPos (rd HAUD.pos 0 s) s 65536
  let s := setL LAUD.ring p [] (wr HAUD.badpos p 1 s) |> subF ACC_AUDIT_STATUS.good 0 1 |> wr HAUD.pos 0 (p + 1)
  if rd ACC_AUDIT_STATUS.good 0 s < 60000 && !rdB ACC_AUDIT_STATUS.audit_fault 0 s then
    raise 0x0D03 [rd ACC_AUDIT_STATUS.good 0 s] (wr ACC_EVT.ev_audit 0 1 (wr ACC_AUDIT_STATUS.audit_fault 0 1 s))
  else s

/-- Apply a change `n` times. -/
def times (k : State → State) : Nat → State → State
  | 0, s => s
  | n + 1, s => times k n (k s)

/-- AUDIT_RECORD_WRITE (R456 to R458): Folsor takes the oldest capture, stamps it `lag` ns after the capture, as R283
bounds it, and the record goes to the ring; `bad` positions fail read-back first. A capture of a gap is stamped with the gap's latched value (R356). -/
def auditWrite (lag bad : Nat) (s : State) : State :=
  let n := rd HAUD.head 0 s
  if rd HAUD.tail 0 s ≤ n || !folsorWrites s then s
  else
    let c := getL LAUD.cap n s
    let stamp := if c.getD 10 0 = 1 then c.getD 9 0 else c.getD 9 0 + min lag (lagMost (some 50) s)
    let s := times badPos bad (setL LAUD.cap n [] (wr HAUD.head 0 (n + 1) s))
    let p := goodPos (rd HAUD.pos 0 s) s 65536
    let seq := rd HAUD.seq 0 s
    let s := if getL LAUD.ring p s = [] then s else inc cnt_ACC_audit_overwrites 0 s
    setL LAUD.ring p ((seq + 1) :: auditWords seq stamp (rd HAUD.boots 0 s) (stamp - c.getD 9 0) c) s |> wr HAUD.pos 0 (p + 1)
      |> wr HAUD.seq 0 (seq + 1) |> wr ACC_AUDIT_SEQ.seq 0 seq |> wr ACC_AUDIT_SEQ.seq 1 (seq / 2 ^ 32) |> inc cnt_ACC_audit_records 0

end Sys2Proof.Machine
end

