-- ==== Sys2Proof/Machine/Intc.lean ====
section
/-!
DEFINITION. The interrupt controller (R378 to R398): source lines, pending latches, group hold-off, routing to the cores,
delivery to the host through MSI-X, and INT_N.
-/

namespace Sys2Proof.Machine

/-! ### Source lines (R378, R79, R112, R144) -/

/-- Is any of these bits set? -/
def anyB (fs : List Fld) (i : Nat) (s : State) : Bool := fs.any (fun f => rdB f i s)

/-- Local source `k` of slice `sl` (R112, R144). -/
def lineSlice (sl k : Nat) (s : State) : Bool :=
  match k with
  | 0 => rdB SLC_EVT.ev_fence sl s
  | 1 => rdB SLC_EVT.ev_skip sl s
  | 2 => rdB SLC_EVT.ev_head_drop sl s
  | 3 => rdB SLC_EVT.ev_head_ecc sl s
  | 4 => anyB [SLC_CLS_EVT.ev_rule_parity, SLC_CLS_EVT.ev_ttl_hold] sl s
  | _ => false

/-- Local source `k` of macro `m` (R79). DEDUCED (log entry 137): event bits of a port that has ceased to exist still drive their source. -/
def lineMacro (m k : Nat) (s : State) : Bool :=
  match k with
  | 0 => (List.range 16).any (fun j => rdB PRT_PORT_EVT.ev_link (m * 16 + j) s)
  | 1 => (List.range 2).any (fun o =>
      anyB [PRT_OCT_MODULE_STAT.power_denied, PRT_OCT_MODULE_STAT.no_app, PRT_OCT_MODULE_STAT.mod_event] (m * 2 + o) s)
  | 2 => (List.range 16).any (fun j => rdB PRT_PORT_EVT.ev_degrade (m * 16 + j) s)
  | _ => (List.range 16).any (fun j => rdB PRT_PORT_EVT.ev_peer (m * 16 + j) s)

/-- The HIF event bits of a ring's word 6 (R489). -/
def lineRing (k : Nat) (s : State) : Bool := anyB [HIF_RING_W6.ev_done, HIF_RING_W6.ev_halt, HIF_RING_W6.ev_drop] k s

/-- The level of source `n`'s line (R378, R379). A software source's line is high for one core cycle only, and a reserved
source's line is held low. -/
def line (n : Nat) (s : State) : Bool :=
  if n < 544 then lineSlice (n / 32) (n % 32) s
  else if n < 800 then lineMacro ((n - 544) / 4) ((n - 544) % 4) s
  else if n = 800 then anyB [TBL_EVT.ev_parity, TBL_EVT.ev_flap, TBL_EVT.ev_learn_full, TBL_EVT.ev_contention] 0 s
  else if n = 801 then anyB [BUF_EVT.ev_ecc_uncorr, BUF_EVT.ev_leak, BUF_EVT.ev_retire, BUF_EVT.ev_adm_drop, BUF_EVT.ev_hold] 0 s
  else if n = 802 then anyB [SCH_EVT.ev_gcl_switch, SCH_EVT.ev_gcl_step, SCH_EVT.ev_gate_carry, SCH_EVT.ev_sample_overrun,
    SCH_EVT.ev_node_mismatch, SCH_EVT.ev_over_contract] 0 s
  else if n = 803 then anyB [FAB_EVT.ev_rsq, FAB_EVT.ev_bundle, FAB_EVT.ev_round, FAB_EVT.ev_pg, FAB_EVT.ev_tag] 0 s
  else if n = 804 then anyB [TIM_EVT.ev_lock, TIM_EVT.ev_step, TIM_EVT.ev_hs, TIM_EVT.ev_delay, TIM_EVT.ev_tout,
    TIM_EVT.ev_tin, TIM_EVT.ev_refclk] 0 s
  else if n = 805 then (List.range 8).any (fun p => rdB TIM_TIN_W0.int_en p s && rdB TIM_TIN_W2.fill p s)
  else if n = 806 then anyB [PWR_EVT.ev_abandon, PWR_EVT.ev_alert, PWR_EVT.ev_thermal, PWR_EVT.ev_sensor, PWR_EVT.ev_cap,
    PWR_EVT.ev_trim, PWR_EVT.ev_pmbus, PWR_EVT.ev_group] 0 s
  else if n = 807 then rdB CLK_EVT.ev_unlock 0 s
  else if n = 808 then anyB [RED_EVT.ev_mismatch, RED_EVT.ev_hold, RED_EVT.ev_takeover, RED_EVT.ev_takeover_fail,
    RED_EVT.ev_update, RED_EVT.ev_watchdog, RED_EVT.ev_rejoin] 0 s
  else if n = 809 then anyB [POOL_EVT.ev_bad_free, POOL_EVT.ev_bad_use, POOL_EVT.ev_low, POOL_EVT.ev_meta] 0 s
  else if n = 810 then anyB [CFG_EVT.ev_boot, CFG_EVT.ev_cs, CFG_EVT.ev_pair, CFG_EVT.ev_flash] 0 s
  else if n = 811 then anyB [ACC_EVT.ev_auth, ACC_EVT.ev_maker, ACC_EVT.ev_audit, ACC_EVT.ev_key] 0 s
  else if n = 812 then anyB [TEL_EVT.ev_lost, TEL_EVT.ev_export] 0 s
  else if n < 816 then false
  else if n < 832 then lineRing (n - 816) s || (n = 831 &&
    anyB [HIF_EVT.ev_pcie, HIF_EVT.ev_mgmt0, HIF_EVT.ev_mgmt1, HIF_EVT.ev_i2c, HIF_EVT.ev_overflow] 0 s)
  else false

/-- The line bits of group `g`, as INTC_LINE reads them. -/
def lineWord (g : Nat) (s : State) : Nat :=
  ((List.range 16).map (fun k => if line (16 * g + k) s then 2 ^ k else 0)).sum

/-! ### Pending bits of a source -/

def hpend (n : Nat) (s : State) : Bool := rdBit INTC_HPEND.hpend (n / 16) (n % 16) s
def cpend (n : Nat) (s : State) : Bool := rdBit INTC_CPEND.cpend (n / 16) (n % 16) s
def released (n : Nat) (s : State) : Bool := rdBit HINT.rel (n / 16) (n % 16) s
def prio (n : Nat) (s : State) : Nat := rd INTC_SRC.priority n s

/-- Do outputs of the complexes flow? Nothing is presented in a gap, in resynchronisation, in a warm restart, in
autonomous hold or while the complexes sleep (R387, R392). -/
def coresFlow (s : State) : Bool :=
  !rdB HRED.gap 0 s && !rdB HRED.hold 0 s && !rdB HRED.restart 0 s && rd PWR_CX.state 0 s = 0

/-! ### Routing to the cores (R384 to R386) -/

/-- Priority of the highest active interrupt plus one; 0 when none is active. -/
def activeTop (c : Nat) (s : State) : Nat := ((getL LINT.stack c s).map (fun e => e / 1024 + 1)).foldl max 0

/-- Refresh a core's threshold and depth (R384). -/
def noteCore (c : Nat) (s : State) : State :=
  wr INTC_CORE.threshold c (max (rd INTC_CORE.pmr c s) (activeTop c s)) s
    |> wr INTC_CORE.depth c (getL LINT.stack c s).length

/-- Could source `n` be presented to core `c` now, whatever stands there of lower priority? -/
def mayGo (n c : Nat) (s : State) : Bool :=
  rdBit INTC_SRC.cores n c s && rdB INTC_CORE.in_service c s && rd INTC_CORE.threshold c s ≤ prio n s &&
    (!rdB INTC_CORE.presented c s || prio (rd INTC_CORE.pres_id c s) s < prio n s)

/-- Is source `n` presented to some core? -/
def presentedSrc (n : Nat) (s : State) : Bool :=
  [0, 1, 2, 3].any (fun c => rdB INTC_CORE.presented c s && rd INTC_CORE.pres_id c s = n)

/-- The core with the lowest threshold among those that may take `n`, ties from the round-robin pointer (R385). -/
def pickCore (n : Nat) (s : State) : Option Nat :=
  let r := rd HINT.rr 0 s
  let cs := ([r, (r + 1) % 4, (r + 2) % 4, (r + 3) % 4]).filter (fun c => mayGo n c s)
  cs.foldl (fun best c => match best with
    | none => some c
    | some b => if rd INTC_CORE.threshold c s < rd INTC_CORE.threshold b s then some c else some b) none

/-- One source at a routing decision. -/
def routeOne (n : Nat) (s : State) : State :=
  if presentedSrc n s then s
  else match pickCore n s with
    | none => s
    | some c => wr INTC_CORE.presented c 1 s |> wr INTC_CORE.pres_id c n |> wr HINT.rr 0 (c + 1)

/-- Insert a source in routing order: highest priority first, then lowest ID. -/
def insRoute (s : State) (n : Nat) : List Nat → List Nat
  | [] => [n]
  | m :: l => if prio m s < prio n s || (prio m s = prio n s && n < m) then n :: m :: l else m :: insRoute s n l

/-- The released, enabled, core-pending sources in routing order (R385). -/
def routable (s : State) : List Nat :=
  let gs := touched HINT.rel s
  let ns := gs.flatMap (fun g => (List.range 16).map (fun k => 16 * g + k))
  (ns.filter (fun n => released n s && cpend n s && rdB INTC_SRC.enable n s)).foldl (fun l n => insRoute s n l) []

/-- A routing decision (R385). -/
def route (s : State) : State := if coresFlow s then forEach (routable s) routeOne s else s

/-- Withdraw what is presented to a core whose threshold has risen above it (R386). -/
def withdraw (c : Nat) (s : State) : State :=
  if rdB INTC_CORE.presented c s && prio (rd INTC_CORE.pres_id c s) s < rd INTC_CORE.threshold c s then
    wr INTC_CORE.presented c 0 s |> wr INTC_CORE.pres_id c 0
  else s

/-! ### Delivery to the host (R389, R390, R396) -/

/-- Does the group hold a host-pending, enabled source with its host bit set? -/
def hostWanted (g : Nat) (s : State) : Bool :=
  (List.range 16).any (fun k => hpend (16 * g + k) s && rdB INTC_SRC.enable (16 * g + k) s && rdB INTC_SRC.host (16 * g + k) s)

/-- Send vector `g`'s message, the data of its table entry to its address, or set its PBA bit while it is masked (R390, R468). -/
def msixSend (g : Nat) (s : State) : State :=
  if rdB HINT.masked g s then wr HINT.pba g 1 s else inc cnt_INTC_msix_sent 0 (emit .msix g [rd HINT.addr_lo g s, rd HINT.addr_hi g s, rd HINT.data g s] s)

/-- Hold a message until the host's side is ready (R396): at most one a group. -/
def msixHold (g kind : Nat) (s : State) : State := wr INTC_GRP.msg_held g 1 s |> wr HINT.held_for g kind

/-- send_host(g) (R389, R390, R396). -/
def sendHost (g : Nat) (s : State) : State :=
  if !hostWanted g s || !rdB HIF_STATUS.pcie_present 0 s then s
  else
    let d := rd HIF_STATUS.d_state 0 s
    let l := rd HIF_STATUS.link 0 s
    if d = 0 then
      if !rdB HIF_STATUS.msix_en 0 s then s
      else if rdB HINT.masked g s then wr HINT.pba g 1 s
      else if l = 1 then msixSend g s
      else if rdB INTC_GRP.msg_held g s then s
      else if 2 ≤ l && l ≤ 5 then inc cnt_INTC_msix_link_wake 0 (msixHold g 1 (wr HIF_STATUS.link 0 6 s))
      else msixHold g 1 s
    else if rdB INTC_GRP.msg_held g s then s
    else if d = 2 then
      let s := inc cnt_INTC_msix_held 0 (msixHold g 2 (if 2 ≤ l && l ≤ 5 then wr HIF_STATUS.link 0 6 s else s))
      if rdB HINT.pme_en 0 s then emit .pmPme 0 [] s else s
    else
      let s := inc cnt_INTC_msix_held 0 (msixHold g 2 s)
      if rdB HINT.pme_en 0 s then { s with pins := { s.pins with pcieWakeN := false } } else s

/-- Send every held message whose condition the link and function now meet (R396). -/
def msixRelease (s : State) : State :=
  if rd HIF_STATUS.link 0 s = 1 && rd HIF_STATUS.d_state 0 s = 0 && rdB HIF_STATUS.msix_en 0 s then
    forEach (touched INTC_GRP.msg_held s) (fun g t =>
      if rdB INTC_GRP.msg_held g t then msixSend g (wr HINT.held_for g 0 (wr INTC_GRP.msg_held g 0 t)) else t) s
  else s

/-! ### Edges, hold-off and delivery (R380 to R383) -/

/-- A wake source (R392). -/
def wakeSource (n : Nat) (s : State) : Bool :=
  rdB INTC_SRC.enable n s && rdB INTC_SRC.wake n s && rdB INTC_SRC.cores n s

/-- Are the complexes in Autumn or Winter, or thawing? -/
def cxAsleep (s : State) : Bool := rd PWR_CX.state 0 s ≠ 0

/-- deliver(g) (R383): release the group's core-pending sources to routing, send to the host if fresh, update INT_N; a
released wake source wakes sleeping complexes (R392), which then thaw (log entry 176). -/
def deliver (g : Nat) (s : State) : State :=
  let s := wr HINT.rel g (rd HINT.rel g s ||| rd INTC_CPEND.cpend g s) s
  let s := wr HINT.deliv g (rd HINT.deliv g s ||| rd INTC_HPEND.hpend g s) s
  let s := if rdB INTC_GRP.fresh g s then sendHost g (wr INTC_GRP.fresh g 0 s) else s
  let wakes := (List.range 16).find? (fun k => released (16 * g + k) s && cpend (16 * g + k) s && wakeSource (16 * g + k) s)
  match wakes with
  | some k => if cxAsleep s && !rdB INTC_STATUS.wake_issued 0 s then
      wr INTC_STATUS.wake_issued 0 1 (wr HINT.wake_stamp 0 (now s + 1) (wr HINT.wake_src 0 (16 * g + k + 1) (wr PWR_CX.state 0 3 s)))
    else route s
  | none => route s

/-- After a pending bit of group `g` has been set: mark the group fresh, then deliver at once or leave it to the hold-off
timer (R383). -/
def holdoff (g : Nat) (s : State) : State :=
  let s := wr INTC_GRP.fresh g 1 s
  if rdB INTC_GRP.running g s then s
  else if rd INTC_GRP.holdoff g s = 0 then deliver g s
  else arm HINT.timer g (rd INTC_GRP.holdoff g s * 100) (wr INTC_GRP.running g 1 s)

/-- Set source `n`'s core pending bit; in a gap its stamp is latched (R388). -/
def setCpend (n : Nat) (s : State) : State :=
  let new := !cpend n s
  let s := setFBit INTC_CPEND.cpend (n / 16) (n % 16) s
  if (rdB HRED.gap 0 s || rdB HRED.restart 0 s) && new && !running HINT.pend_stamp n s then wr HINT.pend_stamp n (now s + 1) s else s

/-- Set source `n`'s host pending bit; it has not been delivered yet. -/
def setHpend (n : Nat) (s : State) : State :=
  if hpend n s then s else clrFBit HINT.deliv (n / 16) (n % 16) (setFBit INTC_HPEND.hpend (n / 16) (n % 16) s)

/-- A rising edge of source `n`'s line (R380, R383). -/
def edge (n : Nat) (s : State) : State :=
  holdoff (n / 16) (setHpend n (setCpend n s))

/-- Clear source `n`'s host pending bit (R381): it sets again while the line is high. When the group has none left, a held
message is not sent (R396). -/
def clrHpend (n : Nat) (s : State) : State :=
  if !hpend n s then s
  else
    let g := n / 16
    let s := clrFBit HINT.deliv g (n % 16) (clrFBit INTC_HPEND.hpend g (n % 16) s)
    if line n s then holdoff g (setHpend n (inc cnt_INTC_repend 0 s))
    else if rd INTC_HPEND.hpend g s = 0 then wr INTC_GRP.msg_held g 0 (wr HINT.held_for g 0 s) else s

/-- A source's configuration has been written (R382): one that was disabled while pending, and is enabled again with no hold-off running,
is delivered now, to the host too. -/
def srcEnabled (n : Nat) (before : Bool) (s : State) : State :=
  let g := n / 16
  if before || !rdB INTC_SRC.enable n s || rdB INTC_GRP.running g s || !(hpend n s || cpend n s) then route s
  else route (deliver g (if hpend n s && rdB INTC_SRC.host n s then wr INTC_GRP.fresh g 1 s else s))

/-- CHECKPOINT (R350): the logs start afresh. -/
def checkpointTake (s : State) : State :=
  wr HCX.ckpt 0 (now s + 1) s |> wr HCX.ecc 0 0 |> wr HCX.ecc 1 0 |> setL LCX.sent 0 [] |> setL LCX.replay 0 []

/-- A read response or an interrupt entry enters the replay log in lockstep operation; a log of 1,024 entries forces a checkpoint (R350). -/
def replayNote (x v : Nat) (s : State) : State :=
  if rd RED_CX_STATUS.mode 0 s ≠ 0 then s
  else
    let l := getL LCX.replay 0 s ++ [x, v]
    if 2048 ≤ l.length then checkpointTake s else setL LCX.replay 0 l s

/-- An edge stands on a source line: a source whose line is high and has not been taken as an edge (R380). -/
def edgeStands (n : Nat) (s : State) : Bool := line n s && !(getL LINT.seen 0 s).contains n

/-- The core acknowledges what is presented to it (R385, R388). -/
def coreAck (c : Nat) (s : State) : State :=
  if !rdB INTC_CORE.presented c s then s
  else
    let n := rd INTC_CORE.pres_id c s
    let g := n / 16
    let woke := running HINT.wake_stamp 0 s && rd HINT.wake_src 0 s = n + 1
    let stamp := if running HINT.pend_stamp n s then rd HINT.pend_stamp n s - 1
      else if woke then rd HINT.wake_stamp 0 s - 1 else now s
    let s := wr HINT.entry_stamp c stamp s |> wr HINT.pend_stamp n 0
    let s := if woke then wr HINT.wake_stamp 0 0 (wr HINT.wake_src 0 0 s) else s
    let s := replayNote (2 ^ 32 + n) stamp s |> wr INTC_CORE.presented c 0 |> wr INTC_CORE.pres_id c 0
      |> clrFBit INTC_CPEND.cpend g (n % 16) |> clrFBit HINT.rel g (n % 16)
      |> setL LINT.stack c (getL LINT.stack c s ++ [n + 1024 * prio n s]) |> noteCore c
      |> inc cnt_INTC_core_deliveries 0
    let s := if line n s then holdoff g (setCpend n (inc cnt_INTC_repend 0 s)) else s
    route s

/-- A core ends the handler of source `n` (R385). -/
def coreEnd (c n : Nat) (s : State) : State :=
  let st := getL LINT.stack c s
  match st.reverse.findIdx? (fun e => e % 1024 = n) with
  | none => s
  | some k => route (noteCore c (setL LINT.stack c (st.reverse.eraseIdx k).reverse s))

/-- A core writes its priority mask (R384, R386). -/
def corePmr (c v : Nat) (s : State) : State :=
  route (withdraw c (noteCore c (wr INTC_CORE.pmr c (min v 16) s)))

/-- After a warm restart each core starts with pmr 16 and an empty stack; pending bits are kept (R387). -/
def coresRestart (s : State) : State :=
  forEach [0, 1, 2, 3] (fun c t =>
    noteCore c (setL LINT.stack c [] (wr INTC_CORE.presented c 0 (wr INTC_CORE.pres_id c 0 (wr INTC_CORE.pmr c 16 t))))) s

/-- Every presentation is withdrawn (R386, R387, R393). -/
def withdrawAll (s : State) : State :=
  forEach [0, 1, 2, 3] (fun c t => wr INTC_CORE.presented c 0 (wr INTC_CORE.pres_id c 0 t)) s

/-- INT_N is driven low while a source is enabled, has its INT_N bit set, is host-pending, and has been delivered (R391). -/
def intLow (s : State) : Bool :=
  (touched HINT.deliv s).any (fun g => (List.range 16).any (fun k =>
    rdBit HINT.deliv g k s && hpend (16 * g + k) s && rdB INTC_SRC.enable (16 * g + k) s && rdB INTC_SRC.int_n (16 * g + k) s))

end Sys2Proof.Machine
end

