-- ==== Sys2Proof/Machine/Cls.lean ====
section
/-!
DEFINITION. Parsing and classification in one engine (R114 to R137): the field vector, the parse graph, hashes, range
comparators, keys, rules and the resolution of a rule's operations; and the rule commands of R138 to R141.
-/

namespace Sys2Proof.Machine

/-! ### The field vector and the parse (R114 to R121) -/

/-- Width of a container in bytes (R114). -/
def contBytes (c : Nat) : Nat := if c < 16 then 1 else if c < 32 then 2 else 4

/-- `n` bytes at position `i`, most significant first; bytes beyond the list read 0. -/
def beAt (bs : List Nat) (i n : Nat) : Nat := beNat ((List.range n).map (fun k => bs.getD (i + k) 0))

/-- What a parse has made so far: containers, their valid bits, header records (kind, position, length), write-backs (container,
position, width code), parse flags, the state last visited, the profile chosen, the next-header value of the last
IPv6 header, and how many of the frame's bytes it has read. -/
structure Prs where
  conts : List Nat
  valid : Nat
  recs : List (Nat × Nat × Nat)
  wb : List Nat
  flags : Nat
  last : Nat
  profile : Nat
  prevNh : Nat
  reach : Nat
deriving DecidableEq, Repr

/-- Set parse flag `b` when a condition holds. -/
def Prs.flag (b : Nat) (c : Bool) (p : Prs) : Prs := if c then { p with flags := setBit p.flags b } else p

/-- One's-complement sum of 16-bit words, folded to 16 bits. -/
def ocFold (x : Nat) : Nat :=
  let y := x % 65536 + x / 65536
  y % 65536 + y / 65536

/-- The sum of the 16-bit words of `n` bytes at `i`. -/
def ocSum (bs : List Nat) (i n : Nat) : Nat := ocFold (((List.range (n / 2)).map (fun k => beAt bs (i + 2 * k) 2)).sum)

/-- The checks on header kinds 4, 5 and 6 (R117). -/
def checkKind (bs : List Nat) (kind pos : Nat) (p : Prs) : Prs :=
  if kind = 4 then
    let ihl := beAt bs pos 1 % 16
    let frag := beAt bs (pos + 6) 2
    let p := p.flag 3 (ocSum bs pos (ihl * 4) ≠ 65535) |>.flag 4 (5 < ihl)
    let p := p.flag 5 (bitOf frag 13 || frag % 8192 ≠ 0) |>.flag 6 (frag % 8192 ≠ 0) |>.flag 8 (beAt bs (pos + 8) 1 = 0)
    { p with prevNh := 256 }
  else if kind = 5 then
    let nh := beAt bs (pos + 6) 1
    let p := p.flag 8 (beAt bs (pos + 7) 1 = 0) |>.flag 7 ([0, 43, 44, 60, 51, 50].contains nh)
    { p with prevNh := nh }
  else if kind = 6 then
    let p := p.flag 5 (p.prevNh = 44) |>.flag 6 (p.prevNh = 44 && beAt bs (pos + 2) 2 / 8 ≠ 0)
    { p with prevNh := beAt bs pos 1 }
  else p

/-- The parse reads the frame up to byte `n`. -/
def Prs.read (n : Nat) (p : Prs) : Prs := { p with reach := max p.reach n }

/-- One extract (R116). DESIGN CHOICE (log entry 174): an entry number of 1,024 or more names none, and nothing is extracted. -/
def doExtract (sl e pos : Nat) (bs : List Nat) (s : State) (p : Prs) : Prs :=
  if 1024 ≤ e then p
  else
    let i := sl * 1024 + e
    let c := rd SLC_PRS_EXTRACT.container i s
    let w := rd SLC_PRS_EXTRACT.width i s
    let at_ := pos + rd SLC_PRS_EXTRACT.offset i s
    let v := beAt bs at_ ([1, 2, 4].getD w 1) % 2 ^ (8 * contBytes c)
    { p.read (at_ + [1, 2, 4].getD w 1) with
      conts := p.conts.set c v, valid := setBit p.valid c,
      wb := p.wb.filter (fun b => b / 2 ^ 20 ≠ c) ++ (if rdB SLC_PRS_EXTRACT.writeback i s then [c * 2 ^ 20 + at_ * 4 + w] else []) }

/-- The lowest-index valid transition of a state that matches the lookahead (R116). -/
def findTrans (sl st v : Nat) (s : State) : Option Nat :=
  ((touched SLC_PRS_TRANS_W0.valid s).filter (fun i => i / 1024 = sl)).find? (fun i =>
    rdB SLC_PRS_TRANS_W0.valid i s && rd SLC_PRS_TRANS_W0.state i s = st &&
      v &&& rd SLC_PRS_TRANS_W2.mask i s = rd SLC_PRS_TRANS_W1.value i s &&& rd SLC_PRS_TRANS_W2.mask i s)

/-- Bytes of a header the checks of R117 read. -/
def kindBytes (bs : List Nat) (kind pos : Nat) : Nat := if kind = 4 then max 20 (beAt bs pos 1 % 16 * 4) else if kind = 5 then 8 else if kind = 6 then 4 else 0

/-- The parse of R116 from a state and position, with `n` transitions still allowed. `lim` is the frame's length without
its FCS where it is known. -/
def parseFrom (sl : Nat) (bs : List Nat) (lim : Option Nat) (s : State) : Nat → Nat → Nat → Prs → Prs
  | 0, _, _, p => p
  | n + 1, st, pos, p =>
    let i := sl * 256 + st
    let p := { p.read (if rdB SLC_PRS_STATE_W0.len_mode i s then pos + rd SLC_PRS_STATE_W0.len_offset i s + 1 else 0) with last := st }
    let len := if rdB SLC_PRS_STATE_W0.len_mode i s then
        (beAt bs (pos + rd SLC_PRS_STATE_W0.len_offset i s) 1 &&& rd SLC_PRS_STATE_W0.len_mask i s)
          * 2 ^ rd SLC_PRS_STATE_W0.len_shift i s + rd SLC_PRS_STATE_W0.len_add i s
      else rd SLC_PRS_STATE_W0.len_add i s
    let fail := fun (b : Nat) (q : Prs) => { (q.flag b true) with profile := rd SLC_PRS_STATE_W1.default_profile i s }
    if rd SLC_PRS_CTRL.window sl s * 64 < pos + len then fail 0 p
    else if lim.any (fun l => l < pos + len) then fail 9 p
    else
      let kind := rd SLC_PRS_STATE_W0.hdr_kind i s
      let p := (List.range (rd SLC_PRS_STATE_W1.ext_count i s)).foldl
        (fun q k => doExtract sl (rd SLC_PRS_STATE_W1.ext_base i s + k) pos bs s q) p
      let p := if rdB SLC_PRS_STATE_W1.record i s && p.recs.length < 16 then { p with recs := p.recs ++ [(kind, pos, len)] } else p
      let p := (checkKind bs kind pos p).read (max (pos + rd SLC_PRS_STATE_W1.sel_offset i s + 4) (pos + kindBytes bs kind pos))
      match findTrans sl st (beAt bs (pos + rd SLC_PRS_STATE_W1.sel_offset i s) 4) s with
      | none => fail 2 p
      | some t =>
        if rd SLC_PRS_TRANS_W3.next_state t s = 255 then { p with profile := rd SLC_PRS_TRANS_W3.profile t s }
        else if n = 0 then fail 1 p
        else parseFrom sl bs lim s n (rd SLC_PRS_TRANS_W3.next_state t s) (pos + len) p

/-- Position of the first record whose kind is in a list; 511 = none (R118). -/
def firstRec (ks : List Nat) (p : Prs) : Nat :=
  match p.recs.find? (fun r => ks.contains r.1) with
  | some r => r.2.1
  | none => 511

/-- The whole parse of a frame (R116 to R121). -/
def parse (sl start : Nat) (tclass3 : Bool) (bs : List Nat) (lim : Option Nat) (s : State) : Prs :=
  let bs := match lim with
    | some l => bs.take l
    | none => bs
  let p := parseFrom sl bs lim s (rd SLC_PRS_CTRL.max_trans sl s) start 0 ⟨List.replicate 48 0, 0, [], [], 0, 0, 0, 256, 0⟩
  p.flag 10 tclass3 |>.flag 11 (2 ≤ (p.recs.filter (fun r => r.1 = 2)).length) |>.flag 12 (p.recs.any (fun r => r.1 = 3))
    |>.flag 13 (firstRec [4, 5] p = 511) |>.flag 14 (firstRec [7, 8, 9] p = 511)

/-! ### Hashes (R122, R123) -/

/-- Bytes of a run of containers, each most significant byte first at its own width. -/
def runBytes (conts : List Nat) (a n : Nat) : List Nat :=
  (List.range n).flatMap (fun k => beBytes (contBytes (a + k)) (conts.getD (a + k) 0))

/-- A symmetric pair: the runs, or none where it is not valid (R123). -/
def hashPairs (h : Nat) (s : State) : List (Nat × Nat × Nat) :=
  (if rdB SLC_HASH_PAIR.v0 h s then [(rd SLC_HASH_PAIR.a0 h s, rd SLC_HASH_PAIR.b0 h s, rd SLC_HASH_PAIR.n0 h s)] else [])
    ++ (if rdB SLC_HASH_PAIR.v1 h s then [(rd SLC_HASH_PAIR.a1 h s, rd SLC_HASH_PAIR.b1 h s, rd SLC_HASH_PAIR.n1 h s)] else [])

/-- Containers hash `h` of the flat register index selects. -/
def hashSel (h : Nat) (s : State) : Nat := rd SLC_HASH_SEL_LO.sel h s + 2 ^ 32 * rd SLC_HASH_SEL_HI.sel h s

/-- What the place of container `c` feeds: its bytes, a whole pair at the pair's lower start, or nothing (R123). -/
def feedAt (conts : List Nat) (ps : List (Nat × Nat × Nat)) (c : Nat) : List Nat :=
  match ps.find? (fun p => (p.1 ≤ c && c < p.1 + p.2.2) || (p.2.1 ≤ c && c < p.2.1 + p.2.2)) with
  | none => beBytes (contBytes c) (conts.getD c 0)
  | some p =>
    if c = min p.1 p.2.1 then
      let x := runBytes conts p.1 p.2.2
      let y := runBytes conts p.2.1 p.2.2
      if beNat y < beNat x then y ++ x else x ++ y
    else []

/-- Hash `k` (0 to 2) of slice `sl` over a field vector (R122). -/
def hashOf (sl k : Nat) (conts : List Nat) (s : State) : Nat :=
  let h := sl * 3 + k
  let ps := hashPairs h s
  let bs := ((List.range 48).filter (fun c => (hashSel h s).testBit c)).flatMap (feedAt conts ps)
  crcMsb (crcPoly k) (rd SLC_HASH_SEED.seed h s) bs

/-! ### Ranges and keys (R124, R125) -/

/-- Comparator `c` of slice `sl` (R124). -/
def rangeBit (sl c : Nat) (p : Prs) (s : State) : Bool :=
  let i := sl * 8192 + c
  let k := rd SLC_RANGE_W1.container i s
  let v := p.conts.getD k 0
  let x := if rdB SLC_RANGE_W1.half i s then v / 65536 % 65536 else v % 65536
  rdB SLC_RANGE_W1.enable i s && p.valid.testBit k && rd SLC_RANGE_W0.lo i s ≤ x && x ≤ rd SLC_RANGE_W0.hi i s

/-- Bits 32h + 31 : 32h of range group `g`. -/
def rangeWord (sl g h : Nat) (p : Prs) (s : State) : Nat :=
  ((List.range 32).map (fun b => if rangeBit sl (64 * g + 32 * h + b) p s then 2 ^ b else 0)).sum

/-- What the key and the metadata take from the frame itself. -/
structure FrmMeta where
  port : Nat
  tagged : Bool
  tclass : Nat
  early : Bool
  len : Nat
deriving DecidableEq, Repr

/-- Metadata word `w` (R115). -/
def metaWord (w : Nat) (m : FrmMeta) (p : Prs) : Nat :=
  match w with
  | 0 => p.valid % 2 ^ 32
  | 1 => p.valid / 2 ^ 32 + m.port * 2 ^ 16 + b2n m.tagged * 2 ^ 26 + m.tclass * 2 ^ 27 + b2n m.early * 2 ^ 29
  | 2 => m.len % 2 ^ 15 + p.flags * 2 ^ 15
  | _ => p.last + firstRec [4, 5] p * 2 ^ 8 + firstRec [7, 8, 9] p * 2 ^ 17 + p.recs.length * 2 ^ 26

/-- Value of a key slot from its source code (R125). -/
def slotValue (sl code : Nat) (m : FrmMeta) (p : Prs) (s : State) : Nat :=
  let prof := sl * 16 + p.profile
  if 1 ≤ code && code ≤ 0x30 then p.conts.getD (code - 1) 0
  else if 0x40 ≤ code && code ≤ 0x42 then hashOf sl (code - 0x40) p.conts s
  else if code = 0x50 || code = 0x51 then rangeWord sl (rd SLC_KEY_PROFILE_GRP.grp_a prof s) (code - 0x50) p s
  else if code = 0x52 || code = 0x53 then rangeWord sl (rd SLC_KEY_PROFILE_GRP.grp_b prof s) (code - 0x52) p s
  else if 0x60 ≤ code && code ≤ 0x63 then metaWord (code - 0x60) m p
  else 0

/-- The 20 slots of the classification key (R125). -/
def keyOf (sl : Nat) (m : FrmMeta) (p : Prs) (s : State) : List Nat :=
  let prof := sl * 16 + p.profile
  (p.profile + m.port * 2 ^ 4 + m.tclass * 2 ^ 14 + b2n m.tagged * 2 ^ 16 + p.flags % 2 ^ 15 * 2 ^ 17) ::
    (List.range 19).map (fun k =>
      slotValue sl (bitsOf (rd SLC_KEY_PROFILE_SLOTS.slots (prof * 5 + k / 4) s) (8 * (k % 4)) 8) m p s)

/-! ### Rules (R126) -/

/-- Does a rule's stored words match a key? -/
def ruleHit (key ws : List Nat) : Bool :=
  ws.headD 0 = 1 && (List.range 20).all (fun k =>
    key.getD k 0 &&& ws.getD (21 + k) 0 = ws.getD (1 + k) 0 &&& ws.getD (21 + k) 0)

/-- The lowest-index valid rule of a slice that matches (R126), rules with bad parity found left out (R139). -/
def ruleFind (sl : Nat) (key : List Nat) (s : State) : Option Nat :=
  ((mkind s.lists LRULE.rule.id).find? (fun e => e.1 / 65536 = sl && !rdB HRULE.inval e.1 s && ruleHit key e.2)).map (·.1)

/-- The eight operations of sixteen action words. -/
def opsOf (ws : List Nat) : List Nat := (List.range 8).map (fun k => ws.getD (2 * k) 0 + 2 ^ 32 * ws.getD (2 * k + 1) 0)

/-- The action words of a stored rule. -/
def ruleActs (ws : List Nat) : List Nat := ws.drop 41

/-- The default action words of a profile. -/
def defActs (sl prof : Nat) (s : State) : List Nat := (List.range 16).map (fun k => rd SLC_DEF_ACT.word ((sl * 16 + prof) * 16 + k) s)

/-! ### Operations (R130, R131) -/

def opCode (o : Nat) : Nat := o / 2 ^ 60

/-- Bytes a template pushes (R130, R135). -/
def templateBytes (sl t : Nat) (s : State) : Nat :=
  if rd SLC_TEMPLATE_W0.kind (sl * 256 + t) s = 2 then 0 else rd SLC_TEMPLATE_W0.length (sl * 256 + t) s

/-- Is an operation refused in a rule write (R130)? -/
def opBad (o : Nat) : Bool :=
  match opCode o with
  | 0 | 2 | 5 | 6 | 7 | 8 | 9 | 11 => false
  | 1 => 48 ≤ bitsOf o 36 6
  | 3 => 10 ≤ bitsOf o 0 4
  | 4 => bitsOf o 0 4 < 3 || 5 < bitsOf o 0 4
  | 10 => bitsOf o 0 2 = 3 || (bitsOf o 0 2 = 2 && !destInRange (bitsOf o 2 20))
  | _ => true

/-- Bytes the PUSH operations of a list add. -/
def pushTotal (sl : Nat) (ops : List Nat) (s : State) : Nat :=
  ((ops.filter (fun o => opCode o = 2)).map (fun o => templateBytes sl (bitsOf o 0 8) s)).sum

/-- Are action words refused (R130)? -/
def actsBad (sl : Nat) (ws : List Nat) (s : State) : Bool :=
  (opsOf ws).any opBad || 128 < pushTotal sl (opsOf ws) s

/-- A 32-bit value with bytes replaced under byte enables. -/
def mergeBytes (old new en : Nat) : Nat :=
  ((List.range 4).map (fun b => (if en.testBit b then bitsOf new (8 * b) 8 else bitsOf old (8 * b) 8) * 2 ^ (8 * b))).sum

/-- The resolution of a rule's operations (R131); the last SET_STREAM, SET_SUB, SET_POLICER, REDIRECT and TEL_MARK are kept
as the operation plus one, 0 where there is none. -/
structure Acts where
  conts : List Nat
  pops : List Nat
  decs : List Nat
  pushes : List Nat
  stream : Nat
  sub : Nat
  policer : Nat
  redirect : Nat
  tel : Nat
  mirrors : List Nat
  drop : Bool
  ignored : Nat
deriving DecidableEq, Repr

/-- One operation, in slot order (R131). DESIGN CHOICE (log entry 174): a MIRROR of a session already taken makes no further copy and is
not counted as ignored. -/
def actOp (a : Acts) (o : Nat) : Acts :=
  match opCode o with
  | 1 =>
    let c := bitsOf o 36 6
    { a with conts := a.conts.set c (mergeBytes (a.conts.getD c 0) (bitsOf o 0 32) (bitsOf o 32 4) % 2 ^ (8 * contBytes c)) }
  | 2 => { a with pushes := a.pushes ++ [bitsOf o 0 8] }
  | 3 => { a with pops := a.pops ++ [bitsOf o 0 8] }
  | 4 => { a with decs := a.decs ++ [bitsOf o 0 8] }
  | 5 => { a with stream := bitsOf o 0 16 + 1 }
  | 6 => { a with sub := bitsOf o 0 20 + 1 }
  | 7 => { a with policer := bitsOf o 0 16 + 1 }
  | 8 =>
    let m := bitsOf o 0 4
    if a.mirrors.contains m then a
    else if 2 ≤ a.mirrors.length then { a with ignored := a.ignored + 1 }
    else { a with mirrors := a.mirrors ++ [m] }
  | 9 => { a with tel := bitsOf o 0 4 + 1 }
  | 10 => { a with redirect := bitsOf o 0 40 + 1 }
  | 11 => { a with drop := true }
  | _ => a

/-- Resolve the operations of an action entry over the parsed containers (R131). -/
def resolveActs (conts ws : List Nat) : Acts :=
  (opsOf ws).foldl actOp ⟨conts, [], [], [], 0, 0, 0, 0, 0, [], false, 0⟩

/-! ### Templates (R135) -/

/-- A push with its template's content: kind, fix-ups, ip_off, udp_off, length and bytes packed in one number, so that a
frame keeps the program it was classified under (R137). -/
def pushCode (sl t : Nat) (conts : List Nat) (valid : Nat) (s : State) : Nat :=
  let i := sl * 256 + t
  let len := rd SLC_TEMPLATE_W0.length i s
  let raw := (List.range len).map (fun k => bitsOf (rd SLC_TEMPLATE_DATA.data (i * 16 + k / 4) s) (8 * (k % 4)) 8)
  let sub := fun (bs : List Nat) (k : Nat) =>
    let j := i * 4 + k
    let c := rd SLC_TEMPLATE_SUB.container j s
    let off := rd SLC_TEMPLATE_SUB.offset j s
    let w := [1, 2, 4].getD (rd SLC_TEMPLATE_SUB.width j s) 4
    let v := if valid.testBit c then conts.getD c 0 else 0
    (List.range w).foldl (fun b k => b.set (off + k) ((beBytes w v).getD k 0)) bs
  let bs := (List.range (rd SLC_TEMPLATE_W0.sub_count i s)).foldl sub raw
  rd SLC_TEMPLATE_W0.kind i s + rd SLC_TEMPLATE_W0.fixups i s * 2 ^ 2 + rd SLC_TEMPLATE_W0.ip_off i s * 2 ^ 6
    + rd SLC_TEMPLATE_W0.udp_off i s * 2 ^ 14 + len * 2 ^ 22 + leNat bs * 2 ^ 29

/-- A mirror session's content packed in one number: its number, port, node, queue and cut length (R133). -/
def mirrorCode (sl m : Nat) (s : State) : Nat :=
  let i := sl * 16 + m
  m + rd SLC_MIRROR_W0.port i s * 2 ^ 4 + rd SLC_MIRROR_W0.node i s * 2 ^ 14 + rd SLC_MIRROR_W0.queue i s * 2 ^ 29
    + rd SLC_MIRROR_W1.truncate i s * 64 * 2 ^ 32

/-! ### Stream keys (R127) -/

/-- The containers a stream key profile lists, up to the first 63. -/
def sidList (sl j : Nat) (s : State) : List Nat :=
  ((List.range 12).map (fun i => bitsOf (rd SLC_SID_KEY.containers ((sl * 3 + (j - 1)) * 3 + i / 5) s) (6 * (i % 5)) 6)).takeWhile (· < 48)

/-- The stream key of type `j`: its length in bits and its value; none where the method misses. -/
def sidKey (sl j : Nat) (p : Prs) (s : State) : Option (Nat × Nat) :=
  let cs := sidList sl j s
  if cs = [] || !cs.all (fun c => p.valid.testBit c) then none
  else
    let bs := cs.flatMap (fun c => beBytes (contBytes c) (p.conts.getD c 0))
    some (8 * bs.length, beNat bs)

/-! ### Rule commands (R138 to R141) -/

/-- The stored words of a rule; all 0 where none has been written. -/
def ruleWords (i : Nat) (s : State) : List Nat :=
  match getL LRULE.rule i s with
  | [] => List.replicate 57 0
  | ws => ws

/-- Set a rule whole. -/
def ruleSet (i : Nat) (ws : List Nat) (s : State) : State := setL LRULE.rule i ws s |> wr HRULE.bad i 0 |> wr HRULE.inval i 0

/-- The value, mask and action registers of a slice as rule words (valid). -/
def ruleRegs (sl : Nat) (s : State) : List Nat :=
  1 :: ((List.range 20).map (fun k => rd SLC_RULE_KEY.word (sl * 20 + k) s) ++ (List.range 20).map (fun k => rd SLC_RULE_MASK.word (sl * 20 + k) s)
    ++ (List.range 16).map (fun k => rd SLC_RULE_ACT.word (sl * 16 + k) s))

/-- Start of a rule command: busy, and the result it will publish (R138). -/
def ruleStart (sl res : Nat) (s : State) : State := wr SLC_RULE_STATUS.busy sl 1 s |> wr HRULE.res sl res
  |> wr HRULE.val sl (rd SLC_RULE_STATUS.valid sl s)

/-- WRITE (R138, R130). -/
def ruleWrite (sl i : Nat) (s : State) : State :=
  let ws := ruleRegs sl s
  if actsBad sl (ruleActs ws) s then ruleStart sl 2 s else ruleStart sl 0 (ruleSet (sl * 65536 + i) ws s)

/-- READ (R140): the registers take the rule. -/
def ruleRead (sl i : Nat) (s : State) : State :=
  let k := sl * 65536 + i
  let ws := ruleWords k s
  let s := forEach (List.range 20) (fun n t => wr SLC_RULE_KEY.word (sl * 20 + n) (ws.getD (1 + n) 0)
    (wr SLC_RULE_MASK.word (sl * 20 + n) (ws.getD (21 + n) 0) t)) s
  let s := forEach (List.range 16) (fun n t => wr SLC_RULE_ACT.word (sl * 16 + n) (ws.getD (41 + n) 0) t) s
  wr HRULE.val sl (ws.headD 0) (ruleStart sl (if rdB HRULE.bad k s then 3 else 0) s)

/-- INVALIDATE (R138): the valid bit clears. -/
def ruleInvalidate (sl i : Nat) (s : State) : State :=
  let k := sl * 65536 + i
  let s := match getL LRULE.rule k s with
    | [] => s
    | _ :: l => setL LRULE.rule k (0 :: l) s
  ruleStart sl 0 s

/-- MOVE to SLC_RULE_DEST (R138): destination written and source invalidated in one cycle, the hit count with it.
DESIGN CHOICE (log entry 174): so is a rule that is not valid, with the result OK. -/
def ruleMove (sl i : Nat) (s : State) : State :=
  let k := sl * 65536 + i
  let d := sl * 65536 + rd SLC_RULE_DEST.dest sl s
  let valid := (ruleWords d s).headD 0 = 1 && !rdB HRULE.inval d s
  if d = k || valid then ruleStart sl 1 s
  else
    let ws := ruleWords k s
    let bad := rd HRULE.bad k s
    let inv := rd HRULE.inval k s
    let hits := cnt cnt_SLC_rule_hits k s
    let s := ruleSet d ws s |> wr HRULE.bad d bad |> wr HRULE.inval d inv
      |> setL LRULE.rule k (0 :: ws.tail)
    ruleStart sl 0 (clrCnt cnt_SLC_rule_hits k (incBy cnt_SLC_rule_hits d hits (clrCnt cnt_SLC_rule_hits d s)))

/-- CLEAR_HITS (R141). -/
def ruleClearHits (sl i : Nat) (s : State) : State := ruleStart sl 0 (clrCnt cnt_SLC_rule_hits (sl * 65536 + i) s)

/-- Issue a rule command; one written while busy, or another op, is an access error, counted by the caller. -/
def ruleIssue (sl op i : Nat) (s : State) : State :=
  match op with
  | 1 => ruleWrite sl i s
  | 2 => ruleRead sl i s
  | 3 => ruleInvalidate sl i s
  | 4 => ruleMove sl i s
  | _ => ruleClearHits sl i s

/-- A rule command ends (R138). -/
def ruleDone (sl : Nat) (s : State) : State :=
  if !rdB SLC_RULE_STATUS.busy sl s then s
  else wr SLC_RULE_STATUS.busy sl 0 s |> wr SLC_RULE_STATUS.result sl (rd HRULE.res sl s)
    |> wr SLC_RULE_STATUS.valid sl (rd HRULE.val sl s)

/-- The scrub finds bad rules of a slice (R139). -/
def ruleScrub (sl : Nat) (s : State) : State :=
  if !rdB SLC_CLS_CTRL.rule_scrub sl s then s
  else
    let bad := (touched HRULE.bad s).filter (fun i => i / 65536 = sl && rdB HRULE.bad i s && !rdB HRULE.inval i s)
    forEach bad (fun i t => wr HRULE.inval i 1 t |> wr SLC_RULE_PARITY_LOG.index sl (i % 65536)
      |> addF SLC_RULE_PARITY_LOG.count sl 1 |> wr SLC_CLS_EVT.ev_rule_parity sl 1 |> raise 0x1006 [sl, i % 65536]) s

end Sys2Proof.Machine
end

