-- ==== Sys2Proof/Machine/Rw.lean ====
section
/-!
DEFINITION. The egress rewrite (R134, R135, R159) on the bytes of a frame, and recognition of PTP frames (R290).
-/

namespace Sys2Proof.Machine

/-- A header record: kind, position, length. -/
abbrev HRec := Nat × Nat × Nat

/-- A record packed in one number for a frame's list, and back. -/
def packRec (r : HRec) : Nat := r.1 * 2 ^ 32 + r.2.1 * 2 ^ 16 + r.2.2
def unpackRec (n : Nat) : HRec := (n / 2 ^ 32, n / 2 ^ 16 % 2 ^ 16, n % 2 ^ 16)

/-- Index of occurrence `occ` of a kind among the records, if it exists. -/
def recIdx (rs : List HRec) (kind occ : Nat) : Option Nat :=
  (((List.range rs.length).filter (fun i => (rs.getD i (0, 0, 0)).1 = kind)))[occ]?

/-- The byte range a POP removes (R134 step 1): from the record's start to the next record's, or to the end of the recorded
headers; none where the record does not exist. -/
def popRange (rs : List HRec) (c : Nat) : Option (Nat × Nat) :=
  match recIdx rs (c % 16) (c / 16) with
  | none => none
  | some i =>
    let r := rs.getD i (0, 0, 0)
    match rs[i + 1]? with
    | some n => some (r.2.1, n.2.1)
    | none => some (r.2.1, r.2.1 + r.2.2)

/-- The ranges a list of POPs removes. -/
def popRanges (rs : List HRec) (pops : List Nat) : List (Nat × Nat) := pops.filterMap (popRange rs)

/-- Has the byte at a position been removed? -/
def goneAt (gone : List (Nat × Nat)) (i : Nat) : Bool := gone.any (fun g => g.1 ≤ i && i < g.2)

/-- Put bytes at a position. -/
def putAt (bs : List Nat) (i : Nat) (new : List Nat) : List Nat :=
  (List.range new.length).foldl (fun b k => b.set (i + k) (new.getD k 0)) bs

/-- SET_FIELD write-back (R134 step 2). -/
def writeBack (conts wb : List Nat) (gone : List (Nat × Nat)) (bs : List Nat) : List Nat :=
  wb.foldl (fun b e =>
    let c := e / 2 ^ 20
    let p := e / 4 % 2 ^ 18
    let w := [1, 2, 4].getD (e % 4) 1
    if goneAt gone p then b else putAt b p (beBytes w (conts.getD c 0 % 2 ^ (8 * w)))) bs

/-- Position of the TTL, hop limit or MPLS TTL of a record. -/
def ttlPos (r : HRec) : Nat := if r.1 = 4 then r.2.1 + 8 else if r.1 = 5 then r.2.1 + 7 else r.2.1 + 3

/-- The IPv4 checksum after one 16-bit word changed, as RFC 1624 gives it. -/
def csumUpdate (hc old new : Nat) : Nat := 65535 - ocFold ((65535 - hc) + (65535 - old) + new)

/-- Decrement the TTL of a record, with the IPv4 checksum (R134 step 3). -/
def decTtl (r : HRec) (bs : List Nat) : List Nat :=
  let p := ttlPos r
  let b := bs.set p (bs.getD p 0 - 1)
  if r.1 = 4 then
    putAt b (r.2.1 + 10) (beBytes 2 (csumUpdate (beAt bs (r.2.1 + 10) 2) (beAt bs (r.2.1 + 8) 2) (beAt b (r.2.1 + 8) 2)))
  else b

/-- The records DEC_TTL operations act on, popped ones left out; `route` adds the first record of kind 4 or 5 (R159). -/
def decRecs (rs : List HRec) (gone : List (Nat × Nat)) (decs : List Nat) (route : Bool) : List HRec :=
  let alive := fun (r : HRec) => !goneAt gone r.2.1
  let own := (decs.filterMap (fun c => (recIdx rs (c % 16) (c / 16)).map (fun i => rs.getD i (0, 0, 0)))).filter alive
  let rt := if route then (rs.filter (fun r => (r.1 = 4 || r.1 = 5) && alive r)).take 1 else []
  own ++ rt

/-- Apply decrements in turn; the first that finds 0 or 1 stops the frame and is returned (R134 step 3). -/
def decAll : List HRec → List Nat → List Nat × Option HRec
  | [], bs => (bs, none)
  | r :: l, bs => if bs.getD (ttlPos r) 0 ≤ 1 then (bs, some r) else decAll l (decTtl r bs)

/-- Apply decrements in turn, leaving a value of 0 or 1 unchanged (R129): the bytes and the records held. -/
def decHold : List HRec → List Nat → List Nat × List HRec
  | [], bs => (bs, [])
  | r :: l, bs =>
    if bs.getD (ttlPos r) 0 ≤ 1 then
      let o := decHold l bs
      (o.1, r :: o.2)
    else decHold l (decTtl r bs)

/-- The bytes that remain after the pops. -/
def dropGone (gone : List (Nat × Nat)) (bs : List Nat) : List Nat :=
  ((List.range bs.length).filter (fun i => !goneAt gone i)).map (fun i => bs.getD i 0)

/-- Length of the Ethernet header with every VLAN tag, up to and not including the EtherType. -/
def vlanEnd (bs : List Nat) : Nat → Nat → Nat
  | 0, p => p
  | n + 1, p => if beAt bs p 2 = 0x8100 || beAt bs p 2 = 0x88A8 then vlanEnd bs n (p + 4) else p

/-- One PUSH by its packed template (R135); `bare`: every MPLS label the frame held has been popped. -/
def pushOne (bare : Bool) (code : Nat) (bs : List Nat) : List Nat :=
  let kind := code % 4
  let fix := bitsOf code 2 4
  let ipo := bitsOf code 6 8
  let udpo := bitsOf code 14 8
  let len := bitsOf code 22 7
  let t := leBytes len (code / 2 ^ 29)
  match kind with
  | 0 => bs.take 12 ++ t ++ bs.drop 12
  | 1 =>
    let p := vlanEnd bs bs.length 12
    let follows := (beAt bs p 2 = 0x8847 || beAt bs p 2 = 0x8848) && !bare
    let t := if bitOf fix 3 && 4 ≤ len then
        let b := t.getD (len - 2) 0
        t.set (len - 2) (b / 2 * 2 + b2n (!follows))
      else t
    bs.take p ++ beBytes 2 0x8847 ++ t ++ bs.drop (p + 2)
  | 2 => bs
  | _ =>
    let all := t ++ bs
    let n := all.length
    let all := if bitOf fix 0 then
        let a := putAt (putAt all (ipo + 2) (beBytes 2 (n - ipo))) (ipo + 10) [0, 0]
        putAt a (ipo + 10) (beBytes 2 (65535 - ocSum a ipo (beAt a ipo 1 % 16 * 4)))
      else all
    let all := if bitOf fix 1 then putAt all (udpo + 4) (beBytes 2 (n - udpo)) else all
    if bitOf fix 2 then putAt all (udpo + 6) [0, 0] else all

/-- The PUSHes in order; a pushed label follows those pushed after it. -/
def pushAll : Bool → List Nat → List Nat → List Nat
  | _, [], bs => bs
  | bare, c :: l, bs => pushAll (bare && c % 4 ≠ 1) l (pushOne bare c bs)

/-- Positions of the labels of a stack from `p` on, through the one with BOS. -/
def labelsFrom (bs : List Nat) : Nat → Nat → List Nat
  | 0, _ => []
  | n + 1, p => if bs.length < p + 4 then [] else if bs.getD (p + 2) 0 % 2 = 1 then [p] else p :: labelsFrom bs n (p + 4)

/-- Has every label of a frame's MPLS stack been popped (R135)? -/
def stackGone (gone : List (Nat × Nat)) (bs : List Nat) : Bool :=
  let p := vlanEnd bs bs.length 12
  (beAt bs p 2 = 0x8847 || beAt bs p 2 = 0x8848) && (labelsFrom bs bs.length (p + 2)).all (goneAt gone)

/-- Fields of a next hop (R154). -/
def nhRoute (nh : Nat) : Bool := bitOf nh 28
def nhDmac (nh : Nat) : Nat := bitsOf nh 32 48
def nhVid (nh : Nat) : Nat := bitsOf nh 80 12
def nhSetVid (nh : Nat) : Bool := bitOf nh 92
def nhPush (nh : Nat) : Bool := bitOf nh 98
def nhTemplate (nh : Nat) : Nat := bitsOf nh 99 8

/-- The MAC addresses and VID a next hop writes (R159). -/
def nhWrites (nh smac : Nat) (bs : List Nat) : List Nat :=
  let bs := if nhRoute nh then putAt (putAt bs 0 (beBytes 6 (nhDmac nh))) 6 (beBytes 6 smac) else bs
  if nhSetVid nh && (beAt bs 12 2 = 0x8100 || beAt bs 12 2 = 0x88A8) then
    putAt bs 14 (beBytes 2 (beAt bs 14 2 / 4096 * 4096 + nhVid nh))
  else bs

/-! ### PTP frames (R290) -/

/-- Position of the PTP message in a frame and how it is carried (0 = none, 1 = EtherType, 2 = UDP over IPv4, 3 = UDP over
IPv6). -/
def ptpFind (bs : List Nat) : Nat × Nat :=
  let p := if beAt bs 12 2 = 0x8100 || beAt bs 12 2 = 0x88A8 then 16 else 12
  let et := beAt bs p 2
  let h := p + 2
  let ports := fun q => beAt bs q 2 = 319 || beAt bs q 2 = 320
  if et = 0x88F7 then (1, h)
  else if et = 0x0800 && beAt bs h 1 = 0x45 && beAt bs (h + 9) 1 = 17 && (beAt bs (h + 16) 4 = 0xE0000181 || beAt bs (h + 16) 4 = 0xE000006B)
      && ports (h + 22) then (2, h + 28)
  else if et = 0x86DD && beAt bs (h + 6) 1 = 17 && beAt bs (h + 24) 1 = 0xFF && beAt bs (h + 25) 1 < 16
      && (beAt bs (h + 26) 14 = 0x181 || (beAt bs (h + 24) 2 = 0xFF02 && beAt bs (h + 26) 14 = 0x6B)) && ports (h + 42) then (3, h + 48)
  else (0, 0)

/-- Is a PTP message an event message (Sync, Delay_Req, Pdelay_Req, Pdelay_Resp)? -/
def ptpEvent (bs : List Nat) (p : Nat) : Bool := beAt bs p 1 % 16 < 4

end Sys2Proof.Machine
end

