-- ==== Sys2Proof/Machine/Tbl.lean ====
section
/-!
DEFINITION. The forwarding tables (R145 to R179): entries, the exact-match pool, LPM, references, table commands, parity,
ageing and learning.
-/

namespace Sys2Proof.Machine

/-! ### Entries (R148 to R156) -/

/-- An entry of a table, 0 where nothing has been written. -/
def tget (t i : Nat) (s : State) : Nat := mgetD s.tbl (t, i) 0

/-- Set an entry of a table. -/
def tset (t i v : Nat) (s : State) : State := { s with tbl := mputD s.tbl (t, i) v 0 }

def slotWidth (e : Nat) : Nat := bitsOf e 0 2
def slotKind (e : Nat) : Nat := bitsOf e 2 3
def slotStatic (e : Nat) : Bool := bitOf e 5
def slotPinned (e : Nat) : Bool := bitOf e 6
def slotHold (e : Nat) : Bool := bitOf e 7
def slotAge (e : Nat) : Nat := bitsOf e 8 16
def slotData (e : Nat) : Nat := bitsOf e 24 40
def slotDestType (e : Nat) : Nat := bitsOf e 24 2
def slotDest (e : Nat) : Nat := bitsOf e 26 20
def slotMoves (e : Nat) : Nat := bitsOf e 46 4
def slotMoveStamp (e : Nat) : Nat := bitsOf e 50 12
def slotStream (e : Nat) : Nat := bitsOf e 24 16

/-- `v` with bits `lo + w - 1 : lo` replaced by `x`. -/
def putBits (v lo w x : Nat) : Nat := v - bitsOf v lo w * 2 ^ lo + (x % 2 ^ w) * 2 ^ lo

/-- The key of the entry at a slot: 64 bits of a single entry, 192 of a double one (R148). -/
def slotKey (i : Nat) (s : State) : Nat :=
  let e := tget 0 i s
  if slotWidth e = 2 then e / 2 ^ 64 + tget 0 (i + 1) s * 2 ^ 64 else e / 2 ^ 64

/-- The partition an entry kind belongs to (R149); 3 for a reserved kind. -/
def kindPart (k : Nat) : Nat := if k = 0 then 0 else if k ≤ 2 then 1 else if k ≤ 5 then 2 else 3

/-- First slot and slots of a partition (R147). -/
def partBase (p : Nat) (s : State) : Nat := rd TBL_PART_CFG.base p s * 65536
def partSlots (p : Nat) (s : State) : Nat := rd TBL_PART_CFG.size p s * 65536
def partBuckets (p : Nat) (s : State) : Nat := rd TBL_PART_CFG.size p s * 8192

/-- Does slot `i` lie in partition `p`? -/
def inPart (p i : Nat) (s : State) : Bool := partBase p s ≤ i && i < partBase p s + partSlots p s

/-- Is slot `i` the second half of a double entry (R148)? -/
def slotSecond (i : Nat) (s : State) : Bool := i % 2 = 1 && slotWidth (tget 0 (i - 1) s) = 2

/-- Is there a valid entry at slot `i` (R150)? -/
def slotValid (i : Nat) (s : State) : Bool :=
  let e := tget 0 i s
  !slotSecond i s && (slotWidth e = 1 || slotWidth e = 2) && slotKind e ≤ 5 && inPart (kindPart (slotKind e)) i s

/-! ### Parity (R152, R169) -/

/-- Key of an entry's parity mark. -/
def badKey (t i : Nat) : Nat := t * 2 ^ 22 + i

/-- Is an entry bad to a lookup? A stream entry is bad only when both its copies are (R152). -/
def entryBad (t i : Nat) (s : State) : Bool :=
  let b := rd HTBL.bad (badKey t i) s
  if t = 0 && inPart 2 i s then b = 3 else b != 0

/-- Is the entry at a slot bad in either of its halves? -/
def slotBad (i : Nat) (s : State) : Bool := entryBad 0 i s || (slotWidth (tget 0 i s) = 2 && entryBad 0 (i + 1) s)

/-- The log, and TABLE_PARITY at most once per 1 ms per table (R169). -/
def reportParity (t i : Nat) (s : State) : State :=
  wr TBL_PARITY_LOG.table 0 t s |> wr TBL_PARITY_LOG.index 0 i |> addF TBL_PARITY_LOG.count 0 1
    |> raiseLimEv TBL_EVT.ev_parity 0 0x3001 t 1000000 [t, i]

/-- Report a bad entry (R169): counted in fwd_parity_miss too. -/
def reportBad (t i : Nat) (s : State) : State := reportParity t i (inc cnt_TBL_fwd_parity_miss 0 s)

/-- An upset: the parity of an entry's copy no longer fits. Bit 25 of the code picks the mirror copy of a stream slot; a code of 2^26 or
more names a prefix of the prefix store, as its key plus one times 2^26. -/
def upset (u : Nat) (s : State) : State :=
  let k := u % 2 ^ 25
  if 2 ^ 26 ≤ u then (if tget 1 (u / 2 ^ 26 - 1) s = 0 then s else pushL LTBL.lpm_bad 0 (u / 2 ^ 26 - 1) s)
  else wr HTBL.bad k (rd HTBL.bad k s ||| (if bitOf u 25 then 2 else 1)) s

/-- Upsets that have happened since the last access. -/
def upsets (us : List Nat) (s : State) : State := forEach us upset s

/-- A lookup reads slot `i`: a stream slot bad in one copy is repaired from the other and reported (R152); a bad entry is
reported and counts as a miss (R169). -/
def readSlot (i : Nat) (s : State) : State :=
  let b := rd HTBL.bad (badKey 0 i) s
  if b = 0 then s
  else if inPart 2 i s && b ≠ 3 then
    reportParity 0 i (inc cnt_TBL_stream_mirror_corr 0 (wr HTBL.bad (badKey 0 i) 0 s))
  else reportBad 0 i s

/-- A lookup reads entry `i` of table `t` other than 0. -/
def readEntry (t i : Nat) (s : State) : State :=
  if entryBad t i s then reportBad t i s else s

/-! ### The exact-match pool (R151) -/

/-- The bytes a key is hashed as (R151). -/
def keyBytes (kind width key : Nat) : List Nat := kind :: beBytes (if width = 2 then 24 else 8) key

/-- The two candidate buckets of a key, as first slots (R151); none where the partition has no unit. -/
def candidates (kind width key : Nat) (s : State) : List Nat :=
  let p := kindPart kind
  let nb := partBuckets p s
  if nb = 0 then []
  else
    let bs := keyBytes kind width key
    let a := crcMsb (crcPoly 1) 0xFFFFFFFF bs % nb
    let b := crcMsb (crcPoly 2) 0xFFFFFFFF bs % nb
    let b := if b = a then (a + 1) % nb else b
    [partBase p s + 8 * a, partBase p s + 8 * b]

/-- The slots of the candidate buckets. -/
def candSlots (kind width key : Nat) (s : State) : List Nat :=
  (candidates kind width key s).flatMap (fun b => (List.range 8).map (b + ·))

/-- Does slot `i` hold the entry of this kind, width and key? -/
def slotMatches (kind width key : Nat) (s : State) (i : Nat) : Bool :=
  slotValid i s && slotKind (tget 0 i s) = kind && slotWidth (tget 0 i s) = width && slotKey i s = key &&
    (width = 1 || i % 2 = 0)

/-- The slot that holds a key, bad entries left out. -/
def emFind (kind width key : Nat) (s : State) : Option Nat :=
  (candSlots kind width key s).find? (fun i => slotMatches kind width key s i && !slotBad i s)

/-- A lookup of a key: every slot of both buckets is read (R151, R169). -/
def emLookup (kind width key : Nat) (s : State) : Option Nat × State :=
  let r := emFind kind width key s
  (r, forEach (candSlots kind width key s) readSlot s)

/-- Is slot `i` empty: no entry of its own, and not the second half of a double entry before it? -/
def slotEmpty (s : State) (i : Nat) : Bool :=
  tget 0 i s = 0 && !slotSecond i s && !entryBad 0 i s

/-- The usable empty slots of a bucket for a width (R151). -/
def usable (width b : Nat) (s : State) : List Nat :=
  ((List.range 8).map (b + ·)).filter (fun i =>
    if width = 2 then i % 2 = 0 && slotEmpty s i && slotEmpty s (i + 1) else slotEmpty s i)

/-- Where INSERT places an entry (R151): the bucket with more usable empty slots, bucket a on a tie, lowest position. -/
def placeFor (kind width key : Nat) (s : State) : Option Nat :=
  match candidates kind width key s with
  | [a, b] =>
    let ua := usable width a s
    let ub := usable width b s
    if ua.length < ub.length then ub.head? else ua.head?
  | _ => none

/-! ### References (R165) -/

/-- Key of a next hop or group in refs and retire, from a destination index. -/
def refKey (d : Nat) : Nat := if bitOf d 19 then 2 ^ 18 + bitsOf d 0 16 else bitsOf d 0 18

/-- State of a next hop (R154) or a group (R155). -/
def nhState (n : Nat) (s : State) : Nat := bitsOf (tget 2 n s) 96 2
def grpState (g : Nat) (s : State) : Nat := bitsOf (tget 3 g s) 34 2

/-- Does a destination index name an active entry? -/
def destActive (d : Nat) (s : State) : Bool :=
  if bitOf d 19 then grpState (bitsOf d 0 16) s = 1 else nhState (bitsOf d 0 18) s = 1

/-- Take or drop one reference. -/
def addRef (k : Nat) (s : State) : State := addF HTBL.refs k 1 s
def dropRef (k : Nat) (s : State) : State := subF HTBL.refs k 1 s

/-- The destination an exact-match entry refers to (R165), if any. -/
def slotRef (e : Nat) : Option Nat :=
  if (slotWidth e = 1 || slotWidth e = 2) && slotKind e ≤ 2 && slotDestType e = 1 then some (refKey (slotDest e)) else none

/-- Empty a slot, and the next where it holds a double entry, and drop its reference. -/
def slotClear (i : Nat) (s : State) : State :=
  let e := tget 0 i s
  let s := match slotRef e with
    | some k => dropRef k s
    | none => s
  let s := if slotWidth e = 2 then wr HTBL.bad (badKey 0 (i + 1)) 0 (tset 0 (i + 1) 0 s) else s
  wr HTBL.bad (badKey 0 i) 0 (tset 0 i 0 s)

/-- Write an entry into empty slots and take its reference. -/
def slotWrite (i e1 e2 : Nat) (s : State) : State :=
  let s := tset 0 i e1 s
  let s := if slotWidth e1 = 2 then wr HTBL.bad (badKey 0 (i + 1)) 0 (tset 0 (i + 1) e2 s) else s
  let s := wr HTBL.bad (badKey 0 i) 0 s
  match slotRef e1 with
  | some k => addRef k s
  | none => s

/-! ### LPM (R153, R160) -/

/-- Key of a prefix: VRF, family (1 = IPv6), length and the address cut to its length. -/
def lpmKey (vrf fam len addr : Nat) : Nat :=
  let w := if fam = 1 then 128 else 32
  let a := addr % 2 ^ w
  ((vrf * 2 + fam) * 256 + len) * 2 ^ 128 + a / 2 ^ (w - len) * 2 ^ (w - len)

def lpmVrf (k : Nat) : Nat := k / 2 ^ 137
def lpmFam (k : Nat) : Nat := k / 2 ^ 136 % 2
def lpmLen (k : Nat) : Nat := k / 2 ^ 128 % 256
def lpmAddr (k : Nat) : Nat := k % 2 ^ 128

/-- Units a prefix takes (R145). -/
def lpmUnits (k : Nat) : Nat := if lpmFam k = 1 then 2 else 1

/-- A stored prefix is kept as its destination plus one, so that an absent key reads 0. -/
def lpmDest (k : Nat) (s : State) : Option Nat := match tget 1 k s with
  | 0 => none
  | d + 1 => some d

/-- The longest stored prefix of an address (R153): its key. -/
def lpmBest (vrf fam addr : Nat) (s : State) : Option Nat :=
  let w := if fam = 1 then 128 else 32
  ((List.range (w + 1)).map (fun j => lpmKey vrf fam (w - j) addr)).find? (fun k => tget 1 k s ≠ 0)

/-! ### Table commands (R160 to R168) -/

/-- The result codes of R177. -/
inductive TRes where
  | ok | notFound | exists_ | bucketFull | badIndex | badOp | badEntry | badRef | inUse | retired | parity | occupied | lpmFull | frozen
deriving DecidableEq, Repr

/-- The number of a result code. -/
def TRes.code : TRes → Nat
  | .ok => 0 | .notFound => 1 | .exists_ => 2 | .bucketFull => 3 | .badIndex => 4 | .badOp => 5 | .badEntry => 6
  | .badRef => 7 | .inUse => 8 | .retired => 9 | .parity => 10 | .occupied => 11 | .lpmFull => 12 | .frozen => 13

/-- Word `n` of a table's data registers. -/
def tdata (t n : Nat) (s : State) : Nat := rd TBL_DATA.data (t * 8 + n) s

/-- The number the first `n` data words spell from word `lo` on. -/
def tdataNat (t lo : Nat) : Nat → State → Nat
  | 0, _ => 0
  | n + 1, s => tdata t lo s + 2 ^ 32 * tdataNat t (lo + 1) n s

/-- Put `n` words of a number into a table's data registers from word `lo` on. -/
def setData (t lo : Nat) : Nat → Nat → State → State
  | 0, _, s => s
  | n + 1, v, s => setData t (lo + 1) n (v / 2 ^ 32) (wr TBL_DATA.data (t * 8 + lo) (v % 2 ^ 32) s)

/-- The outcome of a command: the result, the index it acted on, and the state. -/
abbrev TOut := TRes × Nat × State

/-- Entries in an index range of a table (R145). -/
def tableSize (t : Nat) : Nat := [2097152, 1048576, 262144, 65536, 524288, 4096].getD t 0

/-- Is a stream number tentative, admitted or draining (R168)? -/
def streamBusy (n : Nat) (s : State) : Bool := rd ADM_STREAM_STAT.state n s != 0

/-- Does DATA hold a kind or a width no entry has (R148, R149)? -/
def keyBad (e : Nat) : Bool :=
  let w := slotWidth e
  let k := slotKind e
  w = 3 || 6 ≤ k || (k ≤ 1 && w = 2) || (k = 2 && w = 1)

/-- Checks on an exact-match entry to be written (R146, R148, R149, R165): none when it passes. -/
def emEntryBad (e : Nat) (s : State) : Option TRes :=
  let w := slotWidth e
  let k := slotKind e
  if w = 0 || keyBad e then some .badEntry
  else if k ≤ 2 && slotDestType e = 1 && !destInRange (slotDest e) then some .badEntry
  else if k ≤ 2 && slotDestType e = 1 && !destActive (slotDest e) s then some .badRef
  else none

/-- The entry in TBL_DATA0 to TBL_DATA7 as two slots. -/
def dataE1 (s : State) : Nat := tdataNat 0 0 4 s
def dataE2 (s : State) : Nat := tdataNat 0 4 4 s

/-- The key in TBL_DATA for the width in it. -/
def dataKey (s : State) : Nat :=
  if slotWidth (dataE1 s) = 2 then dataE1 s / 2 ^ 64 + dataE2 s * 2 ^ 64 else dataE1 s / 2 ^ 64

/-- An entry with its reserved data bits 0 (R7, R150). -/
def cleanSlot (e : Nat) : Nat :=
  let lo := if slotKind e = 0 then 62 else if slotKind e ≤ 2 then 46 else 40
  putBits e lo (64 - lo) 0

/-- What WRITE and INSERT store; for an L2 entry age is the current tick, hold and moves 0 (R160). -/
def freshSlot (e : Nat) (s : State) : Nat :=
  let e := cleanSlot e
  if slotKind e = 0 then putBits (putBits (putBits e 8 16 (rd TBL_AGE_NOW.now 0 s)) 7 1 0) 46 4 0 else e

/-- Removing or changing a stream number in use is refused (R168). -/
def streamLocked (i : Nat) (newE : Option Nat) (s : State) : Bool :=
  let e := tget 0 i s
  slotValid i s && 3 ≤ slotKind e && streamBusy (slotStream e) s &&
    match newE with
    | some n => slotKind n ≠ slotKind e || slotStream n ≠ slotStream e
    | none => true

/-- READ (R160). -/
def cmdRead (t i : Nat) (s : State) : TOut :=
  if t = 1 then (.badOp, i, s)
  else if tableSize t ≤ i then (.badIndex, i, s)
  else
    let s' :=
      if t = 0 then setData 0 4 4 (if slotWidth (tget 0 i s) = 2 then tget 0 (i + 1) s else 0) (setData 0 0 4 (tget 0 i s) s)
      else if t = 2 then
        setData 2 0 4 (tget 2 i s) s |> setData 2 4 1 (rd HTBL.refs i s) |> setData 2 5 1 0
      else if t = 3 then
        setData 3 0 2 (tget 3 i s) s |> setData 3 4 1 (rd HTBL.refs (2 ^ 18 + i) s) |> setData 3 5 1 (rd HTBL.holds i s)
      else if t = 4 then setData 4 0 1 (tget 4 i s) s
      else setData 5 0 2 (tget 5 i s) s
    (if (if t = 0 then slotBad i s else entryBad t i s) then .parity else .ok, i, s')

/-- The first slot of what lies at a slot: of the double entry it is the second half of, or the slot itself. -/
def slotOwner (i : Nat) (s : State) : Nat := if slotSecond i s then i - 1 else i

/-- Empty whatever a WRITE at a slot covers (R161). -/
def slotOver (i : Nat) (s : State) : State :=
  let j := slotOwner i s
  if tget 0 j s = 0 then s else slotClear j s

/-- WRITE to the exact-match pool (R161). -/
def emWrite (i : Nat) (s : State) : TOut :=
  let e := dataE1 s
  let w := slotWidth e
  match emEntryBad e s with
  | some r => (r, i, s)
  | none =>
    if tableSize 0 ≤ i then (.badIndex, i, s)
    else if !inPart (kindPart (slotKind e)) i s then (.badEntry, i, s)
    else if (w = 2 && i % 2 = 1) || !(candSlots (slotKind e) w (dataKey s) s).contains i then (.badIndex, i, s)
    else
      let same := slotMatches (slotKind e) w (dataKey s) s i
      let free := fun j => slotEmpty s j || entryBad 0 j s
      let locked := fun j => streamLocked (slotOwner j s) (some e) s
      match (candSlots (slotKind e) w (dataKey s) s).find? (fun j => j ≠ i && slotMatches (slotKind e) w (dataKey s) s j) with
      | some j => (.exists_, j, s)
      | none =>
        if !(same || (free i && (w = 1 || free (i + 1)))) then (.occupied, i, s)
        else if locked i || (w = 2 && locked (i + 1)) then (.inUse, i, s)
        else
          let s := slotOver i s
          let s := if w = 2 then slotOver (i + 1) s else s
          (.ok, i, slotWrite i (freshSlot e s) (dataE2 s) s)

/-- INSERT into the exact-match pool (R151, R160). -/
def emInsert (s : State) : TOut :=
  let e := dataE1 s
  match emEntryBad e s with
  | some r => (r, 0, s)
  | none =>
    match (candSlots (slotKind e) (slotWidth e) (dataKey s) s).find? (slotMatches (slotKind e) (slotWidth e) (dataKey s) s) with
    | some j => (.exists_, j, s)
    | none =>
      match placeFor (slotKind e) (slotWidth e) (dataKey s) s with
      | none => (.bucketFull, 0, s)
      | some i => (.ok, i, slotWrite i (freshSlot e s) (dataE2 s) s)

/-- The slot a key or by_index command acts on: by key from TBL_DATA, or the named slot; a bad second half of a double entry names the
entry (R160, R169). -/
def emTarget (i : Nat) (byIndex : Bool) (s : State) : Option Nat :=
  if byIndex then (if i < tableSize 0 && (slotValid i s || entryBad 0 i s) then some (slotOwner i s) else none)
  else (candSlots (slotKind (dataE1 s)) (slotWidth (dataE1 s)) (dataKey s) s).find?
    (slotMatches (slotKind (dataE1 s)) (slotWidth (dataE1 s)) (dataKey s) s)

/-- DELETE from the exact-match pool (R160, R168). -/
def emDelete (i : Nat) (byIndex : Bool) (s : State) : TOut :=
  if !byIndex && keyBad (dataE1 s) then (.badEntry, i, s)
  else match emTarget i byIndex s with
  | none => (if byIndex && tableSize 0 ≤ i then .badIndex else .notFound, i, s)
  | some j => if streamLocked j none s then (.inUse, j, s) else (.ok, j, slotClear j s)

/-- Bad parity stays with an entry that a command rewrites otherwise than R169 lists as a repair (log entry 147). -/
def badCarry (i d : Nat) (s0 s : State) : State :=
  let s := wr HTBL.bad (badKey 0 d) (rd HTBL.bad (badKey 0 i) s0) s
  if slotWidth (tget 0 i s0) = 2 then wr HTBL.bad (badKey 0 (d + 1)) (rd HTBL.bad (badKey 0 (i + 1)) s0) s else s

/-- UPDATE_DATA of an exact-match entry (R160): data, static and pinned; clearing pinned clears moves. -/
def emUpdate (i : Nat) (byIndex : Bool) (s : State) : TOut :=
  if !byIndex && keyBad (dataE1 s) then (.badEntry, i, s)
  else match emTarget i byIndex s with
  | none => (if byIndex && tableSize 0 ≤ i then .badIndex else .notFound, i, s)
  | some j =>
    let old := tget 0 j s
    let d := dataE1 s
    let e := putBits (putBits (putBits old 24 40 (slotData d)) 5 1 (bitsOf d 5 1)) 6 1 (bitsOf d 6 1)
    let e := cleanSlot (if slotKind old = 0 && slotPinned old && !slotPinned d then putBits e 46 4 0 else e)
    match emEntryBad e s with
    | some r => (r, j, s)
    | none =>
      if streamLocked j (some e) s then (.inUse, j, s)
      else
        let e2 := tget 0 (j + 1) s
        (.ok, j, badCarry j j s (slotWrite j e e2 (slotClear j s)))

/-- SEARCH of the exact-match pool (R160, R169). -/
def emSearch (s : State) : TOut :=
  if keyBad (dataE1 s) then (.badEntry, 0, s)
  else match emTarget 0 false s with
  | none => (.notFound, 0, s)
  | some j =>
    let s' := setData 0 0 4 (tget 0 j s) s
    let s' := setData 0 4 4 (if slotWidth (tget 0 j s) = 2 then tget 0 (j + 1) s else 0) s'
    (if slotBad j s then .parity else .ok, j, s')

/-- MOVE of an exact-match entry to TBL_MOVE_DEST (R161). -/
def emMove (i : Nat) (s : State) : TOut :=
  let d := rd TBL_MOVE_DEST.dest 0 s
  let e := tget 0 i s
  if tableSize 0 ≤ i then (.badIndex, i, s)
  else if !slotValid i s then (.notFound, i, s)
  else if !(candSlots (slotKind e) (slotWidth e) (slotKey i s) s).contains d || (slotWidth e = 2 && d % 2 = 1)
      || !slotEmpty s d || (slotWidth e = 2 && !slotEmpty s (d + 1)) then (.badIndex, i, s)
  else
    let e2 := tget 0 (i + 1) s
    (.ok, d, badCarry i d s (slotWrite d e e2 (slotClear i s)))

/-- The prefix in TBL_DATA0 to TBL_DATA4 (R160); none where its length is out of range. -/
def dataPrefix (s : State) : Option Nat :=
  let len := bitsOf (tdata 1 4 s) 0 8
  let fam := bitsOf (tdata 1 4 s) 8 1
  if (if fam = 1 then 128 else 32) < len then none
  else some (lpmKey (bitsOf (tdata 1 4 s) 9 12) fam len (tdataNat 1 0 4 s))

/-- Make the change a running LPM command holds, at its end (R162): op, key, destination. -/
def lpmApply (s : State) : State :=
  match getL LTBL.lpm 0 s with
  | [op, k, d] =>
    let s := setL LTBL.lpm 0 [] s
    if op = 3 then addRef (refKey d) (addF HTBL.lpm_units 0 (lpmUnits k) (tset 1 k (d + 1) s))
    else if op = 4 then
      match lpmDest k s with
      | some o => dropRef (refKey o) (subF HTBL.lpm_units 0 (lpmUnits k)
          (setL LTBL.lpm_bad 0 ((getL LTBL.lpm_bad 0 s).filter (· ≠ k)) (tset 1 k 0 s)))
      | none => s
    else
      match lpmDest k s with
      | some o => addRef (refKey d) (dropRef (refKey o) (tset 1 k (d + 1) s))
      | none => s
  | _ => s

/-- INSERT, DELETE and UPDATE_DATA of a prefix (R153, R160, R165): checked now, made at the command's end (R162). -/
def lpmChange (op : Nat) (s : State) : TOut :=
  let d := bitsOf (tdata 1 5 s) 0 20
  match dataPrefix s with
  | none => (.badEntry, 0, s)
  | some k =>
    if op ≠ 4 && !destInRange d then (.badEntry, 0, s)
    else if op ≠ 4 && !destActive d s then (.badRef, 0, s)
    else if op = 3 && (lpmDest k s).isSome then (.exists_, 0, s)
    else if op ≠ 3 && (lpmDest k s).isNone then (.notFound, 0, s)
    else if op = 3 && 1048576 < rd HTBL.lpm_units 0 s + lpmUnits k then (.lpmFull, 0, s)
    else (.ok, 0, setL LTBL.lpm 0 [op, k, d] s)

/-- SEARCH of LPM, by prefix or by longest match (R160, R169). -/
def lpmSearch (longest : Bool) (s : State) : TOut :=
  match dataPrefix s with
  | none => (.badEntry, 0, s)
  | some k0 =>
    let hit := if longest then lpmBest (lpmVrf k0) (lpmFam k0) (tdataNat 1 0 4 s) s
      else if (lpmDest k0 s).isSome then some k0 else none
    match hit with
    | none => (.notFound, 0, s)
    | some k =>
      let s' := setData 1 0 4 (lpmAddr k) s
        |> setData 1 4 1 (lpmLen k + lpmFam k * 256 + lpmVrf k * 512) |> setData 1 5 1 ((lpmDest k s).getD 0)
      (if (getL LTBL.lpm_bad 0 s).contains k then .parity else .ok, 0, s')

/-- A group entry's fields (R155). -/
def grpBase (e : Nat) : Nat := bitsOf e 0 19
def grpCount (e : Nat) : Nat := bitsOf e 19 11
def grpRep (e : Nat) : Bool := bitOf e 30
def grpHash (e : Nat) : Nat := bitsOf e 32 2

/-- Is a group entry out of range (R155)? -/
def grpBad (e : Nat) : Bool :=
  grpHash e = 3 || 524288 < grpBase e + grpCount e || grpCount e = 0 || (if grpRep e then 1024 else 256) < grpCount e

/-- The words of an entry of tables 2 to 5 with their reserved bits 0 (R7, R154 to R156). -/
def cleanEntry (t v : Nat) : Nat :=
  match t with
  | 2 => putBits (putBits (v % 2 ^ 107) 29 3 0) 93 3 0
  | 3 => putBits (v % 2 ^ 36) 31 1 0
  | 4 => v % 2 ^ 19
  | _ => putBits (v % 2 ^ 48) 15 17 0

/-- Writes to next hops and groups (R154, R155, R160, R166): `op` is 2 WRITE, 3 INSERT, 5 UPDATE_DATA. -/
def nhWrite (t op i : Nat) (s : State) : TOut :=
  let st := if t = 2 then nhState i s else grpState i s
  let v := cleanEntry t (if t = 2 then tdataNat 2 0 4 s else tdataNat 3 0 2 s)
  if tableSize t ≤ i then (.badIndex, i, s)
  else if st = 2 then (.retired, i, s)
  else if op = 3 && st = 1 then (.exists_, i, s)
  else if op = 5 && st = 0 then (.notFound, i, s)
  else if t = 3 && grpBad v then (.badEntry, i, s)
  else
    let lo := if t = 2 then 96 else 34
    (.ok, i, wr HTBL.bad (badKey t i) 0 (tset t i (putBits v lo 2 (if op = 5 then st else 1)) s))

/-- DELETE of a next hop or group (R166). -/
def nhDelete (t i : Nat) (s : State) : TOut :=
  let st := if t = 2 then nhState i s else grpState i s
  let k := if t = 2 then i else 2 ^ 18 + i
  if tableSize t ≤ i then (.badIndex, i, s)
  else if st = 0 then (.notFound, i, s)
  else if st = 2 then (.retired, i, s)
  else if rd HTBL.refs k s ≠ 0 then (.inUse, i, s)
  else (.ok, i, arm HTBL.retire k 2000 (tset t i (putBits (tget t i s) (if t = 2 then 96 else 34) 2 2) s))

/-- A retiring entry is freed once its 2 us have passed and, for a group, holds is 0 (R166). -/
def retireFree (t i : Nat) (s : State) : State :=
  let k := if t = 2 then i else 2 ^ 18 + i
  if (t = 2 && nhState i s = 2) || (t = 3 && grpState i s = 2 && rd HTBL.holds i s = 0) then
    expire HTBL.retire k (fun u => wr HTBL.bad (badKey t i) 0 (tset t i 0 u)) s
  else s

/-- WRITE of a member or a VLAN (R155, R156, R165). -/
def plainWrite (t i : Nat) (s : State) : TOut :=
  let v := cleanEntry t (if t = 4 then tdataNat 4 0 1 s else tdataNat 5 0 2 s)
  let ref := fun e => if t = 4 then (if bitOf e 18 then some (bitsOf e 0 18) else none)
    else (if bitOf e 0 then some (2 ^ 18 + bitsOf e 32 16) else none)
  let active := fun k => if k < 2 ^ 18 then nhState k s = 1 else grpState (k - 2 ^ 18) s = 1
  if tableSize t ≤ i then (.badIndex, i, s)
  else match ref v with
    | some k =>
      if !active k then (.badRef, i, s)
      else
        let s1 := match ref (tget t i s) with
          | some o => dropRef o s
          | none => s
        (.ok, i, wr HTBL.bad (badKey t i) 0 (addRef k (tset t i v s1)))
    | none =>
      let s1 := match ref (tget t i s) with
        | some o => dropRef o s
        | none => s
      (.ok, i, wr HTBL.bad (badKey t i) 0 (tset t i v s1))

/-- Run operation `op` of TBL_CMD on table `t` (R160). -/
def tblOp (t op i : Nat) (byIndex longest : Bool) (s : State) : TOut :=
  if rdB TBL_CTRL.frozen 0 s && op ≠ 1 && op ≠ 6 then (.frozen, i, s)
  else
    match op, t with
    | 1, _ => cmdRead t i s
    | 2, 0 => emWrite i s
    | 2, 1 => if tableSize 1 ≤ i then (.badIndex, i, s) else (.ok, i, wr HTBL.bad (badKey 1 i) 0 s)
    | 2, 2 => nhWrite 2 2 i s
    | 2, 3 => nhWrite 3 2 i s
    | 2, _ => plainWrite t i s
    | 3, 0 => emInsert s
    | 3, 1 => lpmChange 3 s
    | 3, 2 => nhWrite 2 3 i s
    | 3, 3 => nhWrite 3 3 i s
    | 4, 0 => emDelete i byIndex s
    | 4, 1 => lpmChange 4 s
    | 4, 2 => nhDelete 2 i s
    | 4, 3 => nhDelete 3 i s
    | 5, 0 => emUpdate i byIndex s
    | 5, 1 => lpmChange 5 s
    | 5, 2 => nhWrite 2 5 i s
    | 5, 3 => nhWrite 3 5 i s
    | 6, 0 => emSearch s
    | 6, 1 => lpmSearch longest s
    | 7, 0 => emMove i s
    | _, _ => (.badOp, i, s)

/-- Issue a command (R160): it runs on the whole entry in one cycle (R162), and busy stands until its end. -/
def tblIssue (t op i : Nat) (byIndex longest : Bool) (s : State) : State :=
  let o := tblOp t op i byIndex longest s
  wr TBL_STATUS.busy t 1 o.2.2 |> wr HTBL.res t o.1.code |> wr HTBL.res_idx t o.2.1

/-- An LPM change names a destination that has ceased to be active since its issue: it is refused (R165). -/
def lpmStale (s : State) : Bool :=
  match getL LTBL.lpm 0 s with
  | [op, _, d] => op ≠ 4 && !destActive d s
  | _ => false

/-- A running command finishes (R162): an LPM change switches every lookup, busy clears and the result stands. -/
def tblDone (t : Nat) (s : State) : State :=
  if !rdB TBL_STATUS.busy t s then s
  else
    let s := if t ≠ 1 then s
      else if lpmStale s then wr HTBL.res 1 TRes.badRef.code (setL LTBL.lpm 0 [] s) else lpmApply s
    wr TBL_STATUS.busy t 0 s |> wr TBL_STATUS.result t (rd HTBL.res t s) |> wr TBL_STATUS.index t (rd HTBL.res_idx t s)

/-! ### Ageing (R171 to R173) -/

/-- TBL_AGE_NOW advances, and the next tick falls one period later (R171). -/
def ageTick (s : State) : State :=
  let t := rd HTBL.tick_last 0 s + rd TBL_AGE_CFG.tick_ms 0 s * 1000000
  let s := passTo t s
  addF TBL_AGE_NOW.now 0 1 (wr HTBL.tick_last 0 (if rdB TBC.pll_locked 0 s then t else rd HTBL.tick_last 0 s) s)

/-- After a write of tick_ms: the next tick falls one new period after the last, or at once if that has passed (R171). -/
def tickReschedule (s : State) : State :=
  if rdB TBC.pll_locked 0 s && rd HTBL.tick_last 0 s + rd TBL_AGE_CFG.tick_ms 0 s * 1000000 ≤ now s then
    addF TBL_AGE_NOW.now 0 1 (wr HTBL.tick_last 0 (now s) s)
  else s

/-- Milliseconds of TB0 (R150). -/
def nowMs (s : State) : Nat := now s / 1000000

/-- Time since a move stamp, modulo 4,096 ms. -/
def sinceMove (e : Nat) (s : State) : Nat := (nowMs s % 4096 + 4096 - slotMoveStamp e) % 4096

/-- Age of an entry in ticks, modulo 65,536 (R171). -/
def ageOf (e : Nat) (s : State) : Nat := (rd TBL_AGE_NOW.now 0 s + 65536 - slotAge e) % 65536

/-- A refresh writes age = now when it differs (R171); none runs while frozen (R164). -/
def refresh (i : Nat) (s : State) : State :=
  if rdB TBL_CTRL.frozen 0 s then s else tset 0 i (putBits (tget 0 i s) 8 16 (rd TBL_AGE_NOW.now 0 s)) s

/-- The scan at one slot (R172, R173, R164). -/
def scanSlot (thaw : Bool) (flush : List Nat) (i : Nat) (s : State) : State :=
  let s := readSlot i s
  let e := tget 0 i s
  if !slotValid i s || slotBad i s then s
  else
    let p := kindPart (slotKind e)
    if slotKind e = 0 && !slotStatic e && slotDestType e = 0 && flush.contains (bitsOf (slotDest e) 0 10) then
      inc cnt_TBL_age_flush 0 (slotClear i s)
    else if rdB TBL_PART_CFG.age_en p s && p ≠ 2 && !slotStatic e && rd TBL_AGE_CFG.age_limit 0 s < ageOf e s then
      inc cnt_TBL_age_removed 0 (slotClear i s)
    else if slotKind e ≠ 0 then s
    else
      let e := if thaw || rd TBL_LEARN_CFG.hold_ms 0 s ≤ sinceMove e s then putBits e 7 1 0 else e
      let e := if thaw || rd TBL_LEARN_CFG.flap_window 0 s ≤ sinceMove e s then putBits e 46 4 0 else e
      tset 0 i e s

/-- The scan visits its next bucket (R172). -/
def scanBucket (s : State) : State :=
  if rdB TBL_CTRL.frozen 0 s || !rdB TBL_CTRL.scan_enable 0 s then s
  else
    let b := rd HTBL.scan 0 s
    let fl := getL LTBL.flush 0 s
    let thaw := rdB HTBL.thaw_left 0 s
    let s := forEach ((List.range 8).map (8 * b + ·)) (scanSlot thaw (fl.map (· / 2 ^ 20))) s
    setL LTBL.flush 0 ((fl.map (· - 1)).filter (fun x => x % 2 ^ 20 ≠ 0)) s
      |> subF HTBL.thaw_left 0 1 |> wr HTBL.scan 0 (b + 1)

/-- Start the L2 flush of a port (R173, R205): one whole sweep. -/
def l2Flush (p : Nat) (s : State) : State := pushL LTBL.flush 0 (p * 2 ^ 20 + 262144) s

/-- The scrub reports every bad entry of tables 1 to 5 (R170). -/
def tblScrub (s : State) : State :=
  if !rdB TBL_CTRL.scrub_enable 0 s then s
  else forEach ((touched HTBL.bad s).filter (fun k => 2 ^ 22 ≤ k && rdB HTBL.bad k s)) (fun k t => reportBad (k / 2 ^ 22) (k % 2 ^ 22) t) s

/-! ### Learning (R174, R175) -/

/-- Queue a learn or move request (R174). -/
def learnPush (vid mac port : Nat) (s : State) : State :=
  if 4096 ≤ (getL LTBL.fifo 0 s).length then inc cnt_TBL_learn_fifo_drop 0 s
  else
    let s := pushL LTBL.fifo 0 ((vid * 2 ^ 48 + mac) * 1024 + port) s
    wr TBL_LEARN_STATUS.fifo_depth 0 (getL LTBL.fifo 0 s).length s

/-- The key of an L2 entry (R149). -/
def l2Key (vid mac : Nat) : Nat := vid * 2 ^ 48 + mac % 2 ^ 48

/-- A learned L2 entry (R174). -/
def learnedEntry (vid mac port : Nat) (s : State) : Nat :=
  1 + 2 ^ 7 + rd TBL_AGE_NOW.now 0 s * 2 ^ 8 + port * 2 ^ 26 + (nowMs s % 4096) * 2 ^ 50 + l2Key vid mac * 2 ^ 64

/-- The learning engine handles one request (R174). -/
def learnOne (vid mac port : Nat) (s : State) : State :=
  if rdB TBL_CTRL.frozen 0 s then inc cnt_TBL_learn_frozen 0 s
  else
    match emLookup 0 1 (l2Key vid mac) s with
    | (none, s) =>
      (match placeFor 0 1 (l2Key vid mac) s with
       | none => inc cnt_TBL_learn_full 0 (raiseLimEv TBL_EVT.ev_learn_full 0 0x3003 0 1000000000 [] s)
       | some i => inc cnt_TBL_learn_new 0 (slotWrite i (learnedEntry vid mac port s) 0 s))
    | (some i, s) =>
      let e := tget 0 i s
      let dest := bitsOf (slotDest e) 0 10
      if slotDestType e = 0 && dest = port then inc cnt_TBL_learn_dup 0 s
      else if slotStatic e then inc cnt_TBL_learn_static 0 s
      else if slotPinned e then inc cnt_TBL_learn_pinned 0 s
      else if slotHold e && sinceMove e s < rd TBL_LEARN_CFG.hold_ms 0 s then
        inc cnt_TBL_learn_contention 0 s |> raiseLimEv TBL_EVT.ev_contention 0 0x3004 0 1000000000 ([vid] ++ w64 mac ++ [dest, port])
      else if rd TBL_LEARN_CFG.flap_threshold 0 s ≤ slotMoves e + 1 then
        tset 0 i (putBits e 6 1 1) s |> inc cnt_TBL_learn_pinned 0 |> wr TBL_EVT.ev_flap 0 1
          |> raise 0x3002 ([vid] ++ w64 mac ++ [dest, port])
      else
        let n := putBits (putBits (putBits (putBits (putBits (putBits e 24 2 0) 26 20 port) 46 4 (slotMoves e + 1)) 7 1 1)
          50 12 (nowMs s % 4096)) 8 16 (rd TBL_AGE_NOW.now 0 s)
        inc cnt_TBL_learn_move 0 (slotWrite i n 0 (slotClear i s))

/-- The learning engine takes the next request from its FIFO; it waits while the tables thaw from a freeze (R164). -/
def learnNext (s : State) : State :=
  match getL LTBL.fifo 0 s with
  | [] => s
  | r :: l =>
    if rdB HTBL.thaw_left 0 s then s
    else
      let s := wr TBL_LEARN_STATUS.fifo_depth 0 l.length (setL LTBL.fifo 0 l s)
      learnOne (r / 1024 / 2 ^ 48) (r / 1024 % 2 ^ 48) (r % 1024) s

/-- The source check of R171 for a frame on `port`. -/
def sourceCheck (vid mac port : Nat) (s : State) : State :=
  match emLookup 0 1 (l2Key vid mac) s with
  | (none, s) => if rdB TBL_CTRL.learn_enable 0 s then learnPush vid mac port s else s
  | (some i, s) =>
    let e := tget 0 i s
    if slotDestType e = 0 && bitsOf (slotDest e) 0 10 = port then refresh i s
    else if slotStatic e then inc cnt_TBL_learn_static 0 s
    else if slotPinned e then inc cnt_TBL_learn_pinned 0 s
    else if rdB TBL_CTRL.learn_enable 0 s then learnPush vid mac port s else s

/-- Autonomous hold freezes the tables; its end starts the clearing sweep (R164). -/
def tblFreeze (on : Bool) (s : State) : State :=
  if on then wr TBL_CTRL.frozen 0 1 s else wr HTBL.thaw_left 0 262144 (wr TBL_CTRL.frozen 0 0 s)

end Sys2Proof.Machine
end

