-- ==== Sys2Proof/Machine/Buf.lean ====
section
/-!
DEFINITION. The shared buffer (R180 to R209): cells, frames and descriptors and what they are charged to, admission into the
buffer, replication, error protection, Harvest, and link loss with frames queued.
-/

namespace Sys2Proof.Machine

/-! ### Cells (R181, R186, R192, R201) -/

/-- Cells of the buffer. -/
def cellCount : Nat := 1048576

/-- First free cell from `c` on, cyclically. -/
def cellFind (busy : List Nat) : Nat → Nat → Option Nat
  | 0, _ => none
  | n + 1, c => if busy.contains c then cellFind busy n ((c + 1) % cellCount) else some c

/-- Cells that are not free. -/
def busyCells (s : State) : List Nat := (touched CELL.state s).filter (fun c => rd CELL.state c s ≠ 0)

/-- Take a cell off the free list; the allocator's choice (R184) is the first free cell from `hint` on. -/
def cellTake (hint : Nat) (s : State) : Option Nat × State :=
  let busy := busyCells s
  match cellFind busy (busy.length + 1) (hint % cellCount) with
  | none => (none, s)
  | some c => (some c, wr CELL.state c 1 s |> wr CELL.touched c 1 |> subF BUF_FREE.free 0 1)

/-- Return a cell: to quarantine when an uncorrectable error was found in it (R192), else to the free list. -/
def cellGive (c : Nat) (s : State) : State :=
  let s := wr CELL.touched c 1 s |> wr CELL.acct c 0 |> wr CELL.inacc c 0 |> wr CELL.eg c 0 |> setL LCELL.qs c []
  if rdB CELL.bad c s then wr CELL.state c 2 s else addF BUF_FREE.free 0 1 (wr CELL.state c 0 s)

/-- Bank and row of word `w` of cell `c` (R181). -/
def cellBank (c w : Nat) : Nat := 128 * w + c % 128
def cellRow (c : Nat) : Nat := c / 128

/-- CELL_QUARANTINE (R192): the pattern test passes or retires the cell. -/
def cellTest (c : Nat) (pass : Bool) (s : State) : State :=
  if rd CELL.state c s ≠ 2 then s
  else if pass then
    wr CELL.state c 0 s |> wr CELL.bad c 0 |> wr CELL.badw c 0 |> wr CELL.touched c 1 |> addF BUF_FREE.free 0 1 |> inc cnt_BUF_quarantine_pass 0
  else
    let s := wr CELL.state c 3 s |> inc cnt_BUF_quarantine_retire 0 |> addF BUF_RETIRED.retired 0 1 |> wr BUF_EVT.ev_retire 0 1
    raise 0x0103 [c, rd BUF_RETIRED.retired 0 s] s

/-! ### Regions (R195) -/

/-- Cells of a port's reserve share. -/
def reserveShare (p : Nat) (s : State) : Nat := ceilDiv (rd BUF_PORT_RESERVE.reserve p s * 1024) 84

/-- reserve_total. -/
def reserveTotal (s : State) : Nat := ((touched BUF_PORT_RESERVE.reserve s).map (fun p => reserveShare p s)).sum

/-- Ports of octet `o` that exist. -/
def octetPorts (o : Nat) (s : State) : List Nat := ((List.range 8).map (8 * o + ·)).filter (fun p => portExists p s)

/-- The receive region. -/
def receiveRegion (s : State) : Nat :=
  rd BUF_RX_CFG.rx_pool 0 s * 1024
    + ((List.range 128).map (fun o => ((octetPorts o s).map (fun p => ceilDiv (portMax p s) 256)).sum)).sum

/-- shared_free. -/
def sharedFree (s : State) : Nat :=
  cellCount - rd BUF_RETIRED.retired 0 s - reserveTotal s - receiveRegion s - rd HBUF.shared 0 s

/-! ### Charges (R195 to R199)

Every cell carries its tag: the account its frame has it on, and one entry for each copy charged with it. What a release takes back
is read off the tag. -/

/-- Charge or release one cell on the account a frame has it on (R195, R197, R198): 1 receive, 2 the shared region and the ingress
account `ia`, 3 the reserve share of port `rp`, 4 and 5 the shared region. -/
def acctMove (up : Bool) (a ia rp : Nat) (s : State) : State :=
  let mv := fun (g : Fld) (i : Nat) (t : State) => if up then addF g i 1 t else subF g i 1 t
  match a with
  | 1 => mv HBUF.rx_used 0 s
  | 2 => mv BUF_PORT_IN_CELLS.cells (ia / 8) (mv HBUF.inacc ia (mv HBUF.shared 0 s))
  | 3 => mv BUF_PORT_RES_CELLS.cells rp s
  | 4 | 5 => mv HBUF.shared 0 s
  | _ => s

/-- Is a port's reserve share full (R198)? -/
def shareFull (p : Nat) (s : State) : Bool := reserveShare p s ≤ rd BUF_PORT_RES_CELLS.cells p s

/-- Move a cell to another account of its frame; one the reserve share has no room for goes to the shared region (R198). -/
def cellAcct (c a ia rp : Nat) (s : State) : State :=
  let s := acctMove false (rd CELL.acct c s) (rd CELL.inacc c s) (rd CELL.eg c s) s
  let a := if a = 3 && shareFull rp s then 4 else a
  acctMove true a ia rp s |> wr CELL.acct c a |> wr CELL.inacc c ia |> wr CELL.eg c rp |> wr CELL.touched c 1

/-- Ingress account of a frame. -/
def inAcct (f : Nat) (s : State) : Nat := rd FRM.port f s * 8 + rd FRM.pg f s

/-- Move a frame's cells to another account. -/
def setAcct (f a : Nat) (s : State) : State :=
  forEach (getL LFRM.cells f s) (fun c t => cellAcct c a (inAcct f t) (rd FRM.rport f t) t) (wr FRM.acct f a s)

/-- Charge or release one cell for a copy, by the entry of the cell's tag: its queue, and by the entry's kind its egress port (1), its
reserve share (2) or the shared region (3) (R198, R199). -/
def copyMove (up : Bool) (v : Nat) (s : State) : State :=
  let mv := fun (g : Fld) (i : Nat) (t : State) => if up then addF g i 1 t else subF g i 1 t
  let s := mv HBUF.q (v / 4096) s
  match v % 4 with
  | 1 => mv BUF_PORT_EG_CELLS.cells (v / 4 % 1024) s
  | 2 => acctMove up 3 0 (v / 4 % 1024) s
  | 3 => acctMove up 4 0 0 s
  | _ => s

/-- The entry a copy's charge makes in a cell's tag: an admitted copy keeps the account `was` a context charged to port `rp`
(R198), and otherwise takes its egress port's share while that has room. -/
def copyEntry (d was rp : Nat) (s : State) : Nat :=
  let code := rd DSC.code d s
  let eg := rd DSC.eg d s
  if rdB DSC.adm d s then
    (if was = 3 then (code * 1024 + rp) * 4 + 2 else if was = 4 then (code * 1024 + rp) * 4 + 3
      else (code * 1024 + eg) * 4 + if shareFull eg s then 3 else 2)
  else (code * 1024 + eg) * 4 + if code % 4 = 2 then 0 else 1

/-- Is an entry of a tag copy `d`'s? -/
def copyOwns (d v : Nat) (s : State) : Bool :=
  v / 4096 = rd DSC.code d s && (if rdB DSC.adm d s then 2 ≤ v % 4 else v % 4 < 2 && v / 4 % 1024 = rd DSC.eg d s)

/-- Charge a copy with a cell. -/
def copyTake (d c was rp : Nat) (s : State) : State :=
  let v := copyEntry d was rp s
  pushL LCELL.qs c v (copyMove true v (addF DSC.cells d 1 (wr CELL.touched c 1 s)))

/-- A copy releases a cell it is charged with. -/
def copyDrop (d c : Nat) (s : State) : State :=
  match (getL LCELL.qs c s).find? (fun v => copyOwns d v s) with
  | none => s
  | some v => setL LCELL.qs c ((getL LCELL.qs c s).erase v) (copyMove false v (subF DSC.cells d 1 s))

/-- Release every charge a cell's tag names (R201). -/
def uncharge (c : Nat) (s : State) : State :=
  forEach (getL LCELL.qs c s) (copyMove false) (acctMove false (rd CELL.acct c s) (rd CELL.inacc c s) (rd CELL.eg c s) s)

/-- Descriptors of a frame. -/
def dscOf (f : Nat) (s : State) : List Nat := (touched DSC.live s).filter (fun d => rd DSC.frame d s = f)

/-- A frame takes `n` more cells from `hint` on, charged to its account and to its copies as they arrive (R197). -/
def growFrame (f hint : Nat) : Nat → State → State
  | 0, s => s
  | n + 1, s =>
    match cellTake hint s with
    | (none, s) => s
    | (some c, s) =>
      let s := pushL LFRM.cells f c (cellAcct c (rd FRM.acct f s) (inAcct f s) (rd FRM.rport f s) s)
      growFrame f (c + 1) n (forEach (dscOf f s) (fun d t => copyTake d c 0 0 t) s)

/-- Return cells of a frame, each released from all its tag names. -/
def giveCells (cs : List Nat) (s : State) : State := forEach cs (fun c t => cellGive c (uncharge c t)) s

/-- Return every cell of a frame; a cell with an uncorrectable error goes to quarantine. -/
def freeCells (f : Nat) (s : State) : State := giveCells (getL LFRM.cells f s) (setL LFRM.cells f [] (wr FRM.acct f 0 s))

/-! ### Frames and descriptors -/

/-- Erase every field and list of a frame or descriptor. -/
def eraseInst (fs : List Fld) (ls : List Lst) (i : Nat) (s : State) : State :=
  { s with
    regs := s.regs.filter (fun e => !(e.1.2 = i && fs.any (fun f => f.id = e.1.1)))
    lists := s.lists.filter (fun e => !(e.1.2 = i && ls.any (fun l => l.id = e.1.1))) }

/-- A head-buffer entry is free again (R83). -/
def headFree (sl entry : Nat) (s : State) : State :=
  subF SLC_HEAD_STATUS.used sl 1 (subF (if entry = 2 then HSLC.rsv else HSLC.shr) sl 1 s)

/-- Release a frame's head-buffer entry (R83). -/
def headRelease (f : Nat) (s : State) : State :=
  let sl := rd FRM.slice f s
  if rd FRM.head f s = 0 then s
  else
    headFree sl (rd FRM.head f s) s |> wr FRM.head f 0 |> setL LSLC.heads sl ((getL LSLC.heads sl s).filter (· ≠ f))

/-- Drop a frame's hold on its replicate group (R166). -/
def groupRelease (f : Nat) (s : State) : State :=
  if rd FRM.group f s = 0 then s else wr FRM.group f 0 (subF HTBL.holds (rd FRM.group f s - 1) 1 s)

/-- Forget a frame once nothing refers to it: received to its end, no entry, no copy left, and its result released or
never due. -/
def frmReap (f : Nat) (s : State) : State :=
  if rdB FRM.live f s && rdB FRM.ended f s && rd FRM.head f s = 0 && rd FRM.refs f s = 0 &&
      (rd FRM.stage f s = 3 || rd FRM.stage f s = 0) then
    epiEnd 2 f (rd FRM.port f s) (eraseInst gFRM lFRM f s)
  else s

/-- Nothing holds the frame any more: its cells return, and nothing of it is still to be enqueued from a head-buffer entry (R83). -/
def frmDone (f : Nat) (s : State) : State :=
  if rd FRM.refs f s = 0 && rd FRM.stage f s ≠ 4 then frmReap f (headRelease f (freeCells f (groupRelease f s))) else s

/-- Cells of a chain that no holder still has to read return, from the front on (R186, R188): every holder is a copy, and each has
read them. -/
def frmTrim (f : Nat) (s : State) : State :=
  let rs := (dscOf f s).map (fun d => rd DSC.read d s)
  if rs.length ≠ rd FRM.refs f s then s
  else
    let m := rs.foldl min (rs.headD 0)
    let cs := getL LFRM.cells f s
    let k := m - rd FRM.freed f s
    giveCells (cs.take k) (setL LFRM.cells f (cs.drop k) (wr FRM.freed f (max m (rd FRM.freed f s)) s))

/-- One holder of a frame lets go (R188). -/
def frmUnref (f : Nat) (s : State) : State := frmDone f (frmTrim f (subF FRM.refs f 1 s))

/-- Head of a queue. -/
def headOf (code : Nat) (s : State) : Option Nat := (getL LBUF.q code s).head?

/-- Refresh the backlog bits of a queue's nodes. -/
def backlogNote (code : Nat) (s : State) : State :=
  if code % 4 ≠ 0 then s
  else
    let n := code / 4 / 8
    let b := (List.range 8).any (fun q => getL LBUF.q ((8 * n + q) * 4) s ≠ [])
    let v := rd SCH_SUB_W0.parent n s
    let s := wrB SCH_SUB_W7.backlog n b s
    wrB SCH_SVC_W5.backlog v (b || (touched SCH_SUB_W7.backlog s).any (fun m => rdB SCH_SUB_W7.backlog m s && rd SCH_SUB_W0.parent m s = v)) s

/-- Take a descriptor out of its queue, which touches its cells (R201). -/
def dequeue (d : Nat) (s : State) : State :=
  let code := rd DSC.code d s
  let s := forEach (getL LFRM.cells (rd DSC.frame d s) s) (fun c t => wr CELL.touched c 1 t) s
  backlogNote code (setL LBUF.q code ((getL LBUF.q code s).filter (· ≠ d)) s)

/-- A descriptor ends: out of its queue, its charges released, forgotten, and its frame let go. -/
def dscEnd (d : Nat) (s : State) : State :=
  let f := rd DSC.frame d s
  forEach (getL LFRM.cells f s) (copyDrop d) (dequeue d s) |> eraseInst gDSC lDSC d |> frmUnref f

/-- Copy `d` has read the first `n` cells of its frame's chain for transmit (R186, R188). -/
def readCells (d n : Nat) (s : State) : State :=
  let f := rd DSC.frame d s
  let r := rd DSC.read d s
  if n ≤ r then s
  else
    let cs := ((getL LFRM.cells f s).drop (r - rd FRM.freed f s)).take (n - r)
    frmTrim f (wr DSC.read d (r + cs.length) (forEach cs (copyDrop d) s))

/-! ### Postcards of drops (R491, R492) -/

/-- Does a kind-2 template ask for a new tag on this copy (R135, R250)? -/
def dscKpush (d : Nat) (s : State) : Bool :=
  !rdB DSC.raw d s && (rdB FRM.kpush (rd DSC.frame d s) s || (getL LDSC.push d s).any (fun c => c % 4 = 2))

/-- Does a copy carry the tag its frame arrived with (R250)? A kind-2 template makes a new one where a tag is sent. -/
def tagKept (d : Nat) (sent : Bool) (s : State) : Bool := rdB FRM.tagged (rd DSC.frame d s) s && !(sent && dscKpush d s)

/-- slack of R251 for a copy at `delay` (2^-32 ns), with the received tag `kept` or a new one; 0 for best effort (R248). -/
def slackOf (d : Nat) (kept : Bool) (delay : Nat) (s : State) : Nat :=
  let sIn : Int := if kept then rd FRM.tslack (rd DSC.frame d s) s else 0
  let budget : Int := rd ADM_PORT_BUDGET.hop_budget (rd DSC.eg d s) s
  if rdB DSC.adm d s then (clampInt 0 255 (sIn + (budget * 2 ^ 32 - delay) / (64 * 2 ^ 32))).toNat else 0

/-- power_slack of R251. -/
def pslackOf (d : Nat) (kept : Bool) (s : State) : Nat :=
  min (if kept then rd FRM.tpslack (rd DSC.frame d s) s else 255) (rd FAB_PG_STATUS.own_slack 0 s)

/-- Stream number a descriptor's tag names. -/
def dscFlow (d : Nat) (s : State) : Nat := if rd DSC.flow d s = 0 then rd DSC.stream d s else rd DSC.flow d s - 1

/-- Fabric sequence number of a copy: assigned here, or as received. -/
def dscSeq (d : Nat) (s : State) : Nat :=
  if rd DSC.seq d s = 0 then (if rdB FRM.tagged (rd DSC.frame d s) s then rd FRM.tseq (rd DSC.frame d s) s else 0) else rd DSC.seq d s - 1

/-- A postcard of a sampled copy at `delay` (2^-32 ns) (R492). The length of a frame still arriving is a free value, and a drop's slack is that
of delay 0 (log entry 189). -/
def cardBytes (d reason delay : Nat) (tagSent : Bool) (s : State) : List Nat :=
  let f := rd DSC.frame d s
  let adm := rdB DSC.adm d s
  let tg := rdB FRM.tagged f s
  let kept := tagKept d tagSent s
  let seq := if tagSent then (if adm then dscSeq d s else 0) else if tg then rd FRM.tseq f s else 0
  let hops := if tagSent then min 63 (rd FRM.thops f s + 1) else rd FRM.thops f s + 1
  let len := if rdB FRM.ended f s then rd FRM.len f s else Config.freeInput s.cyc 3073 % 2 ^ 15
  [1, rd FRM.tel f s - 1, b2n adm + 2 * b2n tg + 4 * b2n (reason ≠ 0) + 8 * b2n tagSent, reason]
    ++ leBytes 2 (rd FRM.port f s) ++ leBytes 2 (rd DSC.eg d s) ++ leBytes 2 (if adm then rd DSC.stream d s else 0)
    ++ leBytes 2 seq ++ leBytes 4 (rd DSC.code d s)
    ++ leBytes 8 (rd FRM.stamp f s / 2 ^ 32) ++ leBytes 4 (min (delay * 250 / 2 ^ 32) 0xFFFFFFFF) ++ leBytes 4 (rd DSC.depth d s)
    ++ leBytes 4 len ++ [slackOf d kept delay s, pslackOf d kept s, if kept then hops else 1, 0]
    ++ leBytes 2 (if kept then rd FRM.tsrc f s else rd FAB_CTRL.device_id 0 s) ++ List.replicate 22 0

/-- A sampled copy that the buffer drops after enqueue makes a postcard where its profile asks for one (R491). -/
def dropCard (d reason : Nat) (s : State) : State :=
  let f := rd DSC.frame d s
  if rdB FRM.sampled f s && rdB TEL_PROF.drop_report (rd FRM.tel f s - 1) s then
    postcard (cardBytes d reason 0 false s) s
  else s

/-- The buffer drops an enqueued copy: its counter, the queue's drop counter, fault loss for an admitted frame. -/
def dscDrop (c : Cnt) (ci reason d : Nat) (s : State) : State :=
  let s := inc c ci s |> inc cnt_TEL_q_drops (rd DSC.code d s) |> dropCard d reason
  dscEnd d (if rdB DSC.adm d s then faultLoss (rd DSC.stream d s) s else s)

/-! ### Where a frame goes (R194, R212, R213) -/

/-- PCP of the outer VLAN tag as received, if any. -/
def outerPcp (bs : List Nat) : Option Nat :=
  let t := beNat ((bs.drop 12).take 2)
  if (t = 0x8100 || t = 0x88A8) && 15 < bs.length then some (bs.getD 14 0 / 32) else none

/-- Priority group of a frame (R194). -/
def pgOf (p : Nat) (bs : List Nat) (s : State) : Nat :=
  match outerPcp bs with
  | some k => bitsOf (rd BUF_PORT_PG.pcp_to_pg p s) (3 * k) 3
  | none => rd BUF_PORT_PG.default_pg p s

/-- Port root a subscriber node is attached to. -/
def nodePort (v : Nat) (s : State) : Nat := rd SCH_SVC_W0.port (rd SCH_SUB_W0.parent v s) s

/-- The unicast queue of a best-effort frame or copy for an egress port, from the node and queue named plus one, 0 = none
(R212, R213). -/
def placeBe (f eg node queue : Nat) (s : State) : Nat × State :=
  let q := if queue ≠ 0 then queue - 1 else match outerPcp (getL LFRM.bytes f s) with
    | some k => bitsOf (rd SCH_PORT_W1.pcp_to_queue eg s) (3 * k) 3
    | none => rd SCH_PORT_W0.default_queue eg s
  let v := if node = 0 then rd SCH_PORT_W0.default_node eg s else node - 1
  let (v, s) := if nodePort v s = eg then (v, s)
    else (rd SCH_PORT_W0.default_node eg s,
      inc cnt_SCH_node_mismatch eg s |> raiseLimEv SCH_EVT.ev_node_mismatch 0 0x0205 0 1000000000 [v, eg])
  let (q, s) := if q < 2 && admNode v s then (2, inc cnt_SCH_q01_remap eg s) else (q, s)
  ((8 * v + q) * 4, s)

/-! ### Admission into the buffer (R196 to R198) -/

/-- Is a count below an alpha code's share of the shared cells (R197)? -/
def alphaOk (code n free : Nat) : Bool := code ≠ 0 && n * 256 < 2 ^ (min code 11) * free

/-- Threshold profile of a queue. -/
def queueProf (code : Nat) (s : State) : Nat :=
  if code % 4 = 2 then bitsOf (rd BUF_MCQ_PROF.prof (code / 4 / 8) s) (4 * (code / 4 % 8)) 4
  else bitsOf (rd BUF_NODE_PROF.prof (code / 4 / 8) s) (4 * (code / 4 % 8)) 4

/-- The Queue test. -/
def queueOk (code : Nat) (s : State) : Bool :=
  let k := queueProf code s
  let n := rd HBUF.q code s
  alphaOk (rd BUF_QPROF.alpha k s) n (sharedFree s) && (rd BUF_QPROF.max_cells k s = 0 || n < rd BUF_QPROF.max_cells k s)

/-- The Ingress test. -/
def ingressOk (f : Nat) (s : State) : Bool :=
  let p := rd FRM.port f s
  let pg := rd FRM.pg f s
  alphaOk (min 11 (bitsOf (rd BUF_PORT_PG_ALPHA.alpha_in p s) (4 * pg) 4)) (rd HBUF.inacc (p * 8 + pg) s) (sharedFree s)

/-- The Egress port test. -/
def egressOk (eg : Nat) (s : State) : Bool :=
  rd BUF_PORT_CFG.port_max eg s = 0 || rd BUF_PORT_EG_CELLS.cells eg s < rd BUF_PORT_CFG.port_max eg s

/-- The tests of R197 for a best-effort frame (or a copy) to a unicast queue: the counter and port of the first that fails. -/
def admitTest (f code eg : Nat) (copy : Bool) (s : State) : Option (Cnt × Nat) :=
  if rd BUF_PORT_STATUS.hold_state eg s = 2 then some (cnt_BUF_link_down_drop, eg)
  else if !copy && !ingressOk f s then some (cnt_BUF_pg_drop, rd FRM.port f s)
  else if !queueOk code s then some (cnt_BUF_tail_drop, eg)
  else if !egressOk eg s then some (cnt_BUF_tail_drop, eg)
  else none

/-- A new descriptor of frame `f` at the tail of a queue, its cells charged to it; an admitted copy takes them off the frame's own
account. -/
def enqueue (f code eg : Nat) (set : Nat → State → State) (s : State) : State :=
  let d := rd HDSC.next 0 s
  let s := wr HDSC.next 0 (d + 1) s |> wr DSC.live d 1 |> wr DSC.frame d f |> wr DSC.code d code |> wr DSC.eg d eg
    |> wr DSC.enq d (now s) |> wr DSC.enqg d (tbNs (rd GATE.tb eg s) s) |> wr DSC.err d (rd FRM.err f s) |> set d |> addF FRM.refs f 1
  let s := if rdB DSC.adm d s then wr FRM.acct f 0 s else s
  let s := forEach (getL LFRM.cells f s) (fun c t =>
    let was := rd CELL.acct c t
    let rp := rd CELL.eg c t
    copyTake d c was rp (if rdB DSC.adm d t then cellAcct c 0 (inAcct f t) 0 t else t)) s
  let s := if code % 4 = 2 then s else wakeCause eg (dataFrame eg s)
  wr DSC.depth d (rd HBUF.q code s) s |> pushL LBUF.q code d |> backlogNote code

/-- Is there a place for the `n` cells of an admitted frame leaving by `eg`: in the port's share, or beyond it in the shared region
(R198)? -/
def admRoom (eg n : Nat) (s : State) : Bool := rd BUF_PORT_RES_CELLS.cells eg s + n ≤ reserveShare eg s || sharedFree s ≠ 0

/-- An admitted frame finds no cell (R198). -/
def admNoCell (stream eg : Nat) (s : State) : State :=
  inc cnt_BUF_adm_no_cell eg s |> wr BUF_EVT.ev_adm_drop 0 1 |> raise 0x0104 [stream, eg]

/-! ### Replication (R187 to R189) -/

/-- The multicast queue of a frame with a group, or with mirror copies only (R187). -/
def mcQueue (f : Nat) (s : State) : Nat :=
  (256 * rd FRM.pg f s + (if rd FRM.group f s = 0 then 255 else (rd FRM.group f s - 1) % 256)) * 4 + 2

/-- Copies the replicator has to make of a frame: the members its group entry counted at lookup (R167), then mirrors. -/
def mcTotal (f : Nat) (s : State) : Nat :=
  (if rd FRM.group f s = 0 then 0 else rd FRM.gcount f s) + (getL LFRM.mirror f s).length

/-- Contents of the next hop a valid member names, or none (R188, R165). -/
def memberHop (m : Nat) (s : State) : Option Nat :=
  let e := tget 4 m s
  if bitOf e 18 && !entryBad 4 m s && nhState (bitsOf e 0 18) s = 1 && !entryBad 2 (bitsOf e 0 18) s then some (tget 2 (bitsOf e 0 18) s) else none

/-- The device drops a frame's mirror copy (R133). -/
def mirrorDrop (f : Nat) (s : State) : State := inc cnt_SLC_mirror_drop (rd FRM.slice f s) s

/-- Drop a frame the buffer refuses at its enqueue (R197, R198, R205): its cells return at once. DEDUCED (log entry 144): its mirror
copies are refused with it, and each counts. -/
def bufRefuse (f : Nat) (s : State) : State :=
  frmDone f (setL LFRM.mirror f [] (forEach (getL LFRM.mirror f s) (fun _ t => mirrorDrop f t) s))

/-- One copy of a mirror session packed by mirrorCode (R133). -/
def mirrorCopy (f m : Nat) (s : State) : State :=
  let eg := bitsOf m 4 10
  let (code, s) := placeBe f eg (bitsOf m 14 15 + 1) (bitsOf m 29 3 + 1) s
  match admitTest f code eg true s with
  | some _ => mirrorDrop f s
  | none => inc cnt_BUF_mc_copies 0 (enqueue f code eg (fun d t => wr DSC.mirror d (m % 16 + 1) t
      |> wr DSC.trunc d (m / 2 ^ 32) |> wr DSC.copy d 1 |> wr DSC.raw d 1) s)

/-! ### Frames the device or the host sends itself (R476, R480) -/

/-- The frame of an inject descriptor: padded to 60 bytes, with its FCS (R476). -/
def injectBytes (data : List Nat) : List Nat :=
  let b := data ++ List.replicate (60 - data.length) 0
  b ++ leBytes 4 (crcIeee b)

/-- Take an injected frame into cells as a frame that has already ended. -/
def injectFrame (port cell : Nat) (body : List Nat) (s : State) : Nat × State :=
  let f := rd HFRM.next 0 s
  (f, wr HFRM.next 0 (f + 1) s |> wr FRM.live f 1 |> wr FRM.port f port |> wr FRM.slice f (servSlice port s)
    |> wr FRM.stamp f (rd TBC.count 0 s) |> wr FRM.tbstamp f (rd TBC.count (rd FAB_CTRL.stamp_tb 0 s) s)
    |> setL LFRM.bytes f body |> wr FRM.len f body.length |> wr FRM.ended f 1 |> wr FRM.acct f 1
    |> growFrame f cell (max 1 (ceilDiv body.length 256)) |> wordsNote (ceilDiv body.length 64))

/-- Is the receive region full for a frame that is not early-marked (R196, R476)? -/
def injectFull (s : State) : Bool := (rd BUF_RX_CFG.rx_pool 0 s - rd BUF_RX_CFG.rx_early 0 s) * 1024 ≤ rd HBUF.rx_used 0 s

/-- Take a frame into cells and put it to port `port` as best effort, to the node and queue named plus one (0 = by R212), without the
Ingress test (R476, R213); `inj` is the inject ring plus one, 0 = none. -/
def sendBe (inj port node queue cell : Nat) (body : List Nat) (s : State) : State :=
  let (f, s) := injectFrame port cell body s
  let (code, s) := placeBe f port node queue s
  let s := wr FRM.stage f 3 (wr FRM.inj f inj s)
  match admitTest f code port true s with
  | some (c, i) => bufRefuse f (inc cnt_TEL_q_drops code (inc c i s))
  | none => enqueue f code port (fun _ t => t) (setAcct f 4 s)

/-- The ring a punt reason maps to (R475). -/
def puntRing (reason : Nat) (s : State) : Nat := bitsOf (rd HIF_PUNT_MAP.ring (reason / 8) s) (4 * (reason % 8)) 4

/-- May a frame join ring `k`'s punt queue (R475)? -/
def puntRoom (k : Nat) (s : State) : Bool :=
  (getL LHIF.punt k s).length < 256 && sharedFree s ≠ 0 && ringRuns k s && rd HIF_RING_W2.kind k s = 0

/-- Join ring `k`'s punt queue. -/
def puntPush (k f : Nat) (s : State) : State :=
  addF FRM.refs f 1 s |> pushL LHIF.punt k f |> wr HIF_RING_W5.queued k ((getL LHIF.punt k s).length + 1)

/-- A frame goes to the management engine, in its cells (R475). -/
def mqPush (f : Nat) (s : State) : State := pushL LHIF.mq 0 f (addF FRM.refs f 1 s)

/-- Does a copy rewritten by next hop contents `nh` find its TTL at 0 or 1 (R134 step 3, R159)? -/
def copyExpired (f nh : Nat) (s : State) : Bool :=
  let recs := (getL LFRM.recs f s).map unpackRec
  let gone := popRanges recs (getL LFRM.pops f s)
  let body := writeBack (getL LFRM.cont f s) (getL LFRM.wb f s) gone (getL LFRM.bytes f s)
  (decAll (decRecs recs gone (getL LFRM.decs f s) (nhRoute nh)) body).2 ≠ none

/-- An expired copy is not sent: it counts, and with ttl_punt the frame is punted with reason 1 (R134, R475). -/
def copyTtl (f : Nat) (s : State) : State :=
  let sl := rd FRM.slice f s
  if !rdB SLC_CLS_CTRL.ttl_punt sl s then inc cnt_SLC_ttl_expired sl s
  else
    let k := puntRing 1 s
    let s := inc cnt_SLC_ttl_punt sl s
    if rd HIF_MGMT_CFG.mgmt_reason 0 s = 1 then mqPush f (wr FRM.reason f 1 s)
    else if puntRoom k s then puntPush k f (wr FRM.reason f 1 s)
    else inc cnt_HIF_punt_drop k (wr HIF_RING_W6.ev_drop k 1 s)

/-- The replicator reads a member, and its next hop where the member is good (R167, R169). -/
def readMember (m : Nat) (s : State) : State :=
  let e := tget 4 m s
  let s' := readEntry 4 m s
  if bitOf e 18 && !entryBad 4 m s then readEntry 2 (bitsOf e 0 18) s' else s'

/-- One copy for a group member (R188, R189); a SET_SUB and a demotion name its node and queue before the next hop does (R212, R235). -/
def groupCopy (f m : Nat) (s : State) : State :=
  let s := readMember m s
  match memberHop m s with
  | none => inc cnt_TBL_fwd_bad_ref 0 s
  | some nh =>
    let eg := bitsOf nh 0 10
    if eg = rd FRM.port f s then s
    else if copyExpired f nh s then copyTtl f s
    else
      let node := if rd FRM.node f s = 0 then bitsOf nh 10 15 + 1 else rd FRM.node f s
      let queue := if rd FRM.queue f s = 0 then bitsOf nh 25 3 + 1 else rd FRM.queue f s
      let (code, s) := placeBe f eg node queue s
      match admitTest f code eg true s with
      | some _ => inc cnt_BUF_mc_copy_drop eg (inc cnt_TEL_q_drops code s)
      | none => inc cnt_BUF_mc_copies 0 (enqueue f code eg (fun d t => wr DSC.copy d 1 t |> wr DSC.nh d 1 |> wr DSC.nhdata d nh
        |> (fun u => if nhPush nh then pushL LDSC.push d ((getL LFRM.tmpl f u).getD (nhTemplate nh) (pushCode (rd FRM.slice f u) (nhTemplate nh) (getL LFRM.cont f u) (rd FRM.valid f u) u)) u else u)) s)

/-- The next multicast queue to serve: highest priority group first, round-robin within it (R188). -/
def mcPick (s : State) : Option Nat :=
  let qs := ((mkind s.lists LBUF.q.id).map (·.1)).filter (fun c => c % 4 = 2)
  let pgs := [7, 6, 5, 4, 3, 2, 1, 0].filter (fun g => qs.any (fun c => c / 4 / 256 = g))
  match pgs with
  | [] => none
  | g :: _ =>
    let mine := qs.filter (fun c => c / 4 / 256 = g)
    match mine.find? (fun c => rd HBUF.mcrr g s < c / 4 % 256) with
    | some c => some c
    | none => mine.head?

/-- The replicator's descriptor whose frame is served next. -/
def mcHead (s : State) : Option Nat := (mcPick s).bind (fun c => headOf c s)

/-- Make, or refuse, the next copy of the queue in turn; the frame leaves after its last. -/
def mcStep (s : State) : State :=
  match mcPick s with
  | none => s
  | some code =>
    match getL LBUF.q code s with
    | [] => s
    | d :: _ =>
      let f := rd DSC.frame d s
      let k := rd HBUF.mcpos code s
      let mir := (getL LFRM.mirror f s).length
      let total := mcTotal f s
      let s := wr HBUF.mcrr (code / 4 / 256) (code / 4 % 256) s
      let s := if total ≤ k || rdB FRM.err f s then s
        else if k < total - mir then groupCopy f (rd FRM.gbase f s + k) s
        else mirrorCopy f ((getL LFRM.mirror f s).getD (k - (total - mir)) 0) s
      if total ≤ k + 1 || rdB FRM.err f s then dscEnd d (wr HBUF.mcpos code 0 (groupRelease f s))
      else wr HBUF.mcpos code (k + 1) s

/-! ### Error protection (R190 to R193) -/

/-- Log an uncorrectable error and raise BUF_ECC_UNCORR (R191, R193). -/
def eccLog (kind bank row stream : Nat) (s : State) : State :=
  wr BUF_ECC_LOG.bank 0 bank s |> wr BUF_ECC_LOG.row 0 row |> wr BUF_ECC_LOG.kind 0 kind |> addF BUF_ECC_LOG.count 0 1
    |> wr BUF_EVT.ev_ecc_uncorr 0 1 |> raise 0x0101 [kind, bank, row, stream]

/-- A lost copy of an admitted frame starts the memory-error episode of its frame (R191). DESIGN CHOICE (log entry 134): the port its events
carry is the frame's ingress port. -/
def memLoss (d : Nat) (s : State) : State :=
  let f := rd DSC.frame d s
  if rdB DSC.adm d s then
    epiJoin 2 f (rd DSC.stream d s) (epiStart 2 f (rd FRM.port f s) [rd DSC.stream d s] s)
  else s

/-- A copy of an admitted frame is lost to a memory error (R191, R193): one fault loss of its stream, and the frame's episode. -/
def copyLost (d : Nat) (s : State) : State := if rdB DSC.adm d s then memLoss d (faultLoss (rd DSC.stream d s) s) else s

/-- Stream an error event names: that of an admitted copy, else 0. -/
def dscStream (d : Nat) (s : State) : Nat := if rdB DSC.adm d s then rd DSC.stream d s else 0

/-- The cell and word a word of a frame lies in (R182), where the frame holds bytes there and the cell has not returned. -/
def frmWord (f w : Nat) (s : State) : Option Nat :=
  if ceilDiv (getL LFRM.bytes f s).length 64 ≤ w || w / 4 < rd FRM.freed f s then none
  else (getL LFRM.cells f s)[w / 4 - rd FRM.freed f s]?

/-- An uncorrectable word `w` of frame `f` is read (R191, R192): counted and logged, and its cell marked. -/
def wordBad (f w stream : Nat) (s : State) : State :=
  match frmWord f w s with
  | none => s
  | some c => eccLog 0 (cellBank c (w % 4)) (cellRow c) stream
      (wr FRM.ecc f 1 (setFBit CELL.badw c (w % 4) (wr CELL.bad c 1 (inc cnt_BUF_ecc_uncorr 0 s))))

/-- An uncorrectable cell word `w` (from the frame's first) is met by descriptor `d` (R191, R192). -/
def cellBad (d w : Nat) (s : State) : State :=
  wordBad (rd DSC.frame d s) w (dscStream d s) s

/-- Words of a frame known to be uncorrectable, in the cells of its chain from position `k` to below `m`: a later copy meets them
(R191). -/
def badWords (f k m : Nat) (s : State) : List Nat :=
  (List.range (4 * (min m (rd FRM.freed f s + (getL LFRM.cells f s).length)))).filter (fun w => 4 * k ≤ w &&
    (frmWord f w s).any (fun c => rdBit CELL.badw c (w % 4) s))

/-- Cells of a frame from chain position `k` on can no longer be reached: they are left to Harvest, with their charges (R193). -/
def loseCells (f k : Nat) (s : State) : State :=
  let cs := getL LFRM.cells f s
  let j := k - rd FRM.freed f s
  setL LBUF.cells_lost 0 (getL LBUF.cells_lost 0 s ++ cs.drop j) (setL LFRM.cells f (cs.take j) s)

/-- A link or descriptor of a frame that is no copy's cannot be read (R193). -/
def chainLost (kind k f : Nat) (s : State) : State :=
  let c := (getL LFRM.cells f s).getD (k - rd FRM.freed f s) 0
  let s := eccLog kind (cellBank c 0) (cellRow c) 0 (inc cnt_BUF_link_ecc_uncorr 0 s)
  if kind = 1 || rd FRM.refs f s = 1 then loseCells f k s else s

/-- A descriptor, or a link of its chain at position `k`, cannot be read (R193): counted and logged, and the cells
from `k` on left to Harvest where no other holder reaches them. -/
def dscLost (kind k d : Nat) (all : Bool) (s : State) : State :=
  let f := rd DSC.frame d s
  let c := (getL LFRM.cells f s).getD (k - rd FRM.freed f s) 0
  let s := eccLog kind (cellBank c 0) (cellRow c) (dscStream d s) (inc cnt_BUF_link_ecc_uncorr 0 s)
  if all || rd FRM.refs f s = 1 then loseCells f k s else s

/-- Reads of links and descriptors for which no command reports what they meet: the corrected errors among them are a free input
(R190; log entry 1). -/
def linkReads (s : State) : State := eccNote cnt_BUF_link_ecc_corr (Config.freeInput s.cyc 2048) s

/-! ### Harvest (R201, R202) -/

/-- Cells some chain, the free list, quarantine or the retired list owns (R201): every other cell in use is unowned. -/
def unowned (s : State) : List Nat :=
  let owned := (mkind s.lists LFRM.cells.id).flatMap (·.2)
  (busyCells s).filter (fun c => rd CELL.state c s = 1 && !owned.contains c)

/-- A sweep starts (R201): a cell touched since the sweep before began does not count as unowned in that one. -/
def harvestStart (s : State) : State :=
  if !rdB BUF_HARVEST_CFG.harvest_enable 0 s || rdB HBUF.harvest 0 s then s
  else every HBUF.hsweep 0 (rd BUF_HARVEST_CFG.harvest_period 0 s * 1000000) (fun s =>
    forEach (touched CELL.touched s) (fun c t => wr CELL.touched c 0 (wr CELL.unowned c 0 t)) s |> wr HBUF.harvest 0 1) s

/-- A sweep ends (R201): a cell unowned in two sweeps running and untouched since the first began is reclaimed. -/
def harvestEnd (s : State) : State :=
  if !rdB HBUF.harvest 0 s then s
  else if !rdB BUF_HARVEST_CFG.harvest_enable 0 s then wr HBUF.harvest 0 0 s
  else
    let un := unowned s
    let back := un.filter (fun c => rdB HBUF.swept 0 s && rdB CELL.unowned c s && !rdB CELL.touched c s)
    let s := forEach (touched CELL.unowned s) (fun c t => wr CELL.unowned c 0 t) (linkReads s)
    let s := forEach (un.filter (fun c => !back.contains c)) (fun c t => wr CELL.unowned c 1 t) s
    let s := forEach back (fun c t => inc cnt_BUF_leak_cells 0 (cellGive c (uncharge c t))) s
    let s := setL LBUF.cells_lost 0 ((getL LBUF.cells_lost 0 s).filter (fun c => !back.contains c)) s
    let s := wr HBUF.harvest 0 0 s |> wr HBUF.swept 0 1 |> wr BUF_HARVEST_STATUS.last_reclaimed 0 back.length
      |> addF BUF_HARVEST_STATUS.sweeps 0 1
    if back = [] then s else raise 0x0102 [back.length] (wr BUF_EVT.ev_leak 0 1 s)

/-- Harvest is disabled (R202): the next sweep after it is enabled again counts as the first for every cell. -/
def harvestStop (s : State) : State :=
  forEach (touched CELL.unowned s) (fun c t => wr CELL.unowned c 0 t) (wr HBUF.harvest 0 0 (wr HBUF.swept 0 0 s))

/-! ### Link loss with frames queued (R203 to R206) -/

/-- Queues of a port: the unicast queues under its root, and its four gated queues. -/
def portQueues (p : Nat) (s : State) : List Nat :=
  ((mkind s.lists LBUF.q.id).map (·.1)).filter (fun c =>
    (c % 4 = 0 && nodePort (c / 4 / 8) s = p) || (c % 4 = 1 && c / 4 / 4 = p))

/-- hold_left of a port (R207). -/
def holdLeft (p : Nat) (s : State) : Nat := if running HBUF.hold p s then ceilDiv (rd HBUF.hold p s - 1 - now s) 10000 else 0

/-- Flush a port (R205): every queued frame goes, and the L2 flush starts. -/
def portFlush (p : Nat) (s : State) : State :=
  let ds := (portQueues p s).flatMap (fun c => getL LBUF.q c s)
  let s := if ds = [] then s else linkReads s
  forEach ds (fun d t => dscDrop cnt_BUF_flush_drop p 3 d t) s
    |> wr BUF_PORT_STATUS.hold_state p 2 |> wr BUF_PORT_STATUS.hold_left p 0 |> disarm HBUF.hold p |> disarm HBUF.stale p |> wr BUF_EVT.ev_hold 0 1
    |> raise 0x0105 [p, ds.length] |> l2Flush p

/-- A port declares link down with hold `h` in units of 10 us (R203, R206). -/
def holdStart (p h : Nat) (s : State) : State :=
  if h = 0 then portFlush p s
  else wr BUF_PORT_STATUS.hold_state p 1 s |> wr BUF_PORT_STATUS.hold_left p h |> arm HBUF.hold p (h * 10000)
    |> wr HBUF.hold0 p (now s + 1) |> wr HBUF.hold_stale p 0 |> arm HBUF.stale p 1000

/-- Link up again (R204, R205). -/
def holdEnd (p : Nat) (s : State) : State :=
  if rd BUF_PORT_STATUS.hold_state p s = 1 then
    raise 0x0106 [p, (now s - (rd HBUF.hold0 p s - 1)) / 1000, rd HBUF.hold_stale p s] s
      |> wr BUF_PORT_STATUS.hold_state p 0 |> wr BUF_PORT_STATUS.hold_left p 0 |> disarm HBUF.hold p |> wr BUF_EVT.ev_hold 0 1
      |> wr HBUF.resumed p (now s + 1) |> disarm HBUF.stale p
  else wr BUF_PORT_STATUS.hold_state p 0 s |> wr BUF_PORT_STATUS.hold_left p 0 |> disarm HBUF.hold p

end Sys2Proof.Machine
end

