-- ==== Sys2Proof/Machine/Fwd.lean ====
section
/-!
DEFINITION. What an engine does with one frame: parse, stream identification (R127 to R129), the forwarding lookup
(R157 to R159) and the resolution of the result (R130 to R133).
-/

namespace Sys2Proof.Machine

/-! ### The forwarding lookup (R157) -/

/-- An outcome of the forwarding lookup. -/
inductive Fwd where
  | none_ | drop | port (p : Nat) | hop (n : Nat) | group (g : Nat) | punt (reason : Nat)
deriving DecidableEq, Repr

/-- Fields of a group entry (R155). -/
def groupBase (g : Nat) (s : State) : Nat := bitsOf (tget 3 g s) 0 19
def groupCount (g : Nat) (s : State) : Nat := bitsOf (tget 3 g s) 19 11
def groupReplicates (g : Nat) (s : State) : Bool := bitOf (tget 3 g s) 30
def groupHash (g : Nat) (s : State) : Nat := bitsOf (tget 3 g s) 32 2

/-- A reference to something free, retiring or not valid: dropped and counted (R157). -/
def badRef (s : State) : Fwd × State := (.drop, inc cnt_TBL_fwd_bad_ref 0 s)

/-- resolve() of a next hop. -/
def resolveHop (n : Nat) (s : State) : Fwd × State :=
  let s := readEntry 2 n s
  if entryBad 2 n s || nhState n s ≠ 1 then badRef s else (.hop n, s)

/-- resolve() of a destination index (R157): `hs` are H0 to H2. -/
def resolveIndex (d : Nat) (hs : List Nat) (s : State) : Fwd × State :=
  if !bitOf d 19 then resolveHop (bitsOf d 0 18) s
  else
    let g := bitsOf d 0 16
    let s := readEntry 3 g s
    if entryBad 3 g s || grpState g s ≠ 1 then badRef s
    else if groupReplicates g s then (.group g, s)
    else
      let m := groupBase g s + (hs.getD (groupHash g s) 0 % 65536) * groupCount g s / 65536
      let s := readEntry 4 m s
      let e := tget 4 m s
      if entryBad 4 m s || !bitOf e 18 then badRef s else resolveHop (bitsOf e 0 18) s

/-- What an exact-match entry of kind 0 to 2 yields. -/
def resolveSlot (i : Nat) (hs : List Nat) (s : State) : Fwd × State :=
  let e := tget 0 i s
  match slotDestType e with
  | 0 => (.port (bitsOf (slotDest e) 0 10), s)
  | 1 => resolveIndex (slotDest e) hs s
  | 2 => (.punt (bitsOf (slotDest e) 0 8), s)
  | _ => (.drop, s)

/-- The value of a container run as a number, most significant first; none where one is not valid. -/
def contRun (cs : List Nat) (p : Prs) : Option Nat :=
  if cs.all (fun c => p.valid.testBit c) then some (beNat (cs.flatMap (fun c => beBytes (contBytes c) (p.conts.getD c 0)))) else none

/-- Egress port of an outcome that is one port. -/
def fwdPort (r : Fwd) (s : State) : Option Nat :=
  match r with
  | .port p => some p
  | .hop n => some (bitsOf (tget 2 n s) 0 10)
  | _ => none

/-- The routed branch: host entry, else longest prefix (R157). A bad LPM node ends without a prefix (R169).
DESIGN CHOICE (log entry 174): a shorter prefix found before the bad node does not count either, and the lookup is an L3 miss. -/
def fwdRoute (vrf dip ver : Nat) (lpmBad : Bool) (hs : List Nat) (s : State) : Fwd × State :=
  let kind := ver
  let width := if ver = 2 then 2 else 1
  let key := if ver = 2 then vrf * 2 ^ 128 + dip else vrf * 2 ^ 32 + dip
  match emLookup kind width key s with
  | (some i, s) =>
    let e := tget 0 i s
    let s := if rdB TBL_PART_CFG.age_en 1 s && slotAge e ≠ rd TBL_AGE_NOW.now 0 s then refresh i s else s
    resolveSlot i hs (inc cnt_TBL_fwd_host_hit 0 s)
  | (none, s) =>
    match (if lpmBad then none else lpmBest vrf (ver - 1) dip s) with
    | some k => resolveIndex ((lpmDest k s).getD 0) hs (inc cnt_TBL_fwd_lpm_hit 0 s)
    | none =>
      let s := inc cnt_TBL_fwd_l3_miss 0 s
      if rdB TBL_CTRL.l3_miss_punt 0 s then (.punt 2, s) else (.drop, s)

/-- The bridged branch: the L2 entry, or the VLAN's flood group (R157). -/
def fwdBridge (vid da flood port : Nat) (hs : List Nat) (s : State) : Fwd × State :=
  let (r, s) := match emLookup 0 1 (l2Key vid da) s with
    | (some i, s) => resolveSlot i hs (inc cnt_TBL_fwd_l2_hit 0 s)
    | (none, s) => resolveIndex (2 ^ 19 + flood) hs (inc cnt_TBL_fwd_flood 0 s)
  if fwdPort r s = some port then (.drop, inc cnt_TBL_fwd_hairpin 0 s) else (r, s)

/-- The whole lookup (R157) of a frame on `port` parsed as `p`. -/
def fwdLookup (port : Nat) (p : Prs) (lpmBad : Bool) (hs : List Nat) (s : State) : Fwd × State :=
  let k := p.profile
  let f := fun (g : Fld) => rd g k s
  let vid := match contRun [f TBL_FWD_PROFILE_W0.vid_c] p with
    | some v => v % 4096
    | none => rd TBL_PORT_CFG.pvid port s
  let s := readEntry 5 vid s
  let v := tget 5 vid s
  if entryBad 5 vid s || !bitOf v 0 then (.drop, inc cnt_TBL_fwd_vlan_drop 0 s)
  else if !rdB TBL_FWD_PROFILE_W0.l2_en k s then (.none_, s)
  else
    let da := contRun [f TBL_FWD_PROFILE_W0.da_hi, f TBL_FWD_PROFILE_W0.da_lo] p
    let sa := contRun [f TBL_FWD_PROFILE_W0.sa_hi, f TBL_FWD_PROFILE_W0.sa_lo] p
    let s := match sa with
      | some a => if rdB TBL_PORT_CFG.learn_en port s && bitOf v 1 && !bitOf a 40 then sourceCheck vid a port s else s
      | none => s
    let ver := rd TBL_FWD_PROFILE_W1.ip_ver k s
    let dc := rd TBL_FWD_PROFILE_W1.dip_c k s
    let dip := contRun ((List.range (if ver = 2 then 4 else 1)).map (dc + ·)) p
    let router := rd TBL_ROUTER_MAC_HI.mac_hi 0 s * 2 ^ 32 + rd TBL_ROUTER_MAC_LO.mac_lo 0 s
    match da, dip with
    | none, _ => (.none_, s)
    | some a, some x =>
      if bitOf v 2 && a = router && ver ≠ 0 then fwdRoute (bitsOf v 3 12) x ver lpmBad hs s
      else fwdBridge vid a (bitsOf v 32 16) port hs s
    | some a, none => fwdBridge vid a (bitsOf v 32 16) port hs s

/-! ### Stream identification (R127, R128) -/

/-- Methods 1 to 4 in order (R127): the first that is enabled and yields a number. -/
def sidOf (f sl : Nat) (p : Prs) (s : State) : Option Nat × State :=
  let types := rd SLC_PORT_SID.sid_types (sl * 64 + rd FRM.port f s % 64) s
  if types.testBit 0 && rdB FRM.tagged f s && (rd FRM.tclass f s = 1 || rd FRM.tclass f s = 2) then (some (rd FRM.tflow f s), s)
  else
    [1, 2, 3].foldl (fun (r : Option Nat × State) j =>
      match r with
      | (some n, t) => (some n, t)
      | (none, t) =>
        if !types.testBit j then (none, t)
        else match sidKey sl j p t with
          | none => (none, t)
          | some (bits, key) =>
            match emLookup (2 + j) (if bits ≤ 64 then 1 else 2) key t with
            | (some i, t) => (some (slotStream (tget 0 i t)), t)
            | (none, t) => (none, t)) (none, s)

/-- R128: the hop that makes a frame of stream `n` admitted, or none, counted. DESIGN CHOICE (log entry 174): a stream that is not
admitted counts sid_unadmitted alone, whether or not it has a hop for the port. -/
def admittedBy (f n : Nat) (s : State) : Option Nat × State :=
  let sl := rd FRM.slice f s
  if strState n s ≠ 2 then (none, inc cnt_SLC_sid_unadmitted sl s)
  else match hopFor n (rd FRM.port f s) s with
    | none => (none, inc cnt_SLC_sid_port_mismatch sl s)
    | some k => (some k, s)

/-! ### The result -/

/-- The frame's length without its FCS, where it is known. -/
def frmLim (f : Nat) (s : State) : Option Nat := if rdB FRM.ended f s then some (rd FRM.len f s - 4) else none

/-- The frame's bytes without its FCS, as far as they have arrived. -/
def frmBody (f : Nat) (s : State) : List Nat :=
  let bs := getL LFRM.bytes f s
  if rdB FRM.ended f s then bs.take (bs.length - 4) else bs

/-- The frame ends in a drop (R132). -/
def resDrop (f : Nat) (s : State) : State := wr FRM.res f 4 s

/-- A punt result with its reason (R475). -/
def resPunt (f reason : Nat) (s : State) : State := wr FRM.res f 3 s |> wr FRM.reason f reason

/-- One egress, with the node and queue named plus one. -/
def resPort (f eg node queue : Nat) (s : State) : State :=
  wr FRM.res f 1 s |> wr FRM.eg f eg |> wr FRM.node f node |> wr FRM.queue f queue

/-- A next hop's egress and rewrite (R154, R167: the result carries its contents). -/
def resHop (f sl n : Nat) (conts : List Nat) (valid : Nat) (s : State) : State :=
  let nh := tget 2 n s
  let s := resPort f (bitsOf nh 0 10) (bitsOf nh 10 15 + 1) (bitsOf nh 25 3 + 1) s |> wr FRM.nh f (n + 1) |> wr FRM.nhdata f nh
  if nhPush nh then
    pushL LFRM.push f (pushCode sl (nhTemplate nh) conts valid s) s
      |> fun t => if rd SLC_TEMPLATE_W0.kind (sl * 256 + nhTemplate nh) t = 2 then wr FRM.kpush f 1 t else t
  else s

/-- The outcome of R157 as the frame's result; `sub` is SET_SUB's operand plus one (R131, R212). -/
def resFwd (f sl : Nat) (r : Fwd) (conts : List Nat) (valid : Nat) (s : State) : State :=
  match r with
  | .none_ => resDrop f (inc cnt_TBL_fwd_none 0 s)
  | .drop => resDrop f s
  | .port p => resPort f p 0 0 s
  | .hop n => resHop f sl n conts valid s
  | .group g => wr FRM.res f 2 s |> wr FRM.group f (g + 1) |> wr FRM.gbase f (groupBase g s) |> wr FRM.gcount f (groupCount g s) |> addF HTBL.holds g 1
  | .punt k => resPunt f k s

/-- SET_SUB (R130, R212): node and queue replace what the forwarding result gave, unless kept; of a replicate group's frame they come
before what each member's next hop names. -/
def resSub (f sub : Nat) (s : State) : State :=
  if sub = 0 || (rd FRM.res f s ≠ 1 && rd FRM.res f s ≠ 2) then s
  else
    let o := sub - 1
    let s := if bitOf o 15 then s else wr FRM.node f (bitsOf o 0 15 + 1) s
    if bitOf o 19 then s else wr FRM.queue f (bitsOf o 16 3 + 1) s

/-- REDIRECT (R130, R131, R146): it replaces the forwarding result. -/
def resRedirect (f sl o : Nat) (hs conts : List Nat) (valid : Nat) (s : State) : State :=
  match bitsOf o 0 2 with
  | 0 => resPort f (bitsOf o 2 10) (bitsOf o 22 15 + 1) (bitsOf o 37 3 + 1) s
  | 1 => resPunt f (bitsOf o 2 8) s
  | _ =>
    let (r, s) := resolveIndex (bitsOf o 2 20) hs s
    resFwd f sl r conts valid s

/-- Does step 3 of R134 stop a frame (R132)? Its result is known by now. -/
def ttlStops (f : Nat) (recs : List HRec) (gone : List (Nat × Nat)) (decs : List Nat) (bs : List Nat) (s : State) : Bool :=
  let route := rd FRM.nh f s ≠ 0 && nhRoute (rd FRM.nhdata f s)
  (rd FRM.res f s = 1 || rd FRM.res f s = 2) && ((decAll (decRecs recs gone decs route) bs).2).isSome

/-- Step 3 of R134 resolved at lookup (R132): an expired frame is punted with reason 1 or dropped. -/
def resTtl (f sl : Nat) (s : State) : State :=
  let s := groupRelease f s
  if rdB SLC_CLS_CTRL.ttl_punt sl s then resPunt f 1 (inc cnt_SLC_ttl_punt sl s)
  else resDrop f (inc cnt_SLC_ttl_expired sl s)

/-- TEL_MARK of a frame that is not dropped (R132, R490). -/
def resTel (f tel : Nat) (s : State) : State :=
  if tel = 0 || rd FRM.res f s = 4 then s
  else
    let (hit, s) := telMark (tel - 1) s
    if rdB TEL_PROF.enable (tel - 1) s then wr FRM.tel f tel (wrB FRM.sampled f hit s) else s

/-- Store what the egress rewrite needs (R131, R137). DESIGN CHOICE (log entry 174): a session that is not enabled makes no copy, and still
counts as one of the two a frame may name. -/
def resRewrite (f sl : Nat) (p : Prs) (a : Acts) (s : State) : State :=
  let s := setL LFRM.cont f a.conts s |> setL LFRM.recs f (p.recs.map packRec) |> setL LFRM.wb f p.wb
    |> setL LFRM.pops f a.pops |> wr FRM.valid f p.valid |> setL LFRM.decs f a.decs
    |> setL LFRM.push f (a.pushes.map (fun t => pushCode sl t a.conts p.valid s))
    |> setL LFRM.mirror f ((a.mirrors.filter (fun m => rdB SLC_MIRROR_W0.enable (sl * 16 + m) s)).map (fun m => mirrorCode sl m s))
  wrB FRM.kpush f (a.pushes.any (fun t => rd SLC_TEMPLATE_W0.kind (sl * 256 + t) s = 2)) s

/-- Operations an admitted frame ignores (R129); a SET_STREAM that named its stream is not one. -/
def ignoredOps (ws : List Nat) (byRule : Bool) : Nat :=
  ((opsOf ws).filter (fun o => [6, 7, 10, 11].contains (opCode o) || (opCode o = 5 && !byRule))).length

/-- The result of a frame that hop `k` of stream `n` makes admitted (R128, R129). DESIGN CHOICE (log entry 174): ttl_hold counts each
DEC_TTL operation held. -/
def resAdmitted (f sl n k : Nat) (p : Prs) (a : Acts) (gone : List (Nat × Nat)) (bs : List Nat) (s : State) : State :=
  let held := (decHold (decRecs (p.recs) gone a.decs false) bs).2
  let s := wr FRM.res f 1 s |> wr FRM.adm f 1 |> wr FRM.stream f n |> wr FRM.hop f (k % 32 + 1) |> wr FRM.eg f (rd HOP.eg k s)
    |> wr FRM.node f (rd HOP.node k s + 1) |> wr FRM.queue f (rd HOP.queue k s + 1)
    |> fun t => if k % 32 = 0 then wr FRM.pol f (n + 1) t else t
  let s := forEach held (fun r t => inc cnt_SLC_ttl_hold sl t |> (fun u => if limDue 0x1007 n 1000000000 u then wr SLC_CLS_EVT.ev_ttl_hold sl 1 u else u)
    |> raiseOnce 0x1007 n 1000000000 [sl, n, rd FRM.port f t, r.1]) s
  resTel f a.tel s

/-- The result of a frame that is not admitted (R130 to R132). DESIGN CHOICE (log entry 174): where a rule holds both SET_SUB and a REDIRECT to
a port, the node and queue are the REDIRECT's. -/
def resOther (f sl : Nat) (p : Prs) (a : Acts) (fw : Fwd) (hs : List Nat) (gone : List (Nat × Nat)) (bs : List Nat) (s : State) : State :=
  let bound := a.policer ≠ 0 && rdB SCH_POL_W4.bound (a.policer - 1) s
  let s := if bound then inc cnt_SLC_act_ignored sl s else wr FRM.pol f a.policer s
  if a.drop then resDrop f (inc cnt_SLC_act_drop sl s)
  else
    let s := if a.redirect ≠ 0 then resRedirect f sl (a.redirect - 1) hs a.conts p.valid s else resFwd f sl fw a.conts p.valid s
    let s := if a.redirect ≠ 0 && bitsOf (a.redirect - 1) 0 2 = 0 then s else resSub f a.sub s
    if ttlStops f p.recs gone a.decs bs s then resTtl f sl s else resTel f a.tel s

/-- The outcome counters of a parse (R142). -/
def parseCount (sl : Nat) (p : Prs) (s : State) : State :=
  let on := fun (b : Nat) (c : Cnt) (t : State) => if p.flags.testBit b then inc c sl t else t
  on 0 cnt_SLC_parse_window s |> on 1 cnt_SLC_parse_depth |> on 2 cnt_SLC_parse_no_trans |> on 9 cnt_SLC_parse_truncated
    |> on 3 cnt_SLC_ipv4_csum_bad

/-- The winning rule's action words, hit counted, or the profile's default, miss counted (R126). -/
def ruleLookup (sl : Nat) (key : List Nat) (p : Prs) (s : State) : List Nat × State :=
  match ruleFind sl key s with
  | some i => (ruleActs (ruleWords i s), inc cnt_SLC_rule_hits i s)
  | none => (defActs sl p.profile s, inc cnt_SLC_rule_miss sl s)

/-- The engine's work on a frame (stage 4 of R82): the result is stored with the frame. -/
def lookup (f : Nat) (us : List Nat) (s : State) : State :=
  let s := upsets (us.filter (fun u => u / 2 ^ 22 % 8 ≠ 1)) s
  let lpmUp := us.find? (fun u => u / 2 ^ 22 % 8 = 1)
  let s := match lpmUp with
    | some u => reportBad 1 (u % 2 ^ 22) (upset u s)
    | none => s
  let sl := rd FRM.slice f s
  let port := rd FRM.port f s
  let bs := getL LFRM.bytes f s
  let p := parse sl (rd SLC_PORT_PARSE.start_state (sl * 64 + port % 64) s) (rdB FRM.tagged f s && rd FRM.tclass f s = 3) bs (frmLim f s) s
  let s := parseCount sl p s
  let m : FrmMeta := ⟨port, rdB FRM.tagged f s, if rdB FRM.tagged f s then rd FRM.tclass f s else 0, rdB FRM.early f s,
    if rdB FRM.ended f s then rd FRM.len f s else 0⟩
  let hs := [hashOf sl 0 p.conts s, hashOf sl 1 p.conts s, hashOf sl 2 p.conts s]
  let (ws, s) := ruleLookup sl (keyOf sl m p s) p s
  let a := resolveActs p.conts ws
  let s := resRewrite f sl p a s |> wr FRM.looked f 1 |> incBy cnt_SLC_act_ignored sl a.ignored
  let inj := rd FRM.inj f s ≠ 0
  let (sid, s) := if inj then (none, s) else sidOf f sl p s
  let byRule := sid = none && a.stream ≠ 0 && !inj
  let sid := if byRule then some (a.stream - 1) else sid
  let (hop, s) := match sid with
    | some n => admittedBy f n s
    | none => (none, s)
  let (fw, s) := fwdLookup port p (lpmUp ≠ none) hs s
  let gone := popRanges p.recs a.pops
  let body := writeBack a.conts p.wb gone (frmBody f s)
  match sid, hop with
  | some n, some k =>
    resAdmitted f sl n k p a gone body (incBy cnt_SLC_act_ignored sl (ignoredOps ws byRule) s)
  | _, _ => resOther f sl p a fw hs gone body s

/-! ### Slice programs (R137) -/

/-- Is a register of a slice one of its ST program memories? -/
def progReg (r : Reg) : Bool := 0x10000000 ≤ r.base && r.fields.any (fun f => f.acc = .st)

/-- The fields of the program memories. -/
def progFlds : List Fld := (regsSLC.filter progReg).flatMap (·.fields)

/-- The programs in force, as numbers: field, instance and value in turn. -/
def progNow (s : State) : List Nat := progFlds.flatMap (fun f => (mkind s.regs f.id).flatMap (fun e => [f.id, e.1, e.2]))

/-- Write programs back. -/
def progPut : Nat → List Nat → State → State
  | n + 1, k :: i :: v :: l, s => progPut n l (match progFlds.find? (fun f => f.id = k) with
    | some f => wr f i v s
    | none => s)
  | _, _, s => s

/-- The state with other programs in force. -/
def progSet (l : List Nat) (s : State) : State :=
  progPut l.length l (forEach progFlds (fun f t => forEach (touched f t) (resetF f) t) s)

/-- A frame dispatched before a commit and not looked up keeps the programs of its dispatch (R137). -/
def progKeep (f : Nat) (s : State) : State := if getL LFRM.prog f s ≠ [] then s else setL LFRM.prog f (1 :: progNow s) s

/-- The state as a frame's engine sees it. -/
def progOf (f : Nat) (s : State) : State :=
  match getL LFRM.prog f s with
  | [] => s
  | _ :: l => progSet l s

/-- A frame with copies still to make keeps the templates of the program it was dispatched on (R137). -/
def tmplKeep (f : Nat) (s : State) : State :=
  if rd FRM.res f s ≠ 2 || getL LFRM.tmpl f s ≠ [] then s
  else setL LFRM.tmpl f ((List.range 256).map (fun t => pushCode (rd FRM.slice f s) t (getL LFRM.cont f s) (rd FRM.valid f s) s)) s

/-- The engine's work on a frame, on the program it was dispatched on (R137). -/
def lookupAs (f : Nat) (us : List Nat) (s : State) : State :=
  if getL LFRM.prog f s = [] then lookup f us s
  else setL LFRM.prog f [] (progSet (progNow s) (tmplKeep f (lookup f us (progOf f s))))

/-- Frames of a slice dispatched before a commit complete on the old program (R137). -/
def progHold (sl : Nat) (s : State) : State :=
  let fs := (touched FRM.live s).filter (fun f => rdB FRM.live f s && rd FRM.slice f s = sl)
  forEach fs tmplKeep (forEach (fs.filter (fun f => rd FRM.stage f s = 1 && !rdB FRM.looked f s)) progKeep s)

/-- Bytes of a frame its parse reads, its slice's window of them at least (R109, R116). -/
def parseNeed (f : Nat) (s : State) : Nat :=
  let t := progOf f s
  let sl := rd FRM.slice f s
  let bs := getL LFRM.bytes f s
  let p := parse sl (rd SLC_PORT_PARSE.start_state (sl * 64 + rd FRM.port f s % 64) t) false bs (frmLim f s) t
  max (rd SLC_PRS_CTRL.window sl t * 64) p.reach

end Sys2Proof.Machine
end

