-- ==== Sys2Proof/Machine/Pol.lean ====
section
/-!
DEFINITION. Policers (R232 to R237) and the way of an admitted frame from its result to its queue: bundles (R254), fabric
sequence numbers (R255), resequencing contexts (R256 to R259) and replicated pairs (R260).
-/

namespace Sys2Proof.Machine

/-! ### Policers -/

/-- Token units in a byte: rate in kb/s times nanoseconds gives these units exactly. -/
def polUnit : Nat := 8000000

/-- Refill a policer to now (R232), clipped to its bursts; PIR is at least CIR. -/
def polRefill (k : Nat) (s : State) : State :=
  let dt := now s - rd HPOL.last k s
  let cir := rd SCH_POL_W0.cir k s
  let pir := max cir (rd SCH_POL_W2.pir k s)
  let c := min (rdI HPOL.c k s + (cir * dt : Nat)) ((rd SCH_POL_W1.cbs k s * polUnit : Nat) : Int)
  let p := min (rdI HPOL.p k s + (pir * dt : Nat)) ((rd SCH_POL_W3.pbs k s * polUnit : Nat) : Int)
  wrI HPOL.c k c s |> wrI HPOL.p k p |> wr HPOL.last k (now s)

/-- Show a policer's tokens in its registers, whole signed bytes. -/
def polShow (k : Nat) (s : State) : State :=
  wrI SCH_POL_W5.c_tokens k (rdI HPOL.c k s / polUnit) s |> wrI SCH_POL_W6.p_tokens k (rdI HPOL.p k s / polUnit)

/-- Take (or return) bytes from the buckets a mask names, a return clipped to the bucket's size (R234). -/
def polMove (k mask : Nat) (bytes : Int) (s : State) : State :=
  let one := fun (b : Nat) (f size : Fld) (t : State) =>
    if mask.testBit b then wrI f k (min (rdI f k t + bytes * polUnit) ((rd size k t * polUnit : Nat) : Int)) t else t
  one 0 HPOL.c SCH_POL_W1.cbs s |> one 1 HPOL.p SCH_POL_W3.pbs |> polShow k

/-- A write that sets enable to 1 fills both buckets (R237). -/
def polFill (k : Nat) (s : State) : State :=
  wrI HPOL.c k ((rd SCH_POL_W1.cbs k s * polUnit : Nat) : Int) s |> wrI HPOL.p k ((rd SCH_POL_W3.pbs k s * polUnit : Nat) : Int)
    |> wr HPOL.last k (now s) |> polShow k

/-- Colour of a frame of `b` bytes at policer `k`, refilled (R232): 0 green, 1 yellow, 2 red. -/
def polColour (k b : Nat) (s : State) : Nat :=
  let need : Int := (b * polUnit : Nat)
  if rdI HPOL.p k s < need then 2 else if rdI HPOL.c k s < need then 1 else 0

/-- POLICER_SWEEP (R236). -/
def polSweep (s : State) : State :=
  forEach ((touched SCH_POL_W4.enable s).filter (fun k => rdB SCH_POL_W4.enable k s)) (fun k t => polShow k (polRefill k t)) s

/-- A frame meets its policer (R232, R234): the colour, charged. -/
def police (f : Nat) (s : State) : Nat × State :=
  if rd FRM.pol f s = 0 || !rdB SCH_POL_W4.enable (rd FRM.pol f s - 1) s then (0, s)
  else
    let k := rd FRM.pol f s - 1
    let s := polRefill k s
    let b := if rdB FRM.ended f s then rd FRM.len f s else rd SCH_POL_W4.max_charge k s
    let col := polColour k b s
    let mask := [3, 2, 0].getD col 0
    let s := polMove k mask (-(b : Int)) s |> wr FRM.polc f b |> wr FRM.polt f mask
    (col, inc ([cnt_SCH_pol_green, cnt_SCH_pol_yellow].getD col cnt_SCH_pol_red) k s)

/-- The last byte of a policed frame arrives (R234): the charge becomes the length, or nothing for an errored close. -/
def polCorrect (f len : Nat) (s : State) : State :=
  if rd FRM.polt f s = 0 then s
  else
    let k := rd FRM.pol f s - 1
    polMove k (rd FRM.polt f s) ((rd FRM.polc f s : Int) - len) (polRefill k s) |> wr FRM.polc f len

/-! ### Fabric sequence numbers (R255) -/

/-- Does a frame carry the number of stream `n` in its received tag (R250, R256)? -/
def carriesNumber (f n : Nat) (s : State) : Bool :=
  rdB FRM.tagged f s && rd FRM.ttype f s = 1 && rd FRM.tflow f s = n && !rdB FRM.kpush f s

/-- The next number of a stream (R255). -/
def nextSeq (n : Nat) (s : State) : Nat × State := (rd FAB_STREAM_W1.tx_seq n s, addF FAB_STREAM_W1.tx_seq n 1 s)

/-! ### Bundles (R254) -/

/-- Members in a bundle's mask. -/
def bundleMask (b : Nat) (s : State) : List Nat := (bundlePorts b s).filter (fun p => portUp p s)

/-- The egress port an admitted frame of stream `n` takes for a hop that names `eg` (R254). -/
def pickMember (n eg : Nat) (s : State) : Nat × State :=
  let b := bundleOf eg s
  if (hopPorts eg s).length < 2 then (eg, s)
  else
    match bundleMask b s with
    | [] =>
      let s := inc cnt_FAB_bundle_empty 0 s
      (eg, if rdB HFAB.empty b s then s else raise 0x0A03 [b] (wr FAB_EVT.ev_bundle 0 1 (wr HFAB.empty b 1 s)))
    | p :: l =>
      if !rdB FAB_STREAM_W0.spray n s then (p, s)
      else
        let last := rd STM.spray n s
        let q := ((p :: l).find? (fun x => last < x + 1)).getD p
        (q, wr STM.spray n (q + 1) s)

/-! ### Enqueue of admitted frames (R198, R212, R260) -/

/-- Queue an admitted frame takes by its hop (R212): the gated queue of its egress port, or queue 0 or 1 of its node. -/
def admCode (n k eg : Nat) (s : State) : Nat :=
  if rd STM.class_ n s = 1 then (4 * eg + rd STM.gq n s) * 4 + 1 else (8 * hopNode k eg s + rd HOP.queue k s) * 4

/-- What a copy of an admitted frame is: it always cuts through (R93). -/
def admSet (n flow seq : Nat) (sched : Bool) (d : Nat) (s : State) : State :=
  wr DSC.adm d 1 s |> wr DSC.stream d n |> wr DSC.flow d flow |> wr DSC.seq d seq |> wrB DSC.sched d sched |> wr DSC.cut d 1

/-- Put an admitted frame on the queue of hop `k` of stream `n`, leaving by `eg`. -/
def admPut (f n k eg flow seq : Nat) (s : State) : State :=
  let s := if rd STM.class_ n s = 1 || hopNode k eg s = rd HOP.node k s then s
    else inc cnt_SCH_node_mismatch eg s |> raiseLimEv SCH_EVT.ev_node_mismatch 0 0x0205 0 1000000000 [rd HOP.node k s, eg]
  enqueue f (admCode n k eg s) eg (admSet n flow seq (rd STM.class_ n s = 1)) s

/-- The frame's mirror copies, made through the multicast queue of its priority group (R133, R187). -/
def mirrorsPut (f : Nat) (s : State) : State :=
  if getL LFRM.mirror f s = [] then s
  else
    let s := if rd FRM.acct f s = 2 then s else setAcct f 2 s
    enqueue f (mcQueue f s) 0 (fun _ t => t) s

/-- An admitted copy meets a flushed egress port (R205) or a buffer without room for its cells (R198): is it turned away? -/
def admTurned (eg cells : Nat) (held : Bool) (s : State) : Bool :=
  rd BUF_PORT_STATUS.hold_state eg s = 2 || !(held || admRoom eg cells s)

/-- A copy of stream `n` turned away is counted: link_down_drop with the stream's fault loss (R205, R36), or adm_no_cell (R198). -/
def admLose (n k eg : Nat) (s : State) : State :=
  if rd BUF_PORT_STATUS.hold_state eg s = 2 then
    faultLoss n (inc cnt_BUF_link_down_drop eg (inc cnt_TEL_q_drops (admCode n k eg s) s))
  else admNoCell n eg s

/-- The hop of a split stream's partner that its frame's copy takes, while the partner is admitted (R260). -/
def splitHop (f n : Nat) (s : State) : Option Nat :=
  let b := rd FAB_STREAM_W1.partner n s
  if !rdB FAB_STREAM_W0.split n s || strState b s ≠ 2 then none else hopFor b (rd FRM.port f s) s

/-- The copy of a split stream's frame to its partner's hop (R260). -/
def splitPut (f n seq : Nat) (s : State) : State :=
  match splitHop f n s with
  | none => s
  | some k =>
    let b := rd FAB_STREAM_W1.partner n s
    let (eg, s) := pickMember b (rd HOP.eg k s) s
    if admTurned eg (getL LFRM.cells f s).length false s then admLose b k eg s
    else inc cnt_FAB_frer_copies 0 (admPut f b k eg (b + 1) (seq + 1) s)

/-- Does a frame of stream `n` leaving by `eg` take a number of the stream (R255, R260): its own tag is built or does not hold it?
DESIGN CHOICE (log entry 172): a frame for a port in hold takes its number too, for the tag it will carry once the peer is known again. -/
def takesNumber (f n eg : Nat) (s : State) : Bool :=
  !carriesNumber f n s && (rdB PRT_PORT_STATUS.tag_active eg s || rdB FAB_STREAM_W0.split n s ||
    (rd BUF_PORT_STATUS.hold_state eg s = 1 && rdB PRT_PORT_CFG.ibyon_enable eg s))

/-- An admitted frame is enqueued: member, number, queue, partner copy, mirror copies. A frame that a context charged
before keeps that charge (R198); one for a flushed port is dropped (R205), and its partner copy still goes its own way (R260). -/
def admEnqueue (f : Nat) (s : State) : State :=
  let n := rd FRM.stream f s
  let k := n * 32 + (rd FRM.hop f s - 1)
  let held := rd FRM.acct f s = 3 || rd FRM.acct f s = 4
  let (eg, s) := pickMember n (rd HOP.eg k s) s
  let s := wr FRM.stage f 3 s
  let turned := admTurned eg (getL LFRM.cells f s).length held s
  if turned && splitHop f n s = none then bufRefuse f (admLose n k eg s)
  else
    let takes := takesNumber f n eg s
    let (q, s) := if takes then nextSeq n s else (rd FRM.tseq f s, s)
    let s := splitPut f n q (if turned then admLose n k eg s else admPut f n k eg 0 (if takes then q + 1 else 0) s)
    if rd FRM.refs f s = 0 then bufRefuse f s else mirrorsPut f s

/-! ### Resequencing contexts (R256) -/

/-- Streams that name a context. -/
def ctxStreams (c : Nat) (s : State) : List Nat :=
  (touched FAB_STREAM_W0.ctx_en s).filter (fun n => rdB FAB_STREAM_W0.ctx_en n s && rd FAB_STREAM_W0.ctx n s = c)

/-- Does a frame's number go through the context of stream `n` (R256)? -/
def entersCtx (f n : Nat) (s : State) : Bool :=
  rdB FAB_STREAM_W0.ctx_en n s && rdB FRM.tagged f s && rd FRM.ttype f s = 1 &&
    (ctxStreams (rd FAB_STREAM_W0.ctx n s) s).contains (rd FRM.tflow f s)

/-- The frame a context holds at a number. -/
def ctxSlot (c q : Nat) (s : State) : Option Nat :=
  ((getL LRSQ.slots c s).find? (fun e => e / 2 ^ 32 = q)).map (· % 2 ^ 32)

/-- Record the fate of a number as next passes it. -/
def ctxHist (c q : Nat) (released : Bool) (s : State) : State :=
  let h := getL LRSQ.hist c s ++ [q * 2 + b2n released]
  setL LRSQ.hist c (if 1024 < h.length then h.tail else h) s

/-- Was a number of the history released? -/
def ctxReleased (c q : Nat) (s : State) : Bool := (getL LRSQ.hist c s).contains (q * 2 + 1)

/-- Take a frame out of a context and enqueue it. -/
def ctxOut (c q f : Nat) (s : State) : State :=
  admEnqueue f (subF FAB_RSQ.held c 1 (setL LRSQ.slots c ((getL LRSQ.slots c s).filter (fun e => e / 2 ^ 32 ≠ q))
    (ctxHist c q true (resetF RSQ.since f s))))

/-- release_run(c) (R256); the first argument bounds the numbers in a row. -/
def releaseRun (c : Nat) : Nat → State → State
  | 0, s => s
  | n + 1, s =>
    let q := rd FAB_RSQ.next c s
    match ctxSlot c q s with
    | none => s
    | some f => releaseRun c n (addF FAB_RSQ.next c 1 (ctxOut c q f s))

/-- skip_to(c, ·) over `n` numbers (R256). -/
def skipOver (c : Nat) : Nat → State → State
  | 0, s => s
  | n + 1, s =>
    let q := rd FAB_RSQ.next c s
    let s := match ctxSlot c q s with
      | some f => ctxOut c q f s
      | none => ctxHist c q false s |> inc cnt_FAB_rsq_skip 0 |> raiseLimEv FAB_EVT.ev_rsq 0 0x0A01 0 1000000 [c, q]
          |> forEach (ctxStreams c s) faultLoss
    skipOver c n (addF FAB_RSQ.next c 1 s)

/-- A frame a context discards: gone, with its cells, but for its mirror copies. -/
def ctxDiscard (f : Nat) (s : State) : State := frmDone f (mirrorsPut f (wr FRM.stage f 3 s))

/-- on_arrival(c, f) (R256); the frame has been charged and stands for the context. -/
def ctxArrive (c f : Nat) (s : State) : State :=
  let q := rd FRM.tseq f s
  let idle := rd RSQ.last c s = 0 || rd FAB_RSQ_CFG.reset_idle 0 s * 1000000 ≤ now s - (rd RSQ.last c s - 1)
  let s := if !rdB FAB_RSQ.learned c s || idle then
      wr FAB_RSQ.next c q s |> wr FAB_RSQ.learned c 1 |> setL LRSQ.hist c []
    else s
  let s := wr RSQ.last c (now s + 1) s
  let diff := (q + 65536 - rd FAB_RSQ.next c s) % 65536
  if 32768 ≤ diff then
    if ctxReleased c q s then ctxDiscard f (inc cnt_FAB_frer_dup 0 s)
    else ctxDiscard f (faultLoss (rd FRM.stream f s) (inc cnt_FAB_rsq_late 0 s |> raiseLimEv FAB_EVT.ev_rsq 0 0x0A02 0 1000000 [rd FRM.stream f s, q]))
  else
    let s := if 1024 ≤ diff then skipOver c (diff - 1023) s else s
    match ctxSlot c q s with
    | some _ => ctxDiscard f (inc cnt_FAB_frer_dup 0 s)
    | none =>
      let s := pushL LRSQ.slots c (q * 2 ^ 32 + f) s |> addF FAB_RSQ.held c 1 |> wr FRM.stage f 4 |> wr RSQ.since f (now s + 1)
      releaseRun c 1025 s

/-- The context takes or bypasses an admitted frame at its release (R256, R198). Its cells are charged to the share of the port its hop
would leave by now; the member is picked at its enqueue (R254). -/
def admRelease (f : Nat) (s : State) : State :=
  let n := rd FRM.stream f s
  if !entersCtx f n s then admEnqueue f s
  else
    let eg := (pickMember n (rd HOP.eg (n * 32 + (rd FRM.hop f s - 1)) s) s).1
    if !admRoom eg (getL LFRM.cells f s).length s then bufRefuse f (admNoCell n eg (wr FRM.stage f 3 s))
    else ctxArrive (rd FAB_STREAM_W0.ctx n s) f (setAcct f 3 (wr FRM.rport f eg s))

/-- on_tick(c) (R256): time has passed until the oldest frame has been held for rsq_timeout. -/
def ctxTick (c : Nat) (s : State) : State :=
  let held := (getL LRSQ.slots c s).filter (fun e => running RSQ.since (e % 2 ^ 32) s)
  match held with
  | [] => s
  | e :: l =>
    let oldest := l.foldl (fun a b => if rd RSQ.since (b % 2 ^ 32) s < rd RSQ.since (a % 2 ^ 32) s then b else a) e
    let s := passTo (rd RSQ.since (oldest % 2 ^ 32) s - 1 + rd FAB_RSQ_CFG.rsq_timeout 0 s * 100) s
    let gap := (oldest / 2 ^ 32 + 65536 - rd FAB_RSQ.next c s) % 65536
    releaseRun c 1025 (skipOver c gap s)

end Sys2Proof.Machine
end

