-- ==== Sys2Proof/Machine/Egr.lean ====
section
/-!
DEFINITION. The egress engine: the bytes a copy leaves with (R134, R135, R159), its Ibyon tag (R250, R251), its length on the
wire (R215), and its frame check sequence (R246).
-/

namespace Sys2Proof.Machine

/-- The router's source address (R159). -/
def routerMac (s : State) : Nat := rd TBL_ROUTER_MAC_HI.mac_hi 0 s * 2 ^ 32 + rd TBL_ROUTER_MAC_LO.mac_lo 0 s

/-- The next hop that rewrites a copy: its own for a group copy, the frame's for a unicast frame; none for an admitted frame. -/
def dscNh (d : Nat) (s : State) : Option Nat :=
  let f := rd DSC.frame d s
  if rdB DSC.adm d s then none
  else if rdB DSC.nh d s then some (rd DSC.nhdata d s)
  else if rd FRM.nh f s ≠ 0 && !rdB DSC.copy d s then some (rd FRM.nhdata f s) else none

/-- The bytes of a copy after rewrite, without FCS, from what has arrived of the frame. -/
def sentBody (d : Nat) (s : State) : List Nat :=
  let f := rd DSC.frame d s
  let bs := frmBody f s
  if rdB DSC.raw d s then (if rd DSC.trunc d s = 0 then bs else bs.take (rd DSC.trunc d s))
  else
    let recs := (getL LFRM.recs f s).map unpackRec
    let gone := popRanges recs (getL LFRM.pops f s)
    let bare := stackGone gone bs
    let bs := writeBack (getL LFRM.cont f s) (getL LFRM.wb f s) gone bs
    let nh := dscNh d s
    let rs := decRecs recs gone (getL LFRM.decs f s) (nh.any nhRoute)
    let bs := dropGone gone (if rdB DSC.adm d s then (decHold rs bs).1 else (decAll rs bs).1)
    let bs := match nh with
      | some n => nhWrites n (routerMac s) bs
      | none => bs
    pushAll bare (getL LFRM.push f s ++ getL LDSC.push d s) bs

/-- Class of a copy on this device. -/
def dscClass (d : Nat) (s : State) : Nat := if rdB DSC.adm d s then (if rdB DSC.sched d s then 1 else 2) else 0

/-- The tag a copy leaves with, built at TB0 now (R250, R251); none without tag_active. -/
def tagOf (d : Nat) (s : State) : List Nat :=
  if !rdB PRT_PORT_STATUS.tag_active (rd DSC.eg d s) s then []
  else
    let f := rd DSC.frame d s
    let adm := rdB DSC.adm d s
    let kept := tagKept d true s
    let own := rd DSC.seq d s = 0 && rdB FRM.tagged f s && rd FRM.ttype f s = 1
    let flow := if adm then dscFlow d s else 0
    let seq := if adm && (own || rd DSC.seq d s ≠ 0) then dscSeq d s else 0
    let hops := if kept then min 63 (rd FRM.thops f s + 1) else 1
    let src := if kept then rd FRM.tsrc f s else rd FAB_CTRL.device_id 0 s
    let ns := if kept then rd FRM.tns f s else rd FRM.tbstamp f s / 2 ^ 32 % 2 ^ 32
    let frac := if kept then rd FRM.tfrac f s else rd FRM.tbstamp f s / 2 ^ 16 % 2 ^ 16
    [16 + b2n adm, dscClass d s * 64 + hops] ++ beBytes 2 src ++ beBytes 2 flow ++ beBytes 2 seq ++ beBytes 4 ns ++ beBytes 2 frac
      ++ [slackOf d kept (rd TBC.count 0 s - rd FRM.stamp f s) s, pslackOf d kept s]

/-- Length of a copy as sent, with FCS, without tag (R54). -/
def sentLen (d : Nat) (s : State) : Nat := (sentBody d s).length + 4

/-- Is a copy's length known (R215)? -/
def lenKnown (d : Nat) (s : State) : Bool := rdB FRM.ended (rd DSC.frame d s) s

/-- A copy's charge on its egress port (R215). -/
def dscCharge (d : Nat) (s : State) : Nat :=
  (if lenKnown d s then sentLen d s else 256) + sentO (rd DSC.eg d s) s

/-- Picoseconds `n` bytes take at a port's MAC rate, rounded up. -/
def wirePs (p n : Nat) (s : State) : Nat := ceilDiv (n * 8000) (portRate p s)

/-- Wire bytes a copy counts as in the guard and fit tests (R226): max_frame plus o for a frame of unknown length. -/
def guardBytes (d : Nat) (s : State) : Nat :=
  let p := rd DSC.eg d s
  (if lenKnown d s then sentLen d s else portMax p s) + sentO p s

end Sys2Proof.Machine
end

