-- ==== Sys2Proof/Machine/Mgm.lean ====
section
/-!
DEFINITION. Management messages as bytes (R481) and the replies the management engine sends (R480, R482, R483).
-/

namespace Sys2Proof.Machine

/-- The 20 bytes of a message header before its tag (R481). -/
def mgmtHead (type sess ctr rid len status : Nat) : List Nat :=
  beBytes 2 0x5A4D ++ [1, type] ++ beBytes 4 sess ++ beBytes 4 ctr ++ beBytes 4 rid ++ beBytes 2 len ++ beBytes 2 status

/-- The tag of a message under a session key: over the header with the tag zeroed, then the payload (R481). -/
def mgmtTag (key head payload : List Nat) : Nat := Config.hmac16 key (head ++ List.replicate 16 0 ++ payload) % 2 ^ 128

/-- Where a reply goes: the path (2 MGMT0, 3 MGMT1, 4 in band), the ingress port of an in-band request, and the header fields echoed. -/
structure MgmtTo where
  path : Nat
  port : Nat
  sess : Nat
  ctr : Nat
  rid : Nat
deriving DecidableEq, Repr

/-- The bytes of a message. -/
def mgmtBytes (w : MgmtTo) (type status : Nat) (payload : List Nat) (s : State) : List Nat :=
  let key := if w.sess = 0 then [] else getL LACC.key (w.sess - 1) s
  let h := mgmtHead type w.sess w.ctr w.rid payload.length status
  h ++ beBytes 16 (if key = [] then 0 else mgmtTag key h payload) ++ payload

/-- The Internet checksum of bytes. -/
def inetSum (bs : List Nat) : Nat := 65535 - ocSum (bs ++ [0]) 0 (2 * ((bs.length + 1) / 2))

/-- The frame of a reply in band (R480): the addresses and ports of the request swapped, its VLAN tags, and the router's MAC address as source.
`h` holds what the request's headers gave: IPv6 or not, the number of tags, source MAC, tags, source and destination address, and UDP
ports. DESIGN CHOICE (log entry 183): TTL 64, no fragmentation, no options, and both checksums set. -/
def replyFrame (h payload : List Nat) (s : State) : List Nat :=
  let v6 := h.headD 0 = 1
  let al := if v6 then 16 else 4
  let tags := (h.drop 8).take (4 * h.getD 1 0)
  let a := h.drop (8 + 4 * h.getD 1 0)
  let ends := (a.drop al).take al ++ a.take al
  let ports := (a.drop (2 * al + 2)).take 2 ++ (a.drop (2 * al)).take 2
  let n := 8 + payload.length
  let pseudo := ends ++ (if v6 then beBytes 4 n ++ [0, 0, 0, 17] else [0, 17] ++ beBytes 2 n)
  let c := inetSum (pseudo ++ ports ++ beBytes 2 n ++ [0, 0] ++ payload)
  let ip := if v6 then [0x60, 0, 0, 0] ++ beBytes 2 n ++ [17, 64]
    else
      let x := [0x45, 0] ++ beBytes 2 (20 + n) ++ [0, 0, 0x40, 0, 64, 17]
      x ++ beBytes 2 (inetSum (x ++ [0, 0] ++ ends))
  (h.drop 2).take 6 ++ beBytes 6 (routerMac s) ++ tags ++ beBytes 2 (if v6 then 0x86DD else 0x0800) ++ ip ++ ends
    ++ ports ++ beBytes 2 n ++ beBytes 2 (if c = 0 then 65535 else c) ++ payload

/-- Send the bytes of a reply: on a management port, or in band as best effort out of the ingress port of the request, to its default node
and queue (R480). DESIGN CHOICE (log entry 183): in band it stands in cells as an injected frame does, and is dropped where the receive region is
full. -/
def mgmtOut (w : MgmtTo) (bytes : List Nat) (s : State) : State :=
  let s := inc cnt_HIF_mgmt_tx 0 s
  if w.path ≠ 4 then emit .mgmt w.path bytes s
  else if injectFull s then s
  else sendBe 0 w.port 0 (rd SCH_PORT_W0.default_queue w.port s + 1) (Config.freeInput s.cyc 3072 % 1048576)
    (injectBytes (replyFrame (getL LHIF.hdr w.sess s) bytes s)) s

/-- Answer a request; the last reply of an open session is kept (R483). -/
def mgmtReply (w : MgmtTo) (type status : Nat) (payload : List Nat) (s : State) : State :=
  let b := mgmtBytes w type status payload s
  let s := if w.sess ≠ 0 && getL LACC.key (w.sess - 1) s ≠ [] then setL LHIF.reply (w.sess - 1) ((w.rid + 1) :: b) s else s
  mgmtOut w b s

end Sys2Proof.Machine
end

