-- ==== Sys2Proof/Machine/Bkt.lean ====
section
/-!
DEFINITION. Token buckets (R220 to R222) and the timing wheels (R223, R224). A bucket is named by its kind (0 node min, 1 node
max, 2 service min, 3 service max) times 32,768 plus its node.
-/

namespace Sys2Proof.Machine

/-- Kind and node of a bucket. -/
def bktKind (b : Nat) : Nat := b / 32768
def bktNode (b : Nat) : Nat := b % 32768

/-- The register that holds a bucket's programmed rate, and its burst (R222). -/
def bktRateF (k : Nat) : Fld :=
  match k with
  | 0 => SCH_SUB_W1.min_rate
  | 1 => SCH_SUB_W3.max_rate
  | 2 => SCH_SVC_W1.min_rate
  | _ => SCH_SVC_W3.max_rate
def bktBurstF (k : Nat) : Fld :=
  match k with
  | 0 => SCH_SUB_W2.min_burst
  | 1 => SCH_SUB_W4.max_burst
  | 2 => SCH_SVC_W2.min_burst
  | _ => SCH_SVC_W4.max_burst

/-- The conformance bit that shows a bucket. -/
def bktConfF (k : Nat) : Fld :=
  match k with
  | 0 => SCH_SUB_W7.min_conf
  | 1 => SCH_SUB_W7.max_conf
  | 2 => SCH_SVC_W5.min_conf
  | _ => SCH_SVC_W5.max_conf

/-- Does a bucket conform (R220): a min rate of 0 never, a max rate of 0 always, any other while no wheel holds it? -/
def bktConf (b : Nat) (s : State) : Bool :=
  if rd BKT.rate b s = 0 then bktKind b % 2 = 1 else rd BKT.place b s = 0

/-- Show a bucket in its node's status word. -/
def bktShow (b : Nat) (s : State) : State :=
  let k := bktKind b
  let n := bktNode b
  let s := wrB (bktConfF k) n (bktConf b s) s
  let lo := b - (k % 2) * 32768
  wrB (if k < 2 then SCH_SUB_W7.on_wheel else SCH_SVC_W5.on_wheel) n (rd BKT.place lo s ≠ 0 || rd BKT.place (lo + 32768) s ≠ 0) s

/-- Refill a bucket at TB0 time `t` (R221): accrue at the rate in force, adopt a held write, clip (R222). -/
def bktRefill (b t : Nat) (s : State) : State :=
  let k := bktKind b
  let n := bktNode b
  let x := rd BKT.rem b s + rd BKT.rate b s * (t - rd BKT.last b s)
  let tokens := rdI BKT.tokens b s + (x / 31250 : Nat)
  let rate := rd (bktRateF k) n s
  let burst := rd (bktBurstF k) n s
  let top : Int := (burst * 256 : Nat)
  let fresh := rd BKT.rate b s = 0 && rate ≠ 0
  let full := fresh || top < tokens
  wrI BKT.tokens b (if full then top else tokens) s |> wr BKT.rem b (if full then 0 else x % 31250) |> wr BKT.last b t
    |> wr BKT.rate b rate |> wr BKT.burst b burst

/-- A min bucket whose rate in force is 0 is never charged: a written rate is adopted when its port next selects (R222). -/
def bktAdopt (b : Nat) (s : State) : State :=
  if rd BKT.rate b s = 0 && rd (bktRateF (bktKind b)) (bktNode b) s ≠ 0 then bktShow b (bktRefill b (now s) s) else s

/-- place(b, t) (R223). -/
def bktPlace (b t : Nat) (s : State) : State :=
  let due := t + ceilDiv ((-(rdI BKT.tokens b s)).toNat * 31250) (rd BKT.rate b s)
  if due - t < 32760 then
    pushL LSCH.fine (ceilDiv due 4 % 8192) b (wr BKT.due b due (wr BKT.place b 1 s))
  else if due - t < 134184960 then
    pushL LSCH.coarse (due / 32768 % 4096) b (wr BKT.due b due (wr BKT.place b 2 s))
  else
    pushL LSCH.coarse ((t / 32768 + 4095) % 4096) b (wr BKT.due b ((t / 32768 + 4095) * 32768) (wr BKT.place b 3 s))

/-- Charge `n` bytes to a bucket (R215, R221): refilled first, placed on a wheel when its tokens fall below 0. -/
def bktCharge (b n : Nat) (s : State) : State :=
  let s := bktRefill b (now s) s
  if rd BKT.rate b s = 0 then bktShow b s
  else
    let s := wrI BKT.tokens b (rdI BKT.tokens b s - (n * 256 : Nat)) s
    bktShow b (if rdI BKT.tokens b s < 0 && rd BKT.place b s = 0 then bktPlace b (now s) s else s)

/-- A due entry: refilled, it conforms or is placed again. -/
def bktDue (t b : Nat) (s : State) : State :=
  let s := bktRefill b t (wr BKT.place b 0 s)
  bktShow b (if rdI BKT.tokens b s < 0 && rd BKT.rate b s ≠ 0 then bktPlace b t s else s)

/-- Pip at which a wheel entry is next looked at. -/
def bktPip (b : Nat) (s : State) : Nat :=
  if rd BKT.place b s = 1 then ceilDiv (rd BKT.due b s) 4 else rd BKT.due b s / 32768 * 8192

/-- Buckets on a wheel. -/
def wheelAll (s : State) : List Nat := (mkind s.lists LSCH.fine.id).flatMap (·.2) ++ (mkind s.lists LSCH.coarse.id).flatMap (·.2)

/-- The pip a WHEEL_PIP command stands for: the next one, or an earlier one whose entries time has already passed. -/
def pipNext (s : State) : Nat :=
  let late := if getL LSCH.late 0 s = [] then [] else [rd HSCH.pip 0 s + 1]
  ((wheelAll s).map (fun b => max (rd HSCH.pip 0 s + 1) (bktPip b s)) ++ late).foldl min (now s / 4 + 1)

/-- Move an entry of the coarse wheel to the fine wheel, keeping its due time. -/
def coarseMove (b : Nat) (s : State) : State :=
  pushL LSCH.fine (ceilDiv (rd BKT.due b s) 4 % 8192) b (wr BKT.place b 1 s)

/-- Entries of the coarse wheel at a pip that starts one of its slots: moved to the fine wheel, or due for a recheck. -/
def coarseAt (p : Nat) (s : State) : List Nat × State :=
  if p % 8192 ≠ 0 then ([], s)
  else
    let i := p / 8192 % 4096
    let es := (getL LSCH.coarse i s).filter (fun b => bktPip b s ≤ p)
    let s := setL LSCH.coarse i ((getL LSCH.coarse i s).filter (fun b => !es.contains b)) s
    let (re, mv) := es.partition (fun b => rd BKT.place b s = 3)
    (re, forEach mv coarseMove s)

/-- WHEEL_PIP (R223, R224): up to 64 due entries, oldest first; the rest wait for later pips. -/
def wheelPip (s : State) : State :=
  let p := pipNext s
  let s := passTo (4 * p) s
  let (re, s) := coarseAt p s
  let i := p % 8192
  let fine := (getL LSCH.fine i s).filter (fun b => bktPip b s ≤ p)
  let s := setL LSCH.fine i ((getL LSCH.fine i s).filter (fun b => !fine.contains b)) s
  let due := getL LSCH.late 0 s ++ (re ++ fine).map (fun b => b * 2 ^ 64 + p)
  let s := setL LSCH.late 0 (due.drop 64) s |> wr HSCH.pip 0 p
  forEach (due.take 64) (fun e t =>
    let lag := p - e % 2 ^ 64
    let t := if lag = 0 then t else
      (fun u => if rd SCH_WHEEL_STATUS.max_lag 0 u < lag then wr SCH_WHEEL_STATUS.max_lag 0 (min lag 65535) u else u) (inc cnt_SCH_wheel_late 0 t)
    bktDue (now t) (e / 2 ^ 64) t) s

end Sys2Proof.Machine
end

