-- ==== Sys2Proof/Machine/Slc.lean ====
section
/-!
DEFINITION. The frame path of a slice from the first byte to the queue (R82 to R101): head buffer, dispatch, results, the
resequencer, release, and input that stops mid-frame.
-/

namespace Sys2Proof.Machine

/-! ### Receive (R54, R83 to R85, R196, R249) -/

/-- Is the device ready to forward (R429)? -/
def bootReady (s : State) : Bool := rd CFG_BOOT_STATUS.state 0 s = 1

/-- Why a tagged frame is not taken (R249): 1 = bad tag, 2 = a power-group message, 3 = hop limit, 0 = it is taken. -/
def tagCheck (tag : List Nat) (s : State) : Nat :=
  if tag.getD 0 0 / 16 ≠ 1 || 3 ≤ tag.getD 0 0 % 16 then 1
  else if tag.getD 0 0 % 16 = 2 then 2
  else if tag.getD 1 0 / 64 = 0 && rd FAB_CTRL.hop_limit 0 s ≤ tag.getD 1 0 % 64 then 3 else 0

/-- The early mark (R84). -/
def earlyMark (slot : Nat) (tag body : List Nat) (s : State) : Bool :=
  rdB SLC_PORT_CFG.early_all slot s
    || (rdB SLC_PORT_CFG.early_tag slot s && tag ≠ [] && (tag.getD 1 0 / 64 = 1 || tag.getD 1 0 / 64 = 2))
    || (match outerPcp body with
      | some k => (rd SLC_PORT_CFG.early_pcp slot s).testBit k
      | none => false)

/-- Which head-buffer entry a frame may take (R85): 1 = shared, 2 = reserved, 0 = none. -/
def headPick (sl : Nat) (early : Bool) (s : State) : Nat :=
  if early && rd HSLC.rsv sl s < 256 then 2 else if rd HSLC.shr sl s < 768 then 1 else 0

/-- Keep a received tag's fields with the frame (R248, R249). -/
def keepTag (f : Nat) (tag : List Nat) (s : State) : State :=
  if tag = [] then s
  else
    let g := fun i n => beNat ((tag.drop i).take n)
    wr FRM.tagged f 1 s |> wr FRM.ttype f (g 0 1 % 16) |> wr FRM.tclass f (g 1 1 / 64) |> wr FRM.thops f (g 1 1 % 64)
      |> wr FRM.tsrc f (g 2 2 % 4096) |> wr FRM.tflow f (g 4 2) |> wr FRM.tseq f (g 6 2) |> wr FRM.tns f (g 8 4)
      |> wr FRM.tfrac f (g 12 2) |> wr FRM.tslack f (g 14 1) |> wr FRM.tpslack f (g 15 1) |> setL LFRM.rawtag f tag

/-- A head-buffer entry is taken (R83, R110). -/
def headTake (sl entry : Nat) (s : State) : State :=
  let used := rd SLC_HEAD_STATUS.used sl s + 1
  addF (if entry = 2 then HSLC.rsv else HSLC.shr) sl 1 s |> wr SLC_HEAD_STATUS.used sl used
    |> (fun t => if rd SLC_HEAD_STATUS.peak sl t < used then wr SLC_HEAD_STATUS.peak sl used t else t)

/-- A frame the device has taken: its record, its head-buffer entry and its first cells. -/
def takeFrame (port sl entry : Nat) (early : Bool) (tag body : List Nat) (cell : Nat) (s : State) : State :=
  let f := rd HFRM.next 0 s
  wr HFRM.next 0 (f + 1) s |> wr FRM.live f 1 |> wr FRM.port f port |> wr FRM.slice f sl |> wr FRM.stamp f (rxStamp port 0 s)
    |> wr FRM.tbstamp f (rxStamp port (rd FAB_CTRL.stamp_tb 0 s) s) |> wrB FRM.early f early |> keepTag f tag
    |> setL LFRM.bytes f body |> wr FRM.pg f (pgOf port body s) |> wr FRM.head f entry |> pushL LSLC.heads sl f
    |> headTake sl entry |> wr FRM.acct f 1 |> growFrame f cell (max 1 (ceilDiv body.length 256))

/-- Can a port receive frames: link up, and its receiver neither quiet (R67) nor in a slice at rest? A takeover's gap leaves the MAC
receiving (R364). -/
def portHears (p : Nat) (s : State) : Bool :=
  (rdB HPRT.gap p s || !sliceAsleep (rd PRT_MACRO_STATUS.serving_slice (p / 16) s) s) && rdB PRT_PORT_STATUS.link_up p s && rd PRT_PORT_STATUS.state p s ≠ 5 && rd PRT_PORT_STATUS.state p s ≠ 6

/-- A frame from the peer while the 2 us of R67 run is a wake cause (R68). -/
def peerFrame (p : Nat) (s : State) : State := if running HPRT.quiet2 p s then wr HPRT.wakeup p 1 s else s

/-! ### Errored close (R96 to R99) -/

/-- A started copy ends with a corrupted FCS (R94, R97, R191). -/
def corruptDsc (d : Nat) (s : State) : State :=
  if rdB DSC.corrupt d s then s else inc cnt_PRT_tx_err_fcs (rd DSC.eg d s) (wr DSC.corrupt d 1 s)

/-- A dropped or errored frame's result: nothing of it goes on. -/
def asDrop (f : Nat) (s : State) : State := groupRelease f (wr FRM.res f 4 (wr FRM.adm f 0 (setL LFRM.mirror f [] s)))

/-- Frame `f` is closed as errored (R97), by a link fault of R71 or otherwise; `count` is false for a short frame. Its entry is released
wherever it stands, so no word of it is written any more (R83, R101). DEDUCED (log entry 142): a frame that waits for re-dispatch has its
result, a drop, at once. -/
def errClose (f : Nat) (fault count : Bool) (s : State) : State :=
  let sl := rd FRM.slice f s
  let st := rd FRM.stage f s
  let port := rd FRM.port f s
  let sc := sl * 64 + port % 64
  let s := wr FRM.err f 1 (wr FRM.ended f 1 s)
  let disc := fun (t : State) => if count then inc cnt_SLC_rx_discard_err sc t else t
  let s := polCorrect f 0 s
  let s := if fault && rdB FRM.adm f s && 3 ≤ st then faultLoss (rd FRM.stream f s) s else s
  let s := headRelease f s
  if st = 0 then frmDone f (disc s)
  else if rdB FRM.redisp f s then disc (wr FRM.redisp f 0 (wr FRM.stage f 2 (asDrop f s)))
  else if st < 3 then disc s
  else
    let ds := dscOf f s
    if st = 4 then disc s
    else if ds = [] then frmDone f (if rd FRM.refs f s = 0 then s else disc s)
    else if ds.any (fun d => rdB DSC.started d s) then
      let s := inc cnt_SLC_cut_abort sc (disc s)
      forEach ds (fun d t => if rdB DSC.started d t then corruptDsc d t else if rd DSC.code d t % 4 = 2 then t else wr DSC.err d 1 t) s
    else disc (forEach ds (fun d t => wr DSC.err d 1 t) s)

/-- The MAC keeps the bytes of a frame that does not enter the slice until its end (R54, R62): `k` is twice its kind, plus 1 where it
carries a tag. Kinds: 1 = dropped at its first byte, 2 = of the form of R62, 3 = PTP, 4 = MAC control, 5 = a stray power-group frame,
6 = a power-group message; `k` = 1: not sorted yet (R247). -/
def macKeep (port k : Nat) (bytes : List Nat) (s : State) : State := wr HPRT.mac port k (setL LPRT.mac port bytes s)

/-- Is a port receiving a frame? -/
def rxBusy (port : Nat) (s : State) : Bool := rd HPRT.cur port s ≠ 0 || rd HPRT.mac port s ≠ 0

/-- The frame a port is receiving is closed after `len` bytes (R96): its length, the bytes it counts, and the port's receive context. -/
def rxShut (port f len : Nat) (s : State) : State :=
  incBy cnt_PRT_rx_bytes port len (wr FRM.len f len (wordsNote (ceilDiv len 64) (wr HPRT.cur port 0 s)))

/-- A frame is closed as errored with the byte that exceeds max_frame (R54, R96). -/
def rxOver (port f : Nat) (s : State) : State :=
  errClose f false true (inc cnt_PRT_rx_oversize port (rxShut port f (portMax port s + 1) s))

/-- A data frame's first bytes, the MAC having counted it: the frame is taken, or dropped at its first byte (R83 to R85, R196, R249). -/
def rxData (port : Nat) (bytes : List Nat) (cell : Nat) (s : State) : State :=
  let act := rdB PRT_PORT_STATUS.tag_active port s
  let tag := if act then bytes.take 16 else []
  let body := if act then bytes.drop 16 else bytes
  let gone := macKeep port (if act then 3 else 2) bytes
  let bad := if act then tagCheck tag s else 0
  if !bootReady s then gone (inc cnt_CFG_boot_rx_drop 0 s)
  else if rdB HPRT.gap port s then gone (inc cnt_RED_gap_rx_drop port s)
  else if bad = 1 then
    gone (inc cnt_FAB_tag_bad 0 s |> raiseLimEv FAB_EVT.ev_tag 0 0x0A0A 0 1000000 [port, tag.getD 0 0 * 256 + tag.getD 1 0])
  else if bad = 2 then macKeep port 13 bytes s
  else if bad = 3 then gone (inc cnt_FAB_hop_limit_drop 0 s)
  else
    let s := dataFrame port s
    let sl := servSlice port s
    let early := earlyMark (sl * 64 + port % 64) tag body s
    let entry := headPick sl early s
    if entry = 0 then
      gone (inc cnt_SLC_head_drop (slot port s) s |> raiseLimEv SLC_EVT.ev_head_drop sl 0x1004 sl 1000000 [sl, port])
    else
      let room := (rd BUF_RX_CFG.rx_pool 0 s - if early then 0 else rd BUF_RX_CFG.rx_early 0 s) * 1024
      if room ≤ rd HBUF.rx_used 0 s then
        gone (headFree sl entry (headTake sl entry (inc cnt_BUF_rx_pool_drop port s)))
      else
        let f := rd HFRM.next 0 s
        let s := wr HPRT.cur port (f + 1) (takeFrame port sl entry early tag body cell s)
        if portMax port s < body.length then rxOver port f s else s

/-- Move a frame to another priority group, its cells' tags with it. -/
def regroup (f pg : Nat) (s : State) : State := if rd FRM.pg f s = pg then s else setAcct f (rd FRM.acct f s) (wr FRM.pg f pg s)

/-- FCS of a byte list as the MAC sends it (R246): CRC-32, with the fabric form XORed. -/
def fcsOf (tag body : List Nat) : Nat := crcIeee (tag ++ body) ^^^ (if tag = [] then 0 else 0x5A585A58)

/-- The receive context of a frame that does not enter the slice is free again. -/
def macFree (port : Nat) (s : State) : State := wr HPRT.mac port 0 (setL LPRT.mac port [] (setL LPRT.stamps port [] s))

/-- The MAC's counts of a frame of kind `kind` that ended without entering the slice (R54): its bytes, length and FCS, after a tag, with
the last test of R249 where no earlier one has turned it away. A good frame goes to `k`. -/
def macEnd (port kind : Nat) (tag body : List Nat) (k : State → State) (s : State) : State :=
  let len := body.length
  let over_ := portMax port s < len
  let s := incBy cnt_PRT_rx_bytes port (if over_ then portMax port s + 1 else len) s
  if over_ then inc cnt_PRT_rx_oversize port s
  else
    let fcs := leNat (body.drop (len - 4))
    let bad := fcs ≠ fcsOf tag (body.take (len - 4))
    let s := if bad then inc cnt_PRT_rx_fcs_err port s else s
    let s := if bad && tag ≠ [] && kind ≠ 1 && fcs = fcsOf [] (tag ++ body.take (len - 4)) then inc cnt_FAB_tag_mismatch 0 s else s
    if len < 64 then inc cnt_PRT_rx_undersize port s else if bad then s else k s

/-- Does a frame take cells for the bytes that still arrive (R196): it holds a cell, or copies have read and returned those it held and
more are to come? -/
def chainGrows (f : Nat) (s : State) : Bool := getL LFRM.cells f s ≠ [] || (rd FRM.freed f s ≠ 0 && rd FRM.refs f s ≠ 0)

/-- The rest of a data frame that is in the slice, through its FCS (R95, R54). A frame whose outer tag has only now arrived whole gets
its priority group by it (R194). -/
def rxLast (port : Nat) (rest : List Nat) (cell : Nat) (s : State) : State :=
  let f := rd HPRT.cur port s - 1
  if !rdB FRM.live f s then wr HPRT.cur port 0 s
  else
    let all := getL LFRM.bytes f s ++ rest
    let over_ := portMax port s < all.length
    let bytes := if over_ then all.take (portMax port s + 1) else all
    let len := bytes.length
    let have_ := (getL LFRM.cells f s).length
    let s := setL LFRM.bytes f bytes s
    let s := if rd FRM.stage f s = 0 then regroup f (pgOf port bytes s) s else s
    let s := if chainGrows f s then growFrame f cell (ceilDiv len 256 - have_ - rd FRM.freed f s) s else s
    if over_ then rxOver port f s
    else
      let s := wr FRM.ended f 1 (rxShut port f len s)
      let tag := getL LFRM.rawtag f s
      let body := bytes.take (len - 4)
      let fcs := leNat (bytes.drop (len - 4))
      let bad := fcs ≠ fcsOf tag body
      let s := if bad then inc cnt_PRT_rx_fcs_err port s else s
      let s := if bad && tag ≠ [] && fcs = fcsOf [] (tag ++ body) then inc cnt_FAB_tag_mismatch 0 s else s
      if len < 64 then errClose f false false (inc cnt_PRT_rx_undersize port s)
      else if bad then errClose f false true s
      else
        let s := polCorrect f len s
        let s := if rdB FRM.rxdone f s then incBy cnt_TEL_s_rx_bytes (rd FRM.stream f s) len s else s
        if rd FRM.refs f s = 0 && rd FRM.stage f s = 3 then frmDone f s else s

/-- ERRORED_CLOSE (R96): the frame a port is receiving, if any. -/
def rxClose (port : Nat) (fault : Bool) (s : State) : State :=
  if rd HPRT.mac port s ≠ 0 then
    incBy cnt_PRT_rx_bytes port (getL LPRT.mac port s).length (macFree port s)
  else if rd HPRT.cur port s = 0 then s
  else
    let f := rd HPRT.cur port s - 1
    if !rdB FRM.live f s then wr HPRT.cur port 0 s
    else errClose f fault true (rxShut port f (getL LFRM.bytes f s).length s)

/-! ### Head words (R83, R184) -/

/-- Words of a frame that stand in its head-buffer entry. -/
def headWords (f : Nat) (s : State) : Nat := min 4 (ceilDiv (getL LFRM.bytes f s).length 64)

/-- After the resequencer has accepted a result, the entry goes once every word is written, or at once for a drop (R83). -/
def headSettle (f : Nat) (s : State) : State :=
  if rd FRM.stage f s < 2 then s
  else if rd FRM.res f s = 4 && getL LFRM.mirror f s = [] then headRelease f s
  else if headWords f s ≤ rd FRM.hwords f s then headRelease f s else s

/-- Does frame `f` have a word that waits in its entry? -/
def headWaits (f : Nat) (s : State) : Bool := rd FRM.head f s ≠ 0 && rd FRM.hwords f s < headWords f s

/-- The frame whose head word is written next (R184): the oldest of the early-marked, and without one the oldest. -/
def headTurn (s : State) : Option Nat :=
  let fs := (touched FRM.head s).filter (fun f => headWaits f s)
  match fs.find? (fun f => rdB FRM.early f s) with
  | some f => some f
  | none => fs.head?

/-- HEAD_WORD_WRITE (R184): the next word of the frame in turn is written from its entry; a corrected error in it is counted. -/
def headWrite (f : Nat) (corrected : Bool) (s : State) : State :=
  if headTurn s ≠ some f then s
  else
    let s := if corrected then inc cnt_TEL_head_ecc_corr 0 s else s
    let s := forEach ((getL LFRM.cells f s).take 1) (fun c t => wr CELL.touched c 1 t) s
    frmReap f (headSettle f (addF FRM.hwords f 1 s))

/-- HEAD_BUFFER_ECC_ERROR (R101): word `w` of a frame's entry cannot be corrected. DESIGN CHOICE (log entry 171): a frame not yet
dispatched has no sequence number, and the event carries 0 for it. -/
def headEcc (f w : Nat) (s : State) : State :=
  if rd FRM.head f s = 0 then s
  else
    let sl := rd FRM.slice f s
    let port := rd FRM.port f s
    let s' := inc cnt_SLC_head_ecc sl s |> wr SLC_EVT.ev_head_ecc sl 1 |> raise 0x1005 [sl, port, rd FRM.seq f s]
    if w < rd FRM.hwords f s then s'
    else errClose f false true (if rd HPRT.cur port s = f + 1 then wr HPRT.cur port 0 (wr FRM.len f (getL LFRM.bytes f s).length s') else s')

/-! ### Dispatch (R86 to R88) -/

/-- Ready for dispatch (R86): 256 bytes, or the whole frame. -/
def frmReady (f : Nat) (s : State) : Bool :=
  rd FRM.stage f s = 0 && !rdB FRM.err f s && (256 ≤ (getL LFRM.bytes f s).length || rdB FRM.ended f s)

/-- Outstanding sequence numbers of a slot (R88). -/
def seqOut (sc : Nat) (s : State) : Nat := (rd SLC_PORT_SEQ.next_seq sc s + 4096 - rd SLC_PORT_SEQ.oldest sc s) % 4096

/-- The frame of a slot and group that is next in arrival order, if it is ready and a number is free. -/
def nextOf (sl sp : Nat) (early : Bool) (s : State) : Option Nat :=
  match (getL LSLC.heads sl s).find? (fun f => rd FRM.port f s % 64 = sp && rd FRM.stage f s = 0 && !rdB FRM.err f s
      && !rdB FRM.redisp f s && rdB FRM.early f s = early) with
  | none => none
  | some f => if frmReady f s && seqOut (sl * 64 + sp) s < 256 then some f else none

/-- The first slot from `r` on, cyclically, that has a frame to dispatch in a group. -/
def nextSlot (sl : Nat) (early : Bool) (r : Nat) (s : State) : Option Nat :=
  let sps := (getL LSLC.heads sl s).map (fun f => rd FRM.port f s % 64)
  ((List.range 64).map (fun k => (r + k) % 64)).find? (fun sp => sps.contains sp && nextOf sl sp early s ≠ none)

/-- Can engine `e` take a frame? -/
def engFree (sl e : Nat) (s : State) : Bool :=
  !rdB SLC_ENG_STAT.fenced (sl * 8 + e) s && rd SLC_ENG_STAT.inflight (sl * 8 + e) s < 32

/-- The engine a slot's pointer names, fenced and full ones passed over (R87). -/
def nextEngine (sc sl : Nat) (s : State) : Option Nat :=
  ((List.range 8).map (fun k => (rd HSLC.eptr sc s + k) % 8)).find? (fun e => engFree sl e s)

/-- Send frame `f` to an engine (R87, R88, R103). -/
def sendTo (f e : Nat) (s : State) : State :=
  let sl := rd FRM.slice f s
  let sc := sl * 64 + rd FRM.port f s % 64
  let again := rdB FRM.redisp f s
  let s := if again then s
    else wr FRM.seq f (rd SLC_PORT_SEQ.next_seq sc s) s |> addF SLC_PORT_SEQ.next_seq sc 1 |> wr FRM.disp1 f (now s + 1)
  wr FRM.redisp f 0 s |> wr FRM.stage f 1 |> wr FRM.eng f e |> wr FRM.epoch f (rd SLC_ENG_STAT.epoch (sl * 8 + e) s)
    |> wr FRM.disp f (now s + 1) |> addF SLC_ENG_STAT.inflight (sl * 8 + e) 1 |> wr HSLC.eptr sc (e + 1)

/-- Frames of a slice that wait for re-dispatch, oldest sequence number of their port first. -/
def redispatches (sl : Nat) (s : State) : List Nat :=
  let fs := (getL LSLC.heads sl s).filter (fun f => rdB FRM.redisp f s)
  let age := fun f => (rd FRM.seq f s + 4096 - rd SLC_PORT_SEQ.oldest (sl * 64 + rd FRM.port f s % 64) s) % 4096
  fs.foldl (fun best f => match best with
    | [] => [f]
    | b :: _ => if age f < age b then [f] else best) []

/-- DISPATCH (R86): one frame of a slice goes to an engine. -/
def dispatch (sl : Nat) (s : State) : State :=
  if !(List.range 8).any (fun e => engFree sl e s) then s
  else
  let go := fun (f : Nat) (t : State) => match nextEngine (sl * 64 + rd FRM.port f t % 64) sl t with
    | some e => sendTo f e t
    | none => t
  match redispatches sl s with
  | f :: _ => go f s
  | [] =>
    match nextSlot sl true (rd HSLC.rr sl s) s with
    | some sp =>
      (match nextOf sl sp true s with
       | some f => go f (wr HSLC.rr sl (sp + 1) s)
       | none => s)
    | none =>
      match nextSlot sl false (rd HSLC.rr2 sl s) s with
      | none => s
      | some sp =>
        match nextOf sl sp false s with
        | none => s
        | some f =>
          let turns := (if sp = rd HSLC.rr2 sl s then rd HSLC.turn sl s else 0) + 1
          let s := if modeLanes (portMode (rd FRM.port f s) s) ≤ turns then wr HSLC.rr2 sl (sp + 1) (wr HSLC.turn sl 0 s)
            else wr HSLC.rr2 sl sp (wr HSLC.turn sl turns s)
          go f s

/-! ### Results and the resequencer (R90, R91, R103) -/

/-- A frame of a slot by sequence number. -/
def frmBySeq (sl sp q : Nat) (s : State) : Option Nat :=
  (touched FRM.live s).find? (fun f => rd FRM.slice f s = sl && rd FRM.port f s % 64 = sp && rd FRM.seq f s = q
    && (rd FRM.stage f s = 1 || rd FRM.stage f s = 2 || rdB FRM.redisp f s))

/-- Does an engine still wait for bytes of a frame: fewer have arrived than its slice's window, or than the parse reads beyond it, and more
can come (R109, R116)? -/
def engWaits (f : Nat) (s : State) : Bool :=
  !rdB FRM.looked f s && !rdB FRM.ended f s && !rdB FRM.err f s && (getL LFRM.bytes f s).length < parseNeed f s

/-- ENGINE_RESULT (R90, R103): engine `e` of a slice delivers, with the epoch of its dispatch, the result of number `q` of
slot `sp`. `us` are upsets its lookups meet; `corr` corrected errors of its working memory. -/
def engineResult (sl e epoch sp q corr : Nat) (us : List Nat) (s : State) : State :=
  let s := incBy cnt_TEL_eng_ecc_corr 0 corr s
  let sc := sl * 64 + sp
  if epoch ≠ rd SLC_ENG_STAT.epoch (sl * 8 + e) s then inc cnt_SLC_epoch_discard sl s
  else match frmBySeq sl sp q s with
    | some f =>
      if rd FRM.stage f s ≠ 1 || rd FRM.eng f s ≠ e || rd FRM.epoch f s ≠ epoch || engWaits f s then s
      else
        let s := subF SLC_ENG_STAT.inflight (sl * 8 + e) 1 s
        let s := if rdB FRM.looked f s then s else lookupAs f us s
        let s := wr FRM.stage f 2 (if rdB FRM.err f s then asDrop f s else s)
        let s := if rdB FRM.adm f s then
            inc cnt_TEL_s_rx_frames (rd FRM.stream f s) (wr FRM.rxdone f 1 s)
              |> incBy cnt_TEL_s_rx_bytes (rd FRM.stream f s) (if rdB FRM.ended f s then rd FRM.len f s else 0)
          else s
        headSettle f s
    | none =>
      if (getL LSLC.skipped sc s).contains q then
        setL LSLC.skipped sc ((getL LSLC.skipped sc s).filter (· ≠ q)) (subF SLC_ENG_STAT.inflight (sl * 8 + e) 1 (inc cnt_SLC_reseq_late sc s))
      else s

/-- The frame of a slot whose number is the oldest not released. -/
def oldestOf (sl sp : Nat) (s : State) : Option Nat :=
  if seqOut (sl * 64 + sp) s = 0 then none else frmBySeq sl sp (rd SLC_PORT_SEQ.oldest (sl * 64 + sp) s) s

/-- Completion of an injected frame that was classified (R476): the descriptor ends when the result is released. -/
def injectDone (f : Nat) (s : State) : State :=
  if rd FRM.inj f s = 0 then s
  else
    let k := rd FRM.inj f s - 1
    if rd HHIF.dma k s ≠ f + 1 then s
    else
      let s := wr HHIF.dma k 0 s
      let s := if rd HIF_RING_W5.state k s = 1 then ringComplete k (rd FRM.len f s - 4) 0 0 (rd FRM.port f s) (now s) s else s
      if rdB HIF_RING_W2.enable k s then s else wr HIF_RING_W5.state k 0 s

/-- A best-effort unicast frame meets its queue (R92, R197). -/
def beEnqueue (f : Nat) (s : State) : State :=
  let eg := rd FRM.eg f s
  let port := rd FRM.port f s
  let (code, s) := placeBe f eg (rd FRM.node f s) (rd FRM.queue f s) s
  let s := wr FRM.stage f 3 s
  match admitTest f code eg false s with
  | some (c, i) => bufRefuse f (inc cnt_TEL_q_drops code (inc c i s))
  | none =>
    let cut := rdB SLC_PORT_CFG.cut_enable (slot port s) s && portRate eg s ≤ portRate port s && getL LBUF.q code s = []
    let s := inc (if cut then cnt_SLC_ct_frames else cnt_SLC_sf_frames) (slot port s) (setAcct f 2 s)
    mirrorsPut f (enqueue f code eg (fun d t => wrB DSC.cut d cut t) s)

/-- A frame with a replicate group meets its multicast queue (R187, R197). -/
def mcEnqueue (f : Nat) (s : State) : State :=
  let code := mcQueue f s
  let s := wr FRM.stage f 3 s
  if !ingressOk f s then bufRefuse f (inc cnt_BUF_pg_drop (rd FRM.port f s) (inc cnt_TEL_q_drops code s))
  else if !queueOk code s then bufRefuse f (inc cnt_BUF_tail_drop (rd FRM.port f s) (inc cnt_TEL_q_drops code s))
  else enqueue f code 0 (fun _ t => t) (inc cnt_SLC_sf_frames (slot (rd FRM.port f s) s) (setAcct f 2 s))

/-- A punted frame joins its ring's punt queue, is dropped, or goes to the management engine (R475). -/
def puntFrame (f : Nat) (s : State) : State :=
  let r := rd FRM.reason f s
  let s := wr FRM.stage f 3 s
  let mirror := fun (t : State) => if getL LFRM.mirror f t = [] then t else enqueue f (mcQueue f t) 0 (fun _ x => x) t
  if r = rd HIF_MGMT_CFG.mgmt_reason 0 s then mirror (setAcct f 5 s |> mqPush f)
  else
    let k := puntRing r s
    if !puntRoom k s then
      frmDone f (mirrorsPut f (inc cnt_HIF_punt_drop k (wr HIF_RING_W6.ev_drop k 1 s)))
    else mirror (setAcct f 5 s |> puntPush k f)

/-- Nothing of the frame is enqueued but its mirror copies (R132). -/
def dropFrame (f : Nat) (s : State) : State := frmDone f (mirrorsPut f (groupRelease f (wr FRM.stage f 3 s)))

/-- The colour of a frame decides what becomes of it (R235): the state with the frame's result as policed. A drop is one of R132, on which
TEL_MARK has no effect. -/
def policeFrame (f : Nat) (s : State) : State :=
  let (col, s) := police f s
  let k := rd FRM.pol f s - 1
  let bound := rdB SCH_POL_W4.bound k s
  let action := if col = 0 then 0 else if col = 1 then rd SCH_POL_W4.yellow_action k s
    else if bound && rd SCH_POL_W4.red_action k s = 0 then 2 else rd SCH_POL_W4.red_action k s
  let s := if col = 2 && bound then
      raiseLimEv SCH_EVT.ev_over_contract 0 0x0206 0 1000000000 [rd FRM.stream f s] s else s
  if action = 0 then s
  else if action = 1 then
    let dq := rd SCH_POL_W4.demote_queue k s + 1
    if rdB FRM.adm f s then
      let sched := rd STM.class_ (rd FRM.stream f s) s = 1
      wr FRM.adm f 0 s |> wr FRM.dmiss f 1 |> wr FRM.node f (if sched then 0 else rd FRM.node f s) |> wr FRM.queue f dq
    else wr FRM.queue f dq s
  else groupRelease f (wr FRM.adm f 0 (wr FRM.res f 4 (wr FRM.sampled f 0 (wr FRM.tel f 0 s))))

/-- A released result is policed and enqueued, punted or dropped (R90, R132, R187, R232). -/
def releaseFrame (f : Nat) (s : State) : State :=
  let s := if rdB FRM.err f s || rd FRM.res f s = 4 then s else policeFrame f s
  let s := injectDone f s
  let s := headSettle f s
  if rdB FRM.err f s then frmDone f (wr FRM.stage f 3 (asDrop f s))
  else match rd FRM.res f s with
    | 1 => if rdB FRM.adm f s then inc cnt_SLC_ct_frames (slot (rd FRM.port f s) s) (admRelease f s) else beEnqueue f s
    | 2 => mcEnqueue f s
    | 3 => puntFrame f s
    | _ => dropFrame f s

/-- RESULT_RELEASE (R90): the slot's oldest number, if its result has arrived. -/
def resultRelease (sl sp : Nat) (s : State) : State :=
  match oldestOf sl sp s with
  | none => s
  | some f =>
    if rd FRM.stage f s ≠ 2 then s else releaseFrame f (addF SLC_PORT_SEQ.oldest (sl * 64 + sp) 1 s)

/-- RESEQ_SKIP (R91): the slot's oldest number has been out for 2 us while a later result waits. -/
def reseqSkip (sl sp : Nat) (s : State) : State :=
  let sc := sl * 64 + sp
  let later := (touched FRM.live s).any (fun g => rd FRM.slice g s = sl && rd FRM.port g s % 64 = sp && rd FRM.stage g s = 2)
  match oldestOf sl sp s with
  | none => s
  | some f =>
    if rd FRM.stage f s = 2 || !later then s
    else
      let s := passTo (rd FRM.disp1 f s - 1 + 2000) s
      let out := rd FRM.stage f s = 1 && !rdB FRM.redisp f s
      let s := inc cnt_SLC_reseq_skip sc s |> raiseLimEv SLC_EVT.ev_skip sl 0x1003 sl 1000000 [sl, rd FRM.port f s]
        |> addF SLC_PORT_SEQ.oldest sc 1
      let s := if out then pushL LSLC.skipped sc (rd FRM.seq f s) s else s
      frmDone f (wr FRM.stage f 3 (wr FRM.redisp f 0 (asDrop f (headRelease f s))))

end Sys2Proof.Machine
end

