-- ==== Sys2Proof/Machine/Gat.lean ====
section
/-!
DEFINITION. Gate control lists (R225 to R230) as functions of a time base, the schedule switch (R229), carried frames (R228),
and Round boundaries (R262 to R265).
-/

namespace Sys2Proof.Machine

/-! ### Gate lists -/

/-- A segment of a gate cycle: start, end, open mask and entry number. -/
abbrev Seg := Nat × Nat × Nat × Nat

/-- A gate schedule: whether gates run, the list, its length, its cycle and its base. -/
structure Sched where
  on : Bool
  tb : Nat
  list : Nat
  len : Nat
  cycle : Nat
  base : Nat
deriving DecidableEq, Repr

/-- The schedule in force on a port. -/
def schedNow (p : Nat) (s : State) : Sched :=
  ⟨rdB GATE.enable p s, rd GATE.tb p s, rd GATE.list p s, rd GATE.len p s, max 1 (rd GATE.cycle p s), rd GATE.base p s⟩

/-- The schedule the registers of a port name. -/
def schedNext (p : Nat) (s : State) : Sched :=
  ⟨rdB SCH_PORT_W2.gate_enable p s, rd SCH_PORT_W2.gate_tb p s, rd SCH_PORT_W2.active_list p s, rd SCH_PORT_W2.gcl_len p s,
    max 1 (rd SCH_PORT_W3.gate_cycle p s), rd SCH_PORT_W4.gate_base_lo p s + 2 ^ 32 * rd SCH_PORT_W5.gate_base_hi p s⟩

/-- Index of an entry of a port's list. -/
def gclIdx (p l e : Nat) : Nat := (p * 2 + l) * 1024 + e

/-- Segments of a cycle from entry `e` on, starting at `t`: cut at the cycle's end, the last one held to it (R225). -/
def segsFrom (p l cycle : Nat) (s : State) : Nat → Nat → Nat → List Seg
  | 0, _, _ => []
  | n + 1, e, t =>
    if cycle ≤ t then []
    else
      let d := rd SCH_GCL.duration (gclIdx p l e) s
      let stop := if n = 0 then cycle else min cycle (t + d)
      (t, stop, rd SCH_GCL.open_ (gclIdx p l e) s, e) :: segsFrom p l cycle s n (e + 1) stop

/-- The segments of a schedule's cycle. -/
def segs (p : Nat) (g : Sched) (s : State) : List Seg := segsFrom p g.list g.cycle s g.len 0 0

/-- Windows of gated queue `q` within a cycle, opening and closing phase: neighbouring open segments joined (R226). -/
def windowsOf (q : Nat) (sg : List Seg) : List (Nat × Nat) :=
  (sg.foldl (fun (acc : List (Nat × Nat)) e =>
    if e.2.2.1.testBit q && e.1 < e.2.1 then
      match acc with
      | w :: l => if w.2 = e.1 then (w.1, e.2.1) :: l else (e.1, e.2.1) :: acc
      | [] => [(e.1, e.2.1)]
    else acc) []).reverse

/-- Phase of a time base's count within a schedule's cycle, ns (R225: cycles start at base + k × cycle for every integer k). -/
def phaseAt (g : Sched) (t : Nat) : Nat := (((t : Int) - (g.base : Int)) % (g.cycle : Int)).toNat

/-- The segment in force at a time. -/
def segAt (p : Nat) (g : Sched) (t : Nat) (s : State) : Option Seg :=
  (segs p g s).find? (fun e => e.1 ≤ phaseAt g t && phaseAt g t < e.2.1)

/-- Count of the time base the gates of a port run in. -/
def gateNow (p : Nat) (s : State) : Nat := tbNs (rd GATE.tb p s) s

/-- The window of gated queue `q` open now on a port: opening and closing time in its time base. -/
def windowNow (p q : Nat) (s : State) : Option (Nat × Nat) :=
  let g := schedNow p s
  if !g.on then none
  else
    let t := gateNow p s
    let ph := phaseAt g t
    ((windowsOf q (segs p g s)).find? (fun w => w.1 ≤ ph && ph < w.2)).map (fun w => (t + w.1 - ph, t + w.2 - ph))

/-- The entry in force on a port and its open mask (SCH_PORT word 7); 0 and 0 while no gates run. -/
def gateSeg (p : Nat) (s : State) : Nat × Nat :=
  let g := schedNow p s
  ((if g.on then segAt p g (gateNow p s) s else none).map (fun e => (e.2.2.2, e.2.2.1))).getD (0, 0)

/-! ### Carried frames (R228) -/

/-- The first window of gated queue `q` that opens at or after `e` by the schedule in force: opening and closing time. -/
def firstWindow (p q e : Nat) (s : State) : Option (Nat × Nat) :=
  let g := schedNow p s
  let ws := windowsOf q (segs p g s)
  let ph := phaseAt g e
  if !g.on then none
  else match ws.find? (fun w => ph ≤ w.1) with
    | some w => some (e + w.1 - ph, e + w.2 - ph)
    | none => ws.head?.map (fun w => (e + g.cycle - ph + w.1, e + g.cycle - ph + w.2))

/-- Has the first window of a queued gated copy opened; and has it closed? -/
def windowIn (d : Nat) (s : State) : Bool :=
  (firstWindow (rd DSC.eg d s) (rd DSC.code d s / 4 % 4) (rd DSC.enqg d s) s).any (fun w => w.1 ≤ gateNow (rd DSC.eg d s) s)
def windowGone (d : Nat) (s : State) : Bool :=
  (firstWindow (rd DSC.eg d s) (rd DSC.code d s / 4 % 4) (rd DSC.enqg d s) s).any (fun w => w.2 ≤ gateNow (rd DSC.eg d s) s)

/-- Has the first window of a scheduled copy that opened at or after its enqueue closed (R40, R203)? -/
def carriedNow (d : Nat) (s : State) : Bool := rdB DSC.carried d s || windowGone d s

/-- Copies of a gated queue that have not been carried. -/
def gatedHere (p q : Nat) (s : State) : List Nat := (getL LBUF.q ((4 * p + q) * 4 + 1) s).filter (fun d => !rdB DSC.carried d s)

/-- A rate-limited event whose last payload word counts `n` at a time, with its bit. -/
def raiseLimBy (ev : Fld) (i code sub win n : Nat) (payload : List Nat) (s : State) : State :=
  if n = 0 then s
  else
    let k := code * 65536 + sub
    raiseLimEv ev i code sub win payload (wr HEVT.count k (rd HEVT.count k s + (n - 1)) s)

/-- The window of copies `ds` of queue `q` closes with them still queued (R228); while the port is holding, R203 decides staleness and
nothing is counted. -/
def windowShut (p q : Nat) (ds : List Nat) (s : State) : State :=
  let s := forEach ds (fun d t => wr DSC.carried d 1 t) s
  if rd BUF_PORT_STATUS.hold_state p s = 1 || ds = [] then s
  else incBy cnt_SCH_gate_carry p ds.length s |> raiseLimBy SCH_EVT.ev_gate_carry 0 0x0203 0 1000000 ds.length [p, q]

/-- Copies of a queue whose window has closed. -/
def carryOf (p q : Nat) (s : State) : List Nat := (gatedHere p q s).filter (fun d => windowGone d s)

/-- The windows of a port that have closed by now have closed with what is still queued. -/
def windowsNote (p : Nat) (s : State) : State := forEach [0, 1, 2, 3] (fun q t => windowShut p q (carryOf p q t) t) s

/-- GATE_WINDOW_CLOSE: time has passed to the end of the open window of queue `q`; a close that has passed already is met now. -/
def windowClose (p q : Nat) (s : State) : State :=
  if carryOf p q s ≠ [] then windowShut p q (carryOf p q s) s
  else match windowNow p q s with
    | none => s
    | some w =>
      let s := passTb (rd GATE.tb p s) w.2 s
      windowShut p q (carryOf p q s) s

/-- Ports with a frame in a gated queue. -/
def gatedPorts (s : State) : List Nat :=
  (((mkind s.lists LBUF.q.id).map (·.1)).filter (fun c => c % 4 = 1)).map (fun c => c / 16) |>.eraseDups

/-- Windows close as time passes, whatever is commanded (R228). -/
def gatesNote (s : State) : State := forEach (gatedPorts s) windowsNote s

/-- GATE_ENTRY_START (R225): time has passed to the start of the next entry of the list in force. -/
def gateEntry (p : Nat) (s : State) : State :=
  let g := schedNow p s
  if !g.on then s
  else
    let t := gateNow p s
    let ph := phaseAt g t
    let starts := (segs p g s).map (·.1)
    let d := match starts.find? (fun x => ph < x) with
      | some x => x - ph
      | none => g.cycle - ph
    windowsNote p (passTb g.tb (t + d) s)

/-! ### The schedule switch (R229) -/

/-- Install the registers' schedule as the one in force. -/
def gateAdopt (p : Nat) (s : State) : State :=
  let g := schedNext p s
  wrB GATE.enable p g.on s |> wr GATE.tb p g.tb |> wr GATE.list p g.list |> wr GATE.len p g.len |> wr GATE.cycle p g.cycle
    |> wr GATE.base p g.base

/-- A commit has changed a port's gate set: it waits for the end of the current cycle of the schedule in force, or for no
cycle where gates were disabled. -/
def gateCommit (p : Nat) (s : State) : State :=
  let g := schedNow p s
  let left := if g.on then g.cycle - phaseAt g (gateNow p s) else 0
  wr SCH_PORT_W6.list_pending p 1 s |> wr GATE.since p (tbNs (rd SCH_PORT_W2.gate_tb p s) s + left + 1)

/-- First start of a schedule's cycle at or after `t`. -/
def cycleFrom (g : Sched) (t : Nat) : Nat :=
  let ph := phaseAt g t
  if ph = 0 then t else t + (g.cycle - ph)

/-- When the pending set of a port takes effect, in its time base (R229). -/
def switchAt (p : Nat) (s : State) : Nat := cycleFrom (schedNext p s) (rd GATE.since p s - 1)

/-- Units of 2^-32 ns from now until `t` ns of base `b`. -/
def untilTb (b t : Nat) (s : State) : Nat := t * 2 ^ 32 - rd TBC.count b s

/-- Opening phases of a schedule's windows. -/
def opens (p : Nat) (g : Sched) (s : State) : List Nat := ([0, 1, 2, 3].flatMap (fun q => windowsOf q (segs p g s))).map (·.1)

/-- Time until the next window of any gated queue of a port opens, in units of 2^-32 ns (R226): a window of the schedule in force that
opens before a pending set takes effect, or one of that set's first cycle. -/
def untilOpen (p : Nat) (s : State) : Option Nat :=
  let g := schedNow p s
  if !g.on then none
  else
    let t := gateNow p s
    let ph := phaseAt g t
    let mine := (opens p g s).map (fun o => untilTb g.tb (if ph < o then t + o - ph else t + o + g.cycle - ph) s)
    let n := schedNext p s
    let sw := untilTb n.tb (switchAt p s) s
    let all := if !rdB SCH_PORT_W6.list_pending p s then mine
      else mine.filter (· < sw) ++ (if n.on then (opens p n s).map (fun o => untilTb n.tb (switchAt p s + o) s) else [])
    match all with
    | [] => none
    | x :: l => some (l.foldl min x)

/-- The schedule in force on a port ends: the windows it cuts close (R228), and what they leave waits for the windows of the next schedule
that open from `t` of base `b` on. -/
def windowsCut (p b t : Nat) (s : State) : State :=
  forEach [0, 1, 2, 3] (fun q s =>
    let here := gatedHere p q s
    let cut := here.filter (fun d => windowIn d s)
    let s := windowShut p q cut s
    forEach (here.filter (fun d => !cut.contains d)) (fun d u => wr DSC.enqg d (max t (tbNs b u - (now u - rd DSC.enq d u))) u) s) s

/-- GCL_SWITCH (R229): time has passed to the first new cycle start, and the pending set takes effect. -/
def gclSwitch (p : Nat) (s : State) : State :=
  if !rdB SCH_PORT_W6.list_pending p s then s
  else
    let g := schedNext p s
    let t := switchAt p s
    let s := windowsCut p g.tb t (windowsNote p (passTb g.tb t s))
    gateAdopt p s |> wr SCH_PORT_W6.list_pending p 0 |> wr GATE.since p 0 |> wr HSCH.idle p 0 |> wr SCH_EVT.ev_gcl_switch 0 1
      |> raise 0x0201 ([p, g.list] ++ w64 t)

/-- Ports whose gates run in time base `b`. -/
def gatesIn (b : Nat) (s : State) : List Nat :=
  (touched GATE.enable s).filter (fun p => rdB GATE.enable p s && rd GATE.tb p s = b)

/-- Each gated queue in time base `b` before a step: its port and number, whether its window is open, and the copies that wait for the
close of the window they are in. -/
def openWindows (b : Nat) (s : State) : List (Nat × Nat × Bool × List Nat) :=
  (gatesIn b s).flatMap (fun p => [0, 1, 2, 3].map (fun q => (p, q, (windowNow p q s).isSome, (gatedHere p q s).filter (fun d => windowIn d s))))

/-- A queue's copies after a step, from what openWindows gave (R230): a window that was open and is so no longer closes at once; one that
opens opens now; and one that stays open stays the window of the copies in it. DEDUCED (log entry 173). -/
def windowStep (w : Nat × Nat × Bool × List Nat) (s : State) : State :=
  let (p, q, was, ins) := w
  let new_ := windowNow p q s
  let s := match new_ with
    | some v => forEach ins (fun d t => wr DSC.enqg d v.1 t) s
    | none => windowShut p q ins s
  forEach ((gatedHere p q s).filter (fun d => !ins.contains d))
    (fun d t => wr DSC.enqg d (if was then gateNow p t + b2n new_.isSome else (new_.map (·.1)).getD (gateNow p t)) t) s

/-- Time base `b` has stepped by `d` ns: the windows of its gates are worked out anew, and GCL_STEP is raised for each port (R230). -/
def gateStep (b : Nat) (d : Int) (before : List (Nat × Nat × Bool × List Nat)) (s : State) : State :=
  forEach (gatesIn b s) (fun p t => wr HSCH.idle p 0 t |> wr SCH_EVT.ev_gcl_step 0 1 |> raise 0x0202 ([p, b] ++ wI64 d)) (forEach before windowStep s)

/-! ### Rounds (R262 to R264) -/

/-- Base time of a Round. -/
def rndBase (r : Nat) (s : State) : Nat := rd FAB_ROUND_W2.base_lo r s + 2 ^ 32 * rd FAB_ROUND_W3.base_hi r s

/-- Period of a Round. -/
def rndPeriod (r : Nat) (s : State) : Nat := max 1 (rd FAB_ROUND_W1.period r s)

/-- Number of the first boundary at or after `t`. -/
def rndFirst (r t : Nat) (s : State) : Nat := if t ≤ rndBase r s then 0 else ceilDiv (t - rndBase r s) (rndPeriod r s)

/-- Number of a Round's next boundary. -/
def rndNext (r : Nat) (s : State) : Nat :=
  if rd HRND.next r s = 0 then rndFirst r (tbNs (rd FAB_ROUND_W0.tb r s) s) s else rd HRND.next r s - 1

/-- Fix the next boundary of each Round in time base `b` before it steps. -/
def rndFix (b : Nat) (s : State) : State :=
  forEach ((List.range 16).filter (fun r => rdB FAB_ROUND_W0.enable r s && rd FAB_ROUND_W0.tb r s = b))
    (fun r t => wr HRND.next r (rndNext r t + 1) t) s

/-- Time base `b` has stepped: the next boundary of each Round in it (R264), with ROUND_STEP where boundaries were skipped. -/
def rndStep (b : Nat) (s : State) : State :=
  forEach ((List.range 16).filter (fun r => rdB FAB_ROUND_W0.enable r s && rd FAB_ROUND_W0.tb r s = b)) (fun r t =>
    let k := rndNext r s
    let k' := rndFirst r (tbNs b t) t
    let t := wr HRND.next r (max k' (rd HRND.last r t) + 1) t
    if k < k' then raise 0x0A06 [r, k' - k] (wr FAB_EVT.ev_round 0 1 t) else t) s

end Sys2Proof.Machine
end

