-- ==== Sys2Proof/Machine/Tim.lean ====
section
/-!
DEFINITION. Time and synchronisation (R274 to R303): steps, the servo and lock, hot-standby pairs, link delay and asymmetry,
the PTP engines, time outputs and captures.
-/

namespace Sys2Proof.Machine

/-! ### Units -/

/-- Picoseconds in units of 2^-32 ns. -/
def psToU (x : Int) : Int := x * 2 ^ 32 / 1000

/-- Units of 2^-32 ns in picoseconds. -/
def uToPs (x : Int) : Int := x * 1000 / 2 ^ 32

/-- 2^e s in nanoseconds, for a signed exponent. -/
def logNs (e : Int) : Nat := if 0 ≤ e then 1000000000 * 2 ^ e.toNat else 1000000000 / 2 ^ (-e).toNat

/-- A signed 32-bit register value, saturating. -/
def sat32 (x : Int) : Int := clampInt (-2147483648) 2147483647 x

/-! ### Rate and steps (R274, R279) -/

/-- Primaries that follow base `b` as their standby (R297, R298). -/
def followers (b : Nat) (s : State) : List Nat :=
  [1, 2, 3, 4, 5, 6, 7].filter (fun p => p ≠ b && rdB TIM_TB_W0.pair_en p s && rd TIM_TB_W0.partner p s = b && rdB TIM_TB_W5.src p s)

/-- Adopt a rate adjustment in units of 2^-32 and show it; while locked it is remembered for the average of R294. -/
def setRate1 (b : Nat) (x : Int) (s : State) : State :=
  let s := wrI TBC.adj b x s |> wrI TIM_TB_W7.rate b (sat32 (x * 10000000000 / 2 ^ 32))
  if rd TIM_TB_W5.state b s = 2 then
    setL LTB.rates b (((getL LTB.rates b s).filter (fun e => now s < e / 2 ^ 33 + 32000000000)) ++ [now s * 2 ^ 33 + rd TBC.adj b s]) s
  else s

/-- Adopt a rate adjustment; a primary that follows this base runs at it too (R298). -/
def setRate (b : Nat) (x : Int) (s : State) : State := forEach (followers b s) (fun p t => setRate1 p x t) (setRate1 b x s)

/-- Average rate over the last 16 s in locked, or over all of it if that is shorter (R294). -/
def heldRate (b : Nat) (s : State) : Int :=
  let t := now s
  let from_ := t - 16000000000
  let es := getL LTB.rates b s
  let spans := (List.range es.length).map (fun i =>
    let a := max from_ (es.getD i 0 / 2 ^ 33)
    let z := if i + 1 < es.length then max from_ (es.getD (i + 1) 0 / 2 ^ 33) else t
    (z - a, sgn 33 (es.getD i 0 % 2 ^ 33)))
  let total := (spans.map (·.1)).sum
  if total = 0 then rdI TBC.adj b s else (spans.map (fun x => (x.1 : Int) * x.2)).sum / (total : Int)

/-! ### Time outputs (R300, R301) -/

/-- Is a pin held inactive by squelch (R301)? -/
def squelched (n b : Nat) (s : State) : Bool := rdB TIM_TOUT_W0.squelch n s && rd TIM_TB_W5.state b s ≠ 2

/-- A pulse on a pin at time `t` of base `b`: it crosses the ball at t minus tout_delay. -/
def toutFire (n b t : Nat) (s : State) : State :=
  let s := wr HTOUT.last n (t + 1) s
  if squelched n b s then s
  else wr HTOUT.busy n (now s + rd HTOUT.width n s + 1) s
    |> emit .touT n (w64 t ++ [rd HTOUT.width n s, rd TIM_TOUT_W0.polarity n s, rd HTOUT.delay n s])

/-- A pulse that is not sent (R300). -/
def toutMiss (n t : Nat) (s : State) : State :=
  wr TIM_TOUT_W6.missed n 1 s |> inc cnt_TIM_tout_missed 0 |> wr TIM_EVT.ev_tout 0 1 |> raise 0x0608 ([n] ++ w64 t)

/-- The pulses of a periodic pin due from `t`, `k` of them, are skipped by a forward step: each is missed, counted and raised (R300). From
the 1,025th on the capture FIFO is full and each event is lost and counted (R496), which is done for all of them at once. -/
def toutSkip (n t p k : Nat) (s : State) : State :=
  let s := forEach (List.range (min k 1024)) (fun j u => toutMiss n (t + j * p) u) s
  let more := k - 1024
  if more = 0 then s else incBy cnt_TIM_tout_missed 0 more (addF HTEL.lost 0 more (incBy cnt_TEL_evt_lost 0 more s))

/-- Set the time of a pin's next pulse, or none. -/
def toutNext (n : Nat) (t : Option Nat) (s : State) : State :=
  match t with
  | some x => wr HTOUT.next n (x + 1) (wr TIM_TOUT_W6.armed n 1 s)
  | none => wr HTOUT.next n 0 (wr TIM_TOUT_W6.armed n 0 s)

/-- First pulse of a periodic pin at or after `t`. -/
def toutFrom (n t : Nat) (s : State) : Nat :=
  let st := rd HTOUT.start n s
  let p := max 1 (rd HTOUT.period n s)
  if t ≤ st then st else st + ceilDiv (t - st) p * p

/-- Arm a pin by its mode in force. -/
def toutArm (n : Nat) (s : State) : State :=
  let b := rd TIM_TOUT_W0.tb n s
  let t := tbNs b s
  match rd TIM_TOUT_W0.mode n s with
  | 1 => if rd HTOUT.start n s < t then toutMiss n (rd HTOUT.start n s) (toutNext n none s) else toutNext n (some (rd HTOUT.start n s)) s
  | 2 => toutNext n (some (toutFrom n t s)) s
  | 3 => toutNext n (some 0) s
  | _ => toutNext n none s

/-- Adopt every pending value of a pin with a word 0 just written, once a pulse in progress has ended (R300). -/
def toutAdopt (n : Nat) (s : State) : State :=
  let s := if rd HTOUT.busy n s = 0 then s else passTo (rd HTOUT.busy n s - 1) s
  wr HTOUT.busy n 0 s |> wr HTOUT.start n (rd TIM_TOUT_W1.start_lo n s + 2 ^ 32 * rd TIM_TOUT_W2.start_hi n s)
    |> wr HTOUT.period n (rd TIM_TOUT_W3.period n s) |> wr HTOUT.width n (rd TIM_TOUT_W4.width n s)
    |> wr HTOUT.delay n (rd TIM_TOUT_W5.tout_delay n s) |> wr HTOUT.last n 0 |> toutArm n

/-- TOUT_PULSE: time has passed to a pin's next pulse. -/
def toutPulse (n : Nat) (s : State) : State :=
  let m := rd TIM_TOUT_W0.mode n s
  if rd HTOUT.next n s = 0 || m = 3 || m = 0 then s
  else
    let b := rd TIM_TOUT_W0.tb n s
    let t := rd HTOUT.next n s - 1
    toutNext n (if m = 2 then some (t + rd HTOUT.period n s) else none) (toutFire n b t (passTb b t s))

/-- Base `b` has stepped: skipped pulses are missed, but for those squelch suppresses (R301), and after a backward step none is sent again
(R300). -/
def toutStep (b : Nat) (s : State) : State :=
  forEach (List.range 16) (fun n t =>
    if rd HTOUT.next n t = 0 || rd TIM_TOUT_W0.tb n t ≠ b || rd TIM_TOUT_W0.mode n t = 3 then t
    else
      let due := rd HTOUT.next n t - 1
      if tbNs b t ≤ due then t
      else if squelched n b t then
        toutNext n (if rd TIM_TOUT_W0.mode n t = 2 then some (toutFrom n (tbNs b t) t) else none) t
      else if rd TIM_TOUT_W0.mode n t = 2 then
        let p := max 1 (rd HTOUT.period n t)
        let nx := toutFrom n (tbNs b t) t
        toutNext n (some nx) (toutSkip n due p ((nx - due) / p) t)
      else toutNext n none (toutMiss n due t)) s

/-- A boundary of Round `r` at time `t` of base `b` drives the pins that select it (R264, R300). -/
def toutRound (r b t : Nat) (s : State) : State :=
  forEach ((List.range 16).filter (fun n => rd TIM_TOUT_W0.mode n s = 3 && rd TIM_TOUT_W0.round n s = r))
    (fun n u => toutFire n b t u) s

/-! ### Steps (R279) -/

/-- Keep the count of a base before the first step of this cycle (R302). -/
def stepNote (b : Nat) (s : State) : State :=
  if rd HTB.stept b s = now s + 1 then s else wr HTB.stepw b (rd TBC.count b s) (wr HTB.stept b (now s + 1) s)

/-- The count of a base as an edge captures it: in the cycle of a step, the value before the step (R302). -/
def capCount (b : Nat) (s : State) : Nat := if rd HTB.stept b s = now s + 1 then rd HTB.stepw b s else rd TBC.count b s

/-- Step base `b` by `d` units of 2^-32 ns, with everything that runs in it. -/
def stepTb (b : Nat) (d : Int) (cause : Nat) (s : State) : State :=
  let s := forEach (gatesIn b s) windowsNote s
  let wins := openWindows b s
  let old := tbNs b s
  let s := stepNote b (rndFix b s)
  let s := wr TBC.count b (((rd TBC.count b s : Int) + d).toNat) s
  let ns : Int := (tbNs b s : Int) - old
  raise 0x0603 ([b] ++ wI64 ns ++ [cause]) s |> wr TIM_EVT.ev_step 0 1 |> gateStep b ns wins |> rndStep b |> toutStep b

/-! ### Lock (R293 to R299) -/

/-- Scheduled streams of a time base (R36). -/
def streamsIn (b : Nat) (s : State) : List Nat :=
  (busyStreams s).filter (fun n => strState n s = 2 && rd STM.class_ n s = 1 && rd STM.tb n s = b)

/-- clockClass the device's own instance announces (R288). DESIGN CHOICE (log entry 161): source 2 announces 7 in every state but
locked, and a source 1 that finds no better master announces 248. -/
def ownClass (b : Nat) (s : State) : Nat := if rd TIM_TB_W0.source b s = 2 then (if rd TIM_TB_W5.state b s = 2 then 6 else 7) else 248

/-- The clockClass of a base steered by a TIN pin, its own grandmaster, follows its state (R288). -/
def ppsClass (b : Nat) (s : State) : State :=
  if rdB TIM_TB_W0.enable b s && rd TIM_TB_W0.source b s = 2 then wr TIM_TB_W5.gm_class b (ownClass b s) s else s

/-- A time base reaches locked (R293, R295). -/
def gainLock (b : Nat) (s : State) : State :=
  ppsClass b <| wr TIM_TB_W5.state b 2 s |> wr TIM_TB_W5.inst_state b 2 |> wr HTB.ever b 1 |> wr HTB.bad b 0
    |> setL LTB.rates b [now s * 2 ^ 33 + rd TBC.adj b s] |> wr TIM_EVT.ev_lock 0 1
    |> raise 0x0602 [b, rd TIM_TB_W6.offset b s] |> epiEnd 4 b b

/-- A time base goes from locked to holdover (R294, R295). -/
def dropLock1 (b cause : Nat) (s : State) : State :=
  if rd TIM_TB_W5.state b s ≠ 2 then s
  else
    let r := heldRate b s
    let s := wr TIM_TB_W5.state b 3 s |> wr TIM_TB_W5.inst_state b 3 |> wr TIM_TB_W5.src b 0 |> wrI TBC.slew b 0
      |> wr HTB.good b 0 |> wr HTB.bad b 0
    ppsClass b (setRate b r s) |> wr TIM_EVT.ev_lock 0 1 |> raise 0x0601 [b, cause] |> epiStart 4 b b (streamsIn b s)

/-- Switch a primary to a source seamlessly (R298, R299): its rate is that of the source, and the difference is slewed out. -/
def hsSwitch (p src : Nat) (s : State) : State :=
  let q := rd TIM_TB_W0.partner p s
  let diff : Int := if src = 1 then (rd TBC.count p s : Int) - rd TBC.count q s else rdI HTB.prev p s
  let s := wr TIM_TB_W5.src p src s |> wrI TBC.slew p (if src = 1 then -diff else diff) |> wr HTB.revert p 0 |> wr HTB.bad p 0
    |> wr HTB.good p 0
  let s := if src = 1 then setRate1 p (rdI TBC.adj q s) (wr TIM_TB_W5.inst_state p 3 s)
    else wrI HTB.integ p (rdI TBC.adj p s * (1000000000 * 2 ^ 32)) s
  raise 0x0604 [p, src, wI (uToPs diff)] s |> wr TIM_EVT.ev_hs 0 1

/-- A standby has failed: each primary that follows it switches back, or loses lock with the same cause (R299). -/
def standbyLost (fs : List Nat) (cause : Nat) (s : State) : State :=
  forEach fs (fun p t => if rd TIM_TB_W5.inst_state p t = 2 then hsSwitch p 0 t else dropLock1 p cause t) s

/-- lose_lock, with the pairs that depend on the base. -/
def loseLock (b cause : Nat) (s : State) : State :=
  let fs := followers b s
  standbyLost (if rd TIM_TB_W5.state b s = 2 then fs else []) cause (dropLock1 b cause s)

/-- A base's own instance meets a condition of R294 (R296, R298). -/
def instFail (b cause : Nat) (s : State) : State :=
  let q := rd TIM_TB_W0.partner b s
  if rdB TIM_TB_W5.src b s then wr TIM_TB_W5.inst_state b (if rd TIM_TB_W5.inst_state b s = 2 then 3 else rd TIM_TB_W5.inst_state b s) (wr HTB.revert b 0 (wr HTB.good b 0 s))
  else if rd TIM_TB_W5.state b s ≠ 2 then s
  else if rdB TIM_TB_W0.pair_en b s && rd TIM_TB_W5.state q s = 2 then hsSwitch b 1 s
  else loseLock b cause s

/-- |x| -/
def absI (x : Int) : Int := max x (-x)

/-- Is the grandmaster of a base within class_limit (R294 cause 6)? -/
def classOk (b : Nat) (s : State) : Bool := rd TIM_TB_W5.gm_class b s ≤ rd TIM_TB_W4.class_limit b s

/-- The time for which the own instance of a primary that follows its standby has been locked and within class_limit without a break
(R299). -/
def revertNote (b : Nat) (s : State) : State :=
  if rdB TIM_TB_W5.src b s && rd TIM_TB_W5.inst_state b s = 2 && classOk b s then
    (if rd HTB.revert b s = 0 then wr HTB.revert b (now s + 1) s else s)
  else if rd HTB.revert b s = 0 then s else wr HTB.revert b 0 s

/-- The instance's own count of good and bad offsets while its primary follows the standby: the servo's criteria, but for the good offset,
which differs from the one before by no more than lock_threshold (R298). -/
def instOffset (b : Nat) (o : Int) (s : State) : State :=
  let d := absI (o - rdI HTB.prev b s)
  let near := d ≤ psToU (rd TIM_TB_W3.lock_threshold b s * 100 : Nat)
  let far := psToU (rd TIM_TB_W3.unlock_threshold b s * 10000 : Nat) < absI o
  if rd TIM_TB_W5.inst_state b s = 2 then
    let bad := if far then rd HTB.bad b s + 1 else 0
    let s := wr HTB.bad b bad s
    if bad = 3 then instFail b 2 (wr HTB.bad b 0 s) else s
  else
    let good := if near then rd HTB.good b s + 1 else 0
    let s := wr HTB.good b good (wr TIM_TB_W5.inst_state b 1 s)
    if good = rd TIM_TB_W3.lock_count b s then revertNote b (wr TIM_TB_W5.inst_state b 2 (wr HTB.bad b 0 s)) else s

/-- on_offset (R293): `o` in units of 2^-32 ns, positive when the base is behind its reference. -/
def onOffset (b : Nat) (o : Int) (s : State) : State :=
  let s := wr HTB.last b (now s + 1) s |> wrI TIM_TB_W6.offset b (sat32 (uToPs o))
  let s' := if rdB TIM_TB_W5.src b s then instOffset b o s
    else if rd TIM_TB_W5.state b s ≠ 2 && psToU (rd TIM_TB_W3.step_threshold b s * 1000000 : Nat) < absI o && rdB TIM_TB_W0.step_enable b s then
      stepTb b o 1 s |> wrI HTB.integ b 0 |> wr HTB.good b 0 |> wr TIM_TB_W5.state b 1 |> wr TIM_TB_W5.inst_state b 1
    else
      let lim : Int := (rd TIM_TB_W2.max_adj b s * 2 ^ 64 : Nat)
      let integ := clampInt (-lim) lim (rdI HTB.integ b s + o * 2 ^ 32 / 2 ^ rd TIM_TB_W2.ki_shift b s)
      let adj := clampInt (-lim) lim (integ + o * 2 ^ 32 / 2 ^ rd TIM_TB_W2.kp_shift b s)
      let s := setRate b (adj / (1000000000 * 2 ^ 32)) (wrI HTB.integ b integ s)
      if rd TIM_TB_W5.state b s = 2 then
        let bad := if psToU (rd TIM_TB_W3.unlock_threshold b s * 10000 : Nat) < absI o then rd HTB.bad b s + 1 else 0
        if bad = 3 then instFail b 2 (wr HTB.bad b 0 s) else wr HTB.bad b bad s
      else
        let good := if absI o ≤ psToU (rd TIM_TB_W3.lock_threshold b s * 100 : Nat) then rd HTB.good b s + 1 else 0
        let s := wr TIM_TB_W5.state b 1 s |> wr TIM_TB_W5.inst_state b 1 |> wr HTB.good b good
        if good = rd TIM_TB_W3.lock_count b s then gainLock b s else s
  wrI HTB.prev b o s'

/-- SYNC_TIMEOUT (R294 cause 1): time has passed to the limit. -/
def syncTimeout (b : Nat) (s : State) : State :=
  if rd HTB.last b s = 0 || !rdB TIM_TB_W0.enable b s || rd TIM_TB_W0.source b s = 0 then s
  else
    let d := rd TIM_TB_W1.sync_timeout b s * logNs (sgn 4 (rd TIM_TB_W1.log_sync b s))
    instFail b 1 (wr HTB.last b 0 (passTo (rd HTB.last b s - 1 + d) s))

/-- HS_REVERT (R299): time has passed to the end of revert_hold. -/
def hsRevert (p : Nat) (s : State) : State :=
  if !rdB TIM_TB_W5.src p s || !rdB TIM_TB_W0.revert_en p s || rd TIM_TB_W5.inst_state p s ≠ 2 || rd HTB.revert p s = 0
      || !classOk p s then s
  else hsSwitch p 0 (passTo (rd HTB.revert p s - 1 + rd TIM_TB_W4.revert_hold p s * 1000000000) s)

/-- TIME_REFCLK_LOSS (R277). -/
def refclkLoss (s : State) : State :=
  if rdB TIM_CTRL.on_backup 0 s || !rdB TBC.pll_locked 0 s then s
  else
    wr TIM_CTRL.on_backup 0 1 s |> wr TIM_CTRL.refclk_ok 0 0 |> wr TIM_EVT.ev_refclk 0 1 |> raise 0x060A []
      |> forEach [1, 2, 3, 4, 5, 6, 7] (fun b t => dropLock1 b 4 t)

/-- TIME_REFCLK_RESTORE (R277): the reference has been present for 1 s. -/
def refclkRestore (s : State) : State :=
  if !rdB TIM_CTRL.on_backup 0 s then s
  else wr TIM_CTRL.on_backup 0 0 s |> wr TIM_CTRL.refclk_ok 0 1 |> wr TIM_EVT.ev_refclk 0 1 |> raise 0x060B []

/-- TIME_PLL_LOCK (R275): the time bases start at 0. -/
def timePllLock (s : State) : State :=
  if rdB TBC.pll_locked 0 s then s
  else forEach [0, 1, 2, 3, 4, 5, 6, 7] (fun b t => wr TBC.count b 0 t) (wr TBC.pll_locked 0 1 (wr TIM_CTRL.refclk_ok 0 1 s))

/-- Copy a base's count into its now words (R278). -/
def tbLatch (b : Nat) (s : State) : State :=
  let c := rd TBC.count b s
  wr TIM_TB_W8.now_lo b (c / 2 ^ 32) s |> wr TIM_TB_W9.now_hi b (c / 2 ^ 64) |> wr TIM_TB_W10.now_frac b (c / 2 ^ 16)

/-- A step or set command moves a base by `d` units; on a locked base it is a loss of lock too (R279, R294, R299). -/
def cmdStep (b : Nat) (d : Int) (cause : Nat) (s : State) : State :=
  if b = 0 then s else loseLock b 5 (stepTb b d cause s)

/-! ### Link delay (R284 to R287) -/

/-- Send a link ordered set; only while peer_zx is 1 and the port's state sends one (R65, R67). What leaves is four copies of one control
block: the number of copies, the block type, the O code, the message type and the two payload bytes. -/
def ordSet (p ty payload : Nat) (s : State) : State :=
  let st := rd PRT_PORT_STATUS.state p s
  if rdB PRT_PORT_STATUS.peer_zx p s && st ≠ 5 && st ≠ 6 then emit .orderedSet p [4, 0x4B, 0xA, ty, payload / 256 % 256, payload % 256] s else s

/-- Ordered sets of the list that were acted on less than 10 us before `t`. -/
def osRecent (t : Nat) : List Nat → List Nat
  | a :: b :: t0 :: l => if t < t0 + 10000 then a :: b :: t0 :: osRecent t l else osRecent t l
  | _ => []

/-- Is a message of this type and payload in the list? -/
def osSeen (ty v : Nat) : List Nat → Bool
  | a :: b :: _ :: l => (a = ty && b = v) || osSeen ty v l
  | _ => false

/-- A link ordered set arrives on port `p` (R65): two identical copies within 1 us stand behind the command (log entry 140), and further
copies of a message acted on are ignored for 10 us. -/
def osTake (p ty v : Nat) (k : State → State) (s : State) : State :=
  let l := osRecent (now s) (getL LPRT.os p s)
  if osSeen ty v l then s else k (setL LPRT.os p (l ++ [ty, v, now s]) s)

/-- Is a port's measured link delay used: delay_mode 1, and valid (R285, R305)? -/
def delayUsed (p : Nat) (s : State) : Bool := rd TIM_PORT_W0.delay_mode p s = 1 && rdB TIM_PORT_W6.delay_valid p s

/-- The delay from this device to the peer (R285), ns rounded up. -/
def delayFigure (p : Nat) (s : State) : Nat :=
  if delayUsed p s then
    let x := (rd TIM_PORT_W4.link_delay p s : Int) + rdI TIM_PORT_W5.asym_used p s
    if x ≤ 0 then 0 else ceilDiv x.toNat 1000
  else rd TIM_PORT_W3.delay_cfg p s

/-- Admission reads a port's figure (R285). -/
def delayRead (p : Nat) (s : State) : Nat × State :=
  let x := delayFigure p s
  (x, wr HPD.used p (x + 1) (wr HPD.told p 0 s))

/-- A later figure is compared with the one admission read (R285). -/
def delayWatch (p : Nat) (s : State) : State :=
  if rd HPD.used p s = 0 then s
  else
    let u := rd HPD.used p s - 1
    let x := delayFigure p s
    if u + 10 < x then
      (if rdB HPD.told p s then s else wr HPD.told p 1 s |> wr TIM_EVT.ev_delay 0 1 |> raise 0x0606 [p, u, x])
    else if u ≤ x + 10 then wr HPD.told p 0 s else s

/-- Recompute a port's asym_used (R286); `told`: a received value brought the change (R287). -/
def asymUpdate (p : Nat) (told : Bool) (s : State) : State :=
  let peer := rdB PRT_PORT_STATUS.peer_zx p s && bitOf (rd PRT_PORT_PEER_CAP.peer_caps p s) 2 && rd HPD.ptx p s ≠ 0 && rd HPD.prx p s ≠ 0
  let cfg := rdI TIM_PORT_W2.asym_cfg p s
  let x := if peer then
      (((rd TIM_PORT_W1.tx_ext p s + (rd HPD.prx p s - 1) : Nat) : Int) - ((rd HPD.ptx p s - 1) + rd TIM_PORT_W1.rx_ext p s : Nat)) * 10 / 2 + cfg
    else cfg
  let old := rdI TIM_PORT_W5.asym_used p s
  let s := wrI TIM_PORT_W5.asym_used p x s |> wrB TIM_PORT_W6.asym_peer p peer
  let s := if told && 10 < absI (x - old) then wr TIM_EVT.ev_delay 0 1 (raise 0x0607 [p, wI x] s) else s
  delayWatch p s

/-- Cable length (R59). DESIGN CHOICE (log entry 139): a length above 65,535 cm shows as 65,535 with cable_valid 1. -/
def cableUpdate (p : Nat) (s : State) : State :=
  let pfix := if rdB PRT_PORT_STATUS.peer_zx p s then rd HPRT.pfix p s else 0
  let n : Int := (rd TIM_PORT_W4.link_delay p s : Int) - (rd PRT_PORT_DELAY.fixed_delay p s * 10 : Nat) - (pfix : Int)
  if n < 0 then wr PRT_PORT_CABLE.cable_cm p 0 (wr PRT_PORT_CABLE.cable_valid p 0 s)
  else wr PRT_PORT_CABLE.cable_cm p (min 65535 (n.toNat * 100 / max 1 (rd PRT_PORT_DELAY.prop_ps_per_m p s))) (wr PRT_PORT_CABLE.cable_valid p 1 s)

/-- Both external delays go to the peer (R287). -/
def extSend (p : Nat) (s : State) : State :=
  ordSet p 0x10 (rd TIM_PORT_W1.tx_ext p s % 32768) s |> ordSet p 0x10 (32768 + rd TIM_PORT_W1.rx_ext p s % 32768)

/-- EXT_DELAY (R287). -/
def extDelay (p payload : Nat) (s : State) : State :=
  if !rdB PRT_PORT_STATUS.peer_zx p s then s
  else osTake p 0x10 payload (fun s =>
    asymUpdate p true (if bitOf payload 15 then wr HPD.prx p (payload % 32768 + 1) s else wr HPD.ptx p (payload % 32768 + 1) s)) s

/-- EXT_REQ_RETRY (R287): every 10 ms while a peer value is missing. -/
def extReqRetry (p : Nat) (s : State) : State :=
  if rdB PRT_PORT_STATUS.peer_zx p s && (rd HPD.ptx p s = 0 || rd HPD.prx p s = 0) then every HPD.extr p 10000000 (ordSet p 0x11 0) s
  else s

/-- EXT_DELAY_PERIODIC (R287): every 1 s while peer_zx is 1. -/
def extPeriodic (p : Nat) (s : State) : State :=
  if rdB PRT_PORT_STATUS.peer_zx p s then every HPD.extt p 1000000000 (extSend p) s else s

/-- delay_valid ends (R284); the figure is delay_cfg from now on (R285). -/
def delayForget (p : Nat) (s : State) : State :=
  delayWatch p (wr TIM_PORT_W6.delay_valid p 0 s |> setL LPD.win p [] |> wr HPD.wait p 0 |> wr HPD.got p 0 |> wr HPD.lost p 0 |> wr HPD.t3p p 0)

/-- Does a port exchange PTP messages now: link up, and neither quiet nor waking (R67)? -/
def ptpUp (p : Nat) (s : State) : Bool :=
  rdB PRT_PORT_STATUS.link_up p s && rd PRT_PORT_STATUS.state p s ≠ 5 && rd PRT_PORT_STATUS.state p s ≠ 6

/-- Queue a PTP message on a port (R291). -/
def ptpPut (p : Nat) (m : List Nat) (s : State) : State := setL LTIM.tx p (getL LTIM.tx p s ++ m) s

/-- An interval a Signaling message asks for (R289): -128 changes nothing, 126 returns to the configured one. -/
def asked (f : Fld) (k x : Nat) (lo hi : Int) (s : State) : State :=
  if x = 0x80 then s else if x = 126 then wr f k 0x80 s else if x = 127 then wr f k 127 s
  else wrI f k (clampInt lo hi (sgn 8 x)) s

/-- The interval a port keeps, ns: the one asked for, else the configured one; none where it was asked to stop. -/
def askedNs (f : Fld) (k : Nat) (cfg : Int) (s : State) : Option Nat :=
  if rd f k s = 0x80 then some (logNs cfg) else if rd f k s = 127 then none else some (logNs (sgn 8 (rd f k s)))

/-- PDELAY_INTERVAL (R284). -/
def pdelayInterval (p : Nat) (s : State) : State :=
  if !rdB TIM_PORT_W0.delay_mode p s || !ptpUp p s then s
  else match askedNs HPD.ipd p (sgn 4 (rd TIM_PORT_W0.log_pdelay p s)) s with
    | none => s
    | some n => every HPD.ival p n (fun s =>
      let q := (rd HPD.seq p s + 1) % 65536
      ptpPut p [2, 0, q, 0, 0, 0] (wr HPD.seq p q (wr HPD.wait p 1 (wr HPD.got p 0 (wr HPD.t1 p 0 s))))) s

/-- A port's own sourcePortIdentity. -/
def portId (p : Nat) (s : State) : Nat :=
  (rd TIM_CLOCK_ID.clock_id 1 s * 2 ^ 32 + rd TIM_CLOCK_ID.clock_id 0 s) * 2 ^ 16 + (p + 1)

/-- Does PTP run: no gap, no warm restart, no autonomous hold (R355, R357, R358)? -/
def ptpRuns (s : State) : Bool := !rdB HRED.gap 0 s && !rdB HRED.restart 0 s && !rdB HRED.hold 0 s

/-- A consumed message is counted; one that fails its profile's checks is discarded (R290). What it says is taken only while PTP runs
(R355). -/
def ptpTaken (bad : Bool) (k : State → State) (s : State) : State :=
  let s := inc cnt_TIM_ptp_rx 0 s
  if bad then inc cnt_TIM_ptp_bad 0 s else if ptpRuns s then k s else s

/-- PDELAY_REQ (R284): answered with the arrival stamp and the requester's identity. -/
def pdelayReq (p seq src : Nat) (bad : Bool) (s : State) : State :=
  ptpTaken bad (fun s =>
    if rdB TIM_PORT_W0.delay_mode p s && ptpUp p s then ptpPut p [3, 0, seq, rxStamp p 0 s, src, 0] s else s) s

/-- A measurement (R284): the mean path delay, corrected by the neighbour rate ratio, in units of 2^-32 ns. `t3` is the responder's
departure stamp; a one-step response gives none, and its correction holds the whole turnaround. -/
def pdelayMeasure (p : Nat) (t3 : Option Nat) (corr : Int) (s : State) : State :=
  let t4 := rd HPD.t4 p s
  let s := if t3.isSome && rd HPD.t3p p s ≠ 0 && rd HPD.t4p p s < t4 then
      let r : Int := (((t3.getD 0 : Int) - ((rd HPD.t3p p s : Int) - 1)) * 2 ^ 32) / ((t4 - rd HPD.t4p p s : Nat) : Int) - 2 ^ 32
      wrI HPD.ratio p r s |> wrI TIM_PORT_W6.nrr p (clampInt (-32768) 32767 (r * 100000000 / 2 ^ 32))
    else s
  let s := (if t3.isSome then wr HPD.t4p p t4 (wr HPD.t3p p (t3.getD 0 + 1) s) else s) |> wr HPD.wait p 0 |> wr HPD.got p 0 |> wr HPD.lost p 0
  let turn : Int := (t4 : Int) - rd HPD.t1 p s
  let m := (turn + turn * rdI HPD.ratio p s / 2 ^ 32 - ((t3.getD (rd HPD.t2 p s) : Int) - rd HPD.t2 p s) - (rdI HPD.corr p s + corr) * 2 ^ 16) / 2
  let m := m.toNat
  let w := getL LPD.win p s
  let avg := if w = [] then 0 else w.sum / w.length
  if rdB TIM_PORT_W6.delay_valid p s && 100 * 2 ^ 32 < (if m < avg then avg - m else m - avg) then inc cnt_TIM_delay_spike 0 s
  else
    let w := (if w.length < 8 then w else w.tail) ++ [m]
    let s := setL LPD.win p w s |> wr TIM_PORT_W4.link_delay p (w.sum * 1000 / w.length / 2 ^ 32)
    let s := if 4 ≤ w.length then wr TIM_PORT_W6.delay_valid p 1 s else s
    cableUpdate p (delayWatch p s)

/-- PDELAY_RESP (R284, R289): arrival time `t2` at the responder, in units of 2^-16 ns; `two`, a follow-up brings the departure time. -/
def pdelayResp (p seq req t2 : Nat) (corr : Int) (two bad : Bool) (s : State) : State :=
  ptpTaken bad (fun s =>
    if !rdB HPD.wait p s || seq ≠ rd HPD.seq p s || req ≠ portId p s then s
    else
      let s := wr HPD.got p 1 s |> wr HPD.t2 p (t2 * 2 ^ 16) |> wr HPD.t4 p (rxStamp p 0 s) |> wrI HPD.corr p corr
      if two then s else pdelayMeasure p none 0 s) s

/-- PDELAY_RESP_FOLLOW_UP (R284). -/
def pdelayFollow (p seq req t3 : Nat) (corr : Int) (bad : Bool) (s : State) : State :=
  ptpTaken bad (fun s =>
    if !rdB HPD.wait p s || !rdB HPD.got p s || seq ≠ rd HPD.seq p s || req ≠ portId p s then s
    else pdelayMeasure p (some (t3 * 2 ^ 16)) corr s) s

/-- PDELAY_TIMEOUT (R284). -/
def pdelayTimeout (p : Nat) (s : State) : State :=
  if !rdB HPD.wait p s || !ptpUp p s then s
  else
    let s := inc cnt_TIM_pdelay_lost 0 s |> wr HPD.wait p 0 |> wr HPD.got p 0
    if rd HPD.lost p s = 2 then delayForget p s else addF HPD.lost p 1 s

/-! ### Instances (R288, R289) -/

/-- The enabled instance of a port that terminates a domain (R290). -/
def instOf (p dom : Nat) (s : State) : Option Nat :=
  [1, 2, 3, 4, 5, 6, 7].find? (fun b => rdB TIM_TB_W0.enable b s && rdBit TIM_PORT_W0.ptp_mask p (b - 1) s && rd TIM_TB_W0.domain b s = dom)

/-- Role of a port in an instance: 0 disabled, 1 master, 2 slave, 3 passive. -/
def roleOf (p b : Nat) (s : State) : Nat := bitsOf (rd TIM_PORT_W6.roles p s) (2 * (b - 1)) 2

/-- Set a role. -/
def setRole (p b r : Nat) (s : State) : State := wr TIM_PORT_W6.roles p (putBits (rd TIM_PORT_W6.roles p s) (2 * (b - 1)) 2 r) s

/-- Ports an enabled instance takes part on. -/
def instPorts (b : Nat) (s : State) : List Nat :=
  if rdB TIM_TB_W0.enable b s then (touched TIM_PORT_W0.ptp_mask s).filter (fun p => rdBit TIM_PORT_W0.ptp_mask p (b - 1) s) else []

/-- The device's own clockIdentity. -/
def clockId (s : State) : Nat := rd TIM_CLOCK_ID.clock_id 1 s * 2 ^ 32 + rd TIM_CLOCK_ID.clock_id 0 s

/-- The device's own data set as the best master clock algorithm compares it: priority1, class, accuracy, variance, priority2,
identity, steps removed, sender, port. -/
def ownSet (b : Nat) (s : State) : List Nat :=
  [rd TIM_TB_W1.priority1 b s, ownClass b s, 0xFE, 0xFFFF, rd TIM_TB_W1.priority2 b s, clockId s, 0, clockId s * 2 ^ 16, 0]

/-- Lexicographic order. -/
def lexLt : List Nat → List Nat → Bool
  | a :: as, b :: bs => a < b || (a = b && lexLt as bs)
  | [], _ :: _ => true
  | _, [] => false

/-- The data set of the Announce a port holds, if any. -/
def annSet (b p : Nat) (s : State) : Option (List Nat) :=
  match getL LTB.ann (b * 1024 + p) s with
  | [] => none
  | l => some (l.take 8 ++ [p])

/-- The grandmaster of a base is now `gm` of a class: GM_CHANGE, and the loss of lock causes 3 and 6 (R294). -/
def setGm (b gm cls : Nat) (utc : List Nat) (s : State) : State :=
  let old := rd TIM_TB_W14.gm_lo b s + 2 ^ 32 * rd TIM_TB_W15.gm_hi b s
  let s := wr TIM_TB_W14.gm_lo b gm s |> wr TIM_TB_W15.gm_hi b (gm / 2 ^ 32) |> wr TIM_TB_W5.gm_class b cls
    |> wr TIM_TB_W5.utc_offset b (utc.getD 0 0) |> wr TIM_TB_W5.utc_valid b (utc.getD 1 0)
  let s := if gm ≠ old then instFail b 3 (wr TIM_EVT.ev_hs 0 1 (raise 0x0605 ([b] ++ w64 old ++ w64 gm) s)) else s
  revertNote b (if rd TIM_TB_W4.class_limit b s < cls && rd TIM_TB_W0.source b s = 1 then instFail b 6 s else s)

/-- The best master clock algorithm (R288, R289): roles of an instance's ports and its grandmaster. -/
def bmca (b : Nat) (s : State) : State :=
  let ps := instPorts b s
  if rd TIM_TB_W0.source b s ≠ 1 then
    setGm b (clockId s) (ownClass b s) [] (forEach ps (fun p t => setRole p b 1 t) s)
  else
    let own := ownSet b s
    let sets := ps.filterMap (fun p => annSet b p s)
    let best := sets.foldl (fun (a : Option (List Nat)) x => match a with
      | none => some x
      | some y => if lexLt x y then some x else some y) none
    match best with
    | none => setGm b (clockId s) (ownClass b s) [] (forEach ps (fun p t => setRole p b 1 t) s)
    | some e =>
      if !lexLt e own then setGm b (clockId s) (ownClass b s) [] (forEach ps (fun p t => setRole p b 1 t) s)
      else
        let sp := e.getD 8 0
        let sent := e.take 6 ++ [e.getD 6 0 + 1, clockId s * 2 ^ 16, 0]
        let s := forEach ps (fun p t =>
          if p = sp then setRole p b 2 t
          else match annSet b p t with
            | some x => setRole p b (if lexLt x sent then 3 else 1) t
            | none => setRole p b 1 t) s
        setGm b (e.getD 5 0) (e.getD 1 0) ((getL LTB.ann (b * 1024 + sp) s).drop 8) s

/-- Inbound delay of a port for an instance, units of 2^-32 ns: the mean path delay less asym_used (R286, R293). -/
def inDelay (b p : Nat) (s : State) : Int :=
  let asym := psToU (rdI TIM_PORT_W5.asym_used p s)
  if rd TIM_TB_W0.profile b s = 1 then
    (if rd HTB.e2e b s = 0 then psToU (rd TIM_PORT_W3.delay_cfg p s * 1000 : Nat) else (rd HTB.e2e b s : Int) - 1) - asym
  else (if delayUsed p s then psToU (rd TIM_PORT_W4.link_delay p s : Nat)
    else psToU (rd TIM_PORT_W3.delay_cfg p s * 1000 : Nat)) - asym

/-- A Sync with its origin time (ns) and corrections (units of 2^-16 ns) gives an offset (R293). -/
def syncOffset (b p origin t2 : Nat) (corr : Int) (s : State) : State :=
  let t1 : Int := (origin * 2 ^ 32 : Nat) + corr * 2 ^ 16
  let s := wr HTB.t1 b t1.toNat s |> wr HTB.t2 b t2
  onOffset b (t1 + inDelay b p s - t2) s

/-- SYNC (R293): `two`, a Follow_Up brings the origin time. -/
def syncRx (p dom seq origin : Nat) (corr : Int) (two bad : Bool) (s : State) : State :=
  match instOf p dom s with
  | none => s
  | some b => ptpTaken bad (fun s =>
      if roleOf p b s ≠ 2 || rd TIM_TB_W0.source b s ≠ 1 then s
      else
        let k := b * 1024 + p
        if two then wr HSY.wait k 1 s |> wr HSY.seq k seq |> wr HSY.t2 k (rxStamp p b s) |> wrI HSY.corr k corr
        else syncOffset b p origin (rxStamp p b s) corr (wr HSY.wait k 0 s)) s

/-- FOLLOW_UP (R293). -/
def followUpRx (p dom seq origin : Nat) (corr : Int) (bad : Bool) (s : State) : State :=
  match instOf p dom s with
  | none => s
  | some b => ptpTaken bad (fun s =>
      let k := b * 1024 + p
      if roleOf p b s ≠ 2 || !rdB HSY.wait k s || rd HSY.seq k s ≠ seq then s
      else syncOffset b p origin (rd HSY.t2 k s) (rdI HSY.corr k s + corr) (wr HSY.wait k 0 s)) s

/-- DELAY_REQ (R289): a master port of the delay request-response profile answers with the arrival time. -/
def delayReqRx (p dom seq src : Nat) (corr : Int) (bad : Bool) (s : State) : State :=
  match instOf p dom s with
  | none => s
  | some b => ptpTaken bad (fun s =>
      if roleOf p b s = 1 && rd TIM_TB_W0.profile b s = 1 then
        ptpPut p [9, b, seq, rxStamp p b s, src, unsgn 64 corr] s
      else s) s

/-- DELAY_RESP (R289): arrival time of the Delay_Req at the master, ns. -/
def delayRespRx (p dom seq req t4 : Nat) (corr : Int) (bad : Bool) (s : State) : State :=
  match instOf p dom s with
  | none => s
  | some b => ptpTaken bad (fun s =>
      let k := b * 1024 + p
      if roleOf p b s ≠ 2 || rd HTB.t3 b s = 0 || (seq + 1) % 65536 ≠ rd HSY.txd k s || req ≠ portId p s then s
      else
        let there : Int := (rd HTB.t2 b s : Int) - rd HTB.t1 b s
        let back : Int := (t4 * 2 ^ 32 : Nat) - corr * 2 ^ 16 - ((rd HTB.t3 b s : Int) - 1)
        wr HTB.e2e b (((there + back) / 2).toNat + 1) (wr HTB.t3 b 0 s)) s

/-- DELAY_REQ_INTERVAL (R289). -/
def delayReqInterval (p b : Nat) (s : State) : State :=
  if roleOf p b s ≠ 2 || rd TIM_TB_W0.profile b s ≠ 1 || !ptpUp p s then s
  else ptpPut p [1, b, rd HSY.txd (b * 1024 + p) s, 0, 0, 0] (addF HSY.txd (b * 1024 + p) 1 s)

/-- ANNOUNCE (R289): `set`: priority1, class, accuracy, variance, priority2, identity, steps removed; `path` is the path
trace of gPTP. -/
def announceRx (p dom src : Nat) (set utc path : List Nat) (bad : Bool) (s : State) : State :=
  match instOf p dom s with
  | none => s
  | some b => ptpTaken bad (fun s =>
      if src / 2 ^ 16 = clockId s || (rd TIM_TB_W0.profile b s = 0 && path.contains (clockId s)) then s
      else bmca b (setL LTB.path (b * 1024 + p) path (setL LTB.ann (b * 1024 + p) ((set ++ List.replicate 7 0).take 7 ++ [src] ++ (utc ++ [0, 0]).take 2 ++ [now s]) s))) s

/-- ANNOUNCE_TIMEOUT (R294 cause 6): time has passed to the limit of the port's Announce. -/
def announceTimeout (p b : Nat) (s : State) : State :=
  match getL LTB.ann (b * 1024 + p) s with
  | [] => s
  | l =>
    let d := rd TIM_TB_W1.announce_timeout b s * logNs (sgn 4 (rd TIM_TB_W1.log_announce b s))
    let s := passTo (l.getD 10 0 + d) s
    let s := if roleOf p b s = 2 then instFail b 6 s else s
    bmca b (setL LTB.ann (b * 1024 + p) [] s)

/-- SIGNALING (R289): intervals of Pdelay_Req, Sync and Announce, each a signed byte. -/
def signalingRx (p dom ipd isync iann : Nat) (bad : Bool) (s : State) : State :=
  match instOf p dom s with
  | none => s
  | some b => ptpTaken bad (fun s =>
      let k := b * 1024 + p
      asked HPD.ipd p ipd (-4) 3 s |> asked HSY.isync k isync (-7) 1 |> asked HSY.iann k iann (-3) 3) s

/-- PTP_MANAGEMENT_RX (R289). -/
def ptpMgmtRx (p dom : Nat) (s : State) : State :=
  match instOf p dom s with
  | none => s
  | some _ => inc cnt_TIM_ptp_mgmt_drop 0 (inc cnt_TIM_ptp_rx 0 s)

/-- SYNC_INTERVAL (R289): the interval has passed, and a master port sends Sync. -/
def syncInterval (p b : Nat) (s : State) : State :=
  if roleOf p b s ≠ 1 || !ptpUp p s then s
  else match askedNs HSY.isync (b * 1024 + p) (sgn 4 (rd TIM_TB_W1.log_sync b s)) s with
    | none => s
    | some n => every HSY.synct (b * 1024 + p) n (fun s =>
      ptpPut p [0, b, rd HSY.txs (b * 1024 + p) s, 0, 0, 0] (addF HSY.txs (b * 1024 + p) 1 s)) s

/-- ANNOUNCE_INTERVAL (R289). -/
def announceInterval (p b : Nat) (s : State) : State :=
  if roleOf p b s ≠ 1 || !ptpUp p s then s
  else match askedNs HSY.iann (b * 1024 + p) (sgn 4 (rd TIM_TB_W1.log_announce b s)) s with
    | none => s
    | some n => every HSY.annt (b * 1024 + p) n (fun s =>
      ptpPut p [11, b, rd HSY.txa (b * 1024 + p) s, 0, 0, 0] (addF HSY.txa (b * 1024 + p) 1 s)) s

/-- Bytes of the headers a PTP message of base `b` leaves with. -/
def ptpHead (b : Nat) (s : State) : Nat := [14, 42, 62].getD (rd TIM_TB_W0.transport b s) 14

/-- The path trace of an Announce of base `b` (R289): for gPTP the identities the received one carried, and this device's own. DESIGN CHOICE
(log entry 175): an Announce that would exceed the 256 bytes of R291 with it is sent without a path trace. -/
def annPath (b : Nat) (s : State) : List Nat :=
  if rd TIM_TB_W0.profile b s ≠ 0 then []
  else
    let l := (match (instPorts b s).find? (fun p => roleOf p b s = 2) with
      | some p => getL LTB.path (b * 1024 + p) s
      | none => []) ++ [clockId s]
    if 256 < ptpHead b s + 64 + 4 + 8 * l.length + 4 then [] else l

/-- What an Announce of base `b` carries: the data set of its grandmaster, one step on, its UTC offset, and the path trace. -/
def annBody (b : Nat) (s : State) : List Nat :=
  (match (instPorts b s).find? (fun p => roleOf p b s = 2) with
    | some p => let l := getL LTB.ann (b * 1024 + p) s
                l.take 6 ++ [l.getD 6 0 + 1] ++ (l.drop 8).take 2
    | none => (ownSet b s).take 7 ++ [rd TIM_TB_W5.utc_offset b s, rd TIM_TB_W5.utc_valid b s]) ++ annPath b s

/-- Bytes of the first PTP message waiting on a port as it is sent, with FCS (R289, R291): the message, the headers of its transport, at
least 64. -/
def ptpLen (p : Nat) (s : State) : Nat :=
  match getL LTIM.tx p s with
  | ty :: b :: _ =>
    let peer := ty = 2 || ty = 3 || ty = 10
    let gptp := rd TIM_TB_W0.profile b s = 0
    let msg := if peer || ty = 9 then 54 else if ty = 8 && gptp then 76
      else if ty = 11 then 64 + (if annPath b s = [] then 0 else 4 + 8 * (annPath b s).length) else 44
    let head := if peer then 14 else ptpHead b s
    max 64 (head + msg + 4)
  | _ => 0

/-- Send the first PTP message waiting on a port, stamped now; what must follow it is put in front (R289, R291). -/
def ptpSend (p : Nat) (s : State) : State :=
  match getL LTIM.tx p s with
  | ty :: b :: seq :: x :: y :: z :: rest =>
    let s := setL LTIM.tx p rest (inc cnt_TIM_ptp_tx 0 s)
    let dom := rd TIM_TB_W0.domain b s
    let stamp := rd TBC.count (if ty = 2 || ty = 3 || ty = 10 then 0 else b) s
    let out := fun (args : List Nat) (t : State) => emit .ptp p ([ty, dom, seq, portId p t] ++ args) t
    let before := fun (m : List Nat) (t : State) => setL LTIM.tx p (m ++ getL LTIM.tx p t) t
    match ty with
    | 2 => out [] (wr HPD.t1 p stamp s)
    | 3 => before [10, b, seq, stamp, y, 0] (out (w64 (x / 2 ^ 32) ++ [x / 2 ^ 16 % 65536, y]) s)
    | 10 => out (w64 (x / 2 ^ 32) ++ [x / 2 ^ 16 % 65536, y]) s
    | 0 =>
      if rdB TIM_TB_W0.one_step b s && rd TIM_TB_W0.transport b s ≠ 2 then out (1 :: w64 (stamp / 2 ^ 32) ++ [stamp / 2 ^ 16 % 65536]) s
      else before [8, b, seq, stamp, 0, 0] (out [0] s)
    | 8 => out (w64 (x / 2 ^ 32) ++ [x / 2 ^ 16 % 65536]) s
    | 1 => out [] (wr HTB.t3 b (stamp + 1) s)
    | 9 => out (w64 (x / 2 ^ 32) ++ [x / 2 ^ 16 % 65536, y, z]) s
    | _ => out (annBody b s) s
  | _ => s

/-! ### Time inputs (R302, R303) -/

/-- Refresh the registers that show the head of a pin's FIFO. -/
def tinShow (n : Nat) (s : State) : State :=
  let l := getL LTIM.tin n s
  let h := l.headD 0 / 2
  wr TIM_TIN_W2.fill n l.length s |> wr TIM_TIN_W2.head_edge n (l.headD 0 % 2) |> wr TIM_TIN_W4.cap_lo n (h / 2 ^ 32)
    |> wr TIM_TIN_W5.cap_hi n (h / 2 ^ 64) |> wr TIM_TIN_W6.cap_frac n (h / 2 ^ 16)

/-- TIN_EDGE (R302, R303): an edge of pin `n`, rising or falling. -/
def tinEdge (n : Nat) (rising : Bool) (s : State) : State :=
  let sel := rd TIM_TIN_W0.edge n s
  if !rdB TIM_TIN_W0.enable n s || !(if rising then sel.testBit 0 else sel.testBit 1) then s
  else if rd HTIN.last n s ≠ 0 && now s < rd HTIN.last n s - 1 + 20 then inc cnt_TIM_tin_glitch 0 s
  else
    let b := rd TIM_TIN_W0.tb n s
    let c := ((capCount b s : Int) - psToU (rdI TIM_TIN_W1.tin_delay n s)).toNat
    let s := wr HTIN.last n (now s + 1) s
    let s := if 16 ≤ (getL LTIM.tin n s).length then
        inc cnt_TIM_tin_overflow 0 s |> wr TIM_TIN_W2.overflow n 1 |> wr TIM_EVT.ev_tin 0 1 |> raise 0x0609 [n]
      else tinShow n (pushL LTIM.tin n (c * 2 + b2n (!rising)) s)
    let pps := [1, 2, 3, 4, 5, 6, 7].filter (fun t => rdB TIM_TB_W0.enable t s && rd TIM_TB_W0.source t s = 2 && rd TIM_TB_W0.tin t s = n && t = b)
    if rising && ptpRuns s then
      forEach pps (fun t u =>
        let sec := 1000000000 * 2 ^ 32
        onOffset t ((((c + sec / 2) / sec * sec : Nat) : Int) - c) u) s
    else s

/-- TIN_POP. -/
def tinPop (n : Nat) (s : State) : State := tinShow n (setL LTIM.tin n (getL LTIM.tin n s).tail s)

/-! ### Rounds (R264, R265) -/

/-- Ports that carry ROUND_MARK (R265). -/
def markPorts (s : State) : List Nat :=
  (touched PRT_PORT_STATUS.tag_active s).filter (fun p => rdB PRT_PORT_STATUS.tag_active p s && bitOf (rd PRT_PORT_PEER_CAP.peer_caps p s) 4)

/-- A boundary of Round `r` (R264): time has passed to it. Change sets that wait for it are the caller's. -/
def rndBoundary (r : Nat) (s : State) : State :=
  if !rdB FAB_ROUND_W0.enable r s then s
  else
  let k := rndNext r s
  let b := rd FAB_ROUND_W0.tb r s
  let t := rndBase r s + k * rndPeriod r s
  let s := passTb b t s
  let s := wr HRND.next r (k + 2) s |> wr HRND.last r (k + 1) |> wr FAB_ROUND_W4.boundary_num r k |> wr FAB_ROUND_W5.last_lo r t |> wr FAB_ROUND_W6.last_hi r (t / 2 ^ 32)
  let s := if rdB FAB_ROUND_W0.ev_en r s then raise 0x0A04 [r, k % 2 ^ 32] s else s
  let s := toutRound r b t s
  if rdB FAB_ROUND_W0.mark_en r s then forEach (markPorts s) (fun p u => ordSet p 0x20 (r * 4096 + k % 4096) u) s else s

/-- ROUND_MARK (R265): compared with the own boundary nearest to now. -/
def roundMark (p payload : Nat) (s : State) : State :=
  let r := payload / 4096 % 16
  let t := tbNs (rd FAB_ROUND_W0.tb r s) s
  let k := (t + rndPeriod r s / 2 - min (t + rndPeriod r s / 2) (rndBase r s)) / rndPeriod r s
  if !rdB FAB_ROUND_W0.enable r s || k % 4096 = payload % 4096 then s
  else inc cnt_FAB_round_mismatch 0 s |> wr FAB_EVT.ev_round 0 1 |> raise 0x0A05 [r, p, k % 4096, payload % 4096]

end Sys2Proof.Machine
end

