-- ==== Sys2Proof/Machine/Out.lean ====
section
/-!
DEFINITION. A copy in transmission: the bytes that leave, the transparent clock (R292), memory errors met on the read (R190 to
R193), and the end of the frame (R94, R186, R215, R238).
-/

namespace Sys2Proof.Machine

/-! ### Transparent clock (R292) -/

/-- Is a copy a PTP event message that no instance on its ingress port terminates, with tc_enable set? How it is carried:
0 = not, 1 = Ethernet, 2 = UDP over IPv4, 3 = UDP over IPv6. -/
def tcForm (d : Nat) (s : State) : Nat :=
  let f := rd DSC.frame d s
  let bs := getL LFRM.bytes f s
  let (form, pos) := ptpFind bs
  if !rdB TIM_CTRL.tc_enable 0 s || form = 0 || !ptpEvent bs pos || instOf (rd FRM.port f s) (bs.getD (pos + 4) 0) s ≠ none then 0
  else form

/-- Add the residence time, and with tc_p2p the ingress link delay, to correctionField of the bytes about to be sent. -/
def tcUpdate (d : Nat) (body : List Nat) (s : State) : List Nat :=
  let form := tcForm d s
  if form = 0 || form = 3 then body
  else
    let (form', pos) := ptpFind body
    if form' = 0 then body
    else
      let f := rd DSC.frame d s
      let res := (rd DSC.start d s - rd FRM.stamp f s) / 2 ^ 16
      let peer := if rdB TIM_CTRL.tc_p2p 0 s then rd TIM_PORT_W4.link_delay (rd FRM.port f s) s * 65536 / 1000 else 0
      let c := (beAt body (pos + 8) 8 + res + peer) % 2 ^ 64
      let body := putAt body (pos + 8) (beBytes 8 c)
      if form' = 2 then putAt body (pos - 2) [0, 0] else body

/-! ### Memory errors (R190 to R193) -/

/-- A copy is lost to an error (R191, R193): one that has started ends with a corrupted FCS, any other is dropped. -/
def copyEnd (d : Nat) (s : State) : State :=
  if rdB DSC.started d s then (if rdB DSC.corrupt d s then s else corruptDsc d (copyLost d s))
  else
    let code := rd DSC.code d s
    let s := copyLost d s
    if code % 4 = 2 then
      let s := if headOf code s = some d then wr HBUF.mcpos code 0 s else s
      dscEnd d (groupRelease (rd DSC.frame d s) s)
    else dscEnd d (dropCard d 6 (inc cnt_TEL_q_drops code s))

/-- A frame leaves every punt queue it waits in, uncopied. -/
def puntLose (f : Nat) (s : State) : State :=
  forEach ((List.range 16).filter (fun k => (getL LHIF.punt k s).contains f)) (fun k t =>
    let l := (getL LHIF.punt k t).filter (· ≠ f)
    frmUnref f (setL LHIF.punt k l (wr HIF_RING_W5.queued k l.length t))) s

/-- Every copy of a frame whose link memory or descriptor cannot be read is lost (R193). -/
def frameLost (f : Nat) (s : State) : State := puntLose f (forEach (dscOf f s) copyEnd s)

/-- Descriptors behind the queue link of copy `d`: all of its queue once `d` has left it. -/
def behind (d : Nat) (s : State) : List Nat :=
  let q := getL LBUF.q (rd DSC.code d s) s
  if q.contains d then (q.dropWhile (· ≠ d)).drop 1 else q

/-- A read for copy `d` meets a memory error (R190 to R193): a corrected one is counted; a bad cell word loses the copy, a bad link or
descriptor its frame, and a bad queue link the descriptors behind it. The replicator's descriptor reads no cell word. -/
def memErr (d : Nat) (e : MemErr) (s : State) : State :=
  if !rdB DSC.live d s then s
  else match e with
    | .cellCorr => eccNote cnt_BUF_ecc_corr 1 s
    | .linkCorr => eccNote cnt_BUF_link_ecc_corr 1 s
    | .cellBad w =>
      if rd DSC.code d s % 4 = 2 || frmWord (rd DSC.frame d s) w s = none then s else copyEnd d (cellBad d w s)
    | .linkBad k => frameLost (rd DSC.frame d s) (dscLost 1 k d true s)
    | .descBad => frameLost (rd DSC.frame d s) (dscLost 2 0 d false s)
    | .queueBad => forEach (behind d s) (fun x t => copyEnd x (dscLost 3 0 x false t)) s

/-- Words a copy reads that are known to be bad, in the cells from `k` to below `m`, beside those `errs` report (R191). -/
def knownBad (d k m : Nat) (errs : List MemErr) (s : State) : List MemErr :=
  ((badWords (rd DSC.frame d s) k m s).map .cellBad).filter (fun e => !errs.contains e)

/-- MULTICAST_REPLICATION (R188, R190): up to 4 copies; `errs` are the errors the replicator's reads of its descriptor and links meet. -/
def mcServe (n : Nat) (errs : List MemErr) (s : State) : State :=
  let s := match mcHead s with
    | none => s
    | some d => forEach errs (memErr d) s
  forEach (List.range (min n 4)) (fun _ => mcStep) s

/-! ### Cells read in transmission (R186, R188) -/

/-- Bytes of a copy in transmission that have left by now, at its port's rate. -/
def sentBy (d : Nat) (s : State) : Nat := (rd TBC.count 0 s - rd DSC.start d s) * portRate (rd DSC.eg d s) s / (8000 * 2 ^ 32)

/-- Each copy in transmission has read the cells whose bytes have left (R186), and met the words in them known to be bad (R191). DESIGN CHOICE (log entry 46): the spec gives no instant
for a read; a cell's last word counts as read when its bytes have left, at the latest at the end of the frame. -/
def txReads (s : State) : State :=
  forEach (touched HSCH.fly s) (fun p t =>
    if rd HSCH.fly p t = 0 then t
    else
      let d := rd HSCH.fly p t - 1
      let f := rd DSC.frame d t
      let have_ := (getL LFRM.bytes f t).length
      let m := min (sentBy d t) (if rdB FRM.ended f t then have_ + 255 else have_) / 256
      readCells d m (forEach (knownBad d (max 1 (rd DSC.read d t)) m [] t) (memErr d) t)) s

/-! ### The end of a transmission -/

/-- Record a copy as it left: 0 or 1 for a corrupted FCS, the tag, the bytes, and the FCS unless it is corrupted. -/
def emitFrame (d : Nat) (s : State) : State :=
  let tag := getL LDSC.tag d s
  let body := tcUpdate d (sentBody d s) s
  let fcs := if rdB DSC.corrupt d s then [] else leBytes 4 (fcsOf tag body)
  emit .frame (rd DSC.eg d s) ([rd DSC.corrupt d s] ++ tag ++ body ++ fcs) s

/-- Charge `n` bytes to the buckets and the deficit a copy was charged to at its start (R215). -/
def chargeMore (d n : Nat) (s : State) : State :=
  if n = 0 || rd DSC.charged d s = 0 then s
  else
    let code := rd DSC.code d s
    let v := code / 4 / 8
    let m := rd DSC.buckets d s
    let w := rd SCH_SUB_W0.parent v s
    let on := fun (k : Nat) (f : State → State) (t : State) => if m.testBit k then f t else t
    let down := fun (f : Fld) (i : Nat) (t : State) => wrI f i (rdI f i t - n) t
    on 0 (bktCharge (32768 + v) n) s |> on 1 (bktCharge (3 * 32768 + w) n) |> on 2 (bktCharge v n) |> on 3 (bktCharge (2 * 32768 + w) n)
      |> on 4 (down HSCH.cdef v) |> on 5 (down HSCH.sdef w) |> (fun t => if 2 ≤ code / 4 % 8 then down HSCH.dfc (code / 4) t else t)

/-- The copy a port is sending ends: it leaves as recorded, and lets its frame and its cells go (R186). -/
def txFinish (p : Nat) (s : State) : State :=
  if rd HSCH.fly p s = 0 then s
  else
    let d := rd HSCH.fly p s - 1
    let s := wr HSCH.fly p 0 s
    if !rdB DSC.live d s then s
    else
      let n := sentLen d s
      emitFrame d s |> incBy cnt_PRT_tx_bytes p n |> incBy cnt_TEL_q_tx_bytes (rd DSC.code d s) n |> dscEnd d

/-- A cut-through copy runs out of bytes, or turns out too long (R94, R136, R238). -/
def underrun (d : Nat) (s : State) : State :=
  if rdB DSC.corrupt d s then s
  else corruptDsc d (inc cnt_SLC_cut_underrun (slot (rd FRM.port (rd DSC.frame d s) s) s) s)

/-- FRAME_TX_END: the last byte leaves; bytes that have not arrived by now are missing (R94). -/
def txEnd (p : Nat) (errs : List MemErr) (s : State) : State :=
  if rd HSCH.fly p s = 0 then s
  else
    let d := rd HSCH.fly p s - 1
    let f := rd DSC.frame d s
    let s := forEach (errs ++ knownBad d (max 1 (rd DSC.read d s)) (ceilDiv (getL LFRM.bytes f s).length 256) errs s) (memErr d) s
    let long := portMax p s < sentLen d s || (rdB DSC.adm d s && rdB FRM.ended f s && rd STM.maxf (rd DSC.stream d s) s < rd FRM.len f s)
    let s := if !rdB FRM.ended f s || long then underrun d s else s
    let s := chargeMore d (sentLen d s + sentO p s - rd DSC.charged d s) s
    txFinish p s

/-- A frame in transmission when the port declares link down is ended with a corrupted FCS (R100): a fault loss of its stream,
unless it counts as lost already (R36). -/
def txCut (p : Nat) (s : State) : State :=
  if rd HSCH.fly p s = 0 then s
  else
    let d := rd HSCH.fly p s - 1
    let lost := rdB DSC.adm d s && !rdB DSC.corrupt d s
    let s := corruptDsc d s
    txFinish p (if lost then faultLoss (rd DSC.stream d s) s else s)

end Sys2Proof.Machine
end

