-- ==== Sys2Proof/Machine/Prt.lean ====
section
/-!
DEFINITION. Ports and links (R50 to R80): bring-up, the capability exchange, link ordered sets, the Quiet handshake,
QUIET_HOLD, link faults and link loss, adaptation, and modules.
-/

namespace Sys2Proof.Machine

/-! ### Bring-up (R53, R60) -/

/-- Lanes of a port. -/
def portLanes (p : Nat) (s : State) : List Nat := (List.range (modeLanes (portMode p s))).map (p + ·)

/-- The port a lane belongs to. -/
def lanePort (l : Nat) (s : State) : Nat := l - l % modeLanes (rd PRT_OCT_CFG.mode (l / 8) s)

/-- Is a loopback or PRBS function of a port active (R76)? -/
def testActive (p : Nat) (s : State) : Bool :=
  rd PRT_PORT_LOOP.loopback p s ≠ 0 || (portLanes p s).any (fun l => rd PRT_LANE_CFG.prbs_gen l s ≠ 0 || rd PRT_LANE_CFG.prbs_check l s ≠ 0)

/-- The bit errors the lanes' PRBS checkers count in a cycle: what comes in on a lane under test is a free input (log entry 1). -/
def prbsNote (s : State) : State :=
  forEach ((touched PRT_LANE_CFG.prbs_check s).filter (fun l => rd PRT_LANE_CFG.prbs_check l s ≠ 0))
    (fun l t => incBy cnt_PRT_prbs_err l (Config.freeInput s.cyc (1024 + l)) t) s

/-- Step 1 of R60: does everything it checks allow bring-up? -/
def bringOk (p : Nat) (s : State) : Bool :=
  portExists p s && rdB PRT_PORT_CFG.admin_up p s && !rdB PRT_PORT_STATUS.flap_hold p s && !rdB HPRT.unserved p s && !testActive p s &&
    (rd PRT_PORT_CFG.medium p s ≠ 2 || rdB PRT_OCT_MODULE_STAT.ready (p / 8) s)

/-- State after auto-negotiation: training where lt_enable and the medium ask for it, else aligning. -/
def afterAn (p : Nat) (s : State) : Nat := if rdB PRT_PORT_CFG.lt_enable p s && rd PRT_PORT_CFG.medium p s < 2 then 2 else 3

/-- A port whose link is down stands in step 1, and leaves it where all allow. -/
def bringStart (p : Nat) (s : State) : State :=
  if rdB PRT_PORT_STATUS.link_up p s || running HPRT.retry p s || rd PRT_PORT_STATUS.state p s ≠ 0 || !bringOk p s then s
  else
    let s := wr HPRT.mism p 0 s
    if rdB PRT_PORT_CFG.an_enable p s && rd PRT_PORT_CFG.medium p s ≠ 2 then wr PRT_PORT_STATUS.state p 1 s
    else wr PRT_PORT_STATUS.state p (afterAn p s) s

/-- Leave every step of bring-up. -/
def bringStop (p : Nat) (s : State) : State :=
  wr PRT_PORT_STATUS.state p 0 s |> disarm HPRT.updeb p |> disarm HPRT.retry p

/-- BRINGUP_STEP_FAIL (R60). -/
def stepFail (p : Nat) (s : State) : State :=
  let st := rd PRT_PORT_STATUS.state p s
  if rdB PRT_PORT_STATUS.link_up p s || st = 0 || 4 < st then s
  else arm HPRT.retry p 100000000 (inc cnt_PRT_bringup_retry p (bringStop p s))

/-- AUTONEG_PAGE_RX (R53): `has` says whether the partner's ability word names the PHY type of the mode. -/
def anPage (p ability : Nat) (has : Bool) (s : State) : State :=
  if rd PRT_PORT_STATUS.state p s ≠ 1 then s
  else if has then wr PRT_PORT_STATUS.state p (afterAn p s) s
  else if rdB HPRT.mism p s then s
  else inc cnt_PRT_an_mismatch p (wr HPRT.mism p 1 s) |> raise 0x4005 [p, ability]

/-! ### Peers (R61 to R64) -/

/-- tag_active (R64). -/
def tagNote (p : Nat) (s : State) : State :=
  wrB PRT_PORT_STATUS.tag_active p (rdB PRT_PORT_CFG.ibyon_enable p s && rdB PRT_PORT_STATUS.peer_zx p s &&
    bitOf (rd PRT_PORT_PEER_CAP.peer_caps p s) 0) s

/-- caps of R61 as this port advertises them. -/
def capsOf (p : Nat) (s : State) : Nat :=
  0x34 + rd PRT_PORT_CFG.ibyon_enable p s + 2 * rd PRT_PORT_CFG.quiet_enable p s
    + 8 * b2n (rdB FAB_PG_CFG.pg_enable 0 s && rd FAB_PG_CFG.group_id 0 s ≠ 0)

/-- A capability frame as it leaves now, without FCS (R61). -/
def capFrame (p : Nat) (s : State) : List Nat :=
  let dev := rd FAB_CTRL.device_id 0 s
  [0x01, 0x80, 0xC2, 0x00, 0x00, 0x0E, 0x02, 0x5A, 0x58, 0x00] ++ beBytes 2 dev ++ [0x88, 0xB5, 0x5A, 0x58, 1, 1] ++ beBytes 2 dev
    ++ beBytes 2 p ++ [0xB0, 1] ++ beBytes 2 (capsOf p s) ++ beBytes 2 (rd FAB_PG_CFG.group_id 0 s)
    ++ beBytes 4 (rd PRT_PORT_DELAY.fixed_delay p s * 10) ++ beBytes 4 (rd HPRT.capseq p s) ++ List.replicate 24 0

/-- The MAC sends its capability frame with the plain FCS (R61, R247). -/
def capSend (p : Nat) (s : State) : State :=
  let bs := capFrame p s
  emit .capFrame p (bs ++ leBytes 4 (crcIeee bs)) s |> inc cnt_PRT_tx_frames p |> incBy cnt_PRT_tx_bytes p 64
    |> addF HPRT.capseq p 1 |> wr HPRT.cap p 0 |> wr HPRT.captx p (now s + 1)

/-- CAPABILITY_FRAME_TX (R61, R63): time has passed to the next frame's due time; the frame leaves when the port can send. -/
def capDue (p : Nat) (s : State) : State :=
  let st := rd PRT_PORT_STATUS.state p s
  if rd HPRT.captx p s = 0 || !rdB PRT_PORT_STATUS.link_up p s || st = 5 || st = 6 || rdB HPRT.cap p s then s
  else
    let s := passTo (rd HPRT.captx p s - 1 + (if rdB PRT_PORT_STATUS.peer_zx p s then 1000000000 else 100000000)) s
    wr HPRT.cap p 1 s |> wr HPRT.captx p (now s + 1)

/-- The peer is no longer known to be one of these devices (R63, R287). -/
def peerClear (p : Nat) (s : State) : State :=
  wr PRT_PORT_STATUS.peer_zx p 0 s |> wr PRT_PORT_STATUS.tag_active p 0 |> disarm HPRT.lost p |> wr HPD.ptx p 0 |> wr HPD.prx p 0
    |> asymUpdate p false

/-- PEER_LOST (R63). -/
def peerLost (p : Nat) (s : State) : State :=
  expire HPRT.lost p (fun s => raise 0x4008 [p] (wr PRT_PORT_EVT.ev_peer p 1 (peerClear p s))) s

/-- A frame the MAC consumes is received (R62, R52): its counters, and the wake causes of R68 and R330. -/
def macRx (p len : Nat) (k : State → State) (s : State) : State :=
  if portExists p s && portHears p s then 
    k (incBy cnt_PRT_rx_bytes p len (rxNote (inc cnt_PRT_rx_frames p (peerFrame p (autumnWake (servSlice p s) s))))) else s

/-- A capability frame is handled (R63): the fields of R61 it carries. -/
def capTaken (p dev pport tagv caps group fixed : Nat) (s : State) : State :=
  let s := inc cnt_PRT_rx_ctrl p s
  let old := rd PRT_PORT_PEER.peer_device p s
  let differs := rdB HPRT.rec p s && (old ≠ dev % 4096 || rd PRT_PORT_PEER.peer_port p s ≠ pport % 1024)
  let was := rdB PRT_PORT_STATUS.peer_zx p s
  let s := wr PRT_PORT_PEER.peer_device p dev s |> wr PRT_PORT_PEER.peer_port p pport |> wr PRT_PORT_PEER_CAP.peer_caps p caps
    |> wr PRT_PORT_PEER_CAP.peer_tag_version p tagv |> wr FAB_PORT.peer_group p group |> wr HPRT.pfix p fixed
    |> wr HPRT.rec p 1 |> wr PRT_PORT_STATUS.peer_zx p 1 |> arm HPRT.lost p 3500000000
  let s := asymUpdate p false (tagNote p s)
  let s := if differs then raise 0x4007 [p, old, dev % 4096] (wr PRT_PORT_EVT.ev_peer p 1 s) else s
  if was then s else extSend p (wr HPD.extr p (now s + 1) (wr HPD.extt p (now s + 1) s))

/-- CAPABILITY_FRAME_RX (R63). -/
def capRx (p dev pport tagv caps group fixed : Nat) (s : State) : State := macRx p 64 (capTaken p dev pport tagv caps group fixed) s

/-! ### Link-local messages (R68, R480) -/

/-- Does the link forward: up, and neither quiet, waking, about to be quiet, nor held by QUIET_HOLD? -/
def forwards (p : Nat) (s : State) : Bool :=
  rdB PRT_PORT_STATUS.link_up p s && rd PRT_PORT_STATUS.state p s = 4 && !running HPRT.reqd p s && !running HPRT.quiet2 p s

/-- Split a list of length-prefixed messages. -/
def splitMsgs : Nat → List Nat → List (List Nat)
  | 0, _ => []
  | _, [] => []
  | n + 1, k :: l => l.take k :: splitMsgs n (l.drop k)

/-- A link-local management message leaves by a port at once, or waits for the link to forward and wakes it (R68). -/
def llSend (p : Nat) (m : List Nat) (s : State) : State :=
  if !rdB PRT_PORT_STATUS.link_up p s then s
  else if forwards p s then emit .admMsg p m s
  else wakeCause p (setL LPRT.llq p (getL LPRT.llq p s ++ [m.length] ++ m) s)

/-! ### Pauses (R217) -/

/-- pause_cause of a port: the first condition of R217 that applies; 0 = none. -/
def pauseCause (p : Nat) (s : State) : Nat :=
  let st := rd PRT_PORT_STATUS.state p s
  if !portExists p s || !rdB PRT_PORT_CFG.admin_up p s || !rdB PRT_PORT_STATUS.link_up p s || rd BUF_PORT_STATUS.hold_state p s ≠ 0 then 1
  else if running HPRT.hold p s then 2
  else if st = 5 || st = 6 || running HPRT.reqd p s || running HPRT.quiet2 p s then 3
  else if testActive p s then 4
  else if rdB HPRT.gap p s then 5
  else 0

/-! ### Power-group messages (R267, R268) and what waits to be sent -/

/-- The type-2 tag of a power-group message (R248, R267), built at each sending. -/
def pgTag (s : State) : List Nat :=
  let st := rd TBC.count (rd FAB_CTRL.stamp_tb 0 s) s
  [0x12, 1] ++ beBytes 2 (rd FAB_CTRL.device_id 0 s) ++ [0, 0, 0, 0] ++ beBytes 4 (st / 2 ^ 32 % 2 ^ 32) ++ beBytes 2 (st / 2 ^ 16 % 2 ^ 16)
    ++ [0, rd FAB_PG_STATUS.own_slack 0 s]

/-- The bytes of a power-group message, without FCS (R267): `m` holds msg, group, origin, seq, target, transfer number, watts, draw, slack,
state, stretch and cap. -/
def pgBody (m : List Nat) (s : State) : List Nat :=
  let x := fun k => m.getD k 0
  [0x01, 0x80, 0xC2, 0x00, 0x00, 0x0E, 0x02, 0x5A, 0x58, 0x00] ++ beBytes 2 (rd FAB_CTRL.device_id 0 s) ++ [0x88, 0xB6, 0x5A, 0x58]
    ++ [x 0 % 256, 1] ++ beBytes 2 (x 1) ++ beBytes 2 (x 2) ++ beBytes 2 (x 3) ++ beBytes 2 (x 4) ++ beBytes 2 (x 5) ++ beBytes 2 (x 6)
    ++ beBytes 2 (x 7) ++ [x 8 % 256, x 9 % 256] ++ beBytes 2 (x 10) ++ beBytes 2 (x 11) ++ List.replicate 22 0

/-- A power-group message leaves by a port (R267), or waits while the port may send no frame. -/
def pgSend (p : Nat) (m : List Nat) (s : State) : State :=
  if pauseCause p s ≠ 0 then setL LPRT.pgq p (getL LPRT.pgq p s ++ [m.length] ++ m) s
  else
    let tag := pgTag s
    let body := pgBody m s
    inc cnt_FAB_pg_tx 0 (emit .fabMsg p (tag ++ body ++ leBytes 4 (fcsOf tag body)) s) |> inc cnt_PRT_tx_frames p |> incBy cnt_PRT_tx_bytes p 64

/-- The messages that waited leave. -/
def llFlush (p : Nat) (s : State) : State :=
  if !forwards p s then s
  else
    let pg := splitMsgs 4096 (getL LPRT.pgq p s)
    let s := forEach (splitMsgs 4096 (getL LPRT.llq p s)) (fun m t => emit .admMsg p m t) (setL LPRT.pgq p [] (setL LPRT.llq p [] s))
    forEach pg (fun m t => pgSend p m t) s

/-! ### Local faults (R71) -/

/-- A port with a local fault sends remote fault (R71): loss of signal or lock, or received local fault sequences; what it sends shows
when it changes. -/
def rfNote (p : Nat) (s : State) : State :=
  let lf := rd PRT_PORT_STATUS.faults p s % 8 ≠ 0 || rdB HPRT.lfrx p s
  if rdB HPRT.rf p s = lf then s else emit .remoteFault p [b2n lf] (wrB HPRT.rf p lf s)

/-- The lowest fault that stands, in R71's order; 0 = none. -/
def lowFault (m : Nat) : Nat := ((List.range 6).find? (fun k => m.testBit k)).elim 0 (· + 1)

/-- The lanes of a port are locked and aligned, or their faults do not count (R67): lane faults end, and with the last of a run of
faults its down_debounce and its first fault (R72). -/
def laneFaultsOff (p : Nat) (s : State) : State :=
  let m := rd PRT_PORT_STATUS.faults p s / 8 * 8
  let s := wr PRT_PORT_STATUS.faults p m s
  rfNote p (if m = 0 then wr HPRT.first p 0 (disarm HPRT.debounce p s)
    else if rd HPRT.first p s < 4 then wr HPRT.first p (lowFault m) s else s)

/-! ### Quiet (R66 to R69) -/

/-- State of a port that forwards: up, or held by a QUIET_HOLD. -/
def fwdState (p : Nat) (s : State) : Nat := if running HPRT.hold p s then 7 else 4

/-- Is every egress queue of a port empty (R66)? A frame leaving the port still counts. -/
def queuesEmpty (p : Nat) (s : State) : Bool := (portQueues p s).all (fun c => getL LBUF.q c s = []) && rd HSCH.fly p s = 0

/-- Is a port the slave port of an enabled PTP instance (R66)? -/
def slavePort (p : Nat) (s : State) : Bool := [1, 2, 3, 4, 5, 6, 7].any (fun b => rdB TIM_TB_W0.enable b s && roleOf p b s = 2)

/-- The reason a port gives against Quiet, in the order of R66; 0 = none. DESIGN CHOICE (log entry 141): a peer that does not advertise
caps bit 1, for which R66 has no reason, is answered with reason 3. -/
def quietNo (p : Nat) (s : State) : Nat :=
  if portUsed p s then 1 else if !queuesEmpty p s then 2
  else if !rdB PRT_PORT_CFG.quiet_enable p s || !bitOf (rd PRT_PORT_PEER_CAP.peer_caps p s) 1 then 3
  else if rd PRT_PORT_STATUS.state p s = 6 then 4 else if slavePort p s then 5 else 0

/-- Both sides have agreed: the 2 us begin, and lane faults are no faults from now on (R67). -/
def quietAgree (p : Nat) (s : State) : State := laneFaultsOff p (arm HPRT.quiet2 p 2000 (disarm HPRT.reqd p s))

/-- The answer QUIET_NAK; a port whose wake is in progress sends it as the link forwards again (R67: it sends no ordered set while waking). -/
def quietNakSend (p reason : Nat) (s : State) : State :=
  if rd PRT_PORT_STATUS.state p s = 6 then wr HPRT.nak p reason s else ordSet p 0x03 reason s

/-- QUIET_REQ (R66, R67). -/
def quietReq (p : Nat) (s : State) : State :=
  if (!portHears p s && rd PRT_PORT_STATUS.state p s ≠ 6) || !rdB PRT_PORT_STATUS.peer_zx p s || running HPRT.quiet2 p s then s
  else
    osTake p 0x01 0 (fun s =>
      if running HPRT.reqd p s then quietAgree p s
      else if quietNo p s = 0 then quietAgree p (ordSet p 0x02 0 s) else quietNakSend p (quietNo p s) s) s

/-- An attempt ends without agreement (R69). -/
def quietRefused (p : Nat) (s : State) : State :=
  wr HPRT.idle0 p (now s + 1) s |> wr HPRT.wakeup p 0 |> inc cnt_PRT_quiet_refused p |> llFlush p

/-- QUIET_ACK (R67). -/
def quietAck (p : Nat) (s : State) : State := if running HPRT.reqd p s then osTake p 0x02 0 (quietAgree p) s else s

/-- QUIET_NAK (R69). -/
def quietNak (p reason : Nat) (s : State) : State :=
  if running HPRT.reqd p s then osTake p 0x03 reason (fun s => quietRefused p (disarm HPRT.reqd p s)) s else s

/-- QUIET_IDLE_EXPIRY (R66): time has passed to the end of quiet_idle, and the request goes out if every condition holds. -/
def quietIdle (p : Nat) (s : State) : State :=
  let st := rd PRT_PORT_STATUS.state p s
  if !rdB PRT_PORT_STATUS.link_up p s || (st ≠ 4 && st ≠ 7) || running HPRT.reqd p s || running HPRT.quiet2 p s ||
      rd HPRT.idle0 p s = 0 || rd PRT_PORT_TIMERS.quiet_idle p s = 0 || !rdB PRT_PORT_CFG.quiet_enable p s ||
      !rdB PRT_PORT_STATUS.peer_zx p s || !bitOf (rd PRT_PORT_PEER_CAP.peer_caps p s) 1 then s
  else
    let s := passTo (rd HPRT.idle0 p s - 1 + rd PRT_PORT_TIMERS.quiet_idle p s * 1000000) s
    if quietNo p s = 0 then arm HPRT.reqd p 20000 (ordSet p 0x01 0 s) else s

/-- QUIET_ENTRY (R67, R68): the 2 us have passed. A wake cause that came meanwhile keeps the transmitter on. -/
def quietEntry (p : Nat) (s : State) : State :=
  expire HPRT.quiet2 p (fun s =>
    let s := inc cnt_PRT_quiet_entry p s |> wr PRT_PORT_EVT.ev_peer p 1 |> disarm HPRT.lost p |> wr HPRT.captx p 0 |> wr HPRT.cap p 0
      |> wr HPD.wait p 0 |> wr HPD.got p 0
    if rdB HPRT.wakeup p s then
      wr HPRT.wakeup p 0 (wr HPRT.wcounted p 1 (inc cnt_PRT_quiet_wake p (wakeStart p s)))
    else wr PRT_PORT_STATUS.state p 5 s) s

/-- SIGNAL_DETECT_ENERGY (R68). -/
def signalEnergy (p : Nat) (s : State) : State := if rd PRT_PORT_STATUS.state p s = 5 then wakeStart p s else s

/-- WAKE_ALIGNED (R68, R63): the port forwards again. -/
def wakeAligned (p : Nat) (s : State) : State :=
  if rd PRT_PORT_STATUS.state p s ≠ 6 then s
  else
    let s := if rdB HPRT.wcounted p s then s else inc cnt_PRT_quiet_wake p s |> wr PRT_PORT_EVT.ev_peer p 1
    let s := disarm HPRT.wake p (wr HPRT.wcounted p 0 s)
    let s := wr PRT_PORT_STATUS.state p (fwdState p s) s |> wr HPRT.cap p 1 |> wr HPRT.captx p (now s + 1) |> wr HPRT.idle0 p (now s + 1)
    let s := if rd HPRT.nak p s = 0 then s else wr HPRT.nak p 0 (ordSet p 0x03 (rd HPRT.nak p s) s)
    llFlush p (if rdB PRT_PORT_STATUS.peer_zx p s then arm HPRT.lost p 3500000000 s else s)

/-! ### Link down and up (R71 to R75) -/

/-- A fault run has lasted long enough, or a rule declares the port down (R72, R63, R75): `fault` is the first fault. -/
def linkDown (p fault : Nat) (s : State) : State :=
  if !rdB PRT_PORT_STATUS.link_up p s then bringStart p (bringStop p s)
  else
    let s := epiStart 3 p p (streamsOn p s) (windowsNote p s)
    let s := rxClose p true (txCut p s)
    let s := wr PRT_PORT_STATUS.link_up p 0 s |> inc cnt_PRT_link_down p |> peerClear p |> raise 0x4002 [p, fault]
      |> wr PRT_PORT_EVT.ev_link p 1
      |> disarm HPRT.debounce p |> wr HPRT.first p 0 |> disarm HPRT.wake p |> wr HPRT.wakeup p 0 |> wr HPRT.wcounted p 0
      |> disarm HPRT.reqd p |> disarm HPRT.quiet2 p |> disarm HPRT.hold p |> wr HPRT.nak p 0 |> wr HPRT.captx p 0 |> wr HPRT.cap p 0 |> wr HPRT.idle0 p 0
      |> setL LPRT.llq p [] |> setL LPRT.pgq p [] |> setL LTIM.tx p [] |> delayForget p |> wr HSCH.sel p 0
    let s := holdStart p (rd BUF_PORT_CFG.link_hold p s) s
    let s := bundleNote (bundleOf p s) s
    let t0 := now s
    let fl := (getL LPRT.flaps p s).filter (fun t => t0 ≤ t + rd PRT_PORT_FLAP.flap_window p s * 1000000000) ++ [t0]
    let s := if rd PRT_PORT_FLAP.flap_count p s ≤ fl.length then
        setL LPRT.flaps p [] (wr PRT_PORT_STATUS.flap_hold p 1 s) |> raise 0x4004 [p, rd PRT_PORT_FLAP.flap_count p s]
      else setL LPRT.flaps p fl s
    bringStart p (bringStop p s)

/-- link_up (R60 step 5, R204, R37): LINK_UP, the hold and the exception end, and the capability exchange starts. -/
def linkUp (p : Nat) (s : State) : State :=
  let s := wr PRT_PORT_STATUS.link_up p 1 (wr HPRT.first p 0 s) |> raise 0x4001 [p] |> wr PRT_PORT_EVT.ev_link p 1
    |> wr HPRT.captx p (now s + 1) |> wr HPRT.cap p 1 |> wr HPRT.idle0 p (now s + 1)
  let s := epiEnd 3 p p (holdEnd p (windowsNote p s))
  bundleNote (bundleOf p s) s

/-- Step 5 of R60 starts or starts over. -/
def upDebounce (p : Nat) (s : State) : State :=
  if rd PRT_PORT_STATUS.faults p s ≠ 0 then disarm HPRT.updeb p s
  else if rd PRT_PORT_TIMERS.up_debounce p s = 0 then linkUp p s
  else arm HPRT.updeb p (rd PRT_PORT_TIMERS.up_debounce p s * 1000000) s

/-! ### Channel loss (R55, R58) -/

/-- Largest insertion loss of a mode's lanes, in units of 0.5 dB (R55). -/
def lossLimit (m : Nat) : Nat := [80, 80, 80, 80, 64, 60, 70, 50].getD m 50

/-- The estimate of a lane's insertion loss (R58): CHANNEL_LOSS is raised when it first exceeds the figure of R55. -/
def lossNote (l loss : Nat) (s : State) : State :=
  let loss := min loss 255
  let above := decide (lossLimit (rd PRT_OCT_CFG.mode (l / 8) s) < loss)
  let s := wr PRT_LANE_STATUS.loss_db l loss s
  let s := if above then wr PRT_LANE_STATUS.loss_over_spec l 1 s else s
  let s := if above && !rdB HLN.over l s then raise 0x4006 [l, loss] (wr PRT_PORT_EVT.ev_degrade (lanePort l s) 1 s) else s
  wrB HLN.over l above s

/-- The estimates of a port's lanes. -/
def lossNotes (p : Nat) (loss : List Nat) (s : State) : State := forEach ((portLanes p s).zip loss) (fun x t => lossNote x.1 x.2 t) s

/-! ### The steps of bring-up and link faults (R60, R71, R72) -/

/-- LINK_TRAINING_DONE (R60, R58): the equalisers have converged; `loss` lists the estimate of each lane, in units of 0.5 dB. -/
def trainingDone (p : Nat) (loss : List Nat) (s : State) : State :=
  if rd PRT_PORT_STATUS.state p s = 2 then wr PRT_PORT_STATUS.state p 3 (lossNotes p loss s) else s

/-- ALIGNMENT_DONE (R60): the lanes are locked and aligned. -/
def alignmentDone (p : Nat) (s : State) : State :=
  if rd PRT_PORT_STATUS.state p s ≠ 3 then s else upDebounce p (laneFaultsOff p (wr PRT_PORT_STATUS.state p 4 s))

/-- down_debounce starts for the first fault seen (R72). -/
def downDebounce (p : Nat) (s : State) : State :=
  if rd PRT_PORT_TIMERS.down_debounce p s = 0 then linkDown p (rd HPRT.first p s) s
  else arm HPRT.debounce p (rd PRT_PORT_TIMERS.down_debounce p s * 100) s

/-- LINK_FAULT (R71, R67, R70): fault `k` of R71 appears on a port, or is gone; for fault 4, `k` = 4 stands for received local fault
sequences and `k` = 7 for received remote fault sequences, and the fault stands while either are received. -/
def linkFault (p k : Nat) (present : Bool) (s : State) : State :=
  let st := rd PRT_PORT_STATUS.state p s
  let b := if k = 7 then 4 else k
  if !portExists p s || b < 1 || 5 < b || (b ≤ 3 && (st = 5 || st = 6 || running HPRT.quiet2 p s)) then s
  else
    let s := if k = 4 then wrB HPRT.lfrx p present s else if k = 7 then wrB HPRT.rfrx p present s else s
    if present then
      let s := rfNote p (wr HPRT.first p (if rd HPRT.first p s = 0 then b else rd HPRT.first p s) (setFBit PRT_PORT_STATUS.faults p (b - 1) s))
      if rdB PRT_PORT_STATUS.link_up p s then
        if running HPRT.hold p s || running HPRT.debounce p s then s else downDebounce p s
      else disarm HPRT.updeb p s
    else if b = 4 && (rdB HPRT.lfrx p s || rdB HPRT.rfrx p s) then rfNote p s
    else
      let s := rfNote p (clrFBit PRT_PORT_STATUS.faults p (b - 1) s)
      if rd PRT_PORT_STATUS.faults p s ≠ 0 then s
      else
        let s := wr HPRT.first p 0 (disarm HPRT.debounce p s)
        if !rdB PRT_PORT_STATUS.link_up p s && rd PRT_PORT_STATUS.state p s = 4 && !running HPRT.updeb p s then upDebounce p s else s

/-- A QUIET_HOLD ends (R70): frames flow again, and a fault still present starts down_debounce now. -/
def holdOver (p : Nat) (s : State) : State :=
  let s := disarm HPRT.hold p s
  let s := if rd PRT_PORT_STATUS.state p s = 7 then wr PRT_PORT_STATUS.state p 4 s else s
  llFlush p (if rd PRT_PORT_STATUS.faults p s ≠ 0 && rdB PRT_PORT_STATUS.link_up p s then downDebounce p s else s)

/-- QUIET_HOLD (R70), for `us` microseconds. -/
def quietHold (p us : Nat) (s : State) : State :=
  if !portHears p s || us = 0 then s
  else
    osTake p 0x04 us (fun s =>
      let s := arm HPRT.hold p (us % 65536 * 1000) (disarm HPRT.debounce p s)
      if rd PRT_PORT_STATUS.state p s = 4 then wr PRT_PORT_STATUS.state p 7 s else s) s

/-- HOLD_END (R70). -/
def holdEndRx (p : Nat) (s : State) : State := if portHears p s && running HPRT.hold p s then osTake p 0x05 0 (holdOver p) s else s

/-- admin_up is set or cleared (R60, R71, R72). DEDUCED (log entry 135): clearing it, and a test that becomes active, declares link down at
once during a QUIET_HOLD too. -/
def adminUp (p : Nat) (on : Bool) (s : State) : State :=
  let was := rdB PRT_PORT_CFG.admin_up p s
  let s := wrB PRT_PORT_CFG.admin_up p on s
  if on then (if was then s else bringStart p (clrFBit PRT_PORT_STATUS.faults p 5 s))
  else if !was then s
  else linkDown p 6 (setFBit PRT_PORT_STATUS.faults p 5 s)

/-- DEGRADE_WINDOW (R74): symbol errors and uncorrectable codewords of the window. -/
def degradeWindow (p errs uncorr : Nat) (s : State) : State :=
  if !portExists p s || !rdB PRT_PORT_STATUS.link_up p s then s
  else
    let s := incBy cnt_PRT_fec_corr_sym p errs s |> incBy cnt_PRT_fec_uncorr p uncorr
    let lim := rd PRT_PORT_FLAP.degrade_threshold p s
    if lim < errs then raise 0x4003 [p, errs] (wr PRT_PORT_EVT.ev_degrade p 1 (wr PRT_PORT_STATUS.degraded p 1 s))
    else if errs * 2 < lim then wr PRT_PORT_STATUS.degraded p 0 s else s

/-! ### The octet mode (R51) -/

/-- Commit a mode: ports of the old mode go down, those that cease to exist are flushed, those of the new mode come up. -/
def octetMode (o m : Nat) (s : State) : State :=
  if rd PRT_OCT_CFG.mode o s = m then s
  else
    let old := octetPorts o s
    let s := forEach old (fun p t =>
      let gone := (p % 8) % modeLanes m ≠ 0
      if rdB PRT_PORT_STATUS.link_up p t then
        let keep := rd BUF_PORT_CFG.link_hold p t
        let t := linkDown p 6 (if gone then wr BUF_PORT_CFG.link_hold p 0 t else t)
        wr BUF_PORT_CFG.link_hold p keep t
      else if gone then portFlush p t else t) s
    let s := forEach old bringStop (wr PRT_OCT_CFG.mode o m s)
    forEach (octetPorts o s) (fun p t => bringStart p (bringStop p t)) s

/-! ### Adaptation (R57) -/

/-- ADAPTATION_STEP: one tap step on lane `l`; `loss` is the estimate of R58 in 0.5 dB units, `ser` the symbol errors of the
10 ms before. -/
def adaptStep (l loss ser : Nat) (s : State) : State :=
  let p := lanePort l s
  if !rdB PRT_LANE_CFG.adapt_enable l s || !rdB PRT_PORT_STATUS.link_up p s ||
      (rd HLN.step l s ≠ 0 && now s < rd HLN.step l s - 1 + 100000) then s
  else
    wr HLN.step l (now s + 1) s |> addF HLN.taps l 1 |> setL LLN.steps l (getL LLN.steps l s ++ [now s, ser]) |> lossNote l loss

/-- ADAPT_REVERT_CHECK: time has passed to 10 ms after the oldest step not yet checked; `after` is the symbol errors since. -/
def adaptCheck (l after : Nat) (s : State) : State :=
  match getL LLN.steps l s with
  | t :: before :: rest =>
    let s := setL LLN.steps l rest (passTo (t + 10000000) s)
    if 2 * before < after then inc cnt_PRT_adapt_revert (lanePort l s) (wr HLN.taps l (rd HLN.taps l s + 65535) s) else s
  | _ => s

/-! ### Modules (R77, R78) -/

/-- The octet's fault 5 comes or goes on every port of it. -/
def moduleFault (o : Nat) (present : Bool) (s : State) : State := forEach (octetPorts o s) (fun p t => linkFault p 5 present t) s

/-- MODULE_READY: the data paths are active. -/
def moduleReady (o app : Nat) (s : State) : State :=
  let s := wr PRT_OCT_MODULE_STAT.ready o 1 s |> wr HOCT.held o 0 |> raise 0x4009 [o, app] |> moduleFault o false
  forEach (octetPorts o s) bringStart s

/-- Code of the first advertised application whose host interface matches an octet mode (R77 step 3). DESIGN CHOICE (log entry 170): its
place among the module's applications, from 1; a passive copper module's is 0. -/
def firstApp (m : Nat) (apps : List Nat) : Option Nat := (apps.findIdx? (· = m)).map (· + 1)

/-- A write to an octet's module through its I²C master: 1 = high power, 2 = select an application, 3 = host-side equalisation,
4 = activate the data paths, 5 = low power; and its value. -/
def moduleWrite (o what v : Nat) (s : State) : State := emit .i2c (rd PRT_OCT_MODULE_MAP.i2c_master o s) [o, what, v] s

/-- The insertion steps of R77. -/
def moduleSteps (o : Nat) (d : ModData) (s : State) : State :=
  let s := wr PRT_OCT_MODULE_STAT.cmis_rev o d.rev s |> wr PRT_OCT_MODULE_STAT.mod_state o d.state |> wr PRT_OCT_MODULE_STAT.ready o 0
  if d.passive then moduleReady o 0 s
  else
    let s := wr PRT_OCT_MODULE_STAT.power_class o d.class_ s
    if rd PRT_OCT_MODULE_MAP.max_power_class o s < d.class_ then
      raise 0x400B [o, d.class_] (wr PRT_OCT_MODULE_STAT.power_denied o 1 s)
    else if rdB PRT_OCT_MODULE_CTRL.force_lp o s then wr HOCT.held o 1 s
    else
      let s := moduleWrite o 1 d.class_ s
      match firstApp (rd PRT_OCT_CFG.mode o s) d.apps with
      | none => raise 0x400C [o] (wr PRT_OCT_MODULE_STAT.no_app o 1 s)
      | some a => moduleReady o a (moduleWrite o 2 a s |> moduleWrite o 3 a |> moduleWrite o 4 a)

/-- Does the device manage an octet's module now: module_en, and its I²C bus not stuck (R486)? -/
def moduleOn (o : Nat) (s : State) : Bool :=
  rdB PRT_OCT_MODULE_MAP.module_en o s && !rdBit HIF_STATUS.i2c_stuck 0 (rd PRT_OCT_MODULE_MAP.i2c_master o s) s

/-- Flag bytes as payload words, four to a word, the first in bits 7:0. -/
def flagWords (bs : List Nat) : List Nat := (List.range (ceilDiv bs.length 4)).map (fun k => leNat ((bs.drop (4 * k)).take 4))

/-- MODULE_FLAG (R78). DESIGN CHOICE (log entry 138): four flag bytes go into a word, and flag bytes beyond 44 into further events. -/
def flagNotes (o : Nat) : Nat → List Nat → State → State
  | 0, _, s => s
  | n + 1, bs, s =>
    let s := raise 0x400D (o :: flagWords (bs.take 44)) s
    if bs.length ≤ 44 then s else flagNotes o n (bs.drop 44) s

/-- MODULE_POLL (R77, R78), 10 ms after the last. -/
def modulePoll (o : Nat) (d : ModData) (s : State) : State :=
  if !moduleOn o s || running HOCT.pulse o s then s
  else every HOCT.poll o 10000000 (fun s =>
    let was := rdB PRT_OCT_MODULE_STAT.present o s
    let s := if d.present && !was then
        moduleSteps o d (wr PRT_OCT_MODULE_STAT.mod_event o 1 (wr PRT_OCT_MODULE_STAT.present o 1 s))
      else if !d.present && was then
        wr PRT_OCT_MODULE_STAT.present o 0 s |> wr PRT_OCT_MODULE_STAT.ready o 0 |> wr PRT_OCT_MODULE_STAT.mod_state o 0
          |> wr HOCT.held o 0 |> wr PRT_OCT_MODULE_STAT.mod_event o 1 |> raise 0x400A [o] |> moduleFault o true
      else if d.present && rdB HOCT.held o s then moduleSteps o d s
      else s
    if d.present && d.intLow then flagNotes o (d.flags.length + 1) d.flags (wr PRT_OCT_MODULE_STAT.mod_event o 1 s) else s) s

/-- MODULE_MONITOR_POLL (R77): the monitors are read, 1 s after the last time. -/
def moduleMonitor (o state : Nat) (s : State) : State :=
  if !moduleOn o s || !rdB PRT_OCT_MODULE_STAT.present o s then s
  else every HOCT.mon o 1000000000 (fun s =>
    emit .i2c (rd PRT_OCT_MODULE_MAP.i2c_master o s) [o] (wr PRT_OCT_MODULE_STAT.mod_state o state s)) s

/-- mod_reset is written 1: ResetL is driven for 10 ms, and the data path of a module that was ready leaves its activated state. -/
def moduleReset (o : Nat) (s : State) : State :=
  let was := rdB PRT_OCT_MODULE_STAT.ready o s
  arm HOCT.pulse o 10000000 (emit .modRst o [1] s) |> wr PRT_OCT_MODULE_STAT.ready o 0 |> (fun t => if was then moduleFault o true t else t)

/-- MODULE_RESET_PULSE_END: the insertion steps rerun. -/
def modulePulseEnd (o : Nat) (d : ModData) (s : State) : State :=
  expire HOCT.pulse o (fun s =>
    let s := emit .modRst o [0] s
    if rdB PRT_OCT_MODULE_STAT.present o s && rdB PRT_OCT_MODULE_MAP.module_en o s then moduleSteps o d s else s) s

/-- force_lp is set: a module in high power leaves its activated state. -/
def moduleForceLp (o : Nat) (s : State) : State :=
  if rdB PRT_OCT_MODULE_STAT.ready o s && rdB PRT_OCT_MODULE_CTRL.force_lp o s && rd PRT_OCT_MODULE_STAT.power_class o s ≠ 0 then
    moduleFault o true (wr HOCT.held o 1 (wr PRT_OCT_MODULE_STAT.ready o 0 (moduleWrite o 5 0 s)))
  else s

end Sys2Proof.Machine
end

