-- ==== Sys2Proof/Machine/Adm.lean ====
section
/-!
DEFINITION. Admission (R19 to R49): the sums of R22, the port bound of R26, the checks of guaranteed and scheduled requests,
tentative reservations across a fabric, release and draining.
-/

namespace Sys2Proof.Machine

/-! ### Fractions -/

/-- A nonnegative fraction. -/
abbrev Frac := Nat × Nat

/-- Sum of two fractions. -/
def fAdd (a b : Frac) : Frac := if a.2 = b.2 then (a.1 + b.1, a.2) else (a.1 * b.2 + b.1 * a.2, a.2 * b.2)

/-- Sum of a list of fractions. -/
def fSum (l : List Frac) : Frac := l.foldl fAdd (0, 1)

/-- Is a fraction above a number? -/
def fAbove (a : Frac) (n : Nat) : Bool := n * a.2 < a.1

/-- A fraction rounded up. -/
def fCeil (a : Frac) : Nat := ceilDiv a.1 a.2

/-! ### What a stream asks of a port (R21, R22, R26) -/

/-- Stream of a hop key. -/
def hopStream (k : Nat) : Nat := k / 32

/-- A stream's rate in kb/s: its request's, or burst × 8 / cycle for the scheduled class (R32). -/
def strRate (n : Nat) (s : State) : Frac :=
  if rd STM.class_ n s = 1 then (rd STM.burst n s * 8000000, max 1 (rd STM.cycle n s)) else (rd STM.rate n s, 1)

/-- r_w of a stream at overhead `o`, kb/s (R21). -/
def rW (n o : Nat) (s : State) : Frac :=
  let r := strRate n s
  let m := max 1 (rd STM.minf n s)
  (r.1 * (m + o), r.2 * m)

/-- b_w of a hop at overhead `o`, bytes (R21). -/
def bW (k o : Nat) (s : State) : Nat := rd HOP.bin k s + o * ceilDiv (rd HOP.bin k s) (max 1 (rd STM.minf (hopStream k) s))

/-- Frame rate of a stream, in units of 1,000 frames/s. -/
def strFps (n : Nat) (s : State) : Frac :=
  let r := strRate n s
  (r.1, r.2 * 8 * max 1 (rd STM.minf n s))

/-- Egress ports a hop has reservations on: its bundle's members, and members removed not long ago (R252, R253). -/
def hopOut (k : Nat) (s : State) : List Nat := hopPorts (rd HOP.eg k s) s ++ getL LHOP.extra k s

/-- Ingress ports a hop has reservations on. -/
def hopIn (k : Nat) (s : State) : List Nat := hopPorts (rd HOP.in_ k s) s ++ getL LHOP.extrai k s

/-- Hops in the sums of R22. -/
def liveHops (s : State) : List Nat := (touched HOP.live s).filter (fun k => rdB HOP.live k s)

/-- Hops that leave by a port. -/
def outHops (p : Nat) (s : State) : List Nat := (liveHops s).filter (fun k => (hopOut k s).contains p)

/-- Hops that enter by a port. -/
def inHops (p : Nat) (s : State) : List Nat := (liveHops s).filter (fun k => (hopIn k s).contains p)

/-- r_w sums of a port, kb/s. -/
def outRate (p : Nat) (s : State) : Frac := fSum ((outHops p s).map (fun k => rW (hopStream k) (portO p s) s))
def inRate (p : Nat) (s : State) : Frac := fSum ((inHops p s).map (fun k => rW (hopStream k) (portO p s) s))

/-- b_w sum of a port. -/
def outBurst (p : Nat) (s : State) : Nat := ((outHops p s).map (fun k => bW k (portO p s) s)).sum

/-- Device rate sum, each hop once at its egress port, kb/s. -/
def devRate (s : State) : Frac := fSum ((liveHops s).map (fun k => rW (hopStream k) (portO (rd HOP.eg k s) s) s))

/-- Device frame-rate sum, in units of 1,000 frames/s. -/
def devFps (s : State) : Frac := fSum ((liveHops s).map (fun k => strFps (hopStream k) s))

/-- Slices that do work for a hop, once for each side (R89). -/
def hopSlices (k : Nat) (s : State) : List Nat :=
  ((hopIn k s).map (fun p => servSlice p s)).eraseDups ++ ((hopOut k s).map (fun p => servSlice p s)).eraseDups

/-- Frame-rate sum of a slice (R89). -/
def sliceFps (sl : Nat) (s : State) : Frac :=
  fSum ((liveHops s).flatMap (fun k => ((hopSlices k s).filter (· = sl)).map (fun _ => strFps (hopStream k) s)))

/-- Fixed term of a hop on egress port `p`, ps (R26). -/
def fixedPs (k p : Nat) (s : State) : Nat :=
  let ri := portRate (rd HOP.in_ k s) s
  let rp := portRate p s
  let w := rd STM.maxf (hopStream k) s + portO p s
  520000 + (if ri < rp then w * 8000 / ri - w * 8000 / rp else 0)

/-- Guaranteed hops that leave by a port. -/
def guarHops (p : Nat) (s : State) : List Nat := (outHops p s).filter (fun k => rd STM.class_ (hopStream k) s = 2)

/-- f_max, ps. -/
def fMax (p : Nat) (s : State) : Nat := ((guarHops p s).map (fun k => fixedPs k p s)).foldl max 520000

/-- Windows of the schedule in force on a port with their guard bands, in ps within the cycle (R226, R27). -/
def guardedWindows (p : Nat) (s : State) : List (Int × Int) :=
  let g := schedNow p s
  if !g.on then []
  else
    let sg := segs p g s
    let guard : Int := (wirePs p (portMax p s + portO p s) s : Nat)
    [0, 1, 2, 3].flatMap (fun q => (windowsOf q sg).map (fun w => ((w.1 * 1000 : Nat) - guard, ((w.2 * 1000 : Nat) : Int))))

/-- Insert an interval in order of its start. -/
def insIv (x : Int × Int) : List (Int × Int) → List (Int × Int)
  | [] => [x]
  | y :: l => if x.1 ≤ y.1 then x :: y :: l else y :: insIv x l

/-- Total length of a union of intervals in order of their starts. -/
def unionLen : List (Int × Int) → Int → Int
  | [], _ => 0
  | x :: l, upto => max 0 (x.2 - max x.1 upto) + unionLen l (max upto x.2)

/-- Burst of the scheduled traffic of a port, bytes, and its rate, kb/s (R27). -/
def gatedLoad (p : Nat) (s : State) : Nat × Frac :=
  let cyc : Int := ((schedNow p s).cycle * 1000 : Nat)
  let ws := guardedWindows p s
  let longest := (ws.map (fun w => w.2 - w.1)).foldl max 0
  -- an interval that starts before the cycle does takes the end of the cycle before
  let cut := ws.flatMap (fun w => if w.1 < 0 then [(max 0 (w.1 + cyc), cyc), (0, w.2)] else [w])
  let total := min cyc (unionLen (cut.foldl (fun l x => insIv x l) []) 0)
  (ceilDiv (portRate p s * longest.toNat) 8000, (portRate p s * 1000000 * total.toNat, max 1 cyc.toNat))

/-- b_sum of R26. -/
def bSum (p : Nat) (s : State) : Nat := (gatedLoad p s).1 + ((guarHops p s).map (fun k => bW k (portO p s) s)).sum

/-- d and f_max of a port, ns rounded up (R26); 0 with no admitted traffic. A residual rate of 0 or less gives no finite bound:
2^24 stands for it, above every budget a port can have (R31). -/
def portBound (p : Nat) (s : State) : Nat :=
  if outHops p s = [] then 0
  else
    let r := fAdd (gatedLoad p s).2 (fSum ((guarHops p s).map (fun k => rW (hopStream k) (portO p s) s)))
    let full := portRate p s * 1000000 * r.2
    if full ≤ r.1 then 2 ^ 24
    else
      let bits := (bSum p s + portMax p s + portO p s) * 8
      let n := full - r.1
      let x : Frac := (fMax p s * n + bits * 1000000000 * r.2, n)
      ceilDiv (x.1 + 200000 * ceilDiv x.1 (x.2 * 10000000) * x.2) (x.2 * 1000)

/-- ADM_PORT_FIXED. -/
def portFixed (p : Nat) (s : State) : Nat := if outHops p s = [] then 0 else ceilDiv (fMax p s) 1000

/-- Do the admitted sums exceed a limit that has been lowered (R23)? -/
def overLimit (s : State) : Bool :=
  let pct := rd ADM_CTRL.port_limit_pct 0 s
  fAbove (devRate s) (rd ADM_DEV_LIMIT.rate_limit 0 s * 100000000) || fAbove (devFps s) (rd ADM_DEV_LIMIT.fps_limit 0 s * 100000) ||
    (liveHops s).any (fun k => (hopOut k s).any (fun p => fAbove (outRate p s) (pct * portRate p s * 10000)) ||
      (hopIn k s).any (fun p => fAbove (inRate p s) (pct * portRate p s * 10000)))

/-! ### Jobs -/

/-- A request the engine runs: its operation (1 admit, 2 release, 3 query, 4 abort, 5 HOP_RESERVE, 6 HOP_COMMIT, 7 HOP_RELEASE),
the role it was made with, where its result goes, when its tentative time ends (R34), what it carries, and the request. -/
structure Job where
  op : Nat
  role : Nat
  src : List Nat
  due : Nat
  car : Carried
  req : StreamReq
deriving DecidableEq, Repr

/-- A request as numbers. -/
def packReq (r : StreamReq) : List Nat :=
  [r.stream, r.class_, r.frer, r.ident, r.maxf, r.minf, r.rate, r.burst, r.deadline, r.tb, r.gq, r.offset]
    ++ r.hops.flatMap (fun h => [h.dev, h.ing, h.eg, h.node, h.queue])

/-- Hops of a packed request. -/
def unpackHops : List Nat → List HopReq
  | a :: b :: c :: d :: e :: l => ⟨a, b, c, d, e⟩ :: unpackHops l
  | _ => []

/-- The request a list of numbers stands for. -/
def unpackReq (l : List Nat) : StreamReq :=
  ⟨l.getD 0 0, l.getD 1 0, l.getD 2 0, l.getD 3 0, l.getD 4 0, l.getD 5 0, l.getD 6 0, l.getD 7 0, l.getD 8 0, l.getD 9 0,
    l.getD 10 0, l.getD 11 0, unpackHops (l.drop 12)⟩

/-- A job as numbers. -/
def packJob (j : Job) : List Nat :=
  [j.op, j.role, j.due, j.car.hop, j.car.bin, j.car.bsum, j.car.dsum, j.car.arrive, j.car.tail, j.car.cyc, j.src.length] ++ j.src
    ++ packReq j.req

/-- The job a list of numbers stands for. -/
def unpackJob (l : List Nat) : Job :=
  let n := l.getD 10 0
  ⟨l.getD 0 0, l.getD 1 0, (l.drop 11).take n, l.getD 2 0,
    ⟨l.getD 3 0, l.getD 4 0, l.getD 5 0, l.getD 6 0, l.getD 7 0, l.getD 8 0, l.getD 9 0⟩, unpackReq (l.drop (11 + n))⟩

/-- Is the engine stopped (R44): a gap, a hitless swap, resynchronisation or a warm restart? -/
def engStopped (s : State) : Bool := rdB HRED.gap 0 s || rdB HRED.restart 0 s

/-- State word of a stream, as ADM_STREAM_STAT reads. -/
def strStat (n : Nat) (s : State) : Nat :=
  rd ADM_STREAM_STAT.state n s + 4 * rd ADM_STREAM_STAT.exc_takeover n s + 8 * rd ADM_STREAM_STAT.exc_mem n s
    + 16 * rd ADM_STREAM_STAT.exc_link n s + 32 * rd ADM_STREAM_STAT.exc_time n s + 64 * rd ADM_STREAM_STAT.exc_supply n s

/-- Send a hop message on a port (R34, R482). -/
def hopSend (p ty : Nat) (body : List Nat) (s : State) : State := llSend p (ty :: body) s

/-- Jobs the engine holds, in arrival order (R35, R44). -/
def heldJobs (s : State) : List Job := (splitMsgs 65536 (getL LADM.held 0 s)).map unpackJob

/-- Does a command of ADM_REQ_CMD still run: it waits for the engine, or for the answer from downstream (R47)? -/
def regBusy (s : State) : Bool :=
  (heldJobs s).any (fun j => j.src.getD 0 0 = 0) ||
    (busyStreams s).any (fun n => strState n s = 1 && rd STM.up n s = 0 && (getL LADM.src n s).getD 0 0 = 0)

/-- busy of the command registers follows what still runs. DESIGN CHOICE (log entry 129): ADM_STATUS.busy follows it too, and shows no
request of another origin. -/
def regBusyNote (s : State) : State := wrB ADM_REQ_STATUS.busy 0 (regBusy s) s |> wrB ADM_STATUS.busy 0 (regBusy s)

/-- A result in ADM_REQ_STATUS. -/
def regResult (code hop : Nat) (s : State) : State :=
  regBusyNote s |> wr ADM_REQ_STATUS.result 0 code |> wr ADM_REQ_STATUS.failing_hop 0 hop

/-- Deliver a result (R48) to where the request came from. DEDUCED (log entry 130): ADM_CNT_REJECT counts every answer other than ADMITTED,
those of releases, queries and aborts too. -/
def admReply (src : List Nat) (n code hop : Nat) (s : State) : State :=
  let s := if code = 0 then s else inc cnt_ADM_reject 0 s
  match src.getD 0 0 with
  | 0 => regResult code hop s
  | 1 =>
    mgmtReply ⟨src.getD 1 0, src.getD 2 0, src.getD 3 0, src.getD 4 0, src.getD 5 0⟩ (src.getD 6 0) 0
      (leBytes 4 code ++ leBytes 4 hop ++ leBytes 4 (strStat n s)) s
  | 2 => setL LADM.img (src.getD 1 0) [code] s
  | _ => s

/-- A request fails: the requester is told, or the device upstream (R34). -/
def admFail (j : Job) (code hop : Nat) (s : State) : State :=
  if j.src.getD 0 0 = 3 then hopSend (j.src.getD 1 0) 0x22 [j.req.stream, code, hop] (inc cnt_ADM_reject 0 s)
  else admReply j.src j.req.stream code hop s

/-! ### Checks before the hops (R19, R42, R44, R109, R448) -/

/-- Is a port admission-capable (R109)? -/
def admCapable (p : Nat) (s : State) : Bool :=
  portExists p s && portMode p s ≤ 4 && rd SLC_PRS_CTRL.window (servSlice p s) s ≤ 4

/-- Indexes of the request's hops on this device, from hop `h` on. -/
def localFrom (dev : Nat) : List HopReq → Nat → List Nat
  | [], _ => []
  | x :: l, i => if x.dev = dev then i :: localFrom dev l (i + 1) else []

/-- The hops a job concerns on this device. -/
def jobHops (j : Job) (s : State) : List Nat := localFrom (rd FAB_CTRL.device_id 0 s) (j.req.hops.drop j.car.hop) j.car.hop

/-- A hop of a request. -/
def reqHop (r : StreamReq) (i : Nat) : HopReq := r.hops.getD i ⟨0, 0, 0, 0, 0⟩

/-- The operator's bit for a port (R448). -/
def opPort (p : Nat) (s : State) : Bool := rdBit ACC_OP_PORTS.ports (p / 32) (p % 32) s

/-- Is every request rejected with ENGINE_HOLD (R44), or this one by the operator envelope (R448)? -/
def admHeld (role : Nat) (ports : List Nat) (s : State) : Bool :=
  rdB HRED.hold 0 s || !rdB ADM_CTRL.adm_enable 0 s ||
    (role = 1 && (!rdB ACC_OP_ENV.op_admit 0 s || !ports.all (fun p => opPort p s)))

/-- Is a port named by a hop usable as such (R109, R253)? -/
def hopPortOk (p : Nat) (s : State) : Bool := p < 1024 && portLead p s = p && (hopPorts p s).all (fun q => admCapable q s)

/-- Is any field of a request out of range (R19)? DESIGN CHOICE (log entry 131): a request whose next hop names another device is out of range here. -/
def reqBad (j : Job) (loc : List Nat) (s : State) : Bool :=
  let r := j.req
  !(r.stream < 65536 && (r.class_ = 1 || r.class_ = 2) && r.frer < 2 && r.ident < 2097152 &&
    64 ≤ r.maxf && r.maxf ≤ 16384 && 64 ≤ r.minf && r.minf ≤ r.maxf && 8 ≤ r.rate && r.rate ≤ 1600000000 &&
    r.maxf ≤ r.burst && r.burst < 16777216 && 1 ≤ r.deadline && r.deadline < 4294967296 &&
    r.hops ≠ [] && r.hops.length ≤ 32 && loc ≠ [] && r.tb < 8 && r.gq < 4 &&
    r.hops.all (fun h => h.dev < 4096 && h.ing < 1024 && h.eg < 1024 && h.node < 32768 && h.queue < 2) &&
    loc.all (fun i => hopPortOk (reqHop r i).ing s && hopPortOk (reqHop r i).eg s &&
      (r.class_ = 1 || nodePort (reqHop r i).node s = (reqHop r i).eg)) &&
    (r.class_ = 2 || 0 < j.car.hop || r.offset < (schedNow (reqHop r 0).eg s).cycle))

/-- Does ident_ref name a valid stream-identification entry on this device? -/
def identOk (i : Nat) (s : State) : Bool := slotValid i s && inPart 2 i s

/-- The code a request fails with before its hops are looked at, and the hop. DESIGN CHOICE (log entry 128): these checks run in the order written,
and the failing hop of the first four is 31. -/
def admPre (j : Job) (loc : List Nat) (s : State) : Option (Nat × Nat) :=
  let ports := loc.flatMap (fun i => [(reqHop j.req i).ing, (reqHop j.req i).eg])
  if admHeld j.role ports s then some (0x0E, 31)
  else if reqBad j loc s then some (0x01, 31)
  else if strState j.req.stream s ≠ 0 then some (0x02, 31)
  else if j.car.hop = 0 && !identOk j.req.ident s then some (0x03, 31)
  else (loc.find? (fun i => (hopPorts (reqHop j.req i).eg s).any (fun p => rdB ADM_PORT_MARGIN.margin_flag p s))).map (fun i => (0x0D, i))

/-! ### The hops (R29, R32, R33, R257, R263) -/

/-- Limits of R22 and R89 with the hop `k` counted: the code of the first that fails. -/
def envelope (k : Nat) (s : State) : Option Nat :=
  let pct := rd ADM_CTRL.port_limit_pct 0 s
  let ins := hopIn k s
  let outs := hopOut k s
  if ins.any (fun p => fAbove (inRate p s) (pct * portRate p s * 10000)) ||
      outs.any (fun p => fAbove (outRate p s) (pct * portRate p s * 10000)) then some 0x04
  else if fAbove (devRate s) (rd ADM_DEV_LIMIT.rate_limit 0 s * 100000000) then some 0x05
  else if fAbove (devFps s) (rd ADM_DEV_LIMIT.fps_limit 0 s * 100000) || (hopSlices k s).any (fun sl => fAbove (sliceFps sl s) 4000000) then
    some 0x06
  else if outs.any (fun p => rd BUF_PORT_RESERVE.reserve p s * 1024 < outBurst p s) then some 0x07
  else none

/-- Does a stream with ctx_en = 1 leave by a port (R257)? -/
def ctxPort (p : Nat) (s : State) : Bool := (outHops p s).any (fun k => rdB FAB_STREAM_W0.ctx_en (hopStream k) s)

/-- A port's budget less what a resequencing context may add there (R257). -/
def budgetFits (n p : Nat) (s : State) : Bool :=
  let b := rd ADM_PORT_BUDGET.hop_budget p s
  let d := portBound p s
  let ctx := rdB FAB_STREAM_W0.ctx_en n s || ctxPort p s
  b ≠ 0 && d ≤ b && (!ctx || d + rd FAB_RSQ_CFG.rsq_timeout 0 s * 100 + 10 ≤ b)

/-- Record hop `i` of a request as a live hop of its stream. -/
def hopAdd (r : StreamReq) (i bin : Nat) (s : State) : State :=
  let n := r.stream
  let h := reqHop r i
  let k := n * 32 + i
  wr HOP.live k 1 s |> wr HOP.in_ k h.ing |> wr HOP.eg k h.eg |> wr HOP.node k h.node |> wr HOP.queue k h.queue |> wr HOP.bin k bin
    |> pushL LADM.hops n i

/-- The largest link delay of a hop's egress ports, ns (R285). -/
def hopDelay (eg : Nat) (s : State) : Nat × State :=
  (hopPorts eg s).foldl (fun a p => let (x, t) := delayRead p a.2; (max a.1 x, t)) (0, s)

/-- Guaranteed hops in order (R29): a failure's code and hop, or what is carried on. -/
def guarRun (r : StreamReq) : List Nat → Carried → State → (Option (Nat × Nat)) × Carried × State
  | [], c, s => (none, c, s)
  | i :: l, c, s =>
    let eg := (reqHop r i).eg
    let s1 := hopAdd r i c.bin s
    match envelope (r.stream * 32 + i) s1 with
    | some code => (some (code, i), c, s)
    | none =>
      if !(hopPorts eg s1).all (fun p => budgetFits r.stream p s1) then (some (0x08, i), c, s)
      else
        let b := rd ADM_PORT_BUDGET.hop_budget eg s1
        let (dl, s2) := if i + 1 < r.hops.length then hopDelay eg s1 else (0, s1)
        guarRun r l { c with bin := c.bin + ceilDiv (r.rate * b) 8000000, bsum := c.bsum + b, dsum := c.dsum + dl, hop := i + 1 } s2

/-- Is a scheduled hop's time base or gate cycle wrong (R32, R33, R263)? DESIGN CHOICE (log entry 167): a gate cycle that differs along the
path is answered with TIME_BASE as a time base that differs is. -/
def timeBaseBad (r : StreamReq) (cyc p : Nat) (s : State) : Bool :=
  let g := schedNow p s
  let rnd := rd FAB_STREAM_W0.round r.stream s
  (if r.tb = 0 then r.hops.length ≠ 1 else rd TIM_TB_W5.state r.tb s ≠ 2) || g.tb ≠ r.tb || (cyc ≠ 0 && g.cycle ≠ cyc) ||
    (rnd ≠ 0 && (rd FAB_ROUND_W0.tb (rnd - 1) s ≠ r.tb || g.cycle ≠ rndPeriod (rnd - 1) s ||
      ((g.base : Int) - rndBase (rnd - 1) s) % (rndPeriod (rnd - 1) s : Int) ≠ 0))

/-- Phase at which the window a scheduled hop holds on a port opens: LHOP.wins lists, for each port the hop leaves by, the port, the
phase and the window's length (R32, R253). -/
def winPhase (p : Nat) : List Nat → Option Nat
  | a :: ph :: _ :: l => if a = p then some ph else winPhase p l
  | _ => none

/-- Does a window that opens at phase `a` of a cycle `c` ever open at the time of one of phase `b` of cycle `d`? -/
def phasesMeet (a c b d : Nat) : Bool := a % Nat.gcd c d = b % Nat.gcd c d

/-- b_w of scheduled streams that hold the window of a port's gated queue that opens at a phase of the cycle in force. A stream holds
its phase of the cycle it was admitted with, which a commit that keeps its windows may have changed since (R45). -/
def windowUsed (p q ph : Nat) (s : State) : Nat :=
  (((outHops p s).filter (fun k => rd STM.class_ (hopStream k) s = 1 && rd STM.gq (hopStream k) s = q &&
    (winPhase p (getL LHOP.wins k s)).any (fun x => phasesMeet x (rd STM.cycle (hopStream k) s) ph (schedNow p s).cycle))).map
      (fun k => bW k (portO p s) s)).sum

/-- First window of a gated queue that opens at or after `t` ps: its opening in ps, its phase and its length in ns (R32). -/
def windowFrom (p q t : Nat) (s : State) : Option (Nat × Nat × Nat) :=
  let g := schedNow p s
  if !g.on then none
  else
    let c := g.cycle * 1000
    let cand := (windowsOf q (segs p g s)).map (fun w =>
      let ph := (g.base + w.1) % g.cycle
      let t0 := t / c * c + ph * 1000
      (if t ≤ t0 then t0 else t0 + c, ph, w.2 - w.1))
    cand.foldl (fun best w => match best with
      | none => some w
      | some b => if w.1 < b.1 then some w else some b) none

/-- The window a hop `k` takes on one port (R32 step 2): its opening in ps, its phase and length; none where it does not fit. -/
def windowTake (k q t p : Nat) (s : State) : Option (Nat × Nat × Nat) :=
  match windowFrom p q t s with
  | none => none
  | some w =>
    if (schedNow p s).cycle * 1000 ≤ w.1 - t || w.2.2 * 1000 < wirePs p (windowUsed p q w.2.1 s + bW k (portO p s) s) s then none
    else some w

/-- When the burst has left the last of the ports a hop leaves by, ps (R32): the window's opening and the wire time of the burst. -/
def windowTail (burst : Nat) (ws : List (Nat × Nat × Nat × Nat)) (s : State) : Nat :=
  (ws.map (fun w => w.2.1 + wirePs w.1 burst s)).foldl max 0

/-- Scheduled hops in order (R32); each is tried at every port it leaves by (R253). -/
def schedRun (r : StreamReq) : List Nat → Carried → State → (Option (Nat × Nat)) × Carried × State
  | [], c, s => (none, c, s)
  | i :: l, c, s =>
    let n := r.stream
    let k := n * 32 + i
    let eg := (reqHop r i).eg
    if (hopPorts eg s).any (fun p => timeBaseBad r c.cyc p s) then (some (0x0B, i), c, s)
    else
      let cyc := (schedNow eg s).cycle
      let s1 := hopAdd r i r.burst (wr STM.cycle n cyc s)
      let ws := (hopPorts eg s1).filterMap (fun p => (windowTake k r.gq c.arrive p s1).map (fun w => (p, w)))
      if ws.length < (hopPorts eg s1).length then (some (0x0A, i), c, s)
      else
        let s2 := setL LHOP.wins k (ws.flatMap (fun w => [w.1, w.2.2.1, w.2.2.2])) s1
        match envelope k s2 with
        | some code => (some (code, i), c, s)
        | none =>
          let (dl, s3) := hopDelay eg s2
          let tail := windowTail r.burst ws s3
          schedRun r l { c with hop := i + 1, cyc := cyc, tail := tail, arrive := tail + dl * 1000 + 520000 } s3

/-! ### Reserve, commit, release (R20, R29, R34, R43) -/

/-- Forget a stream: its hops leave the sums, its fields go back to nothing, and its policer is unbound (R233). -/
def streamFree (n : Nat) (s : State) : State :=
  let s := forEach (hopKeys n s) (fun k t => eraseInst gHOP lHOP k t) s
  let s := if rdB SCH_POL_W4.bound n s then wr SCH_POL_W4.bound n 0 (wr SCH_POL_W4.enable n 0 s) else s
  let s := wr ADM_STREAM_STAT.state n 0 s |> setL LADM.hops n [] |> setL LADM.req n [] |> setL LADM.src n [] |> disarm HADM.wait n
  eraseInst gSTM lSTM n s

/-- Every port of a stream's hops. -/
def streamPorts (n : Nat) (s : State) : List Nat := ((hopKeys n s).flatMap (fun k => hopIn k s ++ hopOut k s)).eraseDups

/-- Bind policer `n` to stream `n` (R20, R233). -/
def policerBind (r : StreamReq) (s : State) : State :=
  let n := r.stream
  polFill n (wr SCH_POL_W0.cir n r.rate s |> wr SCH_POL_W2.pir n r.rate |> wr SCH_POL_W1.cbs n r.burst |> wr SCH_POL_W3.pbs n r.burst
    |> wr SCH_POL_W4.max_charge n r.maxf |> wr SCH_POL_W4.enable n 1 |> wr SCH_POL_W4.bound n 1
    |> (fun t => if rd SCH_POL_W4.red_action n t = 0 then wr SCH_POL_W4.red_action n 2 t else t))

/-- commit_all (R29): the tentative hops become admitted, numbers start at 0, and the stream's quiet ports wake (R68). -/
def streamCommit (n : Nat) (s : State) : State :=
  let s := wr ADM_STREAM_STAT.state n 2 s |> disarm HADM.wait n |> wr FAB_STREAM_W1.tx_seq n 0 |> wr STM.spray n 0 |> inc cnt_ADM_admit 0
  let s := if rdB STM.first n s then policerBind (unpackReq (getL LADM.req n s)) s else s
  forEach (streamPorts n s) wakeCause s

/-- A committed stream's result goes to its requester, or HOP_COMMIT upstream. -/
def commitUp (n : Nat) (s : State) : State :=
  if rd STM.up n s = 0 then admReply (getL LADM.src n s) n 0 0 s else hopSend (rd STM.up n s - 1) 0x21 [n] s

/-- Record a request's stream as tentative. -/
def streamOpen (j : Job) (s : State) : State :=
  let r := j.req
  let n := r.stream
  wr ADM_STREAM_STAT.state n 1 s |> wr STM.class_ n r.class_ |> wr STM.frer n r.frer |> wr STM.tb n r.tb |> wr STM.gq n r.gq
    |> wr STM.maxf n r.maxf |> wr STM.minf n r.minf |> wr STM.rate n r.rate |> wr STM.burst n r.burst
    |> wrB STM.first n (j.car.hop = 0) |> wr STM.h0 n j.car.hop |> wr STM.up n (if j.src.getD 0 0 = 3 then j.src.getD 1 0 + 1 else 0)
    |> setL LADM.req n (packReq r) |> setL LADM.src n j.src

/-- The checks of this device's hops in order, their reservations made on the way (R29, R32): what the first that fails answers, what is
carried on, and the state with the hops reserved. -/
def admHops (j : Job) (s : State) : (Option (Nat × Nat)) × Carried × State :=
  let r := j.req
  let c := if j.car.hop = 0 then { j.car with bin := r.burst, arrive := r.offset * 1000 + 520000 } else j.car
  if r.class_ = 2 then guarRun r (jobHops j s) c (streamOpen j s) else schedRun r (jobHops j s) c (streamOpen j s)

/-- Does a request that has passed every hop miss its deadline (R29, R32)? -/
def admLate (r : StreamReq) (c : Carried) : Bool :=
  if r.class_ = 2 then r.deadline < c.bsum + c.dsum else r.deadline * 1000 + r.offset * 1000 < c.tail

/-- Admit, or a received HOP_RESERVE (R29, R32, R34): reserve this device's hops, then commit or forward. -/
def admAdmit (j : Job) (s : State) : State :=
  let r := j.req
  let n := r.stream
  match admPre j (jobHops j s) s with
  | some (code, h) => admFail j code h s
  | none =>
    let (bad, c', t) := admHops j s
    match bad with
    | some (code, h) => admFail j code h (streamFree n t)
    | none =>
      if c'.hop = r.hops.length then
        if admLate r c' then admFail j 0x09 31 (streamFree n t) else commitUp n (streamCommit n t)
      else
        let eg := (reqHop r (c'.hop - 1)).eg
        arm HADM.wait n ((r.hops.length - j.car.hop) * 10000000) (wr STM.down n (eg + 1) t)
          |> hopSend eg 0x20 ([c'.hop, c'.bin, c'.bsum, c'.dsum, c'.arrive, c'.tail, c'.cyc] ++ packReq r)

/-- Drain span of a hop, ns (R43), as its egress port's gates and budget stand at the release. -/
def drainSpan (k : Nat) (s : State) : Nat :=
  if rd STM.class_ (hopStream k) s = 1 then 2 * (schedNow (rd HOP.eg k s) s).cycle else rd ADM_PORT_BUDGET.hop_budget (rd HOP.eg k s) s

/-- A stream begins to drain: out of classification at once, each hop in the sums for its own span. -/
def streamDrain (n : Nat) (s : State) : State :=
  forEach (hopKeys n s) (fun k t => arm HOP.span k (drainSpan k t) t) (wr ADM_STREAM_STAT.state n 3 s)

/-- DRAIN_SPAN_END: time has passed to the end of hop `i`'s drain span; after the last, the stream is free. -/
def drainEnd (n i : Nat) (s : State) : State :=
  let k := n * 32 + i
  if strState n s ≠ 3 then s
  else
    expire HOP.span k (fun s =>
      let s := wr HOP.live k 0 s
      if (hopKeys n s).any (fun h => rdB HOP.live h s) then s else streamFree n s) s

/-- Tell the device downstream of a stream that it is released. DEDUCED (log entry 132): a release goes on to the stream's next device by HOP_RELEASE. -/
def releaseDown (n code hop : Nat) (s : State) : State :=
  if rd STM.down n s = 0 then s else hopSend (rd STM.down n s - 1) 0x22 [n, code, hop] s

/-- The job of a stream's request, for its result. -/
def jobOf (n : Nat) (s : State) : Job :=
  ⟨1, 0, getL LADM.src n s, 0, ⟨0, 0, 0, 0, 0, 0, 0⟩, { unpackReq (getL LADM.req n s) with stream := n }⟩

/-- Release (R43, R48). The operator's ports are those its hop list names, as for an admit (R448). -/
def admRelease2 (j : Job) (s : State) : State :=
  let n := j.req.stream
  if admHeld j.role ((hopKeys n s).flatMap (fun k => [rd HOP.in_ k s, rd HOP.eg k s])) s then admReply j.src n 0x0E 31 s
  else
    match strState n s with
    | 0 => admReply j.src n 0x10 31 s
    | 1 => admReply j.src n 0x02 31 s
    | 2 => admReply j.src n 0 0 (streamDrain n (releaseDown n 0 31 s))
    | _ => admReply j.src n 0 0 s

/-- Query (R47): the operator envelope does not bear on it. -/
def admQuery (j : Job) (s : State) : State :=
  let n := j.req.stream
  if admHeld 0 [] s then admReply j.src n 0x0E 31 s
  else
    let s := if j.src.getD 0 0 = 0 then wr ADM_STREAM_SEL.stream 0 n s else s
    admReply j.src n (if strState n s = 0 then 0x10 else 0) (if strState n s = 0 then 31 else 0) s

/-- Op 4 (R47): end the tentative request this device is the first device of. -/
def admAbort (j : Job) (s : State) : State :=
  let n := j.req.stream
  if admHeld 0 [] s then admReply j.src n 0x0E 31 s
  else if strState n s ≠ 1 || rd STM.up n s ≠ 0 then admReply j.src n 0x10 31 s
  else
    let old := jobOf n s
    let s := streamFree n (releaseDown n 0x11 31 s)
    let s := admReply old.src n 0x11 31 s
    if old.src = j.src then s else regResult 0x11 31 s

/-- HOP_COMMIT received on port `p` (R34), at once even while the engine is stopped (DESIGN CHOICE, log entry 133): it commits a
request that waits for it there; for one committed there already it says nothing new; any other request it can mean has been released, and the
device there is told so. -/
def hopCommit (p n : Nat) (s : State) : State :=
  let here := decide (rd STM.down n s = p + 1)
  if strState n s = 1 && here then commitUp n (streamCommit n s)
  else if strState n s = 2 && here then s
  else hopSend p 0x22 [n, 0x0F, 31] s

/-- HOP_RELEASE received on port `p` (R34), at once even while the engine is stopped (DESIGN CHOICE, log entry 133). One that comes neither
from the stream's next device nor from the one before it is of another path's request, and changes nothing. -/
def hopRelease (p n code hop : Nat) (s : State) : State :=
  let st := strState n s
  let fromDown := decide (rd STM.down n s = p + 1)
  if !fromDown && rd STM.up n s ≠ p + 1 then s
  else if st = 1 then
    let old := jobOf n s
    let s := if fromDown then s else releaseDown n code hop s
    let s := streamFree n s
    if fromDown then admFail old code hop s else s
  else if st = 2 then
    let s := if fromDown then s else releaseDown n code hop s
    streamDrain n s
  else s

/-! ### The engine (R35, R44) -/

/-- Run one job. -/
def admRun (j : Job) (s : State) : State :=
  match j.op with
  | 1 | 5 => admAdmit j s
  | 2 => admRelease2 j s
  | 3 => admQuery j s
  | 4 => admAbort j s
  | 6 => hopCommit (j.src.getD 1 0) j.req.stream s
  | _ => hopRelease (j.src.getD 1 0) j.req.stream j.car.bin j.car.hop s

/-- Slices in Winter or Thawing that serve a port an admission request names on this device (R331). -/
def reqSleepers (j : Job) (s : State) : List Nat :=
  if j.op ≠ 1 && j.op ≠ 5 then []
  else
    let hs := j.req.hops.filter (fun h => h.dev = rd FAB_CTRL.device_id 0 s && h.ing < 1024 && h.eg < 1024)
    (hs.flatMap (fun h => [rd PRT_MACRO_STATUS.serving_slice (h.ing / 16) s, rd PRT_MACRO_STATUS.serving_slice (h.eg / 16) s])).filter
      (fun sl => sl ≠ 16 && rdB SLC_STATUS.serving sl s && sliceAsleep sl s)

/-- A held HOP_RESERVE whose n × 10 ms have passed is released, and TENTATIVE_TIMEOUT counted (R34). -/
def reserveLate (j : Job) (s : State) : State := raise 0x0906 [j.req.stream, j.car.hop] (admFail j 0x0F j.car.hop s)

/-- The jobs that remain held. -/
def packJobs (js : List Job) : List Nat := js.flatMap (fun j => (packJob j).length :: packJob j)

/-- Run held requests in arrival order (R35, R44), up to the first one that must wait for a slice it needs to thaw (R331). `s` holds
the jobs of the list as held. -/
def admDrain : List Job → State → State
  | [], s => s
  | j :: js, s =>
    if j.op = 5 && j.due < now s then admDrain js (reserveLate j (setL LADM.held 0 (packJobs js) s))
    else if reqSleepers j s ≠ [] then forEach (reqSleepers j s) thawBegin s
    else admDrain js (admRun j (setL LADM.held 0 (packJobs js) s))

/-- ADM_ENGINE_RESUME (R44). -/
def admResume (s : State) : State := if engStopped s then s else admDrain (heldJobs s) s

/-- Take a request (R35): it runs after those that wait before it, and all wait while the engine is stopped (R44); a slice at rest that
it needs begins to thaw at once (R331). -/
def admTake (j : Job) (s : State) : State :=
  admResume (setL LADM.held 0 (getL LADM.held 0 s ++ packJobs [j]) (forEach (reqSleepers j s) thawBegin s))

/-- ADM_REQ_CMD op (R47): the request the registers hold. -/
def regReq (n : Nat) (s : State) : StreamReq :=
  let hc := rd ADM_REQ_CLASS.hop_count 0 s
  ⟨n, rd ADM_REQ_CLASS.class_ 0 s, rd ADM_REQ_CLASS.frer 0 s, rd ADM_REQ_IDENT.ident_ref 0 s, rd ADM_REQ_FRAME.max_frame 0 s,
    rd ADM_REQ_FRAME.min_frame 0 s, rd ADM_REQ_RATE.rate 0 s, rd ADM_REQ_BURST.burst 0 s, rd ADM_REQ_DEADLINE.deadline 0 s,
    rd ADM_REQ_CLASS.time_base 0 s, rd ADM_REQ_CLASS.gated_queue 0 s, rd ADM_REQ_SCHED.send_offset 0 s,
    (List.range (min hc 33)).map (fun i => ⟨rd ADM_REQ_HOPA.device_id i s, rd ADM_REQ_HOPA.ingress_port i s,
      rd ADM_REQ_HOPA.egress_port i s, rd ADM_REQ_HOPB.sub_node i s, rd ADM_REQ_HOPB.queue i s⟩)⟩

/-- A command written to ADM_REQ_CMD by a role; the write has been accepted. -/
def admCmd (op n role : Nat) (s : State) : State :=
  let s := wr ADM_REQ_STATUS.busy 0 1 (wr ADM_STATUS.busy 0 1 s)
  admTake ⟨op, role, [0], 0, ⟨0, 0, 0, 0, 0, 0, 0⟩, regReq n s⟩ s

/-- A hop message counts only from a port whose peer is a ZX device (R480). -/
def fromPeer (p : Nat) (k : State → State) (s : State) : State := if rdB PRT_PORT_STATUS.peer_zx p s then k s else s

/-- HOP_COMMIT_WAIT_EXPIRY (R34). -/
def hopWaitExpiry (n : Nat) (s : State) : State :=
  if strState n s ≠ 1 then s
  else
    expire HADM.wait n (fun s =>
      let r := unpackReq (getL LADM.req n s)
      let nxt := rd STM.h0 n s + (getL LADM.hops n s).length
      let old := { jobOf n s with req := { r with stream := n } }
      let s := raise 0x0906 [n, nxt] (releaseDown n 0x0C nxt s)
      admFail old 0x0C nxt (streamFree n s)) s

/-- TENTATIVE_TIMEOUT (R34, R44): a HOP_RESERVE of stream `n` still waits for the stopped engine when its n × 10 ms end. -/
def tentativeTimeout (n : Nat) (s : State) : State :=
  let js := heldJobs s
  match js.find? (fun j => j.op = 5 && j.req.stream = n) with
  | none => s
  | some j =>
    reserveLate j (setL LADM.held 0 (packJobs (js.erase j)) (passTo j.due s))

/-- HOP_RESERVE received on port `p`. -/
def hopReserve (p : Nat) (c : Carried) (r : StreamReq) (s : State) : State :=
  admTake ⟨5, 0, [3, p], now s + (r.hops.length - c.hop) * 10000000, c, r⟩ s

/-- BUNDLE_MEMBER_RELEASE (R252): the reservations on a removed member end. -/
def memberRelease (p : Nat) (s : State) : State :=
  expire HADM.extra p (fun s =>
    forEach (liveHops s) (fun k t => setL LHOP.extra k ((getL LHOP.extra k t).filter (· ≠ p))
      (setL LHOP.extrai k ((getL LHOP.extrai k t).filter (· ≠ p)) t)) s) s

/-- A commit takes port `p` out of a bundle whose streams keep their reservations there for one hop budget (R252); `hops` lists
the hops that used it as egress, `ins` as ingress. -/
def memberRemoved (p : Nat) (hops ins : List Nat) (s : State) : State :=
  let s := forEach hops (fun k t => pushL LHOP.extra k p t) s
  let s := forEach ins (fun k t => pushL LHOP.extrai k p t) s
  if hops = [] && ins = [] then s else arm HADM.extra p (rd ADM_PORT_BUDGET.hop_budget p s) s

end Sys2Proof.Machine
end

