-- ==== Sys2Proof/Machine/Sch.lean ====
section
/-!
DEFINITION. Selection at the port root (R214 to R219, R226), stale heads of a port in hold (R203, R204), and the depth and
sojourn sampler (R239 to R242, R41).
-/

namespace Sys2Proof.Machine

/-! ### Heads (R95, R203, R204, R218) -/

/-- May a copy be selected: cut through, or its frame's last byte has arrived (R92, R93, R95)? -/
def eligible (d : Nat) (s : State) : Bool := rdB DSC.cut d s || rdB FRM.ended (rd DSC.frame d s) s

/-- Is a queued admitted copy stale (R203)? -/
def stale (d : Nat) (s : State) : Bool :=
  rdB DSC.adm d s &&
    (if rdB DSC.sched d s then carriedNow d s
     else rd ADM_PORT_BUDGET.hop_budget (rd DSC.eg d s) s * 2 ^ 32 < rd TBC.count 0 s - rd FRM.stamp (rd DSC.frame d s) s)

/-- A stale copy is dropped: stale_drop and the stream's fault loss (R203). -/
def staleDrop (d : Nat) (s : State) : State :=
  let p := rd DSC.eg d s
  dscDrop cnt_BUF_stale_drop p 2 d (addF HBUF.hold_stale p 1 s)

/-- Drop stale heads of a queue, the frames behind them too, while a test holds of the head. -/
def staleHeads (code : Nat) (test : Nat → State → Bool) : Nat → State → State
  | 0, s => s
  | n + 1, s =>
    match headOf code s with
    | none => s
    | some d => if stale d s && test d s then staleHeads code test n (staleDrop d s) else s

/-- STALE_CHECK (R203): time has passed to the next 1 us check of a port that holds. -/
def staleCheck (p : Nat) (s : State) : State :=
  if rd BUF_PORT_STATUS.hold_state p s ≠ 1 then s
  else
    expire HBUF.stale p (fun s =>
      let s := windowsNote p (arm HBUF.stale p 1000 s)
      forEach (portQueues p s) (fun c t => staleHeads c (fun _ _ => true) (getL LBUF.q c t).length t) (if portQueues p s = [] then s else linkReads s)) s

/-- LINK_HOLD_EXPIRY (R205). -/
def linkHoldExpiry (p : Nat) (s : State) : State :=
  if rd BUF_PORT_STATUS.hold_state p s ≠ 1 then s else expire HBUF.hold p (portFlush p) s

/-- Was a copy enqueued before its port's last resumption, and is it stale (R204)? -/
def lateStale (p d : Nat) (s : State) : Bool := rd HBUF.resumed p s ≠ 0 && rd DSC.enq d s < rd HBUF.resumed p s && stale d s

/-- Remove the heads of a queue that are marked errored, and those enqueued before the last resumption that are stale
(R218, R204). -/
def cleanHeads (p code : Nat) : Nat → State → State
  | 0, s => s
  | n + 1, s =>
    match headOf code s with
    | none => s
    | some d =>
      if rdB DSC.err d s then cleanHeads p code n (dscEnd d (inc cnt_SCH_err_removed p s))
      else if lateStale p d s then cleanHeads p code n (staleDrop d s)
      else s

/-- Does a queue hold a head that may be selected? -/
def hasHead (code : Nat) (s : State) : Bool := (headOf code s).any (fun d => eligible d s)

/-! ### Guard band and fit (R226) -/

/-- May a non-gated frame of `ps` picoseconds on the wire start now? -/
def guardOk (p ps : Nat) (s : State) : Bool :=
  match untilOpen p s with
  | none => true
  | some left =>
    let band := ceilDiv (wirePs p (portMax p s + portO p s) s * 2 ^ 32) 1000
    band < left || ceilDiv (ps * 2 ^ 32) 1000 < left

/-- Does a head of gated queue `q` fit the window open now? A pending gate set that takes effect before the window's end cuts it there
(R229). -/
def gatedFits (p q d : Nat) (s : State) : Bool :=
  match windowNow p q s with
  | none => false
  | some w =>
    let wire := ceilDiv (wirePs p (guardBytes d s) s * 2 ^ 32) 1000
    wire ≤ untilTb (rd GATE.tb p s) w.2 s &&
      (!rdB SCH_PORT_W6.list_pending p s || wire ≤ untilTb (rd SCH_PORT_W2.gate_tb p s) (switchAt p s) s)

/-- Does the port stay idle: a non-gated frame has failed the guard test, and the window it failed for has not opened (R216)? -/
def idleHeld (p : Nat) (s : State) : Bool := rdB GATE.enable p s && gateNow p s < rd HSCH.idle p s - 1

/-- A non-gated frame fails the guard test: the port stays idle until the window opens (R216). -/
def idleHold (p : Nat) (s : State) : State :=
  match untilOpen p s with
  | none => s
  | some left => wr HSCH.idle p (gateNow p s + ceilDiv left (2 ^ 32) + 1) s

/-- The gated step of R216. -/
def gatedPick (p : Nat) (s : State) : Option Nat :=
  ([0, 1, 2, 3].find? (fun q => match headOf ((4 * p + q) * 4 + 1) s with
    | some d => eligible d s && gatedFits p q d s
    | none => false)).bind (fun q => headOf ((4 * p + q) * 4 + 1) s)

/-! ### Inside a subscriber node (R214) -/

/-- Queue code of queue `q` of node `n`. -/
def nodeQ (n q : Nat) : Nat := (8 * n + q) * 4

/-- Weight of queue `q` (2 to 7) of a node. -/
def queueWeight (n q : Nat) (s : State) : Nat :=
  match q with
  | 2 => rd SCH_SUB_W5.weight2 n s
  | 3 => rd SCH_SUB_W5.weight3 n s
  | 4 => rd SCH_SUB_W5.weight4 n s
  | 5 => rd SCH_SUB_W5.weight5 n s
  | 6 => rd SCH_SUB_W6.weight6 n s
  | _ => rd SCH_SUB_W6.weight7 n s

/-- A node's best-effort queues with a head to select: 2 to 7 of an admitted node, all of any other (R214, R216). -/
def beQueues (n : Nat) (s : State) : List Nat :=
  (if admNode n s then [2, 3, 4, 5, 6, 7] else [0, 1, 2, 3, 4, 5, 6, 7]).filter (fun q => hasHead (nodeQ n q) s)

/-- The next element after `x` in a rising list, cyclically. -/
def nextAfter (x : Nat) (l : List Nat) : Nat := ((l.find? (fun y => x < y)).getD (l.headD 0))

/-- The loop of R214 over candidates, each beside what its head costs: the pointer `ptr`, deficits `dfc` and what each may
spend at a visit. A candidate with enough deficit under the pointer is taken; otherwise the pointer moves on and adds. -/
def dwrrLoop (cands : List (Nat × Nat)) (add : Nat → Nat) (dfc : Fld) (base : Nat) : Nat → Nat → State → Nat × State
  | 0, ptr, s => (ptr, s)
  | n + 1, ptr, s =>
    if (cands.lookup ptr).any (fun c => (c : Int) ≤ rdI dfc (base + ptr) s) then (ptr, s)
    else
      let ptr' := nextAfter ptr (cands.map (·.1))
      dwrrLoop cands add dfc base n ptr' (wrI dfc (base + ptr') (rdI dfc (base + ptr') s + add ptr') s)

/-- Charge of a queue's head. -/
def headCharge (code : Nat) (s : State) : Nat := match headOf code s with
  | some d => dscCharge d s
  | none => 0

/-- pick_queue(n) (R214). -/
def pickQueue (n : Nat) (s : State) : Nat × State :=
  match beQueues n s with
  | [] => (0, s)
  | q :: qs =>
    if q < 2 then (q, s)
    else
      let ptr := rd HSCH.ptr n s
      let s := if getL LBUF.q (nodeQ n ptr) s = [] then wr HSCH.dfc (8 * n + ptr) 0 s else s
      let (k, t) := dwrrLoop ((q :: qs).map (fun x => (x, headCharge (nodeQ n x) s)))
        (fun x => queueWeight n x s * rd SCH_SUB_W6.quantum n s * 64) HSCH.dfc (8 * n) 8192 ptr s
      (k, wr HSCH.ptr n k t)

/-- What the frame pick_queue would take from a node costs. -/
def nodeCost (n : Nat) (s : State) : Nat := headCharge (nodeQ n (pickQueue n s).1) s

/-! ### The tree (R216) -/

/-- Subscriber nodes under a port that hold a frame, in ascending order. -/
def nodesOf (p : Nat) (s : State) : List Nat :=
  (((portQueues p s).filter (fun c => c % 4 = 0)).map (fun c => c / 32)).eraseDups

/-- Rotate a rising list so that it starts at the first element at or above `r`. -/
def fromRr (r : Nat) (l : List Nat) : List Nat := l.filter (fun x => r ≤ x) ++ l.filter (fun x => x < r)

/-- Buckets of a subscriber and a service node. -/
def subMin (n : Nat) : Nat := n
def subMax (n : Nat) : Nat := 32768 + n
def svcMin (v : Nat) : Nat := 65536 + v
def svcMax (v : Nat) : Nat := 98304 + v

/-- Service node of a subscriber node. -/
def parentOf (n : Nat) (s : State) : Nat := rd SCH_SUB_W0.parent n s

/-- Nodes with best-effort work and max_conf. -/
def beNodes (p : Nat) (s : State) : List Nat := (nodesOf p s).filter (fun n => beQueues n s ≠ [] && bktConf (subMax n) s)

/-- Children of a service node among the candidates. -/
def childrenOf (v : Nat) (ns : List Nat) (s : State) : List Nat := ns.filter (fun n => parentOf n s = v)

/-- Service nodes with max_conf and a candidate child. -/
def beServices (ns : List Nat) (s : State) : List Nat :=
  ((ns.map (fun n => parentOf n s)).eraseDups.filter (fun v => bktConf (svcMax v) s)).foldl (fun l v => insNat v l) []
where
  /-- Insert in rising order. -/
  insNat (x : Nat) : List Nat → List Nat
    | [] => [x]
    | y :: l => if x ≤ y then x :: y :: l else y :: insNat x l

/-- dwrr_child(v) (R216). -/
def dwrrChild (p v : Nat) (ns : List Nat) (s : State) : Nat × State :=
  let cs := childrenOf v ns s
  let ptr := rd HSCH.cptr v s
  let s := if parentOf ptr s = v && !(nodesOf p s).contains ptr then wr HSCH.cdef ptr 0 s else s
  let (n, t) := dwrrLoop (cs.map (fun x => (x, nodeCost x s)))
    (fun x => rd SCH_SUB_W0.ex_weight x s * rd SCH_PORT_W0.node_quantum p s * 64) HSCH.cdef 0 (cs.length * 1024 + 8) ptr s
  (n, wr HSCH.cptr v n t)

/-- dwrr_service(p) (R216): the service node, by what its child in turn costs. -/
def dwrrService (p : Nat) (vs ns : List Nat) (s : State) : Nat × State :=
  let ptr := rd HSCH.sptr p s
  let s := if rd SCH_SVC_W0.port ptr s = p && !(ns.any (fun n => parentOf n s = ptr)) then wr HSCH.sdef ptr 0 s else s
  let (v, t) := dwrrLoop (vs.map (fun x => (x, nodeCost (dwrrChild p x ns s).1 s)))
    (fun x => rd SCH_SVC_W0.ex_weight x s * rd SCH_PORT_W0.node_quantum p s * 64) HSCH.sdef 0 (vs.length * 1024 + 8) ptr s
  (v, wr HSCH.sptr p v t)

/-- The admitted step: the node in turn and its queue (pick_admitted). -/
def admittedPick (p : Nat) (s : State) : Option Nat × State :=
  let ns := (nodesOf p s).filter (fun n => (hasHead (nodeQ n 0) s || hasHead (nodeQ n 1) s) && admNode n s)
  match fromRr (rd HSCH.rra p s) ns with
  | [] => (none, s)
  | n :: _ => (headOf (nodeQ n (if hasHead (nodeQ n 0) s then 0 else 1)) s, wr HSCH.rra p (n + 1) s)

/-- The best-effort steps: the node, whether its own min bucket selected it, its service node's min bucket, and whether the
deficits under the service node and the port are debited. -/
def bePick (p : Nat) (s : State) : Option (Nat × Nat) × State :=
  let ns := beNodes p s
  let vs := beServices ns s
  match fromRr (rd HSCH.rrs p s) (ns.filter (fun n => bktConf (subMin n) s && bktConf (svcMax (parentOf n s)) s)) with
  | n :: _ => (some (n, 4), wr HSCH.rrs p (n + 1) s)
  | [] =>
    match fromRr (rd HSCH.rrv p s) (vs.filter (fun v => bktConf (svcMin v) s)) with
    | v :: _ =>
      let (n, t) := dwrrChild p v ns (wr HSCH.rrv p (v + 1) s)
      (some (n, 8 + 16), t)
    | [] =>
      if vs = [] then (none, s)
      else
        let (v, t) := dwrrService p vs ns s
        let (n, t) := dwrrChild p v ns t
        (some (n, 16 + 32), t)

/-- Charge a selected best-effort copy (R215, R216): the max buckets of its node and service node, the min bucket that
selected it, and the deficits. -/
def chargeStart (d n mask : Nat) (s : State) : State :=
  let x := dscCharge d s
  let v := parentOf n s
  let q := rd DSC.code d s / 4
  let on := fun (k : Nat) (f : State → State) (t : State) => if mask.testBit k then f t else t
  let down := fun (f : Fld) (i : Nat) (t : State) => wrI f i (rdI f i t - x) t
  bktCharge (subMax n) x s |> bktCharge (svcMax v) x |> on 2 (bktCharge (subMin n) x) |> on 3 (bktCharge (svcMin v) x)
    |> on 4 (down HSCH.cdef n) |> on 5 (down HSCH.sdef v) |> (fun t => if 2 ≤ q % 8 then down HSCH.dfc q t else t)
    |> wr DSC.charged d x |> wr DSC.buckets d (mask + 3)

/-- Put a copy on the wire's doorstep: selected and not yet started. -/
def selectDsc (p d : Nat) (s : State) : State := wr HSCH.sel p (d + 1) s |> wr HSCH.selt p (rd TBC.count 0 s)

/-- Has the port a copy selected and not yet started? -/
def selected (p : Nat) (s : State) : Bool := rd HSCH.sel p s ≠ 0 && rdB DSC.live (rd HSCH.sel p s - 1) s

/-- The held rates of a port's idle min buckets are adopted (R222). -/
def minAdopt (p : Nat) (s : State) : State :=
  forEach ((nodesOf p s).flatMap (fun n => [subMin n, svcMin (parentOf n s)])) bktAdopt s

/-- SCHEDULER_SELECT (R216, R218, R219, R291). -/
def schedSelect (p : Nat) (s : State) : State :=
  if pauseCause p s ≠ 0 || sliceAsleep (servSlice p s) s || rd HSCH.fly p s ≠ 0 || selected p s then s
  else
    let s := if portQueues p s = [] then s else linkReads (windowsNote p s)
    let s := minAdopt p (forEach (portQueues p s) (fun c t => cleanHeads p c (getL LBUF.q c t).length t) s)
    let start := fun (d : Nat) (before after : State) =>
      if guardOk p (wirePs p (guardBytes d before) before) before then selectDsc p d after else idleHold p before
    match gatedPick p s with
    | some d => selectDsc p d s
    | none =>
      if idleHeld p s then s
      else
      match admittedPick p s with
      | (some d, t) => start d s (if rdB DSC.adm d s then t else chargeStart d (rd DSC.code d s / 32) 0 t)
      | (none, _) =>
        if getL LTIM.tx p s ≠ [] then
          (if guardOk p (wirePs p (ptpLen p s + portO p s) s) s then ptpSend p (autumnWake (servSlice p s) s) else idleHold p s)
        else
          match bePick p s with
          | (some (n, mask), t) =>
            let (q, u) := pickQueue n t
            (match headOf (nodeQ n q) u with
             | some d => start d s (chargeStart d n mask u)
             | none => s)
          | (none, _) =>
            if !rdB HPRT.cap p s then s else if guardOk p (wirePs p 84 s) s then capSend p (autumnWake (servSlice p s) s) else idleHold p s

/-! ### The sampler (R239 to R242) -/

/-- Core clock of a P-state, MHz (R305). -/
def pMhz (k : Nat) : Nat := [1600, 1500, 1400, 1250, 1100, 1000].getD k 1000

/-- Queues of enabled watch entries. -/
def watched (s : State) : List Nat :=
  ((touched SCH_WATCH.enable s).filter (fun w => rdB SCH_WATCH.enable w s && rd SCH_WATCH.kind w s ≠ 3)).map
    (fun w => rd SCH_WATCH.kind w s + 4 * rd SCH_WATCH.index w s)

/-- Queues 0 and 1 of the admitted nodes. -/
def admQueues (s : State) : List Nat :=
  (((busyStreams s).filter (fun n => rd STM.class_ n s = 2)).flatMap (fun n => (hopKeys n s).flatMap (fun k =>
    (rd HOP.node k s :: (hopPorts (rd HOP.eg k s) s).map (fun p => hopNode k p s)).flatMap (fun v => [nodeQ v 0, nodeQ v 1])))).eraseDups

/-- How many queues a sweep reads. -/
def sweepCount (s : State) : Nat :=
  if rdB SCH_CTRL.sample_scope 0 s then (watched s ++ admQueues s).eraseDups.length else 268288

/-- Queues of a sweep whose values can differ from an empty queue's: in scope 0 a queue with nothing queued, nothing charged
and no value held samples 0, as the values of such a queue already read. -/
def sweepQueues (s : State) : List Nat :=
  if rdB SCH_CTRL.sample_scope 0 s then (watched s ++ admQueues s).eraseDups
  else (watched s ++ admQueues s ++ (mkind s.lists LBUF.q.id).map (·.1) ++ touched HBUF.q s ++ touched SMP.last_d s ++ touched SMP.last_s s
    ++ touched SMP.max_d s ++ touched SMP.max_s s ++ touched SMP.clr s ++ touched SMP.any s).eraseDups

/-- The effective period, ns. -/
def effPeriod (s : State) : Nat :=
  max (rd SCH_SAMPLE_CFG.period 0 s * 1000) (ceilDiv (ceilDiv (sweepCount s) 16 * 1000) (pMhz (rd PWR_STATUS.p_state 0 s)))

/-- Bin of a sojourn (R241). -/
def binOf (scale t : Nat) : Nat := ((List.range 31).find? (fun k => t < 2 ^ (scale + k))).getD 31

/-- The margin check of one sample (R41). -/
def marginCheck (p code t : Nat) (s : State) : State :=
  let q := portBound p s - portFixed p s
  if !rdB ADM_CTRL.margin_enable 0 s || rdB ADM_PORT_MARGIN.margin_flag p s || t * 10 ≤ q * 9 then s
  else wr ADM_PORT_MARGIN.margin_flag p 1 s |> inc cnt_ADM_margin 0 |> raise 0x0904 [p, code, t, q]

/-- One read of a queue (R239 to R241). -/
def sampleQueue (first : Bool) (code : Nat) (s : State) : State :=
  let d := rd HBUF.q code s
  let t := match headOf code s with
    | some x => min (now s - rd DSC.enq x s) 0xFFFFFFFF
    | none => 0
  let fresh := rdB SMP.clr code s || (first && !rdB SMP.any code s)
  let lo := fun (f : Fld) (v : Nat) (u : State) => wr f code (if fresh then v else min v (rd f code u)) u
  let hi := fun (f : Fld) (v : Nat) (u : State) => wr f code (if fresh then v else max v (rd f code u)) u
  let s := wr SMP.last_d code d s |> wr SMP.last_s code t |> lo SMP.min_d d |> hi SMP.max_d d |> lo SMP.min_s t |> hi SMP.max_s t
    |> wr SMP.clr code 0 |> wr SMP.any code 1
  let ws := (touched SCH_WATCH.enable s).filter (fun w => rdB SCH_WATCH.enable w s && rd SCH_WATCH.kind w s ≠ 3 &&
    rd SCH_WATCH.kind w s + 4 * rd SCH_WATCH.index w s = code)
  forEach ws (fun w u => inc cnt_SCH_bins (w * 32 + binOf (rd SCH_WATCH.scale w u) t) u) s

/-- QUEUE_SAMPLE (R239): time has passed to the end of the effective period, and every queue in scope is read. -/
def queueSample (s : State) : State :=
  if !rdB SCH_CTRL.sample_enable 0 s then s
  else
    let eff := effPeriod s
    let s := if rd HSMP.last 0 s = 0 then s else passTo (rd HSMP.last 0 s - 1 + eff) s
    let above := decide (rd SCH_SAMPLE_CFG.period 0 s * 1000 < eff)
    let s := if above && !rdB SCH_SAMPLE_STATUS.overrun 0 s then
        raise 0x0204 [ceilDiv eff 1000] (wr SCH_EVT.ev_sample_overrun 0 1 s)
      else s
    let first := !rdB HSMP.all 0 s
    let adm := admQueues s
    let s := wrB SCH_SAMPLE_STATUS.overrun 0 above s |> wr SCH_SAMPLE_STATUS.eff_period 0 (ceilDiv eff 1000)
      |> wr HSMP.last 0 (now s + 1) |> incBy cnt_SCH_samples_taken 0 (sweepCount s)
    let s := forEach (sweepQueues s) (sampleQueue first) s
    let s := forEach adm (fun c t => marginCheck (nodePort (c / 32) t) c (rd SMP.last_s c t) t) s
    if rdB SCH_CTRL.sample_scope 0 s then s else wr HSMP.all 0 1 s

/-- SCH_Q_CLEAR (R240). -/
def qClear (s : State) : State :=
  let k := rd SCH_Q_SEL.kind 0 s
  let c := k + 4 * rd SCH_Q_SEL.index 0 s
  if k = 3 then s
  else wr SMP.clr c 1 s |> wr SMP.min_d c 0 |> wr SMP.max_d c 0 |> wr SMP.min_s c 0 |> wr SMP.max_s c 0

end Sys2Proof.Machine
end

