-- ==== Sys2Proof/Machine/Tx.lean ====
section
/-!
DEFINITION. The start of a transmission (R93, R134, R136, R250): the rate step, the tag, the late check (R40), postcards
(R491), the counters of the copy sent, and the copy's way out of its queue.
-/

namespace Sys2Proof.Machine

/-- Rate step of a copy that leaves faster than it arrives, ps (R93): admitted frames only, while the frame still arrives. -/
def rateStep (d : Nat) (s : State) : Nat :=
  let f := rd DSC.frame d s
  let p := rd DSC.eg d s
  let ri := portRate (rd FRM.port f s) s
  let rp := portRate p s
  if !rdB DSC.adm d s || rdB FRM.ended f s || rp ≤ ri then 0
  else
    let w := rd STM.maxf (rd DSC.stream d s) s + portO p s
    w * 8000 / ri - w * 8000 / rp

/-- Time passes until TB0 is `ps` picoseconds past the count `c` (in units of 2^-32 ns). -/
def passPs (c ps : Nat) (s : State) : State := passTo (ceilDiv (c * 1000 + ps * 2 ^ 32) (1000 * 2 ^ 32)) s

/-- Measured delay of a copy whose first bit has left, in units of 2^-32 ns (R40). -/
def delayOf (d : Nat) (s : State) : Nat := rd DSC.start d s - rd FRM.stamp (rd DSC.frame d s) s

/-- The live check of R40. -/
def lateCheck (d : Nat) (s : State) : State :=
  if !rdB DSC.adm d s then s
  else
    let p := rd DSC.eg d s
    let n := rd DSC.stream d s
    let late := if rdB DSC.sched d s then carriedNow d s else rd ADM_PORT_BUDGET.hop_budget p s * 2 ^ 32 < delayOf d s
    if !late then s
    else
      let s := inc cnt_ADM_late n s
      if anyExc n s then s else inc cnt_ADM_breach 0 (raise 0x0903 [n, p, min (delayOf d s / 2 ^ 32) 0xFFFFFFFF] s)

/-- The postcard of a sampled copy at its first bit (R491). -/
def sendCard (d : Nat) (s : State) : State :=
  let f := rd DSC.frame d s
  if !rdB FRM.sampled f s then s
  else
    let k := rd FRM.tel f s - 1
    let act := rdB PRT_PORT_STATUS.tag_active (rd DSC.eg d s) s
    let u := delayOf d s
    if (rdB TEL_PROF.last_only k s && act) || u < rd TEL_PROF.threshold k s * 2 ^ 32 then s
    else postcard (cardBytes d 0 u act s) s

/-- Counters of a copy at its first bit. -/
def sentCount (d : Nat) (s : State) : State :=
  let p := rd DSC.eg d s
  let code := rd DSC.code d s
  let n := rd DSC.stream d s
  let s := inc cnt_PRT_tx_frames p s |> inc cnt_TEL_q_tx_frames code
  let s := if rdB DSC.adm d s then
      inc cnt_SCH_tx_admitted p (if strState n s = 2 then inc cnt_TEL_s_tx_frames n s else s)
    else s
  let s := if code % 4 = 1 then inc cnt_SCH_tx_gated p s else s
  match tcForm d s with
  | 0 => s
  | 3 => inc cnt_TIM_tc_v6_unmod 0 s
  | _ => inc cnt_TIM_tc_fwd 0 s

/-- A copy of an admitted frame for which a new tag is built and that took no number at its enqueue, where tag_active read 0, takes its
stream's next one (R255). DESIGN CHOICE (log entry 172): the rule gives numbers at enqueue and says nothing of such a copy. -/
def lateNumber (d : Nat) (s : State) : State :=
  let n := rd DSC.stream d s
  if !rdB DSC.adm d s || rd DSC.seq d s ≠ 0 || !rdB PRT_PORT_STATUS.tag_active (rd DSC.eg d s) s || carriesNumber (rd DSC.frame d s) n s then s
  else
    let (q, s) := nextSeq n s
    wr DSC.seq d (q + 1) s

/-- FRAME_TX_START (R134): `errs` are the memory errors its first reads meet. A copy whose length after rewrite is known to
exceed the port's max_frame is not sent (R136). While the port pauses nothing starts (R100, R217): the copy selected waits, and one that
waited through a hold is tested as R204 says. -/
def txStart (p : Nat) (errs : List MemErr) (s : State) : State :=
  if rd HSCH.sel p s = 0 || rd HSCH.fly p s ≠ 0 || pauseCause p s ≠ 0 then s
  else
    let d := rd HSCH.sel p s - 1
    let s := windowsNote p (wr HSCH.sel p 0 s)
    if !rdB DSC.live d s then s
    else if rdB DSC.err d s then dscEnd d (inc cnt_SCH_err_removed p s)
    else if lateStale p d s then staleDrop d s
    else if rdB FRM.ended (rd DSC.frame d s) s && portMax p s < sentLen d s then
      dscEnd d (inc cnt_SLC_act_oversize (servSlice p s) s)
    else
      let s := passPs (rd HSCH.selt p s) (rateStep d s) s
      let s := forEach (errs ++ knownBad d 0 1 errs s) (memErr d) s
      if !rdB DSC.live d s then s
      else
        let s := lateNumber d s
        let s := wr DSC.started d 1 s |> wr DSC.start d (rd TBC.count 0 s) |> setL LDSC.tag d (tagOf d s)
          |> wrB DSC.ntag d (rdB PRT_PORT_STATUS.tag_active p s)
        let s := sentCount d (sendCard d (lateCheck d s))
        dataFrame p (wr HSCH.fly p (d + 1) (dequeue d s))

end Sys2Proof.Machine
end

