-- ==== Sys2Proof/Machine/Fab.lean ====
section
/-!
DEFINITION. The power-group exchange (R267 to R269) and what moves by it: membership, budgets, pairing, transfers and claims
(R336 to R341), with the device cap and own slack (R251).
-/

namespace Sys2Proof.Machine

/-- Is the device in a power group (R336)? -/
def inGroup (s : State) : Bool := rdB FAB_PG_CFG.pg_enable 0 s && rd FAB_PG_CFG.group_id 0 s ≠ 0

/-- dev_cap (R336, R338) and own slack (R251) follow their terms. -/
def capNote (s : State) : State :=
  let lim := rd PWR_CAP.power_limit 0 s
  let cap := if !inGroup s then lim
    else if rdB PWR_PG_STATUS.joining 0 s then min lim (rd PWR_PG_CTRL.pg_min 0 s) else min lim (rd PWR_PG_STATUS.budget 0 s)
  let k := rd PWR_STATUS.limiter 0 s
  let held := rd PWR_STATUS.p_state 0 s ≠ 0 && (k = 3 || k = 4 || k = 6)
  let own := if held then 0 else min 255 ((cap - rd PWR_DRAW.draw 0 s) / 2)
  wr PWR_DRAW.dev_cap 0 cap s |> wr FAB_PG_STATUS.own_slack 0 own

/-- Fair share (R338). -/
def fairShare (s : State) : Nat := 5 * (rd PWR_PG_CFG.group_cap 0 s / (max 1 (rd PWR_PG_CFG.pg_size 0 s) * 5))

/-- crit_path (R337): the frame rate of the last 1 ms against the frame capacity at p. -/
def critPath (s : State) : Bool :=
  inGroup s && rd PWR_STATUS.limiter 0 s = 3
    && decide (rd PWR_CAP.load_thresh 0 s * (128 * pMhz (rd PWR_STATUS.p_state 0 s) * 1000) ≤ 100 * (rateOf LPWR.fast 1000000 s).1)
    && decide (rd PWR_PG_STATUS.budget 0 s < rd PWR_CAP.power_limit 0 s)

/-- Ports a power-group message leaves by (R267): tag_active, a peer of the same group, and neither quiet nor waking (R67). -/
def pgPorts (s : State) : List Nat :=
  (touched PRT_PORT_STATUS.tag_active s).filter (fun p => rdB PRT_PORT_STATUS.tag_active p s &&
    bitOf (rd PRT_PORT_PEER_CAP.peer_caps p s) 3 && rd FAB_PORT.peer_group p s = rd FAB_PG_CFG.group_id 0 s &&
    rd PRT_PORT_STATUS.state p s ≠ 5 && rd PRT_PORT_STATUS.state p s ≠ 6)

/-- A message, by its fields as pgBody takes them, sent out of every qualifying port but one. -/
def pgFlood (skip : Option Nat) (m : List Nat) (s : State) : State :=
  forEach ((pgPorts s).filter (fun p => some p ≠ skip)) (fun p t => pgSend p m t) s

/-- Create a message (R267): msg, target, transfer number and watts; a REPORT carries this device's figures. -/
def pgCreate (msg target tid watts : Nat) (s : State) : State :=
  let rep := msg = 1
  let st := rd PWR_STATUS.p_state 0 s + 128 * b2n (critPath s)
  pgFlood none [msg, rd FAB_PG_CFG.group_id 0 s, rd FAB_CTRL.device_id 0 s, rd HPG.seq 0 s, target, tid, watts,
    if rep then rd PWR_DRAW.draw 0 s else 0, if rep then rd FAB_PG_STATUS.own_slack 0 s else 0, st,
    if rep then rd HPWR.duty10 0 s else 0, if rep then rd PWR_PG_CFG.group_cap 0 s else 0] s |> addF HPG.seq 0 1

/-- Members heard now. -/
def pgMembers (s : State) : List Nat := (touched PGM.member s).filter (fun x => rdB PGM.member x s)

/-- The member count may have changed (R268); a device that listens raises nothing (R338). -/
def pgCount (s : State) : State :=
  let n := (pgMembers s).length
  if n = rd FAB_PG_STATUS.members 0 s then s
  else
    let s := wr FAB_PG_STATUS.members 0 n s
    if rdB PWR_PG_STATUS.joining 0 s then s else raise 0x0A07 [n] (wr FAB_EVT.ev_pg 0 1 s)

/-- Is a message newer than the last one acted on of its origin (R268)? -/
def pgNewer (origin seq : Nat) (s : State) : Bool :=
  origin ≠ rd FAB_CTRL.device_id 0 s &&
    (rd PGM.seq origin s = 0 ||
      (let d := (seq + 65536 - (rd PGM.seq origin s - 1)) % 65536
       d ≠ 0 && d < 32768))

/-- A power-group message arrives on a port (R267 to R269): discarded when `bad`, of another group, or not newer; otherwise
acted on by `k` and sent on. -/
def pgTake (p : Nat) (bad : Bool) (group origin seq : Nat) (m : List Nat) (k : State → State) (s : State) : State :=
  if !portHears p s then s
  else
    let s := peerFrame p s
    if bad || group ≠ rd FAB_PG_CFG.group_id 0 s || !rdB PRT_PORT_STATUS.tag_active p s then inc cnt_FAB_pg_bad 0 s
    else
      let s := inc cnt_FAB_pg_rx 0 s
      if !inGroup s || !pgNewer origin seq s then s
      else pgFlood (some p) m (k (wr PGM.seq origin (seq % 65536 + 1) s))

/-- REPORT (R268). -/
def pgReport (p group origin seq watts draw slack state stretch cap : Nat) (bad : Bool) (s : State) : State :=
  pgTake p bad group origin seq [1, group, origin, seq, 0, 0, watts, draw, slack, state, stretch, cap] (fun s =>
    if cap ≠ rd PWR_PG_CFG.group_cap 0 s then
      let s := wr PGM.member origin 0 s
      pgCount (if rdB PWR_PG_STATUS.joining 0 s then s else raise 0x0A09 [origin, cap] (wr FAB_EVT.ev_pg 0 1 s))
    else
      pgCount (wr PGM.member origin 1 s |> wr PGM.last origin (now s + 1) |> wr PGM.budget origin watts |> wr PGM.draw origin draw
        |> wr PGM.state origin state)) s

/-- TRANSFER (R269). -/
def pgTransfer (p group origin seq target tid watts state : Nat) (bad : Bool) (s : State) : State :=
  pgTake p bad group origin seq [2, group, origin, seq, target, tid, watts, 0, 0, state, 0, 0] (fun s =>
    if target ≠ rd FAB_CTRL.device_id 0 s || rdB PWR_PG_STATUS.joining 0 s then s
    else
      let seen := getL LPGM.seen origin s
      let s := if seen.contains tid then s
        else
          let l := seen ++ [tid]
          setL LPGM.seen origin (l.drop (l.length - 16)) s |> addF PWR_PG_STATUS.budget 0 watts |> incBy cnt_PWR_pg_watts_in 0 watts
            |> capNote
      pgCreate 3 origin tid watts s) s

/-- A transfer not yet acknowledged: number, target, watts, first and last sending. -/
abbrev PgOut := Nat × Nat × Nat × Nat × Nat

/-- The transfers in flight. -/
def pgOuts : List Nat → List PgOut
  | a :: b :: c :: d :: e :: l => (a, b, c, d, e) :: pgOuts l
  | _ => []

/-- Store the transfers in flight. -/
def pgOutsSet (l : List PgOut) (s : State) : State :=
  setL LPG.out 0 (l.flatMap (fun x => [x.1, x.2.1, x.2.2.1, x.2.2.2.1, x.2.2.2.2])) s |> wr FAB_PG_STATUS.pending 0 l.length

/-- ACK (R269). -/
def pgAck (p group origin seq target tid watts state : Nat) (bad : Bool) (s : State) : State :=
  pgTake p bad group origin seq [3, group, origin, seq, target, tid, watts, 0, 0, state, 0, 0] (fun s =>
    if target ≠ rd FAB_CTRL.device_id 0 s then s
    else pgOutsSet ((pgOuts (getL LPG.out 0 s)).filter (fun x => !(x.1 = tid && x.2.1 = origin))) s) s

/-- A member's figures in pairing: device, budget, draw, critical-path flag. -/
abbrev PgView := Nat × Nat × Nat × Bool

/-- m of R339: this device and every member whose latest REPORT is at most 30 ms old. -/
def pgView (s : State) : List PgView :=
  (rd FAB_CTRL.device_id 0 s, rd PWR_PG_STATUS.budget 0 s, rd PWR_DRAW.draw 0 s, critPath s) ::
    ((pgMembers s).filter (fun x => now s ≤ rd PGM.last x s - 1 + 30000000)).map (fun x =>
      (x, rd PGM.budget x s, rd PGM.draw x s, bitOf (rd PGM.state x s) 7))

/-- Insert by a key. -/
def insBy (key : PgView → List Nat) (x : PgView) : List PgView → List PgView
  | [] => [x]
  | y :: l => if lexLt (key x) (key y) then x :: y :: l else y :: insBy key x l

/-- Sort by a key. -/
def sortBy (key : PgView → List Nat) (l : List PgView) : List PgView := l.foldl (fun a x => insBy key x a) []

/-- Recipients and donors of R339. -/
def pgPairs (s : State) : List PgView × List PgView :=
  let m := pgView s
  let head := fun (x : PgView) => x.2.1 - x.2.2.1
  let room := fun (x : PgView) => decide (rd PWR_PG_CTRL.donor_margin 0 s + 5 + x.2.2.1 ≤ x.2.1)
  let fair := fairShare s
  if m.any (fun x => x.2.2.2) then
    (sortBy (fun x => [x.2.1, x.1]) (m.filter (fun x => x.2.2.2)),
     sortBy (fun x => [2 ^ 32 - head x, x.1]) (m.filter (fun x => !x.2.2.2 && room x)))
  else
    (sortBy (fun x => [x.2.1, x.1]) (m.filter (fun x => x.2.1 + 5 ≤ fair)),
     sortBy (fun x => [2 ^ 32 - x.2.1, x.1]) (m.filter (fun x => decide (fair + 5 ≤ x.2.1) && room x)))

/-- The pairing of R339: this device donates at most 5 W. -/
def pgPair (s : State) : State :=
  let (recv, don) := pgPairs s
  let me := rd FAB_CTRL.device_id 0 s
  match don.findIdx? (fun x => x.1 = me) with
  | none => s
  | some i =>
    match recv[i]? with
    | none => s
    | some t =>
      let outs := pgOuts (getL LPG.out 0 s)
      let b := rd PWR_PG_STATUS.budget 0 s
      if t.1 = me || outs.any (fun x => x.2.1 = t.1) || (getL LPG.lost 0 s).contains t.1 || b < rd PWR_PG_CTRL.pg_min 0 s + 5 then s
      else
        let tid := rd HPG.tid 0 s
        wr PWR_PG_STATUS.budget 0 (b - 5) s |> incBy cnt_PWR_pg_watts_out 0 5 |> capNote |> addF HPG.tid 0 1
          |> pgOutsSet (outs ++ [(tid, t.1, 5, now s, now s)]) |> pgCreate 2 t.1 tid 5

/-- PG_OVER_CAP (R341), once per episode. -/
def pgOver (s : State) : State :=
  let sum := ((pgView s).map (fun x => x.2.1)).sum
  let above := decide (rd PWR_PG_CFG.group_cap 0 s < sum)
  let s := if above && !rdB HPG.over 0 s then raise 0x0310 [sum] (wr PWR_EVT.ev_group 0 1 s) else s
  wrB HPG.over 0 above s

/-- PG_REPORT_TIMER (R268, R339). A device that listens (R338) sends no REPORT and does not pair. -/
def pgTimer (s : State) : State :=
  expire HPG.next 0 (fun s =>
    let s := arm HPG.next 0 10000000 s
    if rdB PWR_PG_STATUS.joining 0 s then s
    else pgPair (pgOver (pgCreate 1 0 0 (rd PWR_PG_STATUS.budget 0 s) s))) s

/-- PG_MEMBER_TIMEOUT (R268). -/
def pgGone (x : Nat) (s : State) : State :=
  if !rdB PGM.member x s then s
  else
    let s := passTo (rd PGM.last x s - 1 + 100000000) s
    pgCount (wr PGM.member x 0 s)

/-- TRANSFER_RESEND (R269) of transfer `tid`. -/
def pgResend (tid : Nat) (s : State) : State :=
  let outs := pgOuts (getL LPG.out 0 s)
  match outs.find? (fun x => x.1 = tid) with
  | none => s
  | some x =>
    let t := max (now s) (x.2.2.2.2 + 10000000)
    if x.2.2.2.1 + 1000000000 ≤ t then s
    else
      let s := passTo t s
      pgCreate 2 x.2.1 tid x.2.2.1 (pgOutsSet (outs.map (fun y => if y.1 = tid then (y.1, y.2.1, y.2.2.1, y.2.2.2.1, t) else y)) s)

/-- PG_TRANSFER_LOST (R269, R340). -/
def pgLost (tid : Nat) (s : State) : State :=
  let outs := pgOuts (getL LPG.out 0 s)
  match outs.find? (fun x => x.1 = tid) with
  | none => s
  | some x =>
    let s := passTo (x.2.2.2.1 + 1000000000) s
    pgOutsSet (outs.filter (fun y => y.1 ≠ tid)) s |> addF PWR_PG_STATUS.unassigned 0 x.2.2.1 |> pushL LPG.lost 0 x.2.1
      |> wr FAB_EVT.ev_pg 0 1 |> raise 0x0A08 [x.2.1, tid, x.2.2.1]

/-- The device joins a group (R338). -/
def pgJoin (s : State) : State :=
  capNote (wr PWR_PG_STATUS.joining 0 1 s |> wr PWR_PG_STATUS.budget 0 0 |> arm HPG.join 0 1100000000 |> arm HPG.next 0 10000000)

/-- The device leaves its group. -/
def pgLeave (s : State) : State :=
  let s := forEach (touched PGM.member s) (fun x t => wr PGM.member x 0 t) s
  let s := forEach (touched PGM.seq s) (fun x t => wr PGM.seq x 0 t) s
  capNote (pgOutsSet [] s |> wr PWR_PG_STATUS.joining 0 0 |> wr PWR_PG_STATUS.budget 0 0 |> disarm HPG.join 0 |> disarm HPG.next 0
    |> wr FAB_PG_STATUS.members 0 0 |> setL LPG.lost 0 [] |> wr HPG.over 0 0)

/-- A commit has changed FAB_PG_CFG: `was` says whether the device was in a group, `same` whether it is the same group. -/
def pgChanged (was same : Bool) (s : State) : State :=
  let s := if was && !(inGroup s && same) then pgLeave s else s
  if inGroup s && !(was && same) then pgJoin s else capNote s

/-- PG_JOIN_LISTEN_END (R338). -/
def pgListenEnd (s : State) : State :=
  expire HPG.join 0 (fun s =>
    let left := rd PWR_PG_CFG.group_cap 0 s - ((pgMembers s).map (fun x => rd PGM.budget x s)).sum
    capNote (wr PWR_PG_STATUS.budget 0 (min (fairShare s) left / 5 * 5) s |> wr PWR_PG_STATUS.joining 0 0)) s

/-- CLAIM (R340). -/
def pgClaim (s : State) : State :=
  if !inGroup s then s
  else
    let b := rd PWR_PG_STATUS.budget 0 s
    let room := rd PWR_PG_CFG.group_cap 0 s - ((pgView s).map (fun x => x.2.1)).sum
    let up := min room (rd PWR_CAP.power_limit 0 s - b) / 5 * 5
    capNote (wr PWR_PG_STATUS.budget 0 (b + up) s |> wr PWR_PG_STATUS.unassigned 0 0)

end Sys2Proof.Machine
end

