-- ==== Sys2Proof/Machine/Pwr.lean ====
section
/-!
DEFINITION. Power, droop and temperature (R308 to R328, R336, R337): P-states and their steps, the governor and its limiters,
droop stretching, VR_ALERT_N, thermal and voltage sensors, regulators, the device cap and the ageing trim.
-/

namespace Sys2Proof.Machine

/-- Have `n` ns passed since the time a field holds (plus one)? A field that holds none says yes. -/
def since (f : Fld) (i n : Nat) (s : State) : Bool := rd f i s = 0 || rd f i s - 1 + n ≤ now s

/-- Note in a field the time from which a condition has held; 0 while it does not hold. -/
def noteSince (f : Fld) (i : Nat) (b : Bool) (s : State) : State :=
  if !b then wr f i 0 s else if rd f i s = 0 then wr f i (now s + 1) s else s

/-- Has the condition of such a field held for `n` ns? -/
def heldFor (f : Fld) (i n : Nat) (s : State) : Bool := rd f i s ≠ 0 && rd f i s - 1 + n ≤ now s

/-! ### Voltage (R309, R313) -/

/-- vid[P] of the fused table. -/
def vidOf (p : Nat) (s : State) : Nat :=
  match p with
  | 0 => rd PWR_VID0.vid_p0 0 s
  | 1 => rd PWR_VID0.vid_p1 0 s
  | 2 => rd PWR_VID0.vid_p2 0 s
  | 3 => rd PWR_VID0.vid_p3 0 s
  | 4 => rd PWR_VID1.vid_p4 0 s
  | _ => rd PWR_VID1.vid_p5 0 s

/-- Set voltage of a P-state, in steps of 2.5 mV above 0.600 V (R309). -/
def codeFor (p : Nat) (s : State) : Nat := ((vidOf p s : Int) + rdI PWR_TRIM_STATUS.trim 0 s).toNat

/-- The set voltage in mV. -/
def setMv (s : State) : Nat := 600 + rd HPWR.vcode 0 s * 5 / 2

/-- Does a reading in mV lie more than 50 mV below the set voltage (R325), whose steps are 2.5 mV? -/
def below50 (v : Nat) (s : State) : Bool := 2 * v + 100 < 1200 + 5 * rd HPWR.vcode 0 s

/-- The regulators in use, in table order: enabled and not left out (R326). -/
def vrUsed (s : State) : List Nat := (List.range 16).filter (fun r => rdB PWR_VR.enable r s && !rdB HVR.out r s)

/-- Regulators of VDD_CORE that receive VOUT_COMMAND (R326). -/
def vrSet (s : State) : List Nat := (vrUsed s).filter (fun r => rdB PWR_VR.set_v r s && rd PWR_VR.rail r s = 0)

/-- VOUT_COMMAND for a set voltage (R313, R326): PAGE, then the voltage in 0.1 mV. -/
def voutCmd (code : Nat) (s : State) : State :=
  let s := wr HPWR.vcode 0 code s
  let s := wr PWR_VCORE.v_set 0 (setMv s) s
  forEach (vrSet s) (fun r t => pmbus (rd PWR_VR.addr r t) [0x00, rd PWR_VR.page r t, 0x21, 6000 + 25 * code] t) s

/-! ### Steps (R313, R314) -/

/-- The phase of the P-state change in progress; step_busy reads 1 from its start until its voltage has settled, which in an up-step
is before the clock slews (R313). -/
def stepPhase (k : Nat) (s : State) : State := wrB PWR_STATUS.step_busy 0 (2 ≤ k && k ≠ 6) (wr HPWR.step 0 k s)

/-- A completed change is counted, and raises PSTATE_CHANGE at most 100 times a second (R313). -/
def pstateNote (old : Nat) (s : State) : State :=
  let p := rd PWR_STATUS.p_state 0 s
  if old = p then s
  else
    let s := inc cnt_PWR_pstate_changes 0 s
    let l := (getL LPWR.pc 0 s).filter (fun t => now s < t + 1000000000)
    if l.length < 100 then
      raise 0x0301 [old, p, rd PWR_STATUS.limiter 0 s] (setL LPWR.pc 0 (l ++ [now s]) s)
    else setL LPWR.pc 0 l s

/-- Is every detector clear, and has it been for 1 us (R314)? -/
def droopClear (s : State) : Bool :=
  (List.range 64).all (fun k => rd PWR_DROOP.level k s = 0) && since HPWR.clear 0 1000 s

/-- A held or paused down-step goes on once every detector has been clear for 1 us (R314). -/
def stepResume (s : State) : State :=
  let k := rd HPWR.step 0 s
  if (k = 1 || k = 3) && droopClear s then stepPhase 2 s else s

/-- An up-step is abandoned: droop (1), voltage timeout (2); any step: VR_ALERT_N (3) (R314, R319). -/
def stepAbandon (reason : Nat) (s : State) : State :=
  let k := rd HPWR.step 0 s
  let s := disarm HPWR.upto 0 s |> inc cnt_PWR_step_abandon 0 |> wr PWR_EVT.ev_abandon 0 1
    |> raise 0x0302 [rd HPWR.to 0 s, reason]
  if reason = 3 then stepPhase 0 s
  else if k = 6 then stepPhase 7 s
  else stepPhase 8 (voutCmd (codeFor (rd PWR_STATUS.p_state 0 s) s) s)

/-- A down-step begins: the clock first (R313); held while droop is active (R314). -/
def downStart (dest : Nat) (s : State) : State :=
  stepResume (stepPhase 1 (wr HPWR.to 0 dest (wr HPWR.old 0 (rd PWR_STATUS.p_state 0 s) s)))

/-- An up-step begins: the voltage first (R313). -/
def upStart (dest : Nat) (s : State) : State :=
  stepPhase 5 (voutCmd (codeFor dest s) (arm HPWR.upto 0 200000 (wr HPWR.to 0 dest (wr HPWR.old 0 (rd PWR_STATUS.p_state 0 s) s))))

/-- CLOCK_SLEW_DONE (R313, R314, R319). A step that waits for droop to clear slews first once it may. -/
def slewDone (s : State) : State :=
  let s := stepResume s
  match rd HPWR.step 0 s with
  | 2 => capNote (stepPhase 4 (voutCmd (codeFor (rd HPWR.to 0 s) s) (wr PWR_STATUS.p_state 0 (rd HPWR.to 0 s) s)))
  | 6 =>
    let s := wr PWR_STATUS.p_state 0 (rd HPWR.to 0 s) s |> wr HPWR.uplast 0 (rd HPWR.vt 0 s)
    capNote (pstateNote (rd HPWR.old 0 s) (stepPhase 0 s))
  | 7 => stepPhase 8 (voutCmd (codeFor (rd PWR_STATUS.p_state 0 s) s) s)
  | 9 => stepPhase 10 (voutCmd (codeFor 5 s) s)
  | _ => s

/-- Insert a number in rising order. -/
def insInt (x : Int) : List Int → List Int
  | [] => [x]
  | y :: l => if x ≤ y then x :: y :: l else y :: insInt x l

/-- Twice the median of readings; none without readings. -/
def median2 (l : List Int) : Option Int :=
  let m := l.foldl (fun a x => insInt x a) []
  if m = [] then none else some (m.getD ((m.length - 1) / 2) 0 + m.getD (m.length / 2) 0)

/-- Is the median of the 64 voltage sensors' latest readings within 10 mV of the set voltage (R313)? -/
def voltIn (s : State) : Bool :=
  match median2 ((List.range 64).map (fun k => (rd PWR_VSENSE.last k s : Int))) with
  | some m => decide ((m - (1200 + 5 * (rd HPWR.vcode 0 s : Int))).natAbs ≤ 20)
  | none => false

/-- VOLTAGE_SETTLED (R313). With a failed regulator that sets VDD_CORE an up-step's voltage does not arrive (R327). -/
def voltSettled (s : State) : State :=
  match rd HPWR.step 0 s with
  | 4 => pstateNote (rd HPWR.old 0 s) (stepPhase 0 s)
  | 5 =>
    if !voltIn s || (vrSet s).any (fun r => rdB PWR_VR_TEL.fault r s) then s
    else stepPhase 6 (wr HPWR.vt 0 (now s + 1) (disarm HPWR.upto 0 s))
  | 8 => stepPhase 0 s
  | 10 => pstateNote (rd HPWR.old 0 s) (stepPhase 0 s)
  | _ => s

/-- UP_STEP_VOLTAGE_TIMEOUT (R313). -/
def upTimeout (s : State) : State :=
  if rd HPWR.step 0 s = 5 then expire HPWR.upto 0 (fun t => stepAbandon 2 t) s else s

/-- Has the governor started (R310)? -/
def govRuns (s : State) : Bool := rdB HPWR.gov 0 s

/-- The governor starts once the image's records have been applied and every regulator in use has answered a read (R310). -/
def govNote (s : State) : State :=
  if rdB HPWR.run 0 s && (vrUsed s).all (fun r => rdB HVR.seen r s) then wr HPWR.gov 0 1 s else s

/-- P5 is forced by hardware (R319, R324): a step in progress is abandoned with reason 3, the clock averages 1.00 GHz by
removed edges, and the PLLs slew. A step abandoned before is not abandoned again (log entry 93); until the governor has started, limiter
reads 7 (R310). -/
def forceP5 (lim : Nat) (s : State) : State :=
  let k := rd HPWR.step 0 s
  let s := if k = 9 || k = 10 then s
    else
      let old := rd PWR_STATUS.p_state 0 s
      let s := if 2 ≤ k && k ≤ 6 then stepAbandon 3 s else s
      stepPhase 9 (wr HPWR.old 0 old (wr HPWR.to 0 5 s))
  capNote (wr PWR_STATUS.p_state 0 5 s |> wr PWR_STATUS.p_target 0 5 |> wr PWR_STATUS.limiter 0 (if govRuns s then lim else 7))

/-! ### Measured rates (R312, R328, R337) -/

/-- Frames received and buffer words written over the last 1 ms. -/
def lastMs (s : State) : Nat × Nat := rateOf LPWR.fast 1000000 s

/-- Frames received and corrected errors over the last 1 s. -/
def lastSec (s : State) : Nat × Nat := ((rateOf LPWR.fast 1000000000 s).1, (rateOf LPWR.slow 1000000000 s).1)

/-! ### The governor (R310 to R312) -/

/-- The limiters' proposals with their codes. -/
def proposals (s : State) : List (Nat × Nat) :=
  [(1, rd PWR_CTRL.pfast 0 s), (2, rd HPWR.demand 0 s), (3, rd HPWR.caps 0 s), (4, rd HPWR.therm 0 s), (5, rd HPWR.droopst 0 s)]

/-- Target and limiter (R311): the slowest proposal, and of equal ones the highest code; 0 where no term asks for less than P0. -/
def govTarget (s : State) : Nat × Nat :=
  if rdB PWR_STATUS.thermtrip 0 s then (5, 7)
  else if rdB PWR_STATUS.alert 0 s then (5, 6)
  else
    let t := ((proposals s).map (·.2)).foldl max 0
    (t, if t = 0 then 0 else (((proposals s).filter (fun x => x.2 = t)).map (·.1)).foldl max 0)

/-- GOVERNOR_TICK (R311). -/
def govTick (s : State) : State :=
  every HPWR.tgov 0 100000 (fun s =>
    let s := govNote (stepResume s)
    if !govRuns s then s
    else
      let (t, lim) := govTarget s
      let s := wr PWR_STATUS.p_target 0 t s |> wr PWR_STATUS.limiter 0 lim
      let p := rd PWR_STATUS.p_state 0 s
      let s := if 2 ≤ rd HPWR.step 0 s then s
        else if p < t then downStart t s
        else if t < p && since HPWR.uplast 0 1000000 s && droopClear s then upStart (p - 1) s
        else s
      capNote s) s

/-- DEMAND_UPDATE (R312). -/
def demandUpdate (s : State) : State :=
  if !rdB PWR_CTRL.perf_mode 0 s then wr HPWR.demand 0 0 s
  else every HPWR.tdem 0 1000000 (fun s =>
    let (fr, wo) := lastMs s
    let ok := fun k => decide (fr * 10 ≤ 8 * 128 * pMhz k * 1000) && decide (wo * 10 ≤ 8 * 512 * pMhz k * 1000)
    wr HPWR.demand 0 (([5, 4, 3, 2, 1].find? ok).getD 0) s) s

/-! ### Droop (R315 to R318) -/

/-- Detectors of a clock domain (R315). -/
def domDets (d : Nat) : List Nat :=
  if d < 17 then [3 * d, 3 * d + 1, 3 * d + 2]
  else if d < 21 then [51 + 3 * (d - 17), 52 + 3 * (d - 17), 53 + 3 * (d - 17)]
  else [63]

/-- Clock domain of a detector. -/
def detDom (k : Nat) : Nat := if k < 51 then k / 3 else if k < 63 then 17 + (k - 51) / 3 else 21

/-- A domain's stretch follows its detectors: the deepest of them. -/
def domNote (d : Nat) (s : State) : State :=
  let lv := ((domDets d).map (fun k => rd PWR_DROOP.level k s)).foldl max 0
  let old := rd HDRP.level d s
  if lv = old then s
  else
    let keep := (triples (getL LDRP.segs d s)).filter (fun x => now s ≤ x.2.1 + 10000000)
    let s := if old = 0 then s else setL LDRP.segs d (flat3 (keep ++ [(rd HDRP.since d s - 1, now s, old)])) s
    wr HDRP.level d lv (wr HDRP.since d (if lv = 0 then 0 else now s + 1) s)

/-- Time in ps that stretching has added to a domain in the last `w` ns (R316, R317): a level of k eighths makes up
k / (8 + k) of the time it is in force. -/
def stretchAdded (d w : Nat) (s : State) : Nat :=
  let t := now s
  let open_ := if rd HDRP.level d s = 0 then [] else [(rd HDRP.since d s - 1, t, rd HDRP.level d s)]
  ((triples (getL LDRP.segs d s) ++ open_).map (fun x =>
    (min x.2.1 t - max x.1 (t - w)) * 1000 * x.2.2 / (8 + x.2.2))).sum

/-- DROOP_CROSSING (R314, R316): detector `k` reads `below` mV below the set voltage. -/
def droopCross (k below : Nat) (s : State) : State :=
  let t1 := rd PWR_DROOP_CFG.t1_mv 0 s
  let t2 := rd PWR_DROOP_CFG.t2_mv 0 s
  let old := rd PWR_DROOP.level k s
  let lv := if t2 ≤ below then 2 else if t1 ≤ below then 1 else 0
  if 64 ≤ k || lv ≤ old then s
  else
    let s := if old = 0 then inc cnt_PWR_droop_l1 0 s else s
    let s := if lv = 2 then inc cnt_PWR_droop_l2 0 s else s
    let s := domNote (detDom k) (wr PWR_DROOP.level k lv s)
    match rd HPWR.step 0 s with
    | 2 => stepPhase 3 s
    | 5 => stepAbandon 1 s
    | 6 => stepAbandon 1 s
    | _ => s

/-- DROOP_CLEAR (R316): for 16 cycles detector `k` has read `below` mV below the set voltage, 5 mV or more above its threshold. -/
def droopBack (k below : Nat) (s : State) : State :=
  let old := rd PWR_DROOP.level k s
  let lv := if below + 5 ≤ rd PWR_DROOP_CFG.t1_mv 0 s then 0 else if below + 5 ≤ rd PWR_DROOP_CFG.t2_mv 0 s then 1 else 2
  if 64 ≤ k || old ≤ lv then s
  else
    let s := domNote (detDom k) (wr PWR_DROOP.level k lv s)
    if (List.range 64).all (fun j => rd PWR_DROOP.level j s = 0) then wr HPWR.clear 0 (now s + 1) s else s

/-- A supply excursion on a slice (R25). -/
def supplyExc (sl duty : Nat) (s : State) : State :=
  forEach (streamsOnSlice sl s) (fun n t => wr ADM_STREAM_STAT.exc_supply n 1 t) s |> raise 0x0905 [sl, duty]

/-- One domain's duty of the last 10 us (R317). -/
def dutyDom (d : Nat) (s : State) : State :=
  let a := stretchAdded d 10000 s
  let pct := a / 10000
  let s := forEach (domDets d) (fun k t => wr PWR_DROOP.duty_max k (max (rd PWR_DROOP.duty_max k t) (min pct 255)) t) s
  let e := rd HDRP.exc d s
  if 200000 < a then
    let s := wr HDRP.exc d 1 s
    if e ≠ 0 then s
    else
      let s := inc cnt_PWR_excursion 0 s
      if d < 17 then supplyExc d pct s
      else if d < 21 then
        forEach ((List.range 17).filter (fun sl => rdB SLC_STATUS.serving sl s)) (fun sl t => supplyExc sl pct t) s
      else s
  else if e = 0 then s
  else if e = 1 then wr HDRP.exc d (now s + 2) s
  else if e - 2 + 10000 ≤ now s then wr HDRP.exc d 0 s else s

/-- STRETCH_DUTY_EVAL (R317). -/
def dutyEval (s : State) : State := every HPWR.tduty 0 1000 (fun s => stepResume (forEach (List.range 22) dutyDom s)) s

/-- DROOP_STATE_UPDATE (R318); the duty a REPORT carries (R267) is taken with it. -/
def droopUpdate (s : State) : State :=
  every HPWR.tdroop 0 1000000 (fun s =>
    let top := ((List.range 22).map (fun d => stretchAdded d 1000000 s)).foldl max 0
    let s := wr HPWR.duty10 0 (((List.range 22).map (fun d => stretchAdded d 10000000 s)).foldl max 0 / 10000000) s
    let s := if rd PWR_DROOP_CFG.relief 0 s * 1000000 < top then
        wr HPWR.droopst 0 (min 5 (max (rd HPWR.droopst 0 s) (rd PWR_STATUS.p_state 0 s + 1))) s
      else s
    if 1000000 < top then wr HPWR.quiet 0 (now s + 1) s
    else if rd HPWR.droopst 0 s ≠ 0 && since HPWR.quiet 0 100000000 s && since HPWR.relax 0 100000000 s then
      wr HPWR.relax 0 (now s + 1) (subF HPWR.droopst 0 1 s)
    else s) s

/-! ### VR_ALERT_N (R319, R320) -/

/-- VR_ALERT_ASSERT (R319). -/
def vrAssert (s : State) : State :=
  if rdB HPWR.asserted 0 s then s
  else
    let s := wr HPWR.tas 0 (now s + 1) (wr HPWR.asserted 0 1 s)
    let s := disarm HPWR.alerth 0 (passTo (now s + 10) s) |> inc cnt_PWR_vr_alert 0 |> wr PWR_EVT.ev_alert 0 1
      |> raise 0x0303 [rd PWR_STATUS.p_state 0 s] |> wr PWR_STATUS.alert 0 1
    forceP5 (if rdB PWR_STATUS.thermtrip 0 s then 7 else 6) s

/-- VR_ALERT_DEASSERT (R320). -/
def vrDeassert (s : State) : State :=
  if !rdB HPWR.asserted 0 s then s
  else wr HPWR.asserted 0 0 s |> wr HPWR.tde 0 (now s + 1) |> arm HPWR.alerth 0 (rd PWR_THERM.alert_hold 0 s * 1000000)

/-- ALERT_HOLD_EXPIRY (R320). -/
def alertEnd (s : State) : State :=
  expire HPWR.alerth 0 (fun s =>
    capNote (wr PWR_STATUS.alert 0 0 s |> wr PWR_EVT.ev_alert 0 1
      |> raise 0x0304 [(rd HPWR.tde 0 s - rd HPWR.tas 0 s) / 1000])) s

/-! ### Temperature (R321 to R324) -/

/-- The thermal sensors that are valid. -/
def thermValid (s : State) : List Nat := (List.range 32).filter (fun k => rdB PWR_TEMP.valid k s)

/-- A sensor is excluded (R321). -/
def thermExclude (k : Nat) (s : State) : State :=
  wr PWR_TEMP.valid k 0 s |> wr HTHM.since k 0 |> wr PWR_EVT.ev_sensor 0 1 |> raise 0x0309 [1, k, wI (rdI PWR_TEMP.temp k s)]

/-- One sensor against twice the median (R321). -/
def thermOne (m2 : Option Int) (k : Nat) (s : State) : State :=
  let t := rdI PWR_TEMP.temp k s
  let inside := decide (-280 ≤ t) && decide (t ≤ 640)
  let agree := inside && (match m2 with | some m => decide (2 * t - m ≤ 120) && decide (m - 2 * t ≤ 120) | none => false)
  if rdB PWR_TEMP.valid k s then
    if !inside then thermExclude k s
    else
      let s := noteSince HTHM.since k (!agree) s
      if heldFor HTHM.since k 1000000000 s then thermExclude k s else s
  else
    let s := noteSince HTHM.since k agree s
    if heldFor HTHM.since k 10000000000 s then wr PWR_TEMP.valid k 1 (wr HTHM.since k 0 s) else s

/-- tmax, the sensor that gives it, and the count of valid sensors (R321), and the specification range (R323). -/
def thermTop (s : State) : State :=
  let v := thermValid s
  let s := wr PWR_THERM_STATUS.valid_count 0 v.length s
  match v with
  | [] => s
  | k0 :: _ =>
    let hot := v.foldl (fun b k => if rdI PWR_TEMP.temp b s < rdI PWR_TEMP.temp k s then k else b) k0
    let t := rdI PWR_TEMP.temp hot s
    let s := wrI PWR_THERM_STATUS.tmax 0 t s |> wr PWR_THERM_STATUS.hottest 0 hot
    if !rdB PWR_STATUS.temp_over_spec 0 s && (500 < t || t < -220) then
      wr PWR_STATUS.temp_over_spec 0 1 s |> wr PWR_EVT.ev_thermal 0 1 |> raise 0x0307 [hot, wI t]
    else if rdB PWR_STATUS.temp_over_spec 0 s && -212 ≤ t && t ≤ 488 then wr PWR_STATUS.temp_over_spec 0 0 s
    else s

/-- Do the service complexes run (R324, R334, R357): has a core been put in service, and neither sleeps, restarts nor is held? -/
def cxRun (s : State) : Bool :=
  !rdB HRED.hold 0 s && !rdB HRED.restart 0 s && rd PWR_CX.state 0 s = 0 && [0, 1, 2, 3].any (fun c => rdB INTC_CORE.in_service c s)

/-- The comparator finds a valid sensor at 135 °C or more (R324). -/
def thermTrip (k : Nat) (t : Int) (s : State) : State :=
  if 32 ≤ k || !rdB PWR_TEMP.valid k s || t < 540 || rdB PWR_STATUS.thermtrip 0 s then s
  else
    let s := { s with pins := { s.pins with thermtripN := false } }
    let s := wr PWR_STATUS.thermtrip 0 1 s
    forceP5 7 (if cxRun s then raise 0x0308 [k, wI t] (wr PWR_EVT.ev_thermal 0 1 s) else s)

/-- THERMAL_SENSOR_READ (R321): the readings of the sensors in order, in 0.25 °C units. A sensor never read before is valid
from its first reading inside the range. -/
def thermRead (rs : List Int) (s : State) : State :=
  every HPWR.tsens 0 100000 (fun s =>
    let ks := (List.range 32).filter (fun k => k < rs.length)
    let s := forEach ks (fun k t =>
      let t := wrI PWR_TEMP.temp k (rs.getD k 0) t
      if rdB HTHM.seen k t then t else wr HTHM.seen k 1 (wr PWR_TEMP.valid k 1 t)) s
    let m2 := median2 (((thermValid s).map (fun k => rdI PWR_TEMP.temp k s)).filter (fun t => decide (-280 ≤ t) && decide (t ≤ 640)))
    let s := thermTop (forEach ((List.range 32).filter (fun k => rdB HTHM.seen k s)) (thermOne m2) s)
    forEach (thermValid s) (fun k t => thermTrip k (rdI PWR_TEMP.temp k t) t) s) s

/-- THERMTRIP (R324): the comparator's own reading of a sensor. -/
def thermComparator (k : Nat) (t : Int) (s : State) : State := thermTrip k t (if k < 32 then wrI PWR_TEMP.temp k t s else s)

/-- THERM_STATE_UPDATE (R322). A throttle that began with a lack of valid sensors counts from there (log entry 177). -/
def thermUpdate (s : State) : State :=
  every HPWR.ttherm 0 1000000 (fun s =>
    let few := decide ((thermValid s).length < 24)
    let t := rdI PWR_THERM_STATUS.tmax 0 s
    let lim : Int := 4 * rd PWR_THERM.throttle_temp 0 s
    let hot := rd PWR_THERM_STATUS.valid_count 0 s ≠ 0 && lim ≤ t
    let s := if !hot then s
      else
        let s := if rdB HPWR.thr 0 s then s
          else wr HPWR.thr 0 1 s |> wr HPWR.thr0 0 (now s + 1) |> wr PWR_EVT.ev_thermal 0 1
            |> raise 0x0305 [rd PWR_THERM_STATUS.hottest 0 s, wI t]
        inc cnt_PWR_throttle_ms 0 (wr HPWR.therm 0 (min 5 (max (rd HPWR.therm 0 s) (rd PWR_STATUS.p_state 0 s + 1))) s)
    let s := noteSince HPWR.cool 0 (decide (t < lim - 12)) s
    if few then wr HPWR.therm 0 5 (if rd HPWR.thr0 0 s = 0 then wr HPWR.thr0 0 (now s + 1) s else s)
    else if rd HPWR.therm 0 s ≠ 0 && heldFor HPWR.cool 0 100000000 s && since HPWR.tcool 0 10000000 s then
      let s := wr HPWR.tcool 0 (now s + 1) (subF HPWR.therm 0 1 s)
      if rd HPWR.therm 0 s = 0 then
        wr HPWR.thr 0 0 s |> wr HPWR.thr0 0 0 |> wr PWR_EVT.ev_thermal 0 1 |> raise 0x0306 [(now s - (rd HPWR.thr0 0 s - 1)) / 1000000]
      else s
    else s) s

/-! ### Voltage sensors (R325) -/

/-- The lowest reading since the last read, 0 standing for none. -/
def lowest (old v : Nat) : Nat := if old = 0 then v else min old v

/-- VOLTAGE_SENSOR_READ (R325): the readings of the sensors in order, mV. -/
def voltRead (rs : List Nat) (s : State) : State :=
  every HPWR.tvs 0 1000 (fun s =>
    forEach ((List.range 64).filter (fun k => k < rs.length)) (fun k t =>
      let v := rs.getD k 0
      let t := wr PWR_VSENSE.last k v t |> wr PWR_VSENSE.min k (lowest (rd PWR_VSENSE.min k t) v)
        |> wr PWR_VCORE.v_min 0 (lowest (rd PWR_VCORE.v_min 0 t) v)
      let t := noteSince HVS.low k (below50 v t) t
      if heldFor HVS.low k 10000 t && limDue 0x030B 0 1000000000 t then
        raiseOnce 0x030B 0 1000000000 [k, v] (wr PWR_EVT.ev_sensor 0 1 t)
      else t) s) s

/-! ### Regulators, draw and the cap (R326, R327, R336) -/

/-- Largest power of a rail, mW (R327, R507). -/
def railMax (rail : Nat) (s : State) : Nat :=
  match rail with
  | 0 => 1150 * (1200 + 5 * rd HPWR.vcode 0 s) / 2
  | 1 => 90000
  | 2 => 300000
  | 3 => 72000
  | 4 => 1500
  | 5 => 5400
  | _ => 1650

/-- Draw (R326, R327): a rail with a failed regulator counts at its largest power. -/
def drawNow (s : State) : Nat :=
  ((List.range 7).map (fun rail =>
    let l := (vrUsed s).filter (fun r => rd PWR_VR.rail r s = rail)
    if l.any (fun r => rdB PWR_VR_TEL.fault r s) then railMax rail s / 1000
    else (l.map (fun r => rd PWR_VR_TEL.power r s)).sum)).sum

/-- cap_state and cap_unmet follow a new draw (R336). -/
def capUpdate (s : State) : State :=
  let d := rd PWR_DRAW.draw 0 s
  let cap := rd PWR_DRAW.dev_cap 0 s
  let cs := rd HPWR.caps 0 s
  let new := if cap < d then min 5 (max cs (rd PWR_STATUS.p_state 0 s + 1))
    else if d + rd PWR_CAP.up_margin 0 s ≤ cap && cs ≠ 0 && since HPWR.capt 0 10000000 s then cs - 1 else cs
  let s := if new = cs then s else wr HPWR.caps 0 new (wr HPWR.capt 0 (now s + 1) s)
  let s := noteSince HPWR.under 0 (decide (d ≤ cap)) (noteSince HPWR.over 0 (decide (cap < d)) s)
  if !rdB PWR_STATUS.cap_unmet 0 s && rd PWR_STATUS.p_state 0 s = 5 && heldFor HPWR.over 0 10000000 s then
    wr PWR_STATUS.cap_unmet 0 1 s |> wr PWR_EVT.ev_cap 0 1 |> raise 0x030A [d, cap]
  else if rdB PWR_STATUS.cap_unmet 0 s && heldFor HPWR.under 0 10000000 s then wr PWR_STATUS.cap_unmet 0 0 s
  else s

/-- Fault bits of STATUS_WORD, as PMBus places them (log entry 96): communication, temperature, input under-voltage, output
over-current, output over-voltage. -/
def vrFaultBits (w : Nat) : Bool := [1, 2, 3, 4, 5].any (bitOf w)

/-- A read through the PMBus of a regulator. -/
def vrRead (r code : Nat) (s : State) : State := pmbus (rd PWR_VR.addr r s) [code] s

/-- What a regulator that the readings leave out answers (log entry 178): nothing. -/
def vrSilent (r : Nat) : VrRead := ⟨r, true, 0, 0, 0, [false, false, false]⟩

/-- One regulator's poll (R326, R327): VOUT_MODE until it has answered that, then READ_VOUT, READ_IOUT and STATUS_WORD. -/
def vrPoll (x : VrRead) (s : State) : State :=
  let r := x.vr
  if 16 ≤ r || !rdB PWR_VR.enable r s then s
  else
    let s := if rdB HVR.known r s then s
      else
        let s := vrRead r 0x20 s
        if x.acks.all not then s
        else
          let s := wr HVR.known r 1 s
          if x.linear then s else inc cnt_PWR_pmbus_err 0 (wr HVR.out r 1 s)
    if rdB HVR.out r s then s
    else
      let s := vrRead r 0x79 (vrRead r 0x8C (vrRead r 0x8B s))
      let (bad, hit) := x.acks.foldl (fun a ok =>
        let n := if ok then 0 else a.1 + 1
        (min n 3, a.2 || 3 ≤ n)) (rd HVR.bad r s, false)
      let good := x.acks.all id
      let fail := hit || (good && vrFaultBits x.status)
      let s := wr HVR.bad r bad s
      let s := if good then wr HVR.seen r 1 (wr PWR_VR_TEL.power r (min (x.mv * x.ma / 1000000) 2047) s) else s
      if fail then
        if rdB PWR_VR_TEL.fault r s then s
        else wr PWR_VR_TEL.fault r 1 s |> inc cnt_PWR_pmbus_err 0 |> wr PWR_EVT.ev_pmbus 0 1 |> raise 0x030F [r, x.status]
      else if good then wr PWR_VR_TEL.fault r 0 s
      else s

/-- A new draw: the figures that follow it. -/
def drawSet (d : Nat) (s : State) : State := capNote (capUpdate (capNote (wr PWR_DRAW.draw 0 (min d 2047) s)))

/-- One regulator is read, and draw follows (R326). -/
def vrPollOne (xs : List VrRead) (r : Nat) (s : State) : State :=
  let s := vrPoll ((xs.find? (fun x => x.vr = r)).getD (vrSilent r)) s
  let s := wrB PWR_STATUS.on_worst_case 0 ((vrUsed s).any (fun r => rdB PWR_VR_TEL.fault r s)) s
  drawSet (drawNow s) s

/-- REGULATOR_POLL (R326, R327): every enabled regulator, in table order; the operand holds what they answer. -/
def vrPolls (xs : List VrRead) (s : State) : State :=
  every HPWR.tvr 0 10000000 (fun s => govNote (forEach (vrUsed s) (vrPollOne xs) s)) s

/-! ### Ageing trim (R328) -/

/-- May a trim step be taken now? -/
def trimFree (s : State) : Bool :=
  !rdB PWR_STATUS.alert 0 s && !rdB PWR_STATUS.thermtrip 0 s && !rdB PWR_STATUS.step_busy 0 s

/-- A trim change: one VOUT_COMMAND, for the state whose voltage the device is at, which in an up-step whose clock slews is the target's. -/
def trimTo (t : Int) (s : State) : State :=
  let s := wrI PWR_TRIM_STATUS.trim 0 t s
  voutCmd (codeFor (if rd HPWR.step 0 s = 6 then rd HPWR.to 0 s else rd PWR_STATUS.p_state 0 s) s) s

/-- Traffic is flowing. -/
def trafficFlows (s : State) : Bool := decide (128 * pMhz (rd PWR_STATUS.p_state 0 s) * 10000 ≤ (lastSec s).1)

/-- TRIM_PERIOD (R328): `margin` is the lowest report of the period. -/
def trimPeriod (margin : Nat) (s : State) : State :=
  every HPWR.ttrim 0 (rd PWR_TRIM_CFG.trim_period 0 s * 60000000000) (fun s =>
    let s := wr PWR_TRIM_STATUS.margin_min 0 (min margin 255) s
    let m := rd PWR_TRIM_STATUS.margin_min 0 s
    let t := rdI PWR_TRIM_STATUS.trim 0 s
    let stepped := fun (u : State) => raise 0x030C [wI (rdI PWR_TRIM_STATUS.trim 0 u), m] (inc cnt_PWR_trim_steps 0 u)
    if !rdB PWR_CTRL.trim_enable 0 s then s
    else if m < rd PWR_VID1.margin_lo 0 s then
      if t = 16 then raise 0x030E [m] (wr PWR_EVT.ev_trim 0 1 s)
      else if trimFree s then stepped (wr PWR_TRIM_STATUS.validating 0 0 (trimTo (t + 1) s)) else s
    else if !rdB PWR_TRIM_STATUS.validating 0 s && rd PWR_VID1.margin_hi 0 s ≤ m && decide (-16 < t)
        && decide (rdI PWR_TRIM_STATUS.trim_floor 0 s < t - 1) && trafficFlows s
        && decide ((lastSec s).2 < rd PWR_TRIM_CFG.ce_limit 0 s) && trimFree s then
      let base := (lastSec s).2
      stepped (wr PWR_TRIM_STATUS.validating 0 1 (wr HPWR.base 0 base (wr HPWR.vstart 0 (now s + 1) (trimTo (t - 1) s))))
    else s) s

/-- TRIM_VALIDATION (R328). -/
def trimValidate (s : State) : State :=
  if !rdB PWR_TRIM_STATUS.validating 0 s then s
  else every HPWR.tval 0 1000000000 (fun s =>
    let ce := (lastSec s).2
    let base := rd HPWR.base 0 s
    let t := rdI PWR_TRIM_STATUS.trim 0 s
    if max (2 * base) (rd PWR_TRIM_CFG.ce_limit 0 s) < ce then
      if !trimFree s then s
      else
        trimTo (t + 1) s |> wrI PWR_TRIM_STATUS.trim_floor 0 t |> wr PWR_TRIM_STATUS.validating 0 0
          |> inc cnt_PWR_trim_reverts 0 |> wr PWR_EVT.ev_trim 0 1 |> raise 0x030D [wI (t + 1), ce, base]
    else if since HPWR.vstart 0 (rd PWR_TRIM_CFG.validate 0 s * 60000000000) s then wr PWR_TRIM_STATUS.validating 0 0 s
    else s) s

/-- The image's records have been applied (R310): trim is trim_init. -/
def trimInit (s : State) : State :=
  let t := clampInt (-16) 16 (rdI PWR_TRIM_CFG.trim_init 0 s)
  govNote (wr HPWR.run 0 1 (trimTo t s))

end Sys2Proof.Machine
end

