-- ==== Sys2Proof/Machine/Red.lean ====
section
/-!
DEFINITION. Redundancy and fail-over: engine fences (R102 to R106), slices at rest (R329 to R331), slices that fail and their
takeover up to the load (R360 to R369), PLL locks (R345), the complexes at rest (R334), lockstep, diagnosis, the gap, autonomous
hold and warm restarts (R348 to R359).
-/

namespace Sys2Proof.Machine

/-! ### Ports of a slice -/

/-- The ports whose macros a slice serves. -/
def slicePorts (sl : Nat) (s : State) : List Nat :=
  (List.range 1024).filter (fun p => portExists p s && rd PRT_MACRO_STATUS.serving_slice (p / 16) s = sl)

/-- Macros a slice serves. -/
def sliceMacros (sl : Nat) (s : State) : List Nat := (List.range 64).filter (fun m => rd PRT_MACRO_STATUS.serving_slice m s = sl)

/-- Does a stream of this device in any state name a port (R369)? -/
def anyStreamOn (ps : List Nat) (s : State) : Bool :=
  (busyStreams s).any (fun n => (hopKeys n s).any (fun k => ps.any (fun p => hopUses k p s)))

/-- Slices whose ports a frame, stream or link state keeps from Winter (R331). -/
def winterFree (sl : Nat) (s : State) : Bool :=
  let ps := slicePorts sl s
  ps.all (fun p => (!rdB PRT_PORT_CFG.admin_up p s && !rdB PRT_PORT_STATUS.link_up p s) || rd PRT_PORT_STATUS.state p s = 5)
    && !anyStreamOn ps s && ps.all (fun p => queuesEmpty p s)

/-- May slice `sl` enter Winter now (R331, R333)? -/
def winterOk (sl : Nat) (s : State) : Bool :=
  sl ≠ 16 && rdB PWR_CTRL.slice_winter_en 0 s && rd PWR_SLICE.max_depth sl s = 2 && winterFree sl s

/-- Does a wake cause of R331 hold for a slice in Winter? -/
def winterWake (sl : Nat) (s : State) : Bool :=
  let ps := slicePorts sl s
  rd PWR_SLICE.max_depth sl s < 2 ||
    ps.any (fun p => let st := rd PRT_PORT_STATUS.state p s; st = 3 || st = 4 || st = 6 || st = 7 || !queuesEmpty p s) || anyStreamOn ps s

/-- Does a slice hold a frame in its head buffer, engines, resequencers or egress engine (R330)? -/
def sliceBusy (sl : Nat) (s : State) : Bool :=
  (touched FRM.live s).any (fun f => rd FRM.slice f s = sl && (rd FRM.stage f s < 3 || rd FRM.head f s ≠ 0))
    || (touched HSCH.fly s ++ touched HSCH.sel s).any (fun p => servSlice p s = sl && (rd HSCH.fly p s ≠ 0 || rd HSCH.sel p s ≠ 0))

/-- SLICE_AUTUMN_ENTRY (R330): the slice holds no frame for 1 us. -/
def autumnEntry (sl : Nat) (s : State) : State :=
  if !rdB PWR_CTRL.auto_autumn 0 s || rd PWR_SLICE.max_depth sl s = 0 || !rdB SLC_STATUS.serving sl s || rd PWR_SLICE.state sl s ≠ 0
      || sliceBusy sl s then s
  else wr PWR_SLICE.state sl 1 (pass 1000 s)

/-- SLICE_WINTER_ENTRY (R331). -/
def winterEntry (sl : Nat) (s : State) : State :=
  if winterOk sl s && rdB SLC_STATUS.serving sl s && rd PWR_SLICE.state sl s < 2 && !sliceBusy sl s then wr PWR_SLICE.state sl 2 s else s

/-- THAW_START (R331): where a wake cause holds. -/
def thawStart (sl : Nat) (s : State) : State :=
  if sl < 16 && rdB SLC_STATUS.serving sl s && winterWake sl s then thawBegin sl s else s

/-- What a slice at rest does of itself after a command (R330, R331): an Autumn slice that holds a frame is awake, and a Winter
slice with a wake cause thaws. -/
def sliceNote (s : State) : State :=
  forEach (touched PWR_SLICE.state s) (fun sl t =>
    if rd PWR_SLICE.state sl t = 1 && sliceBusy sl t then wr PWR_SLICE.state sl 0 t else thawStart sl t) s

/-! ### A slice fails (R360, R363 to R368) -/

/-- A frame whose slice fails goes on arriving at the MAC, for its counts alone (R364). -/
def rxAway (port f : Nat) (s : State) : State :=
  if rd HPRT.cur port s ≠ f + 1 then s
  else
    let tag := getL LFRM.rawtag f s
    macKeep port (if tag = [] then 2 else 3) (tag ++ getL LFRM.bytes f s) (wr HPRT.cur port 0 s)

/-- A frame of the failed slice that is not enqueued is dropped, and its cells freed (R364). -/
def gapDrop (f : Nat) (s : State) : State :=
  let port := rd FRM.port f s
  let s := inc cnt_RED_gap_rx_drop port (groupRelease f (headRelease f s))
  let s := rxAway port f s
  let s := freeCells f (setL LFRM.mirror f [] s)
  epiEnd 2 f port (eraseInst gFRM lFRM f s)

/-- A started copy is ended with a corrupted FCS (R364). -/
def gapAbort (p : Nat) (s : State) : State :=
  if rd HSCH.fly p s = 0 then s else txCut p (inc cnt_RED_gap_tx_abort p s)

/-- A frame still being received, with copies already enqueued: started ones are ended, the others dropped with it (R364). -/
def gapRx (f : Nat) (s : State) : State :=
  let port := rd FRM.port f s
  let adm := rdB FRM.adm f s
  let s := rxAway port f s
  let s := wr FRM.err f 1 (wr FRM.ended f 1 (headRelease f s))
  let ds := dscOf f s
  let flying := ds.any (fun d => rdB DSC.started d s)
  let s := forEach ds (fun d t => if rdB DSC.started d t then gapAbort (rd DSC.eg d t) t else dscEnd d t) s
  if flying then s
  else inc cnt_RED_gap_rx_drop port (frmDone f (if adm then faultLoss (rd FRM.stream f s) s else s))

/-- A frame leaves the resequencing context that holds it, without being enqueued. -/
def ctxDrop (f : Nat) (s : State) : State :=
  forEach (((mkind s.lists LRSQ.slots.id).filter (fun e => e.2.any (fun x => x % 2 ^ 32 = f))).map (·.1))
    (fun c t => subF FAB_RSQ.held c 1 (setL LRSQ.slots c ((getL LRSQ.slots c t).filter (fun x => x % 2 ^ 32 ≠ f)) t)) (wr FRM.stage f 3 s)

/-- A frame whose result has been released, and which a resequencing context holds before enqueue (R364, R256): it is dropped, and an
admitted one counts as lost; copies of it made before wait where its bytes have all arrived. -/
def gapHeld (f : Nat) (s : State) : State :=
  let port := rd FRM.port f s
  let s := inc cnt_RED_gap_rx_drop port (if rdB FRM.adm f s then faultLoss (rd FRM.stream f s) s else s)
  let s := ctxDrop f s
  if rdB FRM.ended f s then frmDone f (headRelease f s)
  else
    let s := wr FRM.err f 1 (wr FRM.ended f 1 (headRelease f (rxAway port f s)))
    frmDone f (forEach (dscOf f s) (fun d t => if rdB DSC.started d t then gapAbort (rd DSC.eg d t) t else dscEnd d t) s)

/-- Frames of the failed slice at give-up (R364). -/
def giveUpFrames (sl : Nat) (ps : List Nat) (s : State) : State :=
  let s := forEach ps (fun p t => gapAbort p (wr HSCH.sel p 0 t)) s
  let fs := (touched FRM.live s).filter (fun f => rd FRM.slice f s = sl)
  let s := forEach fs (fun f t =>
    if !rdB FRM.live f t then t
    else if rd FRM.stage f t < 3 then gapDrop f t
    else if rd FRM.stage f t = 4 then gapHeld f t
    else if !rdB FRM.ended f t then gapRx f t
    else headRelease f t) s
  let slots := (List.range 64).map (64 * sl + ·)
  let s := forEach slots (fun sc t => setL LSLC.skipped sc [] (wr SLC_PORT_SEQ.oldest sc (rd SLC_PORT_SEQ.next_seq sc t) t)) s
  let s := forEach ((List.range 8).map (8 * sl + ·)) (fun k t => wr HSLC.rtest k 0 (wr SLC_ENG_STAT.inflight k 0 t)) s
  setL LSLC.heads sl [] (wr HSLC.rsv sl 0 (wr HSLC.shr sl 0 (wr SLC_HEAD_STATUS.used sl 0 s)))

/-- Step 1 of R363: slice `sl` is cut off; its ports pause; the episode begins. -/
def giveUp (sl cause : Nat) (s : State) : State :=
  let ps := slicePorts sl s
  let str := streamsOnSlice sl s
  let s := wr HSLC.cause sl cause s |> wr HSLC.give sl (now s + 1) |> wr SLC_STATUS.serving sl 0 |> wr SLC_STATUS.failed sl 1
    |> setFBit RED_SPARE_STATUS.failed 0 sl |> wr RED_TAKEOVER_LOG.slice 0 sl |> wr RED_TAKEOVER_LOG.cause 0 cause
  let s := epiStart 1 sl sl str (forEach ps (fun p t => wr HPRT.gap p 1 t) s)
  giveUpFrames sl ps s

/-- The macros' ports are declared down and stay in step 1 of R60 (R367). -/
def unserve (ps : List Nat) (s : State) : State :=
  forEach ps (fun p t =>
    let t := wr HPRT.unserved p 1 (wr HPRT.gap p 0 t)
    if rdB PRT_PORT_STATUS.link_up p t then linkDown p 6 t else bringStop p t) s

/-- A takeover of slice `sl` fails at a step: 1 Thaw, 2 load, 3 self-test, 4 sequencers, 5 no spare (R367). -/
def takeoverFail (sl step : Nat) (ps : List Nat) (s : State) : State :=
  let s := if step = 5 then s
    else if step = 4 then wr RED_SPARE_STATUS.spare_state 0 0 (wr PWR_SLICE.state 16 2 s)
    else wr RED_SPARE_STATUS.spare_state 0 3 (wr PWR_SLICE.state 16 2 (setFBit RED_SPARE_STATUS.failed 0 16 s))
  let s := epiEnd 1 sl sl (unserve ps s)
  wr RED_ALARM.spare_fail 0 1 s |> inc cnt_RED_takeover_fail 0 |> wr RED_EVT.ev_takeover_fail 0 1
    |> wr RED_TAKEOVER_LOG.result 0 1 |> wr RED_TAKEOVER_LOG.fail_step 0 step |> wr RED_TAKEOVER_LOG.duration 0 0
    |> raise 0x0806 [sl, rd HSLC.cause sl s, step]

/-- A slice fails itself (R360): give-up, the peers held, the macros mapped to SL16, SL16's Thaw begun; without a spare R367
applies at once (R367, R368). -/
def sliceFail (sl cause : Nat) (s : State) : State :=
  if !rdB SLC_STATUS.serving sl s then s
  else
    let ps := slicePorts sl s
    let spare := sl ≠ 16 && rdB RED_CTRL.takeover_enable 0 s && rd RED_SPARE_STATUS.spare_state 0 s = 0
    let s := giveUp sl cause s
    let s := wr PWR_SLICE.state sl 2 (disarm HSLC.thaw sl s)
    if !spare then
      takeoverFail sl 5 ps (if sl = 16 then wr RED_SPARE_STATUS.spare_state 0 3 (wr RED_SPARE_STATUS.serving_for 0 31 s) else s)
    else
      let s := forEach ps (fun p t => ordSet p 0x04 (rd RED_CTRL.qh_duration 0 t) t) s
      let s := forEach (sliceMacros sl s) (fun m t => wr PRT_MACRO_STATUS.serving_slice m 16 t) s
      wr RED_SPARE_STATUS.spare_state 0 1 s |> wr RED_SPARE_STATUS.serving_for 0 sl |> wr PWR_SLICE.state 16 3

/-- The slice a takeover is in progress for, if any. -/
def takenOver (s : State) : Option Nat :=
  if rd RED_SPARE_STATUS.spare_state 0 s = 1 then some (rd RED_SPARE_STATUS.serving_for 0 s) else none

/-- TAKEOVER_FAILURE (R367) at step 1 to 4. -/
def takeoverFailure (step : Nat) (s : State) : State :=
  match takenOver s with
  | none => s
  | some sl =>
    if step < 1 || 4 < step then s
    else takeoverFail sl step (slicePorts 16 s) (wr RED_SPARE_STATUS.serving_for 0 31 s)

/-! ### Engine fences (R102 to R106) -/

/-- Frames in flight in an engine. -/
def engFrames (sl e : Nat) (s : State) : List Nat :=
  (touched FRM.live s).filter (fun f => rd FRM.slice f s = sl && rd FRM.stage f s = 1 && !rdB FRM.redisp f s && rd FRM.eng f s = e
    && rd FRM.epoch f s = rd SLC_ENG_STAT.epoch (sl * 8 + e) s)

/-- A frame to be dispatched again has no result (R103): its hold on a group ends with the old one (R166). -/
def unlook (f : Nat) (s : State) : State :=
  groupRelease f s |> wr FRM.looked f 0 |> wr FRM.res f 0 |> wr FRM.adm f 0 |> wr FRM.nh f 0 |> wr FRM.node f 0 |> wr FRM.queue f 0
    |> wr FRM.kpush f 0 |> wr FRM.tel f 0 |> wr FRM.sampled f 0 |> wr FRM.pol f 0

/-- One in-flight frame of a fenced engine (R103): queued for re-dispatch where its head-buffer entry is held, else dropped; its
number is released in its place. -/
def fenceFrame (f : Nat) (s : State) : State :=
  let sc := rd FRM.slice f s * 64 + rd FRM.port f s % 64
  if rd FRM.head f s ≠ 0 then inc cnt_SLC_fence_redispatch sc (wr FRM.redisp f 1 (unlook f s))
  else
    let s := if rdB FRM.err f s then s else inc cnt_SLC_fence_drop sc s
    wr FRM.stage f 2 (asDrop f s)

/-- An engine is fenced (R103, R105): cause 1 working memory, 2 program or action parity, 3 watchdog, 4 heartbeat. -/
def fence (sl e cause : Nat) (s : State) : State :=
  let k := sl * 8 + e
  if 8 ≤ e || !rdB SLC_STATUS.serving sl s || rdB SLC_ENG_STAT.fenced k s then s
  else
    let fs := engFrames sl e s
    let third := 2 ≤ ((List.range 8).filter (fun j => rdB SLC_ENG_STAT.fenced (sl * 8 + j) s)).length
    let re := if third then 0 else (fs.filter (fun f => rd FRM.head f s ≠ 0)).length
    let dr := if third then 0 else (fs.filter (fun f => rd FRM.head f s = 0 && !rdB FRM.err f s)).length
    let s := wr SLC_ENG_STAT.fenced k 1 s |> wr SLC_ENG_STAT.cause k cause |> addF SLC_ENG_STAT.epoch k 1
      |> wr SLC_ENG_STAT.inflight k 0 |> wr HSLC.rtest k 0 |> setFBit SLC_STATUS.fenced sl e
      |> wr SLC_FENCE_LOG.engine sl e |> wr SLC_FENCE_LOG.cause sl cause |> wr SLC_FENCE_LOG.redispatched sl re
      |> wr SLC_FENCE_LOG.dropped sl dr |> addF SLC_FENCE_LOG.fences sl 1 |> wr SLC_EVT.ev_fence sl 1
      |> raise 0x1001 [sl, e, cause, re, dr]
    if third then sliceFail sl 1 s else forEach fs fenceFrame s

/-- ENGINE_WATCHDOG (R102): 1,000 core cycles have passed since the oldest dispatch in the engine. -/
def engWatchdog (sl e : Nat) (s : State) : State :=
  match engFrames sl e s with
  | [] => s
  | f :: l =>
    let f := l.foldl (fun a b => if rd FRM.disp b s < rd FRM.disp a s then b else a) f
    fence sl e 3 (passTo (rd FRM.disp f s - 1 + ceilDiv 1000000 (pMhz (rd PWR_STATUS.p_state 0 s))) s)

/-- ENGINE_MEMORY_ERROR (R102). -/
def engMemory (sl e : Nat) (parity : Bool) (s : State) : State := fence sl e (if parity then 2 else 1) s

/-- HEARTBEAT (R102): every hb_period a cell goes through each engine in service; `bad` engines answer wrongly or not at all. -/
def heartbeat (sl : Nat) (bad : List Nat) (s : State) : State :=
  if !rdB SLC_STATUS.serving sl s || sliceAsleep sl s then s
  else every HSLC.hb sl (rd SLC_HB_CFG.hb_period sl s * 1000) (fun s => forEach bad (fun e t => fence sl e 4 t) (autumnWake sl s)) s

/-- ENGINE_UNFENCE (R106): fenced engines named in the mask are cleared and tested. -/
def engUnfence (sl mask : Nat) (s : State) : State :=
  forEach (List.range 8) (fun e t =>
    if mask.testBit e && rdB SLC_ENG_STAT.fenced (sl * 8 + e) t then wr HSLC.rtest (sl * 8 + e) 1 t else t) s

/-- ENGINE_RETURN_TEST_DONE (R106). -/
def engTested (sl e : Nat) (ok : Bool) (s : State) : State :=
  let k := sl * 8 + e
  if 8 ≤ e || !rdB HSLC.rtest k s then s
  else
    let s := wr HSLC.rtest k 0 s
    if !ok then wr SLC_ENG_STAT.cause k 4 s
    else wr SLC_ENG_STAT.fenced k 0 s |> wr SLC_ENG_STAT.cause k 0 |> clrFBit SLC_STATUS.fenced sl e |> wr SLC_EVT.ev_fence sl 1
      |> raise 0x1002 [sl, e, rd SLC_ENG_STAT.epoch k s]

/-- THAW_TIMEOUT (R331, R360). -/
def thawTimeout (sl : Nat) (s : State) : State :=
  expire HSLC.thaw sl (fun t => if rd PWR_SLICE.state sl t = 3 then sliceFail sl 2 t else t) s

/-- SLICE_CONTROL_MEMORY_ERROR (R360, R368). -/
def sliceMemory (sl : Nat) (s : State) : State := sliceFail sl 4 s

/-- Has a slice a frame to dispatch, or a copy selected for one of its ports (R360)? -/
def sliceOwes (sl : Nat) (s : State) : Bool :=
  redispatches sl s ≠ [] || (List.range 64).any (fun sp => nextOf sl sp true s ≠ none || nextOf sl sp false s ≠ none)
    || (touched HSCH.sel s ++ touched HSCH.fly s).any (fun p => servSlice p s = sl && (rd HSCH.sel p s ≠ 0 || rd HSCH.fly p s ≠ 0))

/-- SLICE_WATCHDOG (R360): 10 us without a dispatch while a frame is ready, or without egress progress after a selection. -/
def sliceWatchdog (sl : Nat) (s : State) : State :=
  if !rdB SLC_STATUS.serving sl s || !sliceOwes sl s then s else sliceFail sl 5 (pass 10000 s)

/-- A late request of a failed slice is discarded and counted (R365). -/
def lateSlice (sl : Nat) (k : State → State) (s : State) : State :=
  if rdB SLC_STATUS.failed sl s then inc cnt_RED_late_slice_discard 0 s else k s

/-- RED_SLICE_CMD force_fail (R369); none where it is refused. -/
def forceFail (sl : Nat) (force : Bool) (s : State) : Option State :=
  if 16 ≤ sl || !rdB SLC_STATUS.serving sl s || (!force && anyStreamOn (slicePorts sl s) s) then none
  else some (sliceFail sl 6 s)

/-- Ports of the macros that belong to slice `sl`. -/
def ownPorts (sl : Nat) (s : State) : List Nat := (List.range 1024).filter (fun p => portExists p s && p / 64 = sl)

/-- A slice is power-cycled (R369): its counters with their copies, and what else its registers hold beside its image, return to their
Reset values. -/
def slicePower (sl : Nat) (s : State) : State :=
  let mine := fun (k : Key) => cntsSLC.any (fun c => c.id = k.1 && k.2 / c.per = sl)
  let s := { s with cnts := s.cnts.filter (fun e => !mine e.1), snaps := s.snaps.filter (fun e => !mine e.1) }
  forEach (regsSLC.filter (fun r => r.id ≠ rSLC_STATUS.id)) (fun r t =>
    forEach (r.fields.filter (fun f => f.acc ≠ .rw && f.acc ≠ .st)) (fun f t =>
      forEach ((touched f t).filter (fun i => i / ((r.dims.map (·.1)).prod / 17) = sl)) (fun i t => resetF f i t) t) t) s

/-- RED_SLICE_CMD hand_back (R369): the fenced slice is power-cycled, loaded and tested; none where it is refused. -/
def handBack (sl : Nat) (force : Bool) (s : State) : Option State :=
  if 16 ≤ sl || !rdBit RED_SPARE_STATUS.failed 0 sl s || rd HSLC.cause sl s = 3 || takenOver s ≠ none || rd HRED.hb 0 s ≠ 31
      || (!force && anyStreamOn (ownPorts sl s) s) then none
  else some (slicePower sl (wr HRED.hb 0 sl (wrB HRED.hbforce 0 force s)))

/-! ### PLL locks (R345) -/

/-- Lock bit of a clock domain of CLK_STATUS: slices 2 to 18, quadrants 19 to 22, reference 1, complexes 95 and 96, management
fabric 97 (R346, R521). -/
def lockBit (dom : Nat) : Option (Fld × Nat) :=
  if dom = 1 then some (CLK_STATUS.ref_lock, 0)
  else if 2 ≤ dom && dom ≤ 18 then some (CLK_STATUS.slice_lock, dom - 2)
  else if 19 ≤ dom && dom ≤ 22 then some (CLK_STATUS.quad_lock, dom - 19)
  else if dom = 95 || dom = 96 then some (CLK_STATUS.cx_lock, dom - 95)
  else if dom = 97 then some (CLK_STATUS.mgmt_lock, 0)
  else none

/-- Is a PLL other than a slice PLL unlocked? -/
def otherUnlocked (s : State) : Bool :=
  rd CLK_STATUS.quad_lock 0 s ≠ 15 || rd CLK_STATUS.ref_lock 0 s = 0 || rd CLK_STATUS.cx_lock 0 s ≠ 3 || rd CLK_STATUS.mgmt_lock 0 s = 0

/-- PLL_UNLOCK (R345): a PLL loses lock, or (`back`) has it again. -/
def pllLock (dom : Nat) (back : Bool) (s : State) : State :=
  match lockBit dom with
  | none => s
  | some (f, b) =>
    if back then
      let s := setFBit f 0 b s
      if 2 ≤ dom && dom ≤ 18 then s else wrB RED_ALARM.pll_unlock 0 (otherUnlocked s) s
    else if !rdBit f 0 b s then s
    else
      let s := clrFBit f 0 b s
      if 2 ≤ dom && dom ≤ 18 then sliceFail (dom - 2) 3 s
      else wr RED_ALARM.pll_unlock 0 1 s |> wr CLK_EVT.ev_unlock 0 1 |> raise 0x0401 [dom]

/-! ### The complexes at rest (R334, R393, R394) -/

/-- COMPLEX_SLEEP: the cores wait for an interrupt, and both complexes enter Autumn, or after 1 ms Winter. A wake source's edge
during the entry aborts it (R394). From Autumn the complexes go on to Winter once the cores have waited for 1 ms. -/
def cxSleep (winter : Bool) (edgeOf : Option Nat) (s : State) : State :=
  let mode := rd RED_CX_STATUS.mode 0 s
  let waiting := [0, 1, 2, 3].all (fun c => !rdB INTC_CORE.presented c s)
  let tent := (busyStreams s).any (fun n => strState n s = 1)
  let ok := if winter then rdB PWR_CTRL.cx_winter_en 0 s && !tent && rd RED_UPDATE_STATUS.phase 0 s = 0 && (mode = 0 || mode = 3)
    else rdB PWR_CTRL.cx_autumn_en 0 s && !rdB HRED.hold 0 s && !rdB HRED.restart 0 s
  let asleep := rd PWR_CX.state 0 s
  if (asleep ≠ 0 && !(winter && asleep = 1 && !rdB INTC_STATUS.wake_issued 0 s)) || !waiting || !ok then s
  else
    let s := if !winter then wr HRED.cx0 0 (now s + 1) s else if asleep = 0 then pass 1000000 s
      else passTo (rd HRED.cx0 0 s - 1 + 1000000) s
    let edge := fun (n : Nat) (t : State) => edge n (pushL LINT.seen 0 n t)
    let abort := fun (n : Nat) (t : State) => edge n (inc cnt_INTC_sleep_abort 0 (wr INTC_STATUS.sleep_abort 0 1 t))
    let sleep := fun (t : State) => wr PWR_CX.state 0 (if winter then 2 else 1) (withdrawAll t)
    match edgeOf with
    | some n => if !edgeStands n s then sleep s else if wakeSource n s then abort n s else edge n (sleep s)
    | none => sleep s

/-- COMPLEX_WAKE (R334, R392): the wake that has been issued takes the complexes, thawing since then (log entry 176), back to Summer. -/
def cxWake (s : State) : State :=
  if !cxAsleep s || !rdB INTC_STATUS.wake_issued 0 s then s
  else route (wr INTC_STATUS.wake_issued 0 0 (wr PWR_CX.state 0 0 s))

/-! ### Lockstep, gap and diagnosis (R348 to R355) -/

/-- A gap begins (R349). -/
def gapBegin (s : State) : State := withdrawAll (wr HRED.gap 0 1 s |> wr HRED.gap0 0 (now s + 1) |> wr RED_CX_STATUS.mode 0 1)

/-- A gap ends: outputs flow again (R387). -/
def gapEnd (mode : Nat) (s : State) : State := route (wr HRED.gap 0 0 s |> wr HRED.second 0 0 |> wr RED_CX_STATUS.mode 0 mode)

/-- Length of the gap in progress, us. -/
def gapUs (s : State) : Nat := (now s + 1 - rd HRED.gap0 0 s) / 1000

/-- LOCKSTEP_MISMATCH (R349, R353): what is compared is lockstep operation and replay. -/
def mismatch (core kind addr : Nat) (s : State) : State :=
  let mode := rd RED_CX_STATUS.mode 0 s
  if mode ≠ 0 && mode ≠ 2 then s
  else
    let again := mode = 2 || (rd HRED.trans 0 s ≠ 0 && now s < rd HRED.trans 0 s - 1 + 1000000000)
    let g0 := rd HRED.gap0 0 s
    let s := gapBegin s
    let s := if mode = 2 then wr HRED.gap0 0 g0 s else s
    wrB HRED.second 0 again s |> wr RED_MISMATCH_LOG.core 0 core |> wr RED_MISMATCH_LOG.kind 0 kind |> wr RED_MISMATCH_LOG.verdict 0 0
      |> wr RED_MISMATCH_ADDR.addr 0 addr |> inc cnt_RED_mismatch 0 |> wr RED_EVT.ev_mismatch 0 1
      |> raise 0x0801 [core % 4, kind % 4, addr % 2 ^ 32]

/-- CHECKPOINT (R350): every 20 us, or before where a log fills. -/
def checkpoint (s : State) : State := if rd RED_CX_STATUS.mode 0 s ≠ 0 then s else checkpointTake s

/-- Result bits of a complex in events: bit 0 BIST passed, bit 1 SRAM error. -/
def cxBits (bist ecc : Bool) : Nat := b2n bist + 2 * b2n ecc

/-- The service field of a complex. -/
def inService (c : Nat) : Fld := if c = 0 then RED_CX_STATUS.a_in_service else RED_CX_STATUS.b_in_service

/-- The update change set and what else the image carries are dropped. -/
def updDrop (s : State) : State := setL LCS.ent 5 [] s |> setL LCS.cmd 5 [] |> setL LUPD.par 0 [] |> setL LUPD.patch 0 []

/-- Autonomous hold (R357): an update under way ends, and what it staged is dropped (R372); the event is raised before the complexes stop. -/
def autoHold (resA resB : Nat) (s : State) : State :=
  let s := wr RED_EVT.ev_hold 0 1 (raise 0x0804 [resA, resB] s)
  let s := wr HRED.gap 0 0 s |> wr HRED.second 0 0 |> wr HRED.restart 0 0 |> wr HRED.hold 0 1 |> setL LCX.held 0 [] |> wr RED_CX_STATUS.mode 0 5
    |> wr RED_CX_STATUS.a_in_service 0 0 |> wr RED_CX_STATUS.b_in_service 0 0 |> wr RED_UPDATE_STATUS.phase 0 0 |> wr HUPD.back 0 0
  tblFreeze true (withdrawAll (updDrop s))

/-- Complex `c` gives up, and the other serves alone (R352). -/
def cxGiveUp (c bits : Nat) (s : State) : State :=
  let s := wr HCX.given c 1 s |> wr (inService c) 0 0 |> wr RED_CX_STATUS.owner 0 (1 - c) |> inc cnt_RED_give_up 0
    |> wr RED_EVT.ev_mismatch 0 1 |> wr RED_MISMATCH_LOG.verdict 0 (2 + c) |> raise 0x0802 [c, bits, gapUs s]
  gapEnd 3 s

/-- DIAGNOSIS_DONE (R351, R353). -/
def diagnosis (bistA bistB : Bool) (s : State) : State :=
  if rd RED_CX_STATUS.mode 0 s ≠ 1 || !rdB HRED.gap 0 s then s
  else
    let eA := rdB HCX.ecc 0 s
    let eB := rdB HCX.ecc 1 s
    let s := wrB RED_CX_STATUS.a_bist 0 bistA s |> wrB RED_CX_STATUS.b_bist 0 bistB
    match bistA && !eA, bistB && !eB with
    | true, true =>
      if rdB HRED.second 0 s then cxGiveUp 1 (cxBits bistB eB) s
      else wr RED_MISMATCH_LOG.verdict 0 1 s |> wr RED_CX_STATUS.mode 0 2 |> wr HCX.spos 0 0 |> wr HCX.rpos 0 0 |> addF RED_CX_STATUS.transients 0 1 |> wr HRED.trans 0 (now s + 1)
    | false, true => cxGiveUp 0 (cxBits bistA eA) s
    | true, false => cxGiveUp 1 (cxBits bistB eB) s
    | false, false => autoHold (cxBits bistA eA) (cxBits bistB eB) (wr RED_MISMATCH_LOG.verdict 0 4 s)

/-- RESYNC_DONE (R353). -/
def resyncDone (s : State) : State :=
  if rd RED_CX_STATUS.mode 0 s ≠ 2 then s
  else gapEnd 0 (inc cnt_RED_transient 0 (wr RED_EVT.ev_mismatch 0 1 (raise 0x0803 [gapUs s] s)))

/-- The complex that has given up. -/
def givenUp (s : State) : Nat := 1 - rd RED_CX_STATUS.owner 0 s

/-- RED_CX_CMD rejoin (R354) in simplex: BIST of the complex that gave up passes or fails. -/
def rejoin (bist : Bool) (s : State) : State :=
  let c := givenUp s
  let s := wrB (if c = 0 then RED_CX_STATUS.a_bist else RED_CX_STATUS.b_bist) 0 bist s
  if bist then wr RED_CX_STATUS.mode 0 7 s else inc cnt_RED_rejoin_fail 0 (wr RED_EVT.ev_rejoin 0 1 s)

/-- Lockstep resumes from a checkpoint. -/
def lockstepResume (s : State) : State :=
  wr RED_CX_STATUS.mode 0 0 s |> wr RED_CX_STATUS.a_in_service 0 1 |> wr RED_CX_STATUS.b_in_service 0 1 |> wr RED_CX_STATUS.owner 0 0
    |> wr HCX.given 0 0 |> wr HCX.given 1 0 |> checkpointTake

/-- REJOIN_COPY_DONE (R354). -/
def rejoinDone (s : State) : State :=
  if rd RED_CX_STATUS.mode 0 s ≠ 7 then s
  else
    let c := givenUp s
    raise 0x080B [c] (wr RED_EVT.ev_rejoin 0 1 (lockstepResume s))

/-! ### Warm restarts (R358, R359) -/

/-- A warm restart begins (R359): pool buffers are reclaimed where warm_reclaim is 1 (R412); the sessions close (R453). -/
def warmBegin (after : Nat) (reclaim closeAll : State → State) (s : State) : State :=
  let s := wr HRED.gap 0 0 s |> wr HRED.restart 0 1 |> wr HRED.after 0 after |> setL LCX.held 0 [] |> wr RED_CX_STATUS.mode 0 6
  let s := withdrawAll s
  closeAll (if rdB POOL_CTRL.warm_reclaim 0 s then reclaim s else s)

/-- SERVICE_WATCHDOG (R358, R372): Folsor's signal is missed. -/
def svcWatchdog (reclaim closeAll : State → State) (s : State) : State :=
  let mode := rd RED_CX_STATUS.mode 0 s
  if !rdB RED_CTRL.wd_enable 0 s || mode = 5 || mode = 6 then s
  else
    let s := every HRED.wd 0 (rd RED_CTRL.wd_period 0 s * 1000000) (fun t => t) s
    let l := (getL LRED.wd 0 s).filter (fun t => now s < t + 600000000000) ++ [now s]
    let s := setL LRED.wd 0 l s |> inc cnt_RED_wd_restart 0 |> wr RED_EVT.ev_watchdog 0 1 |> raise 0x080A [l.length]
    if 3 ≤ l.length || mode = 4 then autoHold (cxBits false false) (cxBits false false) s
    else warmBegin (if mode = 3 || mode = 7 then 3 else 0) reclaim closeAll s

/-- PTP timers start afresh (R358). -/
def ptpAfresh (s : State) : State :=
  let s := forEach (touched HTB.last s) (fun b t => if rd HTB.last b t = 0 then t else wr HTB.last b (now t + 1) t) s
  forEach ((mkind s.lists LTB.ann.id).map (·.1)) (fun k t =>
    let l := getL LTB.ann k t
    if l = [] then t else setL LTB.ann k (l.take (l.length - 1) ++ [now t]) t) s

/-- WARM_RESTART_DONE (R359, R387). -/
def warmDone (s : State) : State :=
  if !rdB HRED.restart 0 s then s
  else
    let m := rd HRED.after 0 s
    let s := coresRestart (wr HRED.restart 0 0 s |> wr RED_CX_STATUS.mode 0 m)
    route (ptpAfresh s)

/-- RED_CX_CMD retry (R359) in autonomous hold: BIST of both complexes. DESIGN CHOICE (log entry 168): a requester whose tentative request the
retry frees gets no result, and busy of the command registers falls. -/
def cxRetry (bistA bistB : Bool) (reclaim closeAll : State → State) (s : State) : State :=
  let s := wrB RED_CX_STATUS.a_bist 0 bistA s |> wrB RED_CX_STATUS.b_bist 0 bistB
  if !bistA && !bistB then s
  else
    let tent := (busyStreams s).filter (fun n => strState n s = 1)
    let s := tblFreeze false (wr HRED.hold 0 0 (regBusyNote (forEach tent streamFree s)))
    let s := wrB RED_CX_STATUS.a_in_service 0 bistA s |> wrB RED_CX_STATUS.b_in_service 0 bistB |> wrB RED_CX_STATUS.owner 0 (!bistA)
      |> wrB HCX.given 0 (!bistA) |> wrB HCX.given 1 (!bistB) |> wr HCX.ecc 0 0 |> wr HCX.ecc 1 0
    warmBegin (if bistA && bistB then 0 else 3) reclaim closeAll s

/-! ### RED_ALARM and ALARM_N (R374) -/

/-- RED_ALARM follows its conditions. -/
def alarmNote (s : State) : State :=
  let m := rd RED_CX_STATUS.mode 0 s
  let alone := rdB HCX.given 0 s || rdB HCX.given 1 s
  wrB RED_ALARM.hold 0 (rdB HRED.hold 0 s) s
    |> wrB RED_ALARM.simplex 0 (rdB RED_CTRL.simplex_alarm 0 s && (m = 3 || (m = 7 && alone) || (m = 6 && alone)))

end Sys2Proof.Machine
end

