-- ==== Sys2Proof/Machine/Show.lean ====
section
/-!
DEFINITION. Register fields whose value the device works out when they are read, and the value of a word (R9, R12).
-/

namespace Sys2Proof.Machine

/-- Millionths of `w` ns that stretching adds to a core clock domain of R315. -/
def stretchPpm (d w : Nat) (s : State) : Nat := stretchAdded d w s * 1000000 / (w * 1000)

/-- Frequency of a core domain of R315 (0 to 16 slices, 17 to 20 quadrants) in kHz: the P-state's, its spread mean (R522), with
stretching included (R346). -/
def coreKhz (d : Nat) (s : State) : Nat :=
  let f := pMhz (rd PWR_STATUS.p_state 0 s) * 1000
  let f := if rdB CLK_CTRL.spread_en 0 s then f * 9975 / 10000 else f
  f * (1000000 - stretchPpm d 100000 s) / 1000000

/-- A spread domain's mean frequency (R522). -/
def spreadKhz (f : Nat) (s : State) : Nat := if rdB CLK_CTRL.spread_en 0 s then f * 9975 / 10000 else f

/-- The complexes' and the management fabric's clocks, which the central detector stretches (R315, R316, R346). -/
def centralKhz (f : Nat) (s : State) : Nat := spreadKhz f s * (1000000 - stretchPpm 21 100000 s) / 1000000

/-- Is an octet's PLL on (R335): has an existing port of it admin_up 1? -/
def octetOn (o : Nat) (s : State) : Bool := (octetPorts o s).any (fun p => rdB PRT_PORT_CFG.admin_up p s)

/-- Frequency of clock domain `d` in kHz (R521); the clock of a slice at rest stands (R329), and so does that of a macro
both of whose octet PLLs are off (R335), or of a complex that has given up (R352). -/
def domKhz (d : Nat) (s : State) : Nat :=
  if d = 0 then 25000 else if d = 1 then 156250
  else if d < 19 then (if rd PWR_SLICE.state (d - 2) s = 0 then coreKhz (d - 2) s else 0)
  else if d < 23 then coreKhz (d - 2) s
  else if d < 87 then
    (if !octetOn (2 * (d - 23)) s && !octetOn (2 * (d - 23) + 1) s then 0 else Config.serdesKhz (rd PRT_OCT_CFG.mode (2 * (d - 23)) s) (rd PRT_OCT_CFG.mode (2 * (d - 23) + 1) s))
  else if d < 95 then 1000000
  else if d < 97 then (if rdB HCX.given (d - 95) s then 0 else centralKhz 1200000 s)
  else if d = 97 then centralKhz 600000 s
  else if d = 98 then 500000
  else if d < 101 then (if rdB HIF_MGMT_W0.speed (d - 99) s then 161130 else 125000)
  else if d = 101 then (if rd GLB_PAD_SLEW.flash 0 s = 3 then 200000 else 100000)
  else 200000

/-- The buffer POOL_INSPECT_SEL names; an index beyond the pool names its last buffer (R415). -/
def inspected (s : State) : Nat :=
  let p := rd POOL_INSPECT_SEL.pool 0 s
  poolKey p (min (rd POOL_INSPECT_SEL.index 0 s) (poolCount p - 1))

/-- The queue SCH_Q_SEL names. -/
def schSel (s : State) : Nat := selCode SCH_Q_SEL.kind SCH_Q_SEL.index s

/-- The record of the audit ring a seq names (R459). -/
def auditFind (seq : Nat) (s : State) : Option (List Nat) :=
  ((mkind s.lists LAUD.ring.id).find? (fun e => e.2.headD 0 = seq + 1)).map (fun e => e.2.tail)

/-- The record ACC_AUDIT_SEL names. -/
def auditSel (s : State) : Option (List Nat) := auditFind (rd ACC_AUDIT_SEL.sel 0 s + 2 ^ 32 * rd ACC_AUDIT_SEL.sel 1 s) s

/-- The event record TEL_EVT_SEL names (R498). -/
def evtSel (s : State) : Option EvtRec := evtFind (rd TEL_EVT_SEL.seq 0 s) s

/-- Is the receiver of a lane at work: does its port train, align or run (R335, R67)? -/
def laneOn (l : Nat) (s : State) : Bool :=
  let st := rd PRT_PORT_STATUS.state (lanePort l s) s
  2 ≤ st && st ≠ 5

/-- Does the receiver of a lane take a signal: it is at work, and no loss of signal or CDR unlock stands? -/
def laneHears (l : Nat) (s : State) : Bool := laneOn l s && !rdBit PRT_PORT_STATUS.faults (lanePort l s) 0 s

/-- signal_detect (R67, R335): it stays powered while the lane rests, and then follows what stands on the lane, which is an input
(log entry 1). -/
def signalDetect (l : Nat) (s : State) : Bool := if laneOn l s then laneHears l s else Config.freeInput s.cyc (4096 + l) % 2 = 1

/-- Whole seconds since a session's last request, saturating (R463). -/
def sessIdle (i : Nat) (s : State) : Nat :=
  if getL LACC.key i s = [] then 0 else min 2047 ((now s - rd HACC.last i s) / 1000000000)

/-- Minutes left of the maker grant, rounded up (R463). -/
def grantLeft (s : State) : Nat :=
  if running HACC.grant 0 s then ceilDiv (rd HACC.grant 0 s - 1 - now s) 60000000000 else 0

/-- Open sessions: those that hold a session key (R452). -/
def sessOpen (s : State) : List Nat := (List.range 8).filter (fun i => getL LACC.key i s ≠ [])

/-- Captures in the audit FIFO (R456). -/
def auditFill (s : State) : Nat := rd HAUD.tail 0 s - rd HAUD.head 0 s

/-- Entries of change set `k`. -/
def csCount (k : Nat) (s : State) : Nat := (getL LCS.ent k s).length / 3

/-- Fields of the ports, slices and queues worked out when read. -/
def shownA (f : Fld) (i : Nat) (s : State) : Option Nat :=
  if f.id = ADM_STATUS.hold.id then some (rd HRED.hold 0 s)
  else if f.id = ADM_STATUS.tentative_pending.id then some (b2n ((touched ADM_STREAM_STAT.state s).any (fun n => strState n s = 1)))
  else if f.id = ADM_STATUS.over_limit.id then some (b2n (overLimit s))
  else if f.id = ADM_STATUS.admitted_count.id then some ((touched ADM_STREAM_STAT.state s).filter (fun n => 2 ≤ strState n s)).length
  else if f.id = ADM_DEV_LOAD_RATE.load_rate.id then some (fCeil ((devRate s).1, (devRate s).2 * 1000))
  else if f.id = ADM_DEV_LOAD_FPS.load_fps.id then some (fCeil ((devFps s).1, (devFps s).2 * 1000))
  else if f.id = ADM_PORT_LOAD_RATE.load_rate.id then
    let x := outRate (rd ADM_PORT_SEL.port 0 s) s
    some (fCeil (x.1, x.2 * 1000))
  else if f.id = ADM_PORT_LOAD_BURST.load_burst.id then some (bSum (rd ADM_PORT_SEL.port 0 s) s)
  else if f.id = ADM_PORT_BOUND.bound.id then some (min 0xFFFFFF (portBound (rd ADM_PORT_SEL.port 0 s) s))
  else if f.id = ADM_PORT_FIXED.fixed.id then some (portFixed (rd ADM_PORT_SEL.port 0 s) s)
  else if f.id = ADM_STREAM_BOUND.hop_bound.id then
    some (match hopKeys (rd ADM_STREAM_SEL.stream 0 s) s with
      | [] => 0
      | k :: _ => rd ADM_PORT_BUDGET.hop_budget (rd HOP.eg k s) s)
  else if f.id = PRT_MACRO_STATUS.pll_lock.id then
    some (((List.range 2).map (fun k => if (octetPorts (2 * i + k) s).any (fun p => rdB PRT_PORT_CFG.admin_up p s) then 2 ^ k else 0)).sum)
  else if f.id = PRT_LANE_STATUS.signal_detect.id then some (if rd HBOOT.phase 0 s < 2 then 0 else b2n (signalDetect i s))
  else if f.id = PRT_LANE_STATUS.cdr_lock.id then some (b2n (laneHears i s))
  else if f.id = PRT_LANE_STATUS.prbs_lock.id then
    some (if rd PRT_LANE_CFG.prbs_check i s = 0 then 0 else Config.freeInput s.cyc i % 2)
  else if f.id = SLC_STATUS.macro_group.id then
    some (if i < 16 then i else (match takenOver s with | some sl => sl | none => 0))
  else none

/-- Have records of an image been applied (R13)? Before that, fields the device works out read their Reset column. DEDUCED (log entry 145). -/
def imageIn (s : State) : Bool := rd HBOOT.phase 0 s = 3 || rd HBOOT.phase 0 s = 4

/-- Fields of the buffer, the scheduler, power and clocks worked out when read. -/
def shownB (f : Fld) (i : Nat) (s : State) : Option Nat :=
  if f.id = BUF_REGION_RX.rx_region.id then some (if imageIn s then receiveRegion s else 0)
  else if f.id = BUF_REGION_RES.reserve_total.id then some (reserveTotal s)
  else if f.id = BUF_SHARED.shared_free.id then some (if imageIn s then sharedFree s else 0)
  else if f.id = BUF_Q_CELLS.cells.id then some (rd HBUF.q (selCode BUF_Q_SEL.kind BUF_Q_SEL.index s) s)
  else if f.id = BUF_PORT_STATUS.hold_left.id then some (holdLeft i s)
  else if f.id = SCH_Q_DEPTH.cells.id then
    some (if rd SCH_Q_SEL.kind 0 s = 3 then 0 else rd ([SMP.last_d, SMP.min_d, SMP.max_d].getD i SMP.last_d) (schSel s) s)
  else if f.id = SCH_Q_SOJ.ns.id then
    some (if rd SCH_Q_SEL.kind 0 s = 3 then 0 else rd ([SMP.last_s, SMP.min_s, SMP.max_s].getD i SMP.last_s) (schSel s) s)
  else if f.id = SCH_SUB_W0.adm.id then some (b2n (admNode i s))
  else if f.id = SCH_PORT_W6.paused.id then some (if imageIn s then b2n (pauseCause i s ≠ 0) else 0)
  else if f.id = SCH_PORT_W6.pause_cause.id then some (if imageIn s then pauseCause i s else 0)
  else if f.id = SCH_PORT_W7.entry.id then some (gateSeg i s).1
  else if f.id = SCH_PORT_W7.open_.id then some (gateSeg i s).2
  else if f.id = PWR_SLICE.winter_block.id then some (if imageIn s then b2n (!winterOk i s) else 0)
  else if f.id = PWR_DROOP.domain.id then some (detDom i)
  else if f.id = CLK_DOM_FREQ.freq_khz.id then some (if 2 ≤ rd HBOOT.phase 0 s then domKhz (rd CLK_DOM_SEL.domain 0 s) s else 0)
  else if f.id = POOL_STATUS.unused_res.id then some (if imageIn s then poolUnusedSum poolRequesters i s else 0)
  else if f.id = PWR_STATUS.crit_path.id then some (b2n (critPath s))
  else if f.id = INTC_STATUS.int_n.id then some (b2n (intLow s))
  else if f.id = INTC_STATUS.cx_state.id then some (rd PWR_CX.state 0 s)
  else if f.id = INTC_STATUS.msix_waiting.id then some (b2n ((List.range 64).any (fun g => rdB INTC_GRP.msg_held g s)))
  else if f.id = INTC_CORE.in_service.id then some (b2n (rdB INTC_CORE.in_service i s && coresFlow s))
  else if f.id = INTC_LINE.line.id then some (lineWord i s)
  else if f.id = POOL_INSPECT.allocated.id then some (rd POOLM.allocated (inspected s) s)
  else if f.id = POOL_INSPECT.owner.id then some (rd POOLM.owner (inspected s) s)
  else if f.id = POOL_INSPECT.gen.id then some (rd POOLM.gen (inspected s) s)
  else if f.id = POOL_INSPECT.retired.id then some (rd POOLM.retired (inspected s) s)
  else none

/-- Fields of configuration, roles and telemetry worked out when read. -/
def shownC (f : Fld) (i : Nat) (s : State) : Option Nat :=
  if f.id = CFG_CS_W4.entries.id then some (csCount i s)
  else if f.id = CFG_INCONSISTENT.pending.id then
    some (((List.range 4).map (fun p => if (touched HPAIR.lo s ++ touched HPAIR.hi s).any (fun k => k / 65536 = p &&
      (rd HPAIR.lo k s ≠ 0 || rd HPAIR.hi k s ≠ 0)) then 2 ^ p else 0)).sum)
  else if f.id = ACC_STATUS.maker_active.id then some (b2n (running HACC.grant 0 s))
  else if f.id = ACC_STATUS.sessions.id then some (sessOpen s).length
  else if f.id = ACC_MAKER_GRANT.remaining.id then some (min 2047 (grantLeft s))
  else if f.id = ACC_SESSION.idle.id then some (sessIdle i s)
  else if f.id = ACC_AUDIT_STATUS.fifo_fill.id then some (auditFill s)
  else if f.id = ACC_AUDIT_STATUS.valid.id then some (b2n (auditSel s).isSome)
  else if f.id = ACC_AUDIT_REC.rec.id then some (match auditSel s with | some ws => ws.getD i 0 | none => 0)
  else if f.id = TEL_EVT_STATUS.fifo_fill.id then some s.telFifo.length
  else if f.id = TEL_EVT_STATUS.valid.id then some (b2n (evtSel s).isSome)
  else if f.id = TEL_EVT_REC.rec.id then some (match evtSel s with | some r => r.words.getD i 0 | none => 0)
  else none

/-- The value a read of a field finds (R9, R12). -/
def shown (f : Fld) (i : Nat) (s : State) : Nat :=
  match shownA f i s with
  | some v => v
  | none => match shownB f i s with
    | some v => v
    | none => match shownC f i s with
      | some v => v
      | none => rd f i s

/-- The word a read of a register returns: WO fields and reserved bits read 0 (R7, R9); the registers of a port that does not
exist read 0 (R81). -/
def wordOf (r : Reg) (i : Nat) (s : State) : Nat :=
  if absentPort r i s then 0 else compose (fun f => if f.acc = .wo then 0 else shown f i s) r

/-- What a read of an address finds, with no effect of the read: `none` where the address is misaligned or maps nothing. -/
def peek (a : Nat) (s : State) : Option Nat :=
  if !aligned a then none
  else match locate a s with
    | .reg r i => some (wordOf r i s)
    | .cnt c i hi => if c.base / 0x1000 = 0x4001 && !portExists i s then some 0
      else some (if hi then snapOf c i s / 2 ^ 32 else snapOf c i s % 2 ^ 32)
    | .none_ => none

end Sys2Proof.Machine
end

