-- ==== Sys2Proof/Machine/Rng.lean ====
section
/-!
DEFINITION. The DMA rings of HIF (R471 to R478): what enabling, posting, the transfers and a reset of the function do.
-/

namespace Sys2Proof.Machine

/-- Setting enable (R478): head and tail are 0 and the ring runs. -/
def ringEnable (k : Nat) (s : State) : State :=
  wr HIF_RING_W3.tail k 0 s |> wr HIF_RING_W4.head k 0 |> wr HIF_RING_W5.state k 1 |> wr HHIF.flush k 0 |> wr HHIF.dma k 0

/-- Clearing enable (R478): a descriptor in progress completes first. -/
def ringDisable (k : Nat) (s : State) : State :=
  if rd HIF_RING_W5.state k s = 1 && rd HHIF.dma k s ≠ 0 then s else wr HIF_RING_W5.state k 0 s

/-- Would a tail overfill its ring (R471)? -/
def tailOver (k tail : Nat) (s : State) : Bool := ringSize k s < (tail + 2 ^ 32 - rd HIF_RING_W4.head k s) % 2 ^ 32

/-- Has a ring work for its next descriptor: running, one posted, none in progress, and a frame, a command of the host or a record for it? -/
def ringReady (k : Nat) (s : State) : Bool :=
  ringRuns k s && ringPosted k s ≠ 0 && rd HHIF.dma k s = 0 &&
    (match rd HIF_RING_W2.kind k s with
      | 0 => (match getL LHIF.punt k s with
        | [] => false
        | f :: _ => rdB FRM.ended f s || rdB FRM.err f s)
      | 1 => bootReady s
      | 2 => s.recs.any (fun r => r.ring = k)
      | _ => let t := evtSkip k s; (evtFind (rd HTEL.rptr k t) t).isSome)

/-- The ring served next: the first with work from the one whose turn it is (R471). -/
def nextRing (s : State) : Option Nat := ((List.range 16).map (fun d => (rd HHIF.turn 0 s + d) % 16)).find? (fun k => ringReady k s)

/-- May the ring serve its next descriptor: of the kind, next in turn, and the endpoint there (R466)? -/
def ringServes (k kind : Nat) (s : State) : Bool := pcieOn s && rd HIF_RING_W2.kind k s = kind && nextRing s = some k

/-- The turn passes from ring `k` to the one after it. -/
def ringTurn (k : Nat) (s : State) : State := wr HHIF.turn 0 ((k + 1) % 16) s

/-- Are a buffer's address and length ones a descriptor may hold (R472)? -/
def lenOk (addr len : Nat) : Bool := addr % 8 = 0 && 64 ≤ len && len ≤ 16384

/-- Write data into the buffer of the descriptor at the head and complete it (R474): what does not fit is cut, with status 1. -/
def ringPut (k addr len reason port stamp : Nat) (bytes : List Nat) (s : State) : State :=
  emit .hostWrite k (w64 addr ++ bytes.take len) s
    |> ringComplete k (min len bytes.length) (if len < bytes.length then 1 else 0) reason port stamp

/-- A descriptor whose buffer address or length R472 rules out completes as BAD_DESC with nothing placed. -/
def ringBad (k reason port : Nat) (s : State) : State := ringComplete k 0 3 reason port (now s) s

/-- The head of a punt queue leaves it (R475). -/
def puntPop (k f : Nat) (s : State) : State :=
  let l := (getL LHIF.punt k s).tail
  frmUnref f (setL LHIF.punt k l (wr HIF_RING_W5.queued k l.length s))

/-- A read of a punted frame meets a memory error (R190 to R193). -/
def puntErr (k f : Nat) (e : MemErr) (s : State) : State :=
  if (getL LHIF.punt k s).head? ≠ some f then s
  else match e with
    | .cellCorr => eccNote cnt_BUF_ecc_corr 1 s
    | .linkCorr => eccNote cnt_BUF_link_ecc_corr 1 s
    | .cellBad w => if frmWord f w s = none then s else puntPop k f (wordBad f w 0 s)
    | .linkBad j => frameLost f (chainLost 1 j f s)
    | .descBad => frameLost f (chainLost 2 0 f s)
    | .queueBad => forEach (getL LHIF.punt k s).tail (fun x t => puntLose x (chainLost 3 0 x t)) s

/-- PUNT_DMA (R475): the frame at the head of ring `k`'s punt queue is copied, without its FCS, into the buffer the next descriptor
names. One closed as errored leaves the queue uncopied (R97), and one still arriving waits. The reads meet memory errors `errs`: corrected ones
are counted (R190), and a word, link or descriptor that cannot be read loses the frame to the punt (R191, R193). -/
def puntDma (k addr len : Nat) (errs : List MemErr) (s : State) : State :=
  if !ringServes k 0 s then s
  else match getL LHIF.punt k s with
    | [] => s
    | f :: _ =>
      let s := ringTurn k s
      if rdB FRM.err f s then puntPop k f s
      else if !rdB FRM.ended f s then s
      else if !lenOk addr len then ringBad k 0 0 s
      else
        let s := forEach (errs ++ ((badWords f 0 65536 s).map .cellBad).filter (fun e => !errs.contains e)) (puntErr k f) s
        if (getL LHIF.punt k s).head? ≠ some f then s
        else
        let body := getL LFRM.bytes f s
        puntPop k f (ringPut k addr len (rd FRM.reason f s) (rd FRM.port f s) (rd FRM.stamp f s / 2 ^ 32)
          (body.take (body.length - 4)) s)

/-- An inject descriptor is turned away before the frame is taken (R476). -/
def injectEnd (k len status port : Nat) (s : State) : State := ringComplete k len status 0 port (now s) s

/-- Mode 0 (R476): best effort to the named node and queue, without the Ingress test. -/
def injectEgress (k port word cell : Nat) (body : List Nat) (s : State) : State :=
  let dflt := bitOf word 29
  injectEnd k (body.length - 4) 0 port
    (sendBe (k + 1) port (if dflt then 0 else bitsOf word 10 15 + 1) (if dflt then 0 else bitsOf word 25 3 + 1) cell body s)

/-- Mode 1 (R476): the frame enters the head buffer of the slice serving the port. Without an entry, or with the slice at rest, the
descriptor waits, and the slice wakes. -/
def injectIngress (k port cell : Nat) (body : List Nat) (s : State) : State :=
  let sl := servSlice port s
  if sliceAsleep sl s then thawBegin sl s
  else
    let early := earlyMark (sl * 64 + port % 64) [] body s
    let entry := headPick sl early s
    if entry = 0 then s
    else
      let f := rd HFRM.next 0 s
      takeFrame port sl entry early [] body cell s |> wr FRM.len f body.length |> wr FRM.ended f 1 |> wr FRM.inj f (k + 1)
        |> wordsNote (ceilDiv body.length 64) |> wr HHIF.dma k (f + 1)

/-- INJECT_DMA (R476): the inject word and the frame of the next descriptor of ring `k`. -/
def injectDma (k addr word : Nat) (data : List Nat) (cell : Nat) (s : State) : State :=
  if !ringServes k 1 s || !bootReady s then s
  else
    let s := ringTurn k s
    let port := word % 1024
    if addr % 8 ≠ 0 then injectEnd k 0 3 port s
    else
    let s := emit .hostRead k (w64 addr ++ [data.length]) s
    let body := injectBytes data
    if injectFull s then
      injectEnd k 0 2 port (inc cnt_HIF_inject_refused k (wr HIF_RING_W6.ev_drop k 1 s))
    else if !portExists port s || portMax port s < body.length then injectEnd k 0 3 port s
    else if bitOf word 28 then injectIngress k port cell body s
    else injectEgress k port word cell body s

/-- RECORD_DMA (R477, R498): the next record of a telemetry or event ring goes to the buffer the next descriptor names. -/
def recordDma (k addr len : Nat) (s : State) : State :=
  if ringServes k 2 s then
    match s.recs.find? (fun r => r.ring = k) with
    | none => s
    | some r =>
      let s := ringTurn k s
      if !lenOk addr len then ringBad k 0 0 s
      else
        poolOwn 5 r.handle r.bytes.length (fun s => poolDone 5 r.handle (ringPut k addr len 0 0 (now s) r.bytes s)
          |> inc cnt_TEL_export_records 0) (subF HHIF.used k 1 { s with recs := s.recs.erase r })
  else if ringServes k 3 s then
    let s := ringTurn k (evtSkip k s)
    match evtFind (rd HTEL.rptr k s) s with
    | none => s
    | some r =>
      if !lenOk addr len then ringBad k 0 0 s
      else addF HTEL.rptr k 1 (ringPut k addr len 0 0 (now s) (wordsBytes r.words) s)
  else s

/-- DMA_FLUSH_DONE (R474): the zero-length read after a completion finishes. -/
def dmaFlushDone (k : Nat) (s : State) : State :=
  if k < 16 && rd HHIF.flush k s ≠ 0 then wr HIF_RING_W6.ev_done k 1 (subF HHIF.flush k 1 s) else s

/-- DMA_ERROR (R478): the ring halts; `canWrite` says whether the failing descriptor's completion can still be written. -/
def dmaError (k : Nat) (canWrite : Bool) (s : State) : State :=
  if !(k < 16 && ringRuns k s) then s
  else
    let s := if canWrite then emit .hostWrite k (w64 (ringDesc k s + 16) ++ completionBytes k 0 4 0 0 (now s) s) s else s
    raise 0x0C04 [k, rd HIF_RING_W4.head k s] (wr HIF_RING_W5.state k 2 s |> wr HIF_RING_W6.ev_halt k 1)

/-- A punt queue's frames are dropped (R470). -/
def puntDropAll (k : Nat) (s : State) : State :=
  forEach (getL LHIF.punt k s) (fun f t => puntPop k f (inc cnt_HIF_punt_drop k (wr HIF_RING_W6.ev_drop k 1 t))) s

/-- FLR, hot reset and PCIE_PERST_N (R470): configuration space, MSI-X table and PBA are reset, every ring is disabled, punt queues
are emptied, and DMA not yet issued is abandoned. -/
def hifReset (s : State) : State :=
  let s := forEach (List.range 16) (fun k t => puntDropAll k t |> wr HIF_RING_W2.enable k 0 |> wr HIF_RING_W3.tail k 0
    |> wr HIF_RING_W4.head k 0 |> wr HIF_RING_W5.state k 0 |> wr HHIF.flush k 0 |> wr HHIF.dma k 0 |> wr HHIF.used k 0) s
  let s := forEach s.recs (fun r t => poolDone 5 r.handle t) { s with recs := [] }
  forEach (List.range 64) (fun g t => wr HINT.masked g 1 t |> wr HINT.pba g 0 |> wr HINT.addr_lo g 0 |> wr HINT.addr_hi g 0 |> wr HINT.data g 0)
    (wr HIF_STATUS.msix_en 0 0 s |> wr HINT.pme_en 0 0 |> wr HPCI.mps 0 0 |> wr HPCI.mrrs 0 2 |> wr HPCI.aer 0 0)

end Sys2Proof.Machine
end

