-- ==== Sys2Proof/Machine/Hook.lean ====
section
/-!
DEFINITION. What storing a register value does beside storing it: the values a field stores (R10), and the effects that follow a
write of an RW, ST or W1C field, written live or by a change set's commit.
-/

namespace Sys2Proof.Machine

/-! ### Stored values (R9, R10) -/

/-- Apply a function to each `w`-bit part of a number of `n` parts. -/
def mapParts (w : Nat) (k : Nat → Nat) : Nat → Nat → Nat
  | 0, _ => 0
  | n + 1, v => k (v % 2 ^ w) % 2 ^ w + 2 ^ w * mapParts w k n (v / 2 ^ w)

/-- What field `f` stores when `v` is written to it. -/
def stored (f : Fld) (i v : Nat) (s : State) : Nat :=
  if f.id = PWR_DROOP_CFG.t2_mv.id then
    let t1 := rd PWR_DROOP_CFG.t1_mv 0 s
    if v ≤ t1 then min 63 (t1 + 5) else v
  else if f.id = TIM_TOUT_W4.width.id then min (2 ^ 24 - 1) (min (rd TIM_TOUT_W3.period i s - 4) (max 4 v))
  else if f.id = HIF_BUS_CFG.i2c_speed.id then mapParts 2 (fun x => if x = 3 then 2 else x) 8 v
  else if f.id = SLC_KEY_PROFILE_SLOTS.slots.id && i % 5 = 4 then v % 2 ^ 24
  else if f.id = POOL_REQ_QR.quota.id then min v (poolCount (i % 4))
  else if f.id = SCH_POL_W4.red_action.id && rdB SCH_POL_W4.bound i s && v = 0 then 2
  else match f.lim with
    | .any => v
    | .range lo hi => max lo (min hi v)
    | .zeroFrom n => if n ≤ v then 0 else v
    | .rate => if v ≠ 0 && v < 8 then 8 else min v 1600000000

/-- Fields that keep their value whatever is written (R333: max_depth of SL16). -/
def fixedFld (f : Fld) (i : Nat) : Bool := f.id = PWR_SLICE.max_depth.id && i = 16

/-- Store a written word in the fields of a register that satisfy a test. -/
def setFields (p : Fld → Bool) (r : Reg) (i w : Nat) (s : State) : State :=
  forEach (r.fields.filter (fun f => p f && !fixedFld f i)) (fun f t => wr f i (stored f i (part f w) t) t) s

/-- Does a mask cover any bit of a field? -/
def covers (f : Fld) (mask : Nat) : Bool := part f mask ≠ 0

/-- The RW and ST bits of a register word after a masked write: `(old & ~mask) | (value & mask)`. -/
def mergeWord (r : Reg) (i mask value : Nat) (s : State) : Nat :=
  let old := compose (fun f => if f.acc = .rw || f.acc = .st then rd f i s else 0) r
  (old &&& (0xFFFFFFFF - mask % 2 ^ 32)) ||| (value &&& mask)

/-- Write 1 to clear (R9). A host pending bit clears by its own rule (R381). -/
def clearW1c (r : Reg) (i w : Nat) (s : State) : State :=
  if r.id = rINTC_HPEND.id then forEach ((List.range 16).filter (fun k => bitOf w k)) (fun k t => clrHpend (16 * i + k) t) s
  else forEach (r.fields.filter (fun f => f.acc = .w1c)) (fun f t => wr f i (rd f i t - (rd f i t &&& part f w)) t) s

/-! ### Effects of a stored value -/

/-- Did field `f` change from `s0` to `s`? -/
def chg (f : Fld) (i : Nat) (s0 s : State) : Bool := rd f i s0 ≠ rd f i s

/-- A port's test functions have changed (R76). -/
def testNote (p : Nat) (s0 s : State) : State :=
  if testActive p s = testActive p s0 || !portExists p s then s
  else if testActive p s then linkDown p 6 s else bringStart p s

/-- Ports (PRT): octet mode (R51), admin_up (R60, R72), tag (R64), hold (R75), cable (R59), tests (R76), modules (R77). A commit that
changes how a port whose link is down is brought up begins its bring-up again. -/
def afterPrt (s0 : State) (r : Reg) (i : Nat) (s : State) : State :=
  if r.id = rPRT_OCT_CFG.id then
    let m := rd PRT_OCT_CFG.mode i s
    octetMode i m (wr PRT_OCT_CFG.mode i (rd PRT_OCT_CFG.mode i s0) s)
  else if r.id = rPRT_PORT_CFG.id then
    let on := rdB PRT_PORT_CFG.admin_up i s
    let s := if chg PRT_PORT_CFG.an_enable i s0 s || chg PRT_PORT_CFG.lt_enable i s0 s || chg PRT_PORT_CFG.medium i s0 s then
        (if rdB PRT_PORT_STATUS.link_up i s then s else bringStart i (bringStop i s)) else s
    let s := if chg PRT_PORT_CFG.ibyon_enable i s0 s then tagNote i s else s
    if chg PRT_PORT_CFG.admin_up i s0 s then adminUp i on (wr PRT_PORT_CFG.admin_up i (rd PRT_PORT_CFG.admin_up i s0) s) else s
  else if r.id = rPRT_PORT_FLAP.id then setL LPRT.flaps i [] s
  else if r.id = rPRT_PORT_STATUS.id then
    if chg PRT_PORT_STATUS.flap_hold i s0 s then bringStart i (setL LPRT.flaps i [] s) else s
  else if r.id = rPRT_PORT_LOOP.id then testNote i s0 s
  else if r.id = rPRT_LANE_CFG.id then testNote (lanePort i s) s0 s
  else if r.id = rPRT_OCT_MODULE_CTRL.id then
    if chg PRT_OCT_MODULE_CTRL.force_lp i s0 s then moduleForceLp i s else s
  else s

/-- A port has joined, left or changed its bundle (R252, R254). -/
def bundleChanged (s0 : State) (p : Nat) (s : State) : State :=
  let b0 := bundleOf p s0
  let gone := fun (f : Fld) (k : Nat) => (hopPorts (rd f k s0) s0).contains p && !(hopPorts (rd f k s) s).contains p
  let s := memberRemoved p ((liveHops s0).filter (gone HOP.eg)) ((liveHops s0).filter (gone HOP.in_)) s
  let s := if b0 = 0 then s else epiEnd 3 p p s
  let s := if bundleOf p s = 0 then wr FAB_PORT.in_mask p 0 s else s
  bundleNote (bundleOf p s) (bundleNote b0 s)

/-- A Round's schedule has changed: its next boundary is the first of the new one. -/
def roundChanged (s0 : State) (k : Nat) (s : State) : State :=
  if chg FAB_ROUND_W0.enable k s0 s || chg FAB_ROUND_W0.tb k s0 s || chg FAB_ROUND_W1.period k s0 s || chg FAB_ROUND_W2.base_lo k s0 s
      || chg FAB_ROUND_W3.base_hi k s0 s then wr HRND.next k 0 (wr HRND.last k 0 s)
  else s

/-- Was the device in a power group, and is the group the same? -/
def pgAfter (s0 s : State) : State :=
  pgChanged (inGroup s0) (rd FAB_PG_CFG.group_id 0 s0 = rd FAB_PG_CFG.group_id 0 s) s

/-- Fabric (FAB): bundles, Rounds, power group. -/
def afterFab (s0 : State) (r : Reg) (i : Nat) (s : State) : State :=
  if r.id = rFAB_PORT.id then (if chg FAB_PORT.bundle i s0 s then bundleChanged s0 i s else s)
  else if r.id = rFAB_ROUND_W0.id || r.id = rFAB_ROUND_W1.id || r.id = rFAB_ROUND_W2.id || r.id = rFAB_ROUND_W3.id then roundChanged s0 i s
  else if r.id = rFAB_PG_CFG.id then pgAfter s0 s
  else s

/-- A write of word `w` under a mask sets a policer's enable to 1 (R237). A bound policer's enable is not written (R233). -/
def polWritten (r : Reg) (i mask w : Nat) (s : State) : State :=
  if r.id = rSCH_POL_W4.id && covers SCH_POL_W4.enable mask && part SCH_POL_W4.enable w = 1 && !rdB SCH_POL_W4.bound i s then polFill i s else s

/-- Scheduler (SCH): gates (R229), watch entries (R241). -/
def afterSch (s0 : State) (r : Reg) (i : Nat) (s : State) : State :=
  if r.id = rSCH_PORT_W2.id || r.id = rSCH_PORT_W3.id || r.id = rSCH_PORT_W4.id || r.id = rSCH_PORT_W5.id then
    if r.fields.any (fun f => chg f i s0 s) then gateCommit i s else s
  else if r.id = rSCH_WATCH.id then forEach (List.range 32) (fun b t => clrCnt cnt_SCH_bins (i * 32 + b) t) s
  else s

/-- A base's instance is gone, or has another source, domain or profile: the Announces, path traces and Syncs it holds end with it. -/
def instForget (b : Nat) (s : State) : State :=
  forEach (touched TIM_PORT_W6.roles s) (fun p t =>
    wr HSY.wait (b * 1024 + p) 0 (setL LTB.path (b * 1024 + p) [] (setL LTB.ann (b * 1024 + p) [] t))) s

/-- A commit has changed an instance of PTP (R288, R294 cause 7): a base whose instance is disabled or has another source loses lock
or goes over to its standby (R298), and one that runs with no source is locked. -/
def instChanged (s0 : State) (b : Nat) (s : State) : State :=
  if b = 0 then s
  else
    let off := rdB TIM_TB_W0.enable b s0 && !rdB TIM_TB_W0.enable b s
    let s := if off || chg TIM_TB_W0.source b s0 s then wr HTB.last b 0 (instFail b 7 s) else s
    let s := if off || [TIM_TB_W0.source, TIM_TB_W0.domain, TIM_TB_W0.profile].any (fun f => chg f b s0 s) then instForget b s else s
    if rdB TIM_TB_W0.enable b s then
      let s := bmca b s
      if rd TIM_TB_W0.source b s = 0 && rd TIM_TB_W5.state b s ≠ 2 then gainLock b s else s
    else forEach (touched TIM_PORT_W6.roles s) (fun p t => setRole p b 0 t) s

/-- A class_limit below the grandmaster's clockClass is a loss of lock with cause 6 (R294). -/
def limitChanged (b : Nat) (s : State) : State :=
  revertNote b (if rdB TIM_TB_W0.enable b s && rd TIM_TB_W0.source b s = 1 && !classOk b s then instFail b 6 s else s)

/-- A port's set of instances has changed: roles follow. -/
def maskChanged (s0 : State) (p : Nat) (s : State) : State :=
  forEach ([1, 2, 3, 4, 5, 6, 7].filter (fun b => rdBit TIM_PORT_W0.ptp_mask p (b - 1) s0 ≠ rdBit TIM_PORT_W0.ptp_mask p (b - 1) s))
    (fun b t => if rdB TIM_TB_W0.enable b t then
      bmca b (if rdBit TIM_PORT_W0.ptp_mask p (b - 1) t then t else setL LTB.ann (b * 1024 + p) [] (setRole p b 0 t)) else t) s

/-- A write that changes tx_ext or rx_ext sends both to the peer (R287). -/
def extWritten (s0 : State) (p : Nat) (s : State) : State :=
  if chg TIM_PORT_W1.tx_ext p s0 s || chg TIM_PORT_W1.rx_ext p s0 s then extSend p s else s

/-- Time (TIM): instances, external delays (R286, R287), time outputs (R300). -/
def afterTim (s0 : State) (r : Reg) (i : Nat) (s : State) : State :=
  if r.id = rTIM_TB_W0.id then instChanged s0 i s
  else if r.id = rTIM_TB_W4.id then limitChanged i s
  else if r.id = rTIM_PORT_W0.id then delayWatch i (maskChanged s0 i s)
  else if r.id = rTIM_PORT_W3.id then delayWatch i s
  else if r.id = rTIM_PORT_W1.id then extWritten s0 i (asymUpdate i false s)
  else if r.id = rTIM_PORT_W2.id then asymUpdate i false s
  else if r.id = rTIM_TOUT_W0.id then toutAdopt i s
  else s

/-- The other blocks. -/
def afterOther (s0 : State) (r : Reg) (i : Nat) (s : State) : State :=
  if r.id = rTBL_AGE_CFG.id then tickReschedule s
  else if r.id = rPWR_CTRL.id then (if rdB PWR_CTRL.perf_mode 0 s then s else wr HPWR.demand 0 0 s)
  else if r.id = rBUF_HARVEST_CFG.id then
    if rdB BUF_HARVEST_CFG.harvest_enable 0 s0 && !rdB BUF_HARVEST_CFG.harvest_enable 0 s then harvestStop s else s
  else if r.id = rPWR_CAP.id then capNote s
  else if r.id = rPWR_PG_CTRL.id then capNote s
  else if r.id = rPWR_PG_CFG.id then pgAfter s0 s
  else if r.id = rPOOL_LOW.id then poolNote i s
  else if r.id = rPOOL_REQ_QR.id then poolNote (i % 4) s
  else if r.id = rINTC_SRC.id then srcEnabled i (rdB INTC_SRC.enable i s0) s
  else if r.id = rHIF_RING_W2.id then
    if !chg HIF_RING_W2.enable i s0 s then s else if rdB HIF_RING_W2.enable i s then ringEnable i s else ringDisable i s
  else s

/-- What follows a write of register `r`, instance `i`, that took `s0` to `s`. -/
def after (s0 : State) (r : Reg) (i : Nat) (s : State) : State :=
  afterOther s0 r i (afterTim s0 r i (afterSch s0 r i (afterFab s0 r i (afterPrt s0 r i s))))

end Sys2Proof.Machine
end

