-- ==== Sys2Proof/Machine/Chk.lean ====
section
/-!
DEFINITION. The checks that make a commit fail as a whole (R437 phase 1). `s0` is the state in force, `s1` the state the commit would
leave; each check answers whether it fails.
-/

namespace Sys2Proof.Machine

/-- A target of a staged entry: a register, its instance and the bits written. -/
abbrev Tgt := Reg × Nat × Nat

/-- Does a target's write touch field `f`? -/
def tch (t : Tgt) (f : Fld) : Bool := t.1.fields.any (fun g => g.id = f.id) && covers f t.2.2

/-- Does it touch any of these? -/
def tchAny (t : Tgt) (fs : List Fld) : Bool := fs.any (tch t)

/-- Ports of an octet, whatever its mode. -/
def octetSlots (o : Nat) : List Nat := (List.range 8).map (8 * o + ·)

/-! ### Ports and buffer -/

/-- Is a FEC mode allowed in an octet mode (R50)? -/
def fecOk (m f : Nat) : Bool := if m ≤ 5 then f = 3 else if m = 6 then f ≤ 2 else f ≤ 1

/-- R51 for a port. -/
def fecBad (p : Nat) (s1 : State) : Bool := portExists p s1 && !fecOk (portMode p s1) (rd PRT_PORT_CFG.fec_mode p s1)

/-- R252 for a bundle: its members' rate, max_frame, ibyon_enable, hop budget and peer device, their capability (R109), and members
added or a lead changed while a stream uses it. -/
def bundleBad (b : Nat) (s0 s1 : State) : Bool :=
  if b = 0 then false
  else
    let old := bundlePorts b s0
    let ms := bundlePorts b s1
    let l := ms.headD 0
    let lead := fun (p : Nat) => (old ≠ [] && p = old.headD 0) || (ms ≠ [] && p = l)
    let used := (busyStreams s0).any (fun n => (hopKeys n s0).any (fun k => lead (rd HOP.in_ k s0) || lead (rd HOP.eg k s0)))
    ms.any (fun p => portRate p s1 ≠ portRate l s1 || portMax p s1 ≠ portMax l s1 ||
        rd PRT_PORT_CFG.ibyon_enable p s1 ≠ rd PRT_PORT_CFG.ibyon_enable l s1 ||
        rd ADM_PORT_BUDGET.hop_budget p s1 ≠ rd ADM_PORT_BUDGET.hop_budget l s1 ||
        rd PRT_PORT_PEER.peer_device p s1 ≠ rd PRT_PORT_PEER.peer_device l s1 || !admCapable p s1)
      || (used && (ms.any (fun p => !old.contains p) || (ms ≠ [] && l ≠ old.headD 0)))

/-- R200: the early part within the pool, and 65,536 cells left to the shared region. -/
def regionBad (s1 : State) : Bool :=
  rd BUF_RX_CFG.rx_pool 0 s1 < rd BUF_RX_CFG.rx_early 0 s1 ||
    cellCount < rd BUF_RETIRED.retired 0 s1 + reserveTotal s1 + receiveRegion s1 + 65536

/-- Checks on PRT and BUF fields. -/
def chkPort (s0 s1 : State) (t : Tgt) : Bool :=
  let i := t.2.1
  (tch t PRT_OCT_CFG.mode && ((octetSlots i).any (fun p => fecBad p s1 || (portUsed p s0 && !admCapable p s1))
      || (chg PRT_OCT_CFG.mode i s0 s1 && (octetSlots i).any (fun p => portExists p s0 && portUsed p s0))
      || (octetSlots i).any (fun p => bundleBad (bundleOf p s1) s0 s1) || regionBad s1))
    || (tch t PRT_PORT_CFG.fec_mode && fecBad i s1)
    || (tch t PRT_PORT_CFG.medium && rd PRT_PORT_CFG.medium i s1 = 3)
    || (tch t PRT_PORT_CFG.ibyon_enable && (bundleBad (bundleOf i s1) s0 s1 ||
        (rd PRT_PORT_CFG.ibyon_enable i s0 < rd PRT_PORT_CFG.ibyon_enable i s1 && portUsed i s0)))
    || (tch t PRT_PORT_CFG.max_frame && (regionBad s1 || bundleBad (bundleOf i s1) s0 s1 ||
        (portMax i s1 < portMax i s0 && portUsed i s0)))
    || (tch t BUF_RX_CFG.rx_pool && regionBad s1) || (tch t BUF_RX_CFG.rx_early && regionBad s1)
    || (tch t BUF_PORT_RESERVE.reserve && (regionBad s1 ||
        (rd BUF_PORT_RESERVE.reserve i s1 < rd BUF_PORT_RESERVE.reserve i s0 && rd BUF_PORT_RESERVE.reserve i s1 * 1024 < bSum i s0)))
    || (tch t ADM_PORT_BUDGET.hop_budget && (bundleBad (bundleOf i s1) s0 s1 ||
        (portUsed i s0 && rd ADM_PORT_BUDGET.hop_budget i s1 < rd ADM_PORT_BUDGET.hop_budget i s0
          && rd ADM_PORT_BUDGET.hop_budget i s1 < portBound i s0)
        || (ctxPort i s0 && rd ADM_PORT_BUDGET.hop_budget i s1 < portBound i s0 + rd FAB_RSQ_CFG.rsq_timeout 0 s1 * 100 + 10)))
    || (tch t FAB_PORT.bundle && (bundleBad (bundleOf i s0) s0 s1 || bundleBad (bundleOf i s1) s0 s1))

/-! ### Gates and attachments -/

/-- The windows of a port's gated queue under a schedule that open at times of phase `ph` of cycle `c`: phase and length. -/
def heldWindows (p q ph c : Nat) (g : Sched) (s : State) : List (Nat × Nat) :=
  ((windowsOf q (segs p g s)).map (fun w => ((g.base + w.1) % g.cycle, w.2 - w.1))).filter (fun w => phasesMeet w.1 g.cycle ph c)

/-- Does the new schedule of a port keep an admitted window, held at phase `ph` of cycle `c`: it opens at the same times of its time
base, and is no shorter at any of them (R45)? -/
def windowKept (p q ph c : Nat) (s0 s1 : State) : Bool :=
  let g0 := schedNow p s0
  let g1 := schedNext p s1
  let old := heldWindows p q ph c g0 s0
  let new := heldWindows p q ph c g1 s1
  let g := Nat.gcd c g1.cycle
  let n := g1.cycle / g
  g1.on && g1.tb = g0.tb && n ≤ new.length && (List.range n).all (fun k => new.any (fun w => w.1 = (ph + k * g) % g1.cycle)) &&
    old.all (fun v => new.all (fun w => !phasesMeet v.1 g0.cycle w.1 g1.cycle || v.2 ≤ w.2))

/-- Scheduled hops that leave by a port keep their windows. -/
def windowsBad (p : Nat) (s0 s1 : State) : Bool :=
  ((outHops p s0).filter (fun k => rd STM.class_ (hopStream k) s0 = 1)).any
    (fun k => match winPhase p (getL LHOP.wins k s0) with
      | some ph => !windowKept p (rd STM.gq (hopStream k) s0) ph (rd STM.cycle (hopStream k) s0) s0 s1
      | none => false)

/-- The gate set of a port: its ranges, a duration of 0 below gcl_len (R225), and admitted windows (R45). -/
def gatesBad (p : Nat) (s0 s1 : State) : Bool :=
  let g := schedNext p s1
  g.len = 0 || 1024 < g.len || rd SCH_PORT_W3.gate_cycle p s1 < 1000 || 1000000000 < rd SCH_PORT_W3.gate_cycle p s1
    || (List.range g.len).any (fun e => rd SCH_GCL.duration (gclIdx p g.list e) s1 = 0) || windowsBad p s0 s1

/-- Subscriber nodes that hops of tentative, admitted or draining streams name; a scheduled hop's sub_node names none (R19). -/
def namedNodes (s : State) : List Nat :=
  (busyStreams s).flatMap (fun n => if rd STM.class_ n s = 2 then (hopKeys n s).map (fun k => rd HOP.node k s) else [])

/-- Is a subscriber node in use: it holds a frame, or a hop names it (R211)? -/
def nodeHeld (n : Nat) (s : State) : Bool :=
  (List.range 8).any (fun q => getL LBUF.q ((8 * n + q) * 4) s ≠ []) || (namedNodes s).contains n

/-- R211 for a service node. -/
def svcHeld (v : Nat) (s : State) : Bool :=
  let queued := (mkind s.lists LBUF.q.id).filterMap (fun e => if e.1 % 4 = 0 then some (e.1 / 32) else none)
  (queued ++ namedNodes s).any (fun n => rd SCH_SUB_W0.parent n s = v && nodeHeld n s)

/-- Checks on SCH fields. -/
def chkSched (s0 s1 : State) (t : Tgt) : Bool :=
  let i := t.2.1
  (tchAny t [SCH_PORT_W2.gate_enable, SCH_PORT_W2.gate_tb, SCH_PORT_W2.active_list, SCH_PORT_W2.gcl_len, SCH_PORT_W3.gate_cycle,
      SCH_PORT_W4.gate_base_lo, SCH_PORT_W5.gate_base_hi] && gatesBad i s0 s1)
    || (tchAny t [SCH_GCL.duration, SCH_GCL.open_] && gatesBad (i / 2048) s0 s1)
    || (tch t SCH_SUB_W0.parent && chg SCH_SUB_W0.parent i s0 s1 && nodeHeld i s0)
    || (tch t SCH_SVC_W0.port && chg SCH_SVC_W0.port i s0 s1 && svcHeld i s0)

/-! ### Fabric and time -/

/-- A Round that a stream in use carries may keep neither its schedule changed nor its enable cleared (R263). -/
def roundBad (r : Nat) (s0 s1 : State) : Bool :=
  let used := (busyStreams s0).any (fun n => rd FAB_STREAM_W0.round n s0 = r + 1)
  let p := rd FAB_ROUND_W1.period r s1
  p < 31250 || 1000000000 < p ||
    (used && (chg FAB_ROUND_W0.tb r s0 s1 || chg FAB_ROUND_W1.period r s0 s1 || chg FAB_ROUND_W2.base_lo r s0 s1
      || chg FAB_ROUND_W3.base_hi r s0 s1 || (rdB FAB_ROUND_W0.enable r s0 && !rdB FAB_ROUND_W0.enable r s1)))

/-- R257 for a raised rsq_timeout: every port a stream with ctx_en leaves by. -/
def rsqBad (s0 s1 : State) : Bool :=
  rd FAB_RSQ_CFG.rsq_timeout 0 s0 < rd FAB_RSQ_CFG.rsq_timeout 0 s1 &&
    (liveHops s1).any (fun k => rdB FAB_STREAM_W0.ctx_en (hopStream k) s1 && (hopOut k s1).any (fun p =>
      rd ADM_PORT_BUDGET.hop_budget p s1 < portBound p s1 + rd FAB_RSQ_CFG.rsq_timeout 0 s1 * 100 + 10))

/-- The FAB_STREAM fields of a stream. -/
def strFields : List Fld :=
  [FAB_STREAM_W0.ctx, FAB_STREAM_W0.ctx_en, FAB_STREAM_W0.round, FAB_STREAM_W0.spray, FAB_STREAM_W0.split, FAB_STREAM_W1.partner]

/-- A split stream's partner does not name it back (R271). -/
def splitBad (n : Nat) (s1 : State) : Bool :=
  rdB FAB_STREAM_W0.split n s1 && rd FAB_STREAM_W1.partner (rd FAB_STREAM_W1.partner n s1) s1 ≠ n

/-- R271 for a stream: its own fields, and the streams that name it as partner. -/
def strBad (n : Nat) (s0 s1 : State) : Bool :=
  16 < rd FAB_STREAM_W0.round n s1 || (strState n s0 ≠ 0 && strFields.any (fun f => chg f n s0 s1)) || splitBad n s1
    || (touched FAB_STREAM_W0.split s1).any (fun m => rd FAB_STREAM_W1.partner m s1 = n && splitBad m s1)

/-- Checks on FAB fields. -/
def chkFab (s0 s1 : State) (t : Tgt) : Bool :=
  let i := t.2.1
  (tchAny t [FAB_ROUND_W0.enable, FAB_ROUND_W0.tb, FAB_ROUND_W1.period, FAB_ROUND_W2.base_lo, FAB_ROUND_W3.base_hi] && roundBad i s0 s1)
    || (tchAny t strFields && strBad i s0 s1) || (tch t FAB_RSQ_CFG.rsq_timeout && rsqBad s0 s1)

/-- The pairs of R297 after a commit: a partner with source 1 and another domain, and no base in two pairs. -/
def pairsBad (s1 : State) : Bool :=
  let ps := [1, 2, 3, 4, 5, 6, 7].filter (fun b => rdB TIM_TB_W0.pair_en b s1)
  let ms := ps ++ ps.map (fun b => rd TIM_TB_W0.partner b s1)
  ps.any (fun b =>
      let q := rd TIM_TB_W0.partner b s1
      q = b || q = 0 || rd TIM_TB_W0.source q s1 ≠ 1 || rd TIM_TB_W0.domain q s1 = rd TIM_TB_W0.domain b s1)
    || ms.eraseDups.length ≠ ms.length

/-- Two instances enabled on one port with one domain (R288). -/
def domainsBad (s1 : State) : Bool :=
  (touched TIM_PORT_W0.ptp_mask s1).any (fun p =>
    let bs := [1, 2, 3, 4, 5, 6, 7].filter (fun b => rdB TIM_TB_W0.enable b s1 && rdBit TIM_PORT_W0.ptp_mask p (b - 1) s1)
    let ds := bs.map (fun b => rd TIM_TB_W0.domain b s1)
    ds.eraseDups.length ≠ ds.length)

/-- Source 2 of a base names a pin that is not enabled for rising edges in that base (R303). -/
def tinBad (b : Nat) (s1 : State) : Bool :=
  let n := rd TIM_TB_W0.tin b s1
  rd TIM_TB_W0.source b s1 = 2 && !(rdB TIM_TIN_W0.enable n s1 && rdBit TIM_TIN_W0.edge n 0 s1 && rd TIM_TIN_W0.tb n s1 = b)

/-- An instance is enabled while clock_id is 0. -/
def clockBad (s0 s1 : State) : Bool :=
  rd TIM_CLOCK_ID.clock_id 0 s1 = 0 && rd TIM_CLOCK_ID.clock_id 1 s1 = 0 &&
    [1, 2, 3, 4, 5, 6, 7].any (fun b => rdB TIM_TB_W0.enable b s1 && (!rdB TIM_TB_W0.enable b s0 ||
      rd TIM_CLOCK_ID.clock_id 0 s0 ≠ 0 || rd TIM_CLOCK_ID.clock_id 1 s0 ≠ 0))

/-- Checks on TIM fields. -/
def chkTim (s0 s1 : State) (t : Tgt) : Bool :=
  let i := t.2.1
  (tch t TIM_TB_W0.source && rd TIM_TB_W0.source i s1 = 3)
    || (tch t TIM_TB_W0.profile && rd TIM_TB_W0.profile i s1 = 3)
    || (tchAny t [TIM_TB_W0.transport, TIM_TB_W0.profile] &&
        (rd TIM_TB_W0.transport i s1 = 3 || (rd TIM_TB_W0.profile i s1 = 0 && rd TIM_TB_W0.transport i s1 ≠ 0)))
    || (tchAny t [TIM_TB_W0.pair_en, TIM_TB_W0.partner, TIM_TB_W0.source, TIM_TB_W0.domain] && pairsBad s1)
    || (tchAny t [TIM_TB_W0.enable, TIM_TB_W0.domain, TIM_PORT_W0.ptp_mask] && domainsBad s1)
    || (tchAny t [TIM_TB_W0.source, TIM_TB_W0.tin] && tinBad i s1)
    || (tchAny t [TIM_TIN_W0.enable, TIM_TIN_W0.edge, TIM_TIN_W0.tb] && [1, 2, 3, 4, 5, 6, 7].any (fun b => tinBad b s1))
    || (tchAny t [TIM_TB_W0.enable, TIM_CLOCK_ID.clock_id] && clockBad s0 s1)

/-! ### Tables, pools, power -/

/-- R147: partitions overlap or run past the pool, the stream partition is too large, or one that holds an entry changes. -/
def partsBad (p : Nat) (s0 s1 : State) : Bool :=
  let lo := fun q => rd TBL_PART_CFG.base q s1
  let hi := fun q => rd TBL_PART_CFG.base q s1 + rd TBL_PART_CFG.size q s1
  let meet := fun a b => lo a < hi a && lo b < hi b && lo a < hi b && lo b < hi a
  meet 0 1 || meet 0 2 || meet 1 2 || [0, 1, 2].any (fun q => 32 < hi q) || 4 < rd TBL_PART_CFG.size 2 s1 ||
    ((chg TBL_PART_CFG.base p s0 s1 || chg TBL_PART_CFG.size p s0 s1) &&
      (mkind s0.tbl 0).any (fun e => kindPart (slotKind e.2) = p && slotValid e.1 s0))

/-- A forwarding profile names a container of the wrong width. -/
def fwdBad (k : Nat) (s1 : State) : Bool :=
  let wide := fun (f : Fld) => rd f k s1 < 32 || 47 < rd f k s1
  let half := fun (f : Fld) => rd f k s1 < 16 || 31 < rd f k s1
  let v := rd TBL_FWD_PROFILE_W1.ip_ver k s1
  let d := rd TBL_FWD_PROFILE_W1.dip_c k s1
  v = 3 || (rdB TBL_FWD_PROFILE_W0.l2_en k s1 &&
    (wide TBL_FWD_PROFILE_W0.da_hi || wide TBL_FWD_PROFILE_W0.sa_hi || half TBL_FWD_PROFILE_W0.da_lo || half TBL_FWD_PROFILE_W0.sa_lo
      || half TBL_FWD_PROFILE_W0.vid_c || (v ≠ 0 && (d < 32 || 47 < d + (if v = 2 then 3 else 0)))))

/-- R408 for a requester and pool. -/
def quotaBad (i : Nat) (s1 : State) : Bool :=
  rd POOL_REQ_QR.quota i s1 < rd POOL_REQ_QR.reserve i s1 ||
    poolCount (i % 4) < ((List.range 32).map (fun q => rd POOL_REQ_QR.reserve (q * 4 + i % 4) s1)).sum

/-- Checks on TBL, POOL and PWR fields. -/
def chkMisc (s0 s1 : State) (t : Tgt) : Bool :=
  let i := t.2.1
  (tchAny t [TBL_PART_CFG.base, TBL_PART_CFG.size] && partsBad i s0 s1)
    || ((t.1.id = rTBL_FWD_PROFILE_W0.id || t.1.id = rTBL_FWD_PROFILE_W1.id) && fwdBad i s1)
    || (t.1.id = rPOOL_REQ_QR.id && quotaBad i s1)
    || (tch t PWR_PG_CFG.pg_size && (rd PWR_PG_CFG.pg_size 0 s1 = 0 || 256 < rd PWR_PG_CFG.pg_size 0 s1))

/-! ### Slice programs (R123, R125, R127, R137, R149) -/

/-- A source code of a key slot that R125 does not list. -/
def srcBad (c : Nat) : Bool :=
  !(c ≤ 0x30 || (0x40 ≤ c && c ≤ 0x42) || (0x50 ≤ c && c ≤ 0x53) || (0x60 ≤ c && c ≤ 0x63))

/-- Does a run of containers hold one that a hash does not select, or run past the last? -/
def runBad (sel a n : Nat) : Bool := (List.range n).any (fun k => 48 ≤ a + k || !sel.testBit (a + k))

/-- Widths of a run. -/
def runWidth (a n : Nat) : Nat := ((List.range n).map (fun k => contBytes (a + k))).sum

/-- R123 for a hash. -/
def hashBad (h : Nat) (s1 : State) : Bool :=
  let sel := hashSel h s1
  let ps := hashPairs h s1
  let cs := ps.map (fun p => (List.range p.2.2).map (p.1 + ·) ++ (List.range p.2.2).map (p.2.1 + ·))
  ps.any (fun p => p.2.2 = 0 || 4 < p.2.2 || runBad sel p.1 p.2.2 || runBad sel p.2.1 p.2.2 || runWidth p.1 p.2.2 ≠ runWidth p.2.1 p.2.2)
    || cs.flatten.eraseDups.length ≠ cs.flatten.length

/-- A stream key profile lists a reserved code, or more than 192 bits (R137, R149). -/
def sidBad (sl j : Nat) (s1 : State) : Bool :=
  let l := ((List.range 12).map (fun i => bitsOf (rd SLC_SID_KEY.containers ((sl * 3 + (j - 1)) * 3 + i / 5) s1) (6 * (i % 5)) 6)).takeWhile (· < 63)
  l.any (fun c => 48 ≤ c) || 192 < 8 * (l.map contBytes).sum

/-- Under a slice's templates a valid rule, or a default action, pushes too much (R137). -/
def pushBad (sl : Nat) (s1 : State) : Bool :=
  (mkind s1.lists LRULE.rule.id).any (fun e => e.1 / 65536 = sl && e.2.headD 0 = 1 && !rdB HRULE.inval e.1 s1 && 128 < pushTotal sl (opsOf (ruleActs e.2)) s1)
    || (List.range 16).any (fun k => actsBad sl (defActs sl k s1) s1)

/-- Checks on SLC fields; `per` is how many instances of the register a slice has. -/
def chkSlice (s0 s1 : State) (t : Tgt) : Bool :=
  let r := t.1
  let i := t.2.1
  let per := (r.dims.map (·.1)).prod / 17
  let sl := i / per
  if r.base < 0x10000000 then false
  else if r.id = rSLC_PRS_CTRL.id then
    (slicePorts sl s1).any (fun p => portUsed p s0 && !admCapable p s1) ||
      (tch t SLC_PRS_CTRL.window && (slicePorts sl s1).any (fun p => bundleBad (bundleOf p s1) s0 s1))
  else if r.id = rSLC_PRS_STATE_W0.id then 10 ≤ rd SLC_PRS_STATE_W0.hdr_kind i s1
  else if r.id = rSLC_PRS_STATE_W1.id then 8 < rd SLC_PRS_STATE_W1.ext_count i s1
  else if r.id = rSLC_PRS_EXTRACT.id then
    let c := rd SLC_PRS_EXTRACT.container i s1
    48 ≤ c || contBytes c ≠ [1, 2, 4].getD (rd SLC_PRS_EXTRACT.width i s1) 0
  else if r.id = rSLC_KEY_PROFILE_SLOTS.id then
    (List.range (if i % 5 = 4 then 3 else 4)).any (fun b => srcBad (bitsOf (rd SLC_KEY_PROFILE_SLOTS.slots i s1) (8 * b) 8))
  else if r.id = rSLC_SID_KEY.id then sidBad sl (i % per / 3 + 1) s1
  else if r.id = rSLC_RANGE_W1.id then rdB SLC_RANGE_W1.enable i s1 && 48 ≤ rd SLC_RANGE_W1.container i s1
  else if r.id = rSLC_HASH_SEL_LO.id || r.id = rSLC_HASH_SEL_HI.id || r.id = rSLC_HASH_PAIR.id then hashBad i s1
  else if r.id = rSLC_TEMPLATE_W0.id then
    let len := rd SLC_TEMPLATE_W0.length i s1
    64 < len || 4 < rd SLC_TEMPLATE_W0.sub_count i s1 || (rd SLC_TEMPLATE_W0.kind i s1 = 2 && len ≠ 0) || pushBad sl s1
  else if r.id = rSLC_TEMPLATE_SUB.id then
    48 ≤ rd SLC_TEMPLATE_SUB.container i s1 || rd SLC_TEMPLATE_SUB.width i s1 = 3
  else if r.id = rSLC_DEF_ACT.id then actsBad sl (defActs sl (i % per / 16) s1) s1
  else false

/-! ### All checks -/

/-- Does a check fail at this target? -/
def chkTgt (s0 s1 : State) (t : Tgt) : Bool :=
  chkPort s0 s1 t || chkSched s0 s1 t || chkFab s0 s1 t || chkTim s0 s1 t || chkMisc s0 s1 t || chkSlice s0 s1 t

end Sys2Proof.Machine
end

