-- ==== Sys2Proof/Machine/Win.lean ====
section
/-!
DEFINITION. Where a register write lands: the targets of an address (R528, R362), the fields a rule of their block keeps from being
written, the images of slices at rest or failed (R332, R361), and the storing of one write.
-/

namespace Sys2Proof.Machine

/-! ### Slice windows -/

/-- Is a register one of a slice's window? -/
def sliceReg (r : Reg) : Bool := 0x10000000 ≤ r.base

/-- Instances of a slice register that one slice has. -/
def slicePer (r : Reg) : Nat := (r.dims.map (·.1)).prod / 17

/-- The slice an instance of a slice register belongs to. -/
def sliceOf (r : Reg) (i : Nat) : Nat := i / slicePer r

/-- The same register of another slice. -/
def instAt (r : Reg) (sl i : Nat) : Nat := sl * slicePer r + i % slicePer r

/-- Offset of an instance within its slice's window. -/
def sliceOff (r : Reg) (i : Nat) : Nat := (regAddr r i - 0x10000000) % 0x1000000

/-- Does SL16 serve the macros of slice `sl` (R362)? -/
def by16 (sl : Nat) (s : State) : Bool :=
  sl < 16 && (List.range 4).any (fun m => rd PRT_MACRO_STATUS.serving_slice (4 * sl + m) s = 16)

/-- The instances of a register that a write at an address reaches (R362, R528). -/
def winTargets (a : Nat) (r : Reg) (i : Nat) (s : State) : List Nat :=
  if !sliceReg r then [i]
  else if 0x20000000 ≤ a then
    (if rdB GLB_CTRL.win16_mode 0 s then [i] else (List.range 17).map (fun sl => instAt r sl i))
  else if by16 (sliceOf r i) s then [i, instAt r 16 i] else [i]

/-- Does a write to slice `sl` wait in always-on configuration memory: in Winter, Thawing or failed (R332)? -/
def sliceHeld (sl : Nat) (s : State) : Bool := sliceAsleep sl s

/-- A write that waits: offset, value and mask in one number. -/
def imgCode (off value mask : Nat) : Nat := off + 2 ^ 24 * (value % 2 ^ 32) + 2 ^ 56 * mask

/-- Leave a write in a slice's image. -/
def imgPush (sl off value mask : Nat) (s : State) : State := pushL LSLC.img sl (imgCode off value mask) s

/-! ### Fields that may not be written now -/

/-- Fields of a register that a rule of their block keeps from being written now: the gate lists in force and pending (R229), the fields
of a bound policer (R233), tests of a port in use (R76), a running ring's set-up (R478), TB0's words. -/
def lockedFlds (r : Reg) (i : Nat) (s : State) : List Fld :=
  if r.id = rSCH_GCL.id then
    let p := i / 2048
    let l := i / 1024 % 2
    if rd GATE.list p s = l || (rdB SCH_PORT_W6.list_pending p s && rd SCH_PORT_W2.active_list p s = l) then r.fields
    else []
  else if r.id = rSCH_POL_W0.id || r.id = rSCH_POL_W1.id || r.id = rSCH_POL_W2.id || r.id = rSCH_POL_W3.id then
    (if rdB SCH_POL_W4.bound i s then r.fields else [])
  else if r.id = rSCH_POL_W4.id then (if rdB SCH_POL_W4.bound i s then [SCH_POL_W4.enable, SCH_POL_W4.max_charge] else [])
  else if r.id = rPRT_PORT_LOOP.id then (if portUsed i s then r.fields else [])
  else if r.id = rPRT_LANE_CFG.id then (if portUsed (lanePort i s) s then [PRT_LANE_CFG.prbs_gen, PRT_LANE_CFG.prbs_check] else [])
  else if r.id = rHIF_RING_W0.id || r.id = rHIF_RING_W1.id then (if rdB HIF_RING_W2.enable i s then r.fields else [])
  else if r.id = rHIF_RING_W2.id then (if rdB HIF_RING_W2.enable i s then [HIF_RING_W2.kind, HIF_RING_W2.log_size] else [])
  else if i = 0 && [rTIM_TB_W0, rTIM_TB_W1, rTIM_TB_W2, rTIM_TB_W3, rTIM_TB_W4, rTIM_TB_W5, rTIM_TB_W6, rTIM_TB_W7, rTIM_TB_W12,
      rTIM_TB_W13, rTIM_TB_W14, rTIM_TB_W15].any (fun x => x.id = r.id) then r.fields
  else []

/-- A value its block refuses: the whole write is ignored (hop_budget R26, R109, R257; exp_bit R77; a ring's tail R471). -/
def badValue (r : Reg) (i mask w : Nat) (s : State) : Bool :=
  if r.id = rADM_PORT_BUDGET.id then
    let v := part ADM_PORT_BUDGET.hop_budget w
    v < portBound i s || (v ≠ 0 && !admCapable i s) || (ctxPort i s && v < portBound i s + rd FAB_RSQ_CFG.rsq_timeout 0 s * 100 + 10)
  else if r.id = rPRT_OCT_MODULE_MAP.id then covers PRT_OCT_MODULE_MAP.exp_bit mask && 5 ≤ part PRT_OCT_MODULE_MAP.exp_bit w
  else if r.id = rHIF_RING_W3.id then tailOver i w s
  else false

/-- Would a write meet a locked field: one whose bits differ, or a register every field of which is locked? -/
def lockHit (r : Reg) (i mask w : Nat) (s : State) : Bool :=
  let ls := (lockedFlds r i s).filter (fun f => covers f mask)
  ls.any (fun f => part f w ≠ rd f i s) || (ls ≠ [] && (lockedFlds r i s).length = r.fields.length)

/-! ### Storing one write -/

/-- Fields of a register a write may set now: of an access code, under its mask, not locked. -/
def openFld (r : Reg) (i mask : Nat) (s : State) (f : Fld) : Bool :=
  covers f mask && !(lockedFlds r i s).any (fun g => g.id = f.id)

/-- Store the RW and, where `st`, the ST fields of a masked write, without what follows it. -/
def rawStore (st : Bool) (r : Reg) (i mask value : Nat) (s : State) : State :=
  setFields (fun f => (f.acc = .rw || (st && f.acc = .st)) && openFld r i mask s f) r i (mergeWord r i mask value s) s

/-- A rule command reaches a slice (R138, R140): ops 1 to 5 while none runs. Another op, or one while busy, is the caller's to count. -/
def ruleCmdOk (sl w : Nat) (s : State) : Bool :=
  let op := part SLC_RULE_CMD.op w
  1 ≤ op && op ≤ 5 && !rdB SLC_RULE_STATUS.busy sl s

/-- The WO registers of a slice that act on the slice itself. -/
def sliceWo (r : Reg) (i w : Nat) (s : State) : State :=
  let sl := sliceOf r i
  if r.id = rSLC_RULE_CMD.id then
    (if ruleCmdOk sl w s then ruleIssue sl (part SLC_RULE_CMD.op w) (part SLC_RULE_CMD.index w) s else s)
  else if r.id = rSLC_ENG_CTRL.id then engUnfence sl (part SLC_ENG_CTRL.unfence w) s
  else s

/-- A write that has waited in a slice's image takes effect (R332): rule commands run to their end one after another. -/
def imgApply (sl e : Nat) (s : State) : State :=
  let value := e / 2 ^ 24 % 2 ^ 32
  let mask := e / 2 ^ 56
  match findReg (0x10000000 + sl * 0x1000000 + e % 2 ^ 24) regsSLC with
  | none => s
  | some (r, i) =>
    let s := ruleDone sl (sliceWo r i (value &&& mask) s)
    rawStore true r i mask value (clearW1c r i (value &&& mask) s)

/-- Every waiting write of a slice takes effect on slice `onto`. -/
def imgReplay (sl onto : Nat) (s : State) : State := forEach (getL LSLC.img sl s) (imgApply onto) s

/-- The image of a slice takes effect and is emptied. -/
def imgTake (sl : Nat) (s : State) : State := setL LSLC.img sl [] (imgReplay sl sl s)

end Sys2Proof.Machine
end

