-- ==== Sys2Proof/Machine/Cs.lean ====
section
/-!
DEFINITION. Change sets (R434 to R441): arming, the three phases of a commit, and the pairs of R440.
-/

namespace Sys2Proof.Machine

/-! ### Pairs (R440, R441) -/

/-- The pair a register belongs to, its instance, and whether it holds the second field. -/
def pairOf (r : Reg) (i : Nat) : Option (Nat × Nat × Bool) :=
  if r.id = rTBL_ROUTER_MAC_LO.id then some (0, 0, false)
  else if r.id = rTBL_ROUTER_MAC_HI.id then some (0, 0, true)
  else if r.id = rSCH_SUB_W1.id then some (1, i, false)
  else if r.id = rSCH_SUB_W3.id then some (1, i, true)
  else if r.id = rSCH_SVC_W1.id then some (1, 32768 + i, false)
  else if r.id = rSCH_SVC_W3.id then some (1, 32768 + i, true)
  else if r.id = rTIM_TB_W12.id then some (2, i, false)
  else if r.id = rTIM_TB_W13.id then some (2, i, true)
  else if r.id = rPWR_CAP.id then some (3, 0, false)
  else if r.id = rPWR_PG_CTRL.id then some (3, 0, true)
  else none

/-- The register, field and register instance of one side of a pair's instance. -/
def pairFld (pair inst : Nat) (hi : Bool) : Reg × Fld × Nat :=
  match pair with
  | 0 => if hi then (rTBL_ROUTER_MAC_HI, TBL_ROUTER_MAC_HI.mac_hi, 0) else (rTBL_ROUTER_MAC_LO, TBL_ROUTER_MAC_LO.mac_lo, 0)
  | 1 =>
    if inst < 32768 then (if hi then (rSCH_SUB_W3, SCH_SUB_W3.max_rate, inst) else (rSCH_SUB_W1, SCH_SUB_W1.min_rate, inst))
    else if hi then (rSCH_SVC_W3, SCH_SVC_W3.max_rate, inst - 32768) else (rSCH_SVC_W1, SCH_SVC_W1.min_rate, inst - 32768)
  | 2 => if hi then (rTIM_TB_W13, TIM_TB_W13.arg_hi, inst) else (rTIM_TB_W12, TIM_TB_W12.arg_lo, inst)
  | _ => if hi then (rPWR_PG_CTRL, PWR_PG_CTRL.pg_min, 0) else (rPWR_CAP, PWR_CAP.power_limit, 0)

/-- Do the values of pair 1 or 3 agree (R440)? -/
def pairAgree (pair lo hi : Nat) : Bool := if pair = 1 then hi = 0 || lo ≤ hi else hi ≤ lo

/-- Key of a pair's instance. -/
def pairKey (pair inst : Nat) : Nat := pair * 65536 + inst

/-- The pending value of one side plus one. -/
def pairPend (pair inst : Nat) (hi : Bool) (s : State) : Nat := rd (if hi then HPAIR.hi else HPAIR.lo) (pairKey pair inst) s

/-- Set the pending value of one side, 0 for none. -/
def pairHold (pair inst : Nat) (hi : Bool) (v : Nat) (s : State) : State := wr (if hi then HPAIR.hi else HPAIR.lo) (pairKey pair inst) v s

/-- A live write of `v` to one side of a pair (R441). -/
def pairWrite (pair inst : Nat) (hi : Bool) (v : Nat) (s0 : State) : State :=
  let (r, f, i) := pairFld pair inst hi
  let (r', f', i') := pairFld pair inst (!hi)
  let v := stored f i v s0
  let pend := pairPend pair inst (!hi) s0
  let agree := fun (w : Nat) => if hi then pairAgree pair w v else pairAgree pair v w
  if pend ≠ 0 && (pair = 0 || pair = 2 || agree (pend - 1)) then
    let s := wr f i v (wr f' i' (pend - 1) s0) |> pairHold pair inst hi 0 |> pairHold pair inst (!hi) 0
    after s0 r' i' (after s0 r i s)
  else if (pair = 1 || pair = 3) && agree (rd f' i' s0) then
    after s0 r i (pairHold pair inst hi 0 (wr f i v s0))
  else
    pairHold pair inst hi (v + 1) s0 |> inc cnt_CFG_pair_holds 0 |> wr CFG_EVT.ev_pair 0 1
      |> wr CFG_INCONSISTENT.instance 0 (if 32768 ≤ inst then 0x8000 + (inst - 32768) else inst) |> wr CFG_INCONSISTENT.pair 0 pair
      |> addF CFG_INCONSISTENT.count 0 1
      |> raise 0x0E07 [pair, inst]

/-! ### Staged entries -/

/-- A staged entry: address, mask and value (R434). -/
abbrev Ent := Nat × Nat × Nat

/-- Entries of change set `k`: 0 to 3, 4 the boot and 5 the update change set. -/
def csEnts (k : Nat) (s : State) : List Ent := triples (getL LCS.ent k s)

/-- The targets of an entry. -/
def entTgts (e : Ent) (s : State) : List Tgt :=
  match locate e.1 s with
  | .reg r i => (winTargets e.1 r i s).map (fun j => (r, j, e.2.1))
  | _ => []

/-- The registers of the TBL command windows and the SLC rule registers (R435), which a commit writes live. -/
def cmdReg (r : Reg) : Bool :=
  [rTBL_CMD, rTBL_MOVE_DEST, rTBL_DATA, rSLC_RULE_CMD, rSLC_RULE_DEST, rSLC_RULE_KEY, rSLC_RULE_MASK, rSLC_RULE_ACT].any (fun x => x.id = r.id)

/-- Does an entry write one of them? -/
def isCmd (e : Ent) (s : State) : Bool := match locate e.1 s with
  | .reg r _ => cmdReg r
  | _ => false

/-- The state a commit's checks look at: every other staged value together with what is not staged (R437). -/
def csView (es : List Ent) (s : State) : State :=
  forEach (es.filter (fun e => !isCmd e s)) (fun e t => forEach (entTgts e s) (fun g t => rawStore true g.1 g.2.1 e.2.1 e.2.2 t) t) s

/-- Is a side of a pair staged? -/
def pairStaged (es : List Ent) (pair inst : Nat) (hi : Bool) (s : State) : Bool :=
  let (r, f, i) := pairFld pair inst hi
  es.any (fun e => (entTgts e s).any (fun g => g.1.id = r.id && g.2.1 = i && covers f g.2.2))

/-- The pair a target touches: its pair, its instance and its side. -/
def tgtPair (g : Tgt) : Option (Nat × Nat × Bool) :=
  match pairOf g.1 g.2.1 with
  | some (p, inst, hi) => if covers (pairFld p inst hi).2.1 g.2.2 then some (p, inst, hi) else none
  | none => none

/-- Does the pair a target touches disagree after the commit? -/
def tgtPairBad (es : List Ent) (s0 s1 : State) (g : Tgt) : Bool :=
  match tgtPair g with
  | none => false
  | some (p, inst, hi) =>
    if p = 0 || p = 2 then !pairStaged es p inst (!hi) s0 && pairPend p inst (!hi) s0 = 0
    else
      let v := fun b => let (_, f, i) := pairFld p inst b; rd f i s1
      !pairAgree p (v false) (v true)

/-- First entry, from index `n` on, at which a check or a pair fails, with the result code (1 CHECK, 2 PAIR). -/
def firstBad (es : List Ent) (s0 s1 : State) : Nat → List Ent → Option (Nat × Nat)
  | _, [] => none
  | n, e :: l =>
    if isCmd e s0 then firstBad es s0 s1 (n + 1) l
    else if (entTgts e s0).any (chkTgt s0 s1) then some (n, 1)
    else if (entTgts e s0).any (tgtPairBad es s0 s1) then some (n, 2)
    else firstBad es s0 s1 (n + 1) l

/-- Phase 1 of a commit (R437). -/
def csCheck (es : List Ent) (s : State) : Option (Nat × Nat) := firstBad es s (csView es s) 0 es

/-! ### Phase 2: commands -/

/-- The device's own work as an access. -/
def ownAccess : Access := ⟨.core, 0⟩

/-- A table command performed by a commit, once the one before it has finished: does it end in an error? -/
def csTable (t w addr : Nat) (s : State) : Bool × State :=
  let op := part TBL_CMD.op w
  if op = 0 || 7 < op then (false, accErr ownAccess addr 5 true s)
  else
    let s := tblDone t (tblIssue t op (part TBL_CMD.index w) (bitOf w 25) (bitOf w 26) (tblDone t s))
    (rd TBL_STATUS.result t s ≠ 0, s)

/-- A rule command performed by a commit on one slice. -/
def csRule (sl w addr : Nat) (s : State) : Bool × State :=
  let op := part SLC_RULE_CMD.op w
  if op = 0 || 5 < op then (false, accErr ownAccess addr 5 true s)
  else
    let s := ruleDone sl (ruleIssue sl op (part SLC_RULE_CMD.index w) (ruleDone sl s))
    (rd SLC_RULE_STATUS.result sl s ≠ 0, s)

/-- One staged write to a command window takes effect live (R437). -/
def csCmd (e : Ent) (s : State) : Bool × State :=
  (entTgts e s).foldl (fun (a : Bool × State) g =>
    let (r, i, mask) := g
    let s := a.2
    let w := e.2.2 &&& mask
    if sliceReg r && sliceHeld (sliceOf r i) s then (a.1, imgPush (sliceOf r i) (sliceOff r i) e.2.2 mask s)
    else if r.id = rTBL_CMD.id then let (b, s) := csTable i w e.1 s; (a.1 || b, s)
    else if r.id = rSLC_RULE_CMD.id then let (b, s) := csRule (sliceOf r i) w e.1 s; (a.1 || b, s)
    else (a.1, rawStore false r i mask e.2.2 s)) (false, s)

/-- Phase 2: every staged command in entry order; failures are counted, and the first noted (index plus one). -/
def csCmds : Nat → List Ent → Nat × Nat × State → Nat × Nat × State
  | _, [], a => a
  | n, e :: l, (errs, first, s) =>
    if !isCmd e s then csCmds (n + 1) l (errs, first, s)
    else
      let (b, s) := csCmd e s
      csCmds (n + 1) l (if b then (errs + 1, if first = 0 then n + 1 else first, s) else (errs, first, s))

/-! ### Phase 3: the commit point -/

/-- One target's staged value is stored: a slice at rest keeps it in its image (R332), a value its block refuses is ignored, and so are the RW
fields of a port that does not exist in `view`, the state the commit leaves (R81; log entry 187). -/
def csStore (view : State) (e : Ent) (g : Tgt) (s : State) : State :=
  let (r, i, mask) := g
  if sliceReg r && sliceHeld (sliceOf r i) s then imgPush (sliceOf r i) (sliceOff r i) e.2.2 mask s
  else
    let s := if sliceReg r then autumnWake (sliceOf r i) s else s
    let w := mergeWord r i mask e.2.2 s
    if badValue r i mask w s then accErr ownAccess e.1 4 true s
    else if absentPort r i view then setFields (fun f => f.acc = .st && openFld r i mask s f) r i w s
    else rawStore true r i mask e.2.2 (if lockHit r i mask w s then accErr ownAccess e.1 4 true s else s)

/-- Targets without repeats. -/
def tgtDedup : List Tgt → List Tgt
  | [] => []
  | g :: l => g :: (tgtDedup l).filter (fun h => !(h.1.id = g.1.id && h.2.1 = g.2.1))

/-- Pairs that a commit touches are adopted: a pending partner of pair 0 or 2 with them, and pending values clear (R441). -/
def pairsAdopt (es : List Ent) (gs : List Tgt) (s : State) : State :=
  forEach (gs.filterMap tgtPair) (fun p t =>
    let (pair, inst, hi) := p
    let pend := pairPend pair inst (!hi) t
    let (_, f, i) := pairFld pair inst (!hi)
    let t := if (pair = 0 || pair = 2) && pend ≠ 0 && !pairStaged es pair inst (!hi) s then wr f i (pend - 1) t else t
    pairHold pair inst hi 0 (pairHold pair inst (!hi) 0 t)) s

/-- All staged values take effect in one core cycle (R437 phase 3), with what follows from each; frames dispatched before complete on
the old programs (R137). -/
def csApply (es : List Ent) (s : State) : State :=
  let es := es.filter (fun e => !isCmd e s)
  let all := es.flatMap (fun e => entTgts e s)
  let gs := tgtDedup all
  let live := gs.filter (fun g => !(sliceReg g.1 && sliceHeld (sliceOf g.1 g.2.1) s))
  let sls := ((live.filter (fun g => progReg g.1)).map (fun g => sliceOf g.1 g.2.1)).eraseDups
  let s0 := forEach sls progHold s
  let view := csView es s
  let s := forEach es (fun e t => forEach (entTgts e s) (csStore view e) t) s0
  let s := pairsAdopt es all s
  let both := live.any (fun g => g.1.id = rFAB_PG_CFG.id)
  let s := forEach (live.filter (fun g => !(both && g.1.id = rPWR_PG_CFG.id))) (fun g t => after s0 g.1 g.2.1 t) s
  forEach es (fun e t => forEach (entTgts e s0) (fun g t => polWritten g.1 g.2.1 g.2.2 e.2.2 t) t) s

/-! ### Records of a commit (R455) -/

/-- The old hash of a commit: every staged address with its value in force. -/
def csOldHash (es : List Ent) (s : State) : Nat := hash12 (es.flatMap (fun e => leBytes 4 e.1 ++ leBytes 4 ((peek e.1 s).getD 0)))

/-- The new hash: every entry. -/
def csNewHash (es : List Ent) : Nat := hash12 (es.flatMap (fun e => leBytes 4 e.1 ++ leBytes 4 e.2.1 ++ leBytes 4 e.2.2))

/-- A set fails in phase 1, or because its Round stops (R436, R437). -/
def csFail (k res idx : Nat) (s : State) : State :=
  wr CFG_CS_W4.state k 4 s |> wr CFG_CS_W4.result k res |> wr CFG_CS_W5.fail_entry k idx |> wr CFG_CS_W5.cmd_errors k 0
    |> inc cnt_CFG_cs_fails 0 |> wr CFG_EVT.ev_cs 0 1 |> audit 4 2 k res (unpackWho (rd HCS.who k s)) |> raise 0x0E06 [k, res, idx]

/-- The commit point of a set (CS_COMMIT_POINT): CS_COMMITTED, the record, and the set is empty. -/
def csPoint (k : Nat) (s : State) : State :=
  if rd CFG_CS_W4.state k s ≠ 3 then s
  else
    let es := csEnts k s
    let who := unpackWho (rd HCS.who k s)
    let old := rd HCS.old k s
    let errs := rd CFG_CS_W5.cmd_errors k s
    let res := if errs = 0 then 0 else 6
    let s := csApply es s
    setL LCS.ent k [] s |> wr CFG_CS_W4.state k 0 |> wr CFG_CS_W4.overflow k 0 |> wr CFG_CS_W4.result k res |> inc cnt_CFG_cs_commits 0
      |> auditPut false 3 0 k es.length (old, csNewHash es) who
      |> raise 0x0E05 [k, rd HCS.trig k s, es.length, res, errs]

/-- A set's trigger fires: phases 1 and 2 (R437), the values in force before them being what the old hash covers (R455). A set still committing reaches its commit point first. -/
def csFire (k : Nat) (s : State) : State :=
  let s := forEach [0, 1, 2, 3] csPoint s
  let es := csEnts k s
  match csCheck es s with
  | some (idx, res) => csFail k res idx s
  | none =>
    let (errs, first, s) := csCmds 0 es (0, 0, wr HCS.old k (csOldHash es s) s)
    wr CFG_CS_W4.state k 3 s |> wr CFG_CS_W5.cmd_errors k (min errs 65535) |> wr CFG_CS_W5.fail_entry k (first - 1)

/-! ### Commands of a set (R434, R436) -/

/-- T of a set's registers. -/
def csTime (k : Nat) (s : State) : Nat := rd CFG_CS_W2.time_lo k s + 2 ^ 32 * rd CFG_CS_W3.time_hi k s

/-- Why arming fails, if it does (R436): FULL, ROUND, LATE. -/
def armBad (k : Nat) (s : State) : Option Nat :=
  let trig := rd CFG_CS_W1.trigger k s
  if rdB CFG_CS_W4.overflow k s then some 4
  else if trig = 1 && !rdB FAB_ROUND_W0.enable (rd CFG_CS_W1.round k s) s then some 5
  else if trig = 2 && csTime k s < tbNs (rd CFG_CS_W1.tb k s) s then some 3
  else none

/-- Arm a set (R436). -/
def csArm (k : Nat) (who : Who) (s : State) : State :=
  match armBad k s with
  | some res => wr CFG_CS_W4.state k 1 (wr CFG_CS_W4.result k res s)
  | none =>
    let trig := rd CFG_CS_W1.trigger k s
    let s := wr CFG_CS_W4.state k 2 s |> wr HCS.trig k trig |> wr HCS.tb k (rd CFG_CS_W1.tb k s) |> wr HCS.round k (rd CFG_CS_W1.round k s)
      |> wr HCS.time k (csTime k s) |> wr HCS.who k (packWho who)
    if trig = 0 then csFire k s else s

/-- Open (1) or clear (4) a set: its entries go (R434). -/
def csOpen (k st : Nat) (s : State) : State := setL LCS.ent k [] s |> wr CFG_CS_W4.state k st |> wr CFG_CS_W4.overflow k 0

/-- An op a set's state rules out (R438; arming needs an open or failed set, disarming an armed one). -/
def csOpBad (k op : Nat) (s : State) : Bool :=
  let st := rd CFG_CS_W4.state k s
  st = 3 || (op = 3 && st ≠ 2) || (op = 2 && st ≠ 1 && st ≠ 4)

/-- An op written to CFG_CS word 0 that its rules accept. -/
def csOp (k op : Nat) (who : Who) (s : State) : State :=
  match op with
  | 1 => csOpen k 1 s
  | 2 => csArm k who s
  | 3 => wr CFG_CS_W4.state k 1 s
  | 4 => csOpen k 0 s
  | _ => s

/-- Sets armed with trigger `trig` that satisfy a test. -/
def csArmed (trig : Nat) (p : Nat → Bool) (s : State) : List Nat :=
  [0, 1, 2, 3].filter (fun k => rd CFG_CS_W4.state k s = 2 && rd HCS.trig k s = trig && p k)

/-- A boundary of Round `r` fires its sets in ascending number (R264, R438). -/
def csRound (r : Nat) (s : State) : State := forEach (csArmed 1 (fun k => rd HCS.round k s = r) s) csFire s

/-- CS_TIME_TRIGGER (R436): time has passed to T of an armed set. -/
def csTimer (k : Nat) (s : State) : State :=
  if 4 ≤ k || rd CFG_CS_W4.state k s ≠ 2 || rd HCS.trig k s ≠ 2 then s
  else csFire k (passTb (rd HCS.tb k s) (rd HCS.time k s) s)

/-- Armed sets whose time has come, by a step of their time base or otherwise, fire; those whose Round is disabled fail (R436). -/
def csNote (s : State) : State :=
  let s := forEach (csArmed 1 (fun k => !rdB FAB_ROUND_W0.enable (rd HCS.round k s) s) s) (fun k t => csFail k 5 0 t) s
  forEach (csArmed 2 (fun k => rd HCS.time k s ≤ tbNs (rd HCS.tb k s) s) s) csFire s

/-- What a servo does with an offset can step its base, and a step fires the sets whose time it passes (R436). -/
def stepped (k : State → State) (s : State) : State :=
  let t := k s
  if [1, 2, 3, 4, 5, 6, 7].any (fun b => rd TBC.count b t ≠ rd TBC.count b s) then csNote t else t

/-! ### Staging (R435) -/

/-- Staging entries of a staged command of the boot or update set: one for each data, key, mask or action word and one for the command
itself (R434). -/
def cmdEntries (l : List Nat) : Nat := l.length - 2

/-- The messages of a list that holds each after its length. -/
def parts (l : List Nat) : List (List Nat) := splitMsgs 1048576 l

/-- Entries in the staging memory. -/
def stageUsed (s : State) : Nat :=
  ((List.range 6).map (fun k => (getL LCS.ent k s).length / 3 + ((parts (getL LCS.cmd k s)).map cmdEntries).sum)).sum

/-- Stage an entry into set `k` by a write at `at_`; a full staging memory, or a set at its limit, sets overflow and is an access error. -/
def csStage (a : Access) (at_ k addr mask value : Nat) (s : State) : State :=
  if 65536 ≤ csCount k s || 262144 ≤ stageUsed s then accErr a at_ 4 true (wr CFG_CS_W4.overflow k 1 s)
  else setL LCS.ent k (getL LCS.ent k s ++ [addr, mask, value]) s

end Sys2Proof.Machine
end

