-- ==== Sys2Proof/Machine/Acc.lean ====
section
/-!
DEFINITION. Keys, credentials and sessions (R448 to R453), the maker grant (R450) and the fuses (R449, R464).
-/

namespace Sys2Proof.Machine

/-! ### Sessions (R452, R453) -/

/-- The role of a credential (R457): operator, installer, maker. -/
def credRole (c : Nat) : Nat := if c < 32 then 1 else if c = 0x200 then 3 else 2

/-- The device's session ID: 0 names none (R481), so slot `i` is session `i + 1` (log entry 31). -/
def sessId (i : Nat) : Nat := i + 1

/-- Who an open session is. -/
def sessWho (i : Nat) (s : State) : Who := (rd ACC_SESSION.role i s, rd ACC_SESSION.cred i s, rd ACC_SESSION.path i s)

/-- A session closes (R453): 1 on request, 2 idle, 3 its credential revoked, 4 a restart. -/
def sessClose (cause i : Nat) (s : State) : State :=
  if getL LACC.key i s = [] then s
  else
    audit 7 0 (sessId i) cause (sessWho i s) s |> setL LACC.key i [] |> setL LHIF.reply i [] |> wr HACC.ctr i 0 |> wr HACC.last i 0
      |> wr ACC_SESSION.cred i 0xFFFF |> wr ACC_SESSION.role i 0 |> wr ACC_SESSION.path i 0

/-- Every open session of a credential closes. -/
def sessRevoke (cause : Nat) (p : Nat → Bool) (s : State) : State :=
  forEach ((sessOpen s).filter (fun i => p (rd ACC_SESSION.cred i s))) (sessClose cause) s

/-- A warm restart closes every session (R453). -/
def sessRestart (s : State) : State := forEach (List.range 8) (fun i t => wr HACC.wait i 0 t) (sessRevoke 4 (fun _ => true) s)

/-- Store or delete an operator's public key (R451): sessions of the key it replaces close. -/
def credStore (idx : Nat) (key : List Nat) (s : State) : State :=
  let key := if key.all (fun b => b = 0) then [] else key
  if getL LACC.cred idx s = key then s else sessRevoke 3 (fun c => c = idx) (setL LACC.cred idx key s)

/-- The slot a handshake takes: a free one with no handshake, else the lowest free one. -/
def sessSlot (s : State) : Option Nat :=
  let free := (List.range 8).filter (fun i => getL LACC.key i s = [])
  match free.find? (fun i => !rdB HACC.wait i s) with
  | some i => some i
  | none => free.head?

/-- HELLO (R452): the client names its credential and gives its ephemeral key; an installer or the maker gives the whole public key
too. The answer is CHALLENGE with a nonce, the device's ephemeral key and a session ID; `none` is REFUSED, since 8 sessions are open (R453). -/
def sessHello (path cred : Nat) (eph pub : List Nat) (s : State) : Option Nat × State :=
  match sessSlot s with
  | none => (none, s)
  | some i =>
    let n := s.fresh
    let d := drawFree 256 s
    (some i, wr HACC.wait i 1 (setL LACC.hs i [cred, n, d.1, path] d.2) |> setL LACC.eph i eph |> setL LACC.pub i pub)

/-- The credential's public key, where the device knows one: a stored operator key; the key an installer presents for key_slot or the maker presents. -/
def credKey (cred : Nat) (pub : List Nat) (s : State) : Option (List Nat) :=
  if cred < 32 then (if getL LACC.cred cred s = [] then none else some (getL LACC.cred cred s))
  else if cred = 0x200 then some pub
  else if 0x101 ≤ cred && cred ≤ 0x104 && cred = 0x100 + rd ACC_STATUS.key_slot 0 s then some pub
  else none

/-- Does a presented key hash to the fused hash it must (R452)? A slot whose read-back differed cannot be used (R449). -/
def keyFits (cred : Nat) (pub : List Nat) (s : State) : Bool :=
  if cred < 32 then true
  else if cred = 0x200 then Config.sha384 pub = Config.makerHash
  else !rdB HFUSE.flaw (cred - 0x100) s && Config.sha384 pub = rd HFUSE.slot (cred - 0x100) s

/-- What a PROOF signs: nonce, both ephemeral keys, credential ID, GLB_DEVICE_ID. -/
def proofBytes (i : Nat) (s : State) : List Nat :=
  let h := fun k => (getL LACC.hs i s).getD k 0
  beBytes 32 (h 2) ++ getL LACC.eph i s ++ Config.deviceKey (h 1) ++ beBytes 2 (h 0) ++ leBytes 4 (wordOf rGLB_DEVICE_ID 0 s)

/-- Why a PROOF is refused (R454): 1 signature, 2 unknown credential, 3 locked, 4 no grant; 0 accepts it. -/
def proofCode (i : Nat) (sig : List Nat) (s : State) : Nat :=
  let cred := (getL LACC.hs i s).getD 0 0
  if running HACC.lock cred s then 3
  else match credKey cred (getL LACC.pub i s) s with
    | none => 2
    | some key =>
      if cred = 0x200 && !running HACC.grant 0 s then 4
      else if keyFits cred key s && Config.ecdsaVerify key (proofBytes i s) sig then 0 else 1

/-- A failed proof (R453): lock_limit of them within 60 s lock the credential. -/
def proofFail (cred code : Nat) (w : Who) (s : State) : State :=
  let s := audit 6 1 0 code w (inc cnt_ACC_auth_fail 0 s)
  if code = 3 then s
  else
    let l := (getL LACC.fails cred s).filter (fun t => now s < t + 60000000000) ++ [now s]
    let t := rd ACC_SESSION_CFG.lock_time 0 s
    if rd ACC_SESSION_CFG.lock_limit 0 s ≤ l.length then
      raise 0x0D01 [cred, t] (wr ACC_EVT.ev_auth 0 1 (arm HACC.lock cred (t * 1000000000) (setL LACC.fails cred [] s)))
    else setL LACC.fails cred l s

/-- PROOF (R452) of the handshake in slot `i`: OPEN (true) or REFUSED. -/
def sessProof (i : Nat) (sig : List Nat) (s : State) : Bool × State :=
  let h := fun k => (getL LACC.hs i s).getD k 0
  let cred := h 0
  let w : Who := (credRole cred, cred, h 3)
  let code := proofCode i sig s
  let t := wr HACC.wait i 0 s
  if code ≠ 0 then (false, proofFail cred code w t)
  else
    let key := beBytes 48 (Config.sha384 (Config.ecdh (h 1) (getL LACC.eph i s) ++ beBytes 32 (h 2)))
    let t := audit 5 0 (sessId i) cred w (inc cnt_ACC_auth_ok 0 t) |> setL LACC.key i key |> wr HACC.ctr i 0 |> wr HACC.last i (now s)
      |> wr ACC_SESSION.cred i cred |> wr ACC_SESSION.role i (credRole cred) |> wr ACC_SESSION.path i (h 3)
    (true, if cred = 0x200 then raise 0x0D02 [2, grantLeft s] (wr ACC_EVT.ev_maker 0 1 t) else t)

/-- SESSION_IDLE_TIMEOUT (R453): a session has no request for idle_timeout seconds. -/
def sessIdleOut (i : Nat) (s : State) : State :=
  if getL LACC.key i s = [] then s
  else sessClose 2 i (passTo (rd HACC.last i s + rd ACC_SESSION_CFG.idle_timeout 0 s * 1000000000) s)

/-- CREDENTIAL_LOCK_END (R453). -/
def lockEnd (cred : Nat) (s : State) : State := expire HACC.lock cred (fun t => t) s

/-! ### The maker grant (R450) -/

/-- The grant ends: every maker session closes. -/
def grantEnd (w : Who) (s : State) : State :=
  let s := audit 8 0 0 0 w (disarm HACC.grant 0 s) |> wr HACC.mins 0 0
  sessRevoke 3 (fun c => c = 0x200) (raise 0x0D02 [3, 0] (wr ACC_EVT.ev_maker 0 1 s))

/-- The installer starts a grant of ACC_MAKER_GRANT minutes. -/
def grantStart (w : Who) (s : State) : State :=
  let m := rd ACC_MAKER_GRANT.minutes 0 s
  audit 8 0 0 m w (arm HACC.grant 0 (m * 60000000000) s) |> wr HACC.mins 0 m |> wr ACC_EVT.ev_maker 0 1 |> raise 0x0D02 [1, m]

/-- The installer revokes the grant; one that is not active stays so. -/
def grantRevoke (w : Who) (s : State) : State := if running HACC.grant 0 s then grantEnd w s else s

/-- MAKER_GRANT_EXPIRY. -/
def grantExpiry (s : State) : State := expire HACC.grant 0 (grantEnd whoImage) s

/-- A written ACC_MAKER_GRANT acts: grant, then revoke. A grant needs 1 to 1,440 minutes. -/
def grantWrite (value : Nat) (w : Who) (s : State) : State :=
  let s := if part ACC_MAKER_GRANT.grant value = 1 && rd ACC_MAKER_GRANT.minutes 0 s ≠ 0 then grantStart w s else s
  if part ACC_MAKER_GRANT.revoke value = 1 then grantRevoke w s else s

/-! ### Fuses (R449, R464) -/

/-- The hash in ACC_FUSE_DATA, word 0 first. -/
def fuseHash (s : State) : Nat := beNat ((List.range 12).flatMap (fun k => leBytes 4 (rd ACC_FUSE_DATA.data k s)))

/-- Program the next installer slot: a read-back that differs (a free value, log entry 1) leaves the slot programmed and its key
unusable. The sessions of the slots it revokes close. -/
def fuseSlot (w : Who) (s : State) : State :=
  let n := rd ACC_STATUS.key_slot 0 s
  if 4 ≤ n then wr ACC_FUSE_CMD.result 0 3 (audit 9 0 n 3 w s)
  else
    let d := drawFree 1 s
    let s := wr HFUSE.slot (n + 1) (fuseHash s) d.2 |> wr HFUSE.flaw (n + 1) d.1 |> wr ACC_STATUS.key_slot 0 (n + 1)
      |> wr ACC_FUSE_CMD.result 0 (2 * d.1)
    audit 9 0 (n + 1) (2 * d.1) w s |> wr ACC_EVT.ev_key 0 1 |> raise 0x0D05 [n + 1, 2 * d.1]
      |> sessRevoke 3 (fun c => 0x101 ≤ c && c ≤ 0x100 + n)

/-- Program maker fuse word `a`: fuses only ever go from 0 to 1; a read-back that differs leaves what it reads. -/
def fuseMaker (a : Nat) (w : Who) (s : State) : State :=
  let want := rd HFUSE.maker a s ||| rd ACC_FUSE_DATA.data 0 s
  let bad := drawFree 1 s
  let left := drawFree 32 bad.2
  let v := if bad.1 = 1 then rd HFUSE.maker a s ||| (want &&& left.1) else want
  let res := if v = want then 0 else 2
  audit 9 0 a res w (wr ACC_FUSE_CMD.result 0 res (wr HFUSE.maker a v left.2))

/-- A written ACC_FUSE_CMD acts. -/
def fuseCmd (value : Nat) (w : Who) (s : State) : State :=
  if part ACC_FUSE_CMD.op value = 1 then fuseSlot w s else fuseMaker (part ACC_FUSE_CMD.fuse_addr value) w s

end Sys2Proof.Machine
end

