-- ==== Sys2Proof/Machine/Fls.lean ====
section
/-!
DEFINITION. The configuration flash as commands reach it (R420, R430, R442), the boot-select record (R432), and how a hitless update
begins, is aborted and swaps (R370, R372). What the flash holds is outside the device.
-/

namespace Sys2Proof.Machine

/-! ### Flash commands (R442) -/

/-- Bytes a flash command touches: first and count. Page commands use bits 31:8 of the address, an erase the sector. -/
def flashSpan (op addr : Nat) : Nat × Nat :=
  match op with
  | 3 => (addr / 0x1000 * 0x1000, 0x1000)
  | 4 => (addr / 0x10000 * 0x10000, 0x10000)
  | _ => (addr / 256 * 256, 256)

/-- Do two spans meet? -/
def spansMeet (a b : Nat × Nat) : Bool := a.1 < b.1 + b.2 && b.1 < a.1 + a.2

/-- Is a flash command refused: in the slot in use, in the boot-select sectors, or during an update? -/
def flashRefused (op : Nat) (s : State) : Bool :=
  let sp := flashSpan op (rd CFG_FLASH_ADDR.addr 0 s)
  let inUse := rd CFG_BOOT_STATUS.state 0 s ≠ 2 && spansMeet sp (rd CFG_BOOT_STATUS.slot_in_use 0 s * 0x4000000, 0x4000000)
  inUse || spansMeet sp (0x8000000, 0x2000) || rd RED_UPDATE_STATUS.phase 0 s ≠ 0

/-- A flash command ends with a result; a failed one sets ev_flash. -/
def flashEnd (res : Nat) (s : State) : State :=
  let s := wr HFL.op 0 0 s |> wr CFG_FLASH_STATUS.busy 0 0 |> wr CFG_FLASH_STATUS.result 0 res
  if res = 0 then s else wr CFG_EVT.ev_flash 0 1 s

/-- A written CFG_FLASH_CMD: read, program, erase. A program command drives the 256 bytes of the data registers out. -/
def flashCmd (op : Nat) (s : State) : State :=
  if flashRefused op s then flashEnd 2 s
  else
    let data := if op = 2 then (List.range 64).map (fun k => rd CFG_FLASH_DATA.data k s) else []
    emit .flash op ((flashSpan op (rd CFG_FLASH_ADDR.addr 0 s)).1 :: data) s |> wr HFL.op 0 op |> wr CFG_FLASH_STATUS.busy 0 1 |> wr HFL.stalls 0 0

/-- FLASH_COMMAND_DONE: the running command completes (0), stalls (1) or times out (3); a read brings its 256 bytes. -/
def flashDone (res : Nat) (bytes : List Nat) (s : State) : State :=
  if rd HFL.op 0 s = 0 then s
  else
    let s := if rd HFL.op 0 s = 1 && res = 0 then
        forEach (List.range 64) (fun k t => wr CFG_FLASH_DATA.data k (leNat ((bytes.drop (4 * k)).take 4)) t) s
      else s
    flashEnd (if res = 0 || res = 1 then res else 3) s

/-- Is a burst being read: boot, the loading of an update, or a read command, with no reissue awaited? -/
def flashReads (s : State) : Bool := !rdB HFL.wait 0 s && (rd HBOOT.phase 0 s = 2 || rd RED_UPDATE_STATUS.phase 0 s = 1 || rd HFL.op 0 s = 1)

/-- Is the burst at `addr` a reissue of the one that stalled last? It is over 50 µs after it was sent, which is more than its 4 KiB and the
10 µs of a stall take (DESIGN CHOICE, log entry 180). -/
def isReissue (addr : Nat) (s : State) : Bool :=
  rd HFL.burst 0 s = addr / 4096 * 4096 && rd HFL.again 0 s ≠ 0 && now s < rd HFL.again 0 s - 1 + 50000

/-- FLASH_BURST_STALL (R430) of the burst at `addr`: abandoned, the flash reset. Answers whether the burst has no reissue left. -/
def flashStall (addr : Nat) (s : State) : Bool × State :=
  let n := (if isReissue addr s then rd HFL.stalls 0 s else 0) + 1
  let s := inc cnt_CFG_flash_stalls 0 s |> wr HFL.burst 0 (addr / 4096 * 4096) |> wr HFL.stalls 0 (min n 4) |> wr CFG_BOOT_FAIL_ADDR.addr 0 addr
    |> emit .flash 6 []
  (4 ≤ n, wr HFL.wait 0 (b2n (n < 4)) s)

/-- FLASH_BURST_REISSUE: 1 ms after the 10 µs reset, the whole burst again. -/
def flashReissue (s : State) : State :=
  if !rdB HFL.wait 0 s then s else emit .flash 1 [rd HFL.burst 0 s] (wr HFL.again 0 (now (pass 1010000 s) + 1) (wr HFL.wait 0 0 (pass 1010000 s)))

/-- FLASH_LATE_EDGE: `n` strobe edges of an abandoned burst are ignored and counted. -/
def flashLate (n : Nat) (s : State) : State := incBy cnt_CFG_flash_late_edges 0 n s

/-! ### Boot-select (R432) -/

/-- The 28 bytes of a boot-select record before its CRC. -/
def selBody (seq slot : Nat) : List Nat := [0x42, 0x53, 0x45, 0x4C] ++ leBytes 4 seq ++ [slot] ++ List.replicate 19 0

/-- Take what a boot-select sector holds, as read at boot. -/
def selLoad (n : Nat) (rec : List Nat) (s : State) : State :=
  let seq := leNat ((rec.drop 4).take 4)
  let slot := rec.getD 8 2
  let ok := rec.length = 32 && slot < 2 && rec.take 28 = selBody seq slot && rec.drop 28 = leBytes 4 (crcIeee (rec.take 28))
  wrB HSEL.valid n ok s |> wr HSEL.seq n seq |> wr HSEL.slot n slot

/-- The sector of the newer valid record, if any: seq compared modulo 2^32 over a half range. -/
def selNewer (s : State) : Option Nat :=
  match rdB HSEL.valid 0 s, rdB HSEL.valid 1 s with
  | false, false => none
  | true, false => some 0
  | false, true => some 1
  | true, true => some (if (rd HSEL.seq 1 s + 2 ^ 32 - rd HSEL.seq 0 s) % 2 ^ 32 - 1 < 2 ^ 31 - 1 && rd HSEL.seq 1 s ≠ rd HSEL.seq 0 s then 1 else 0)

/-- The preferred slot: A where no record is valid. -/
def selSlot (s : State) : Nat := match selNewer s with
  | some n => rd HSEL.slot n s
  | none => 0

/-- The sector a new choice is written to: the older or invalid record's. -/
def selTarget (s : State) : Nat := match selNewer s with
  | some n => 1 - n
  | none => 0

/-- seq of a new choice: one above the newer record's. -/
def selSeq (s : State) : Nat := match selNewer s with
  | some n => (rd HSEL.seq n s + 1) % 2 ^ 32
  | none => 1

/-- Begin to write a new choice: the sector is erased and programmed. -/
def selStart (slot : Nat) (s : State) : State :=
  let b := selBody (selSeq s) slot
  emit .flash 7 (selTarget s :: (b ++ leBytes 4 (crcIeee b))) (wr HSEL.busy 0 (slot + 1) s)

/-- BOOT_SELECT_DONE. -/
def selDone (s : State) : State :=
  if rd HSEL.busy 0 s = 0 then s
  else
    let n := selTarget s
    let slot := rd HSEL.busy 0 s - 1
    let q := selSeq s
    wr HSEL.busy 0 0 s |> wr HSEL.valid n 1 |> wr HSEL.seq n q |> wr HSEL.slot n slot |> wr CFG_BOOT_STATUS.preferred 0 slot

/-- BOOT_SELECT_FAIL: a write that has not completed within 1 s; the choice in force stands. The sector written is in doubt, so its old
record counts no more. -/
def selFail (s : State) : State :=
  if rd HSEL.busy 0 s = 0 then s
  else
    let n := selTarget s
    wr HSEL.busy 0 0 s |> wr HSEL.valid n 0 |> wr CFG_EVT.ev_flash 0 1 |> raise 0x0E08 [n]

/-! ### Hitless update (R370, R372) -/

/-- UPDATE_START: lockstep breaks and A serves. -/
def updStart (s : State) : State :=
  updDrop s |> wr RED_CX_STATUS.mode 0 4 |> wr RED_CX_STATUS.owner 0 0 |> wr RED_UPDATE_STATUS.phase 0 1 |> wr RED_UPDATE_STATUS.abort_reason 0 0
    |> wr RED_UPDATE_STATUS.last_ok 0 0 |> wr HFL.stalls 0 0

/-- An update is aborted: UPDATE_ABORTED with the phase and the reason; A copies its state into B. -/
def updAbort (reason : Nat) (s : State) : State :=
  let ph := rd RED_UPDATE_STATUS.phase 0 s
  updDrop s |> wr RED_UPDATE_STATUS.phase 0 0 |> wr RED_UPDATE_STATUS.abort_reason 0 reason |> inc cnt_RED_update_abort 0
    |> wr RED_EVT.ev_update 0 1 |> raise 0x0809 [ph, reason] |> wr HUPD.back 0 1

/-- The commands of RED_UPDATE_CTRL and RED_CX_CMD that a word spells, each with whether its rule takes it (R354, R359, R370 to R372). -/
def redAsks (r : Reg) (value : Nat) (s : State) : List Bool :=
  let ph := rd RED_UPDATE_STATUS.phase 0 s
  let m := rd RED_CX_STATUS.mode 0 s
  let l := if r.id = rRED_CX_CMD.id then [(RED_CX_CMD.rejoin, decide (m = 3)), (RED_CX_CMD.retry, rdB HRED.hold 0 s)]
    else if r.id = rRED_UPDATE_CTRL.id then [(RED_UPDATE_CTRL.start, decide (m = 0)),
      (RED_UPDATE_CTRL.abort, decide (ph = 1) || decide (ph = 2)), (RED_UPDATE_CTRL.swap, decide (ph = 2))]
    else []
  (l.filter (fun x => part x.1 value = 1)).map (·.2)

end Sys2Proof.Machine
end

