-- ==== Sys2Proof/Machine/Recs.lean ====
section
/-!
DEFINITION. What single records of an image do when they take effect (R422, R427, R451), and the swap of a hitless update (R370), which
commits the records staged for it.
-/

namespace Sys2Proof.Machine

/-! ### Service parameters (R451) -/

/-- Is a SERVICE_PARAM ID one the chapters define? -/
def paramKnown (id : Nat) : Bool := 0xD01 ≤ id && id ≤ 0xD04

/-- Little-endian word `k` of a byte list. -/
def wordAt (bs : List Nat) (k : Nat) : Nat := leNat ((bs.drop (4 * k)).take 4)

/-- Is the value of a known ID well formed? -/
def paramOk (id : Nat) (v : List Nat) : Bool :=
  match id with
  | 0xD01 => v.length = 104 && wordAt v 0 < 32 && (v.drop 101).all (· = 0) && (v.getD 4 0 = 4 || ((v.drop 4).take 97).all (· = 0))
  | 0xD02 => v.length = 4
  | 0xD03 => v.length = 132
  | _ => v.length = 4

/-- A service parameter takes effect. -/
def paramApply (id : Nat) (v : List Nat) (s : State) : State :=
  match id with
  | 0xD01 => credStore (wordAt v 0) ((v.drop 4).take 97) s
  | 0xD02 => setFields (fun _ => true) rACC_PATH_ROLE 0 (wordAt v 0) s
  | 0xD03 => forEach (List.range 32) (fun k t => wr ACC_OP_PORTS.ports k (wordAt v (k + 1)) t) (setFields (fun _ => true) rACC_OP_ENV 0 (wordAt v 0) s)
  | 0xD04 => setFields (fun _ => true) rACC_SESSION_CFG 0 (wordAt v 0) s
  | _ => s

/-! ### Table and rule records -/

/-- A TABLE_CMD or LPM_PREFIX record: its table, its TBL_CMD word and its data words. Answers whether it ends in an error. -/
def tableRec (t w : Nat) (data : List Nat) (s : State) : Bool × State :=
  csTable t w (regAddr rTBL_CMD t) (forEach (List.range 8) (fun k u => wr TBL_DATA.data (t * 8 + k) (data.getD k 0) u) s)

/-- The register words a RULE record sets, with their instances: key, mask, action. -/
def ruleWindow (sl : Nat) (ws : List Nat) : List (Reg × Nat × Nat) :=
  (List.range 20).map (fun k => (rSLC_RULE_KEY, sl * 20 + k, ws.getD k 0))
    ++ (List.range 20).map (fun k => (rSLC_RULE_MASK, sl * 20 + k, ws.getD (20 + k) 0))
    ++ (List.range 16).map (fun k => (rSLC_RULE_ACT, sl * 16 + k, ws.getD (40 + k) 0))

/-- A RULE record on one slice: WRITE of a rule; a slice at rest keeps it in its image (R332). -/
def ruleRec (sl idx : Nat) (ws : List Nat) (s : State) : Bool × State :=
  let w := 1 + 16 * idx
  if sliceHeld sl s then
    (false, imgPush sl (sliceOff rSLC_RULE_CMD sl) w 0xFFFFFFFF
      (forEach (ruleWindow sl ws) (fun x t => imgPush sl (sliceOff x.1 x.2.1) x.2.2 0xFFFFFFFF t) s))
  else
    csRule sl w (regAddr rSLC_RULE_CMD sl) (forEach (ruleWindow sl ws) (fun x t => rawStore false x.1 x.2.1 0xFFFFFFFF x.2.2 t) s)

/-- A staged command: kind 0 a table command (table, word, 8 data words), kind 1 a rule (slice, index, 56 words). -/
def recCmd (l : List Nat) (s : State) : Bool × State :=
  if l.getD 0 0 = 0 then tableRec (l.getD 1 0) (l.getD 2 0) (l.drop 3) s else ruleRec (l.getD 1 0) (l.getD 2 0) (l.drop 3) s

/-- Perform commands in order and count their errors. -/
def recCmds (ls : List (List Nat)) (s : State) : Nat × State :=
  ls.foldl (fun a l => let (b, t) := recCmd l a.2; (a.1 + b2n b, t)) (0, s)

/-! ### Firmware patches (R427) -/

/-- Copy a patch, its ID and its code, into pool 3 buffers of requester 4, behind the patches copied before it. -/
def patchIn (v : List Nat) (s : State) : State :=
  let n := rd HFWP.bytes 0 s
  let m := n + (v.length - 4)
  forEach (List.range (ceilDiv m 16384 - ceilDiv n 16384)) (fun _ t => (poolAlloc 4 3 t).2) s
    |> wr HFWP.bytes 0 m |> setL LFWP.code 0 (getL LFWP.code 0 s ++ [v.length] ++ v)

/-- The commit of set `k` (4 boot, 5 update) with no trigger to wait for (R427, R370): its result and failing entry. -/
def setCommit (k : Nat) (cmds : List (List Nat)) (s : State) : Option (Nat × Nat) × State :=
  let es := csEnts k s
  match csCheck es s with
  | some (idx, res) => (some (idx, res), inc cnt_CFG_cs_fails 0 s |> wr CFG_EVT.ev_cs 0 1 |> audit 4 2 k res whoImage |> raise 0x0E06 [k, res, idx])
  | none =>
    let old := csOldHash es s
    let (errs, s) := recCmds cmds s
    let res := if errs = 0 then 0 else 6
    let s := csApply es s
    (none, setL LCS.ent k [] s |> inc cnt_CFG_cs_commits 0 |> auditPut false 3 0 k es.length (old, csNewHash es) whoImage
      |> raise 0x0E05 [k, 0, es.length, res, errs])

/-- UPDATE_SWAP (R370): A hands over in what behaves as a gap, and B commits the update change set; a refused commit aborts with reason 2. -/
def updSwap (s : State) : State :=
  let s := wr RED_CX_STATUS.mode 0 4 (gapBegin s) |> wr RED_UPDATE_STATUS.phase 0 3 |> wr HUPD.swap0 0 (now s + 1)
  match setCommit 5 (parts (getL LCS.cmd 5 s)) s with
  | (some _, s) => updAbort 2 (gapEnd 4 s)
  | (none, s) =>
    let s := forEach (parts (getL LUPD.par 0 s)) (fun l t => paramApply (l.getD 0 0) l.tail t) s
    forEach (parts (getL LUPD.patch 0 s)) patchIn (poolReclaim1 4 3 s)

/-- SWAP_DONE: B becomes owner, and A begins to take its state. -/
def swapDone (s : State) : State :=
  if rd RED_UPDATE_STATUS.phase 0 s ≠ 3 then s
  else
    let us := (now s + 1 - rd HUPD.swap0 0 s) / 1000
    let slot := 1 - rd CFG_BOOT_STATUS.slot_in_use 0 s
    gapEnd 4 (updDrop s) |> wr RED_UPDATE_STATUS.phase 0 4 |> wr RED_CX_STATUS.owner 0 1 |> wr RED_UPDATE_STATUS.swap_us 0 us
      |> wr CFG_BOOT_STATUS.slot_in_use 0 slot |> wr HBOOT.stamp 0 (rd HUPD.stamp 0 s) |> wr RED_EVT.ev_update 0 1 |> raise 0x0807 [us]

/-- UPDATE_COPY_DONE: lockstep resumes; the slot in use is recorded (R432). After an abort the same ends the copy back. -/
def updCopyDone (s : State) : State :=
  if rdB HUPD.back 0 s then (if rd RED_CX_STATUS.mode 0 s = 4 then lockstepResume (wr HUPD.back 0 0 s) else wr HUPD.back 0 0 s)
  else if rd RED_UPDATE_STATUS.phase 0 s ≠ 4 then s
  else
    let s := lockstepResume s |> wr RED_UPDATE_STATUS.phase 0 0 |> wr RED_UPDATE_STATUS.last_ok 0 1 |> inc cnt_RED_update_done 0
      |> wr RED_EVT.ev_update 0 1 |> raise 0x0808 []
    selStart (rd CFG_BOOT_STATUS.slot_in_use 0 s) s

/-- COMPLEX_SRAM_ECC_ERROR (R351, R372): a corrected word is counted; an uncorrectable one in complex `c` counts against it at the next
diagnosis, and during an update ends or breaks it. -/
def cxSramError (c : Nat) (corrected : Bool) (s : State) : State :=
  if corrected then inc cnt_TEL_cx_ecc_corr 0 s
  else if rd RED_CX_STATUS.mode 0 s ≠ 4 then wr HCX.ecc c 1 s
  else if c = rd RED_CX_STATUS.owner 0 s then
    autoHold (cxBits true (c = 0)) (cxBits true (c = 1)) (wr HUPD.back 0 0 (updDrop s))
  else
    let ph := rd RED_UPDATE_STATUS.phase 0 s
    let alone := fun (t : State) => wr HCX.given c 1 t |> wr (inService c) 0 0 |> wr RED_CX_STATUS.mode 0 3 |> wr HUPD.back 0 0
    if ph = 4 then
      alone (updDrop s |> wr RED_UPDATE_STATUS.phase 0 0 |> wr RED_UPDATE_STATUS.abort_reason 0 3 |> inc cnt_RED_update_abort 0
        |> wr RED_EVT.ev_update 0 1 |> raise 0x0809 [4, 3])
    else if ph = 0 then alone s
    else if ph = 3 then updAbort 3 (gapEnd 4 s)
    else updAbort 3 s

end Sys2Proof.Machine
end

