-- ==== Sys2Proof/Machine/Bus.lean ====
section
/-!
DEFINITION. Register accesses (R5 to R12): what a read returns and does, whose write is accepted (R446 to R449, R431), what its block
refuses, what it stages (R435), what it stores, and the commands of WO fields.
-/

namespace Sys2Proof.Machine

/-! ### Roles (R446 to R449) -/

/-- Is the device in no-image state (R431)? -/
def noImage (s : State) : Bool := rd CFG_BOOT_STATUS.state 0 s = 2

/-- Registers any role may write in no-image state, through BAR0 and SMBus (R431). -/
def noImageReg (r : Reg) : Bool :=
  [rCFG_FLASH_ADDR, rCFG_FLASH_CMD, rCFG_FLASH_DATA, rCFG_BOOT_SEL, rCFG_BOOT_STATUS].any (fun x => x.id = r.id)

/-- Is a write open to every role: the no-image registers (R431), or programming slot 1 while unclaimed (R449)? -/
def openToAll (a : Access) (r : Reg) (value : Nat) (s : State) : Bool :=
  (noImage s && noImageReg r && (a.path = .pcie || a.path = .smbus))
    || (rd ACC_STATUS.key_slot 0 s = 0 && (r.id = rACC_FUSE_DATA.id || (r.id = rACC_FUSE_CMD.id && part ACC_FUSE_CMD.op value = 1)))

/-- May an operator write this value to a field with a rule of its own (R448, R178, R306)? -/
def operatorMay (r : Reg) (i value : Nat) (s : State) : Bool :=
  if r.id = rPRT_PORT_CFG.id then rdBit ACC_OP_PORTS.ports (i / 32) (i % 32) s
  else if r.id = rTBL_CMD.id then part TBL_CMD.op value = 1 || part TBL_CMD.op value = 6
  else if r.id = rTIM_TB_W11.id then part TIM_TB_W11.op value = 1
  else false

/-- Does the envelope let an operator arm set `k` (R448)? -/
def operatorArm (k : Nat) (s : State) : Bool :=
  if rd CFG_CS_W1.trigger k s = 0 then rdB ACC_OP_ENV.op_arm_now 0 s else rdB ACC_OP_ENV.op_arm_timed 0 s

/-- May a role write `value` to a field of a register (R446)? -/
def mayWrite (role : Nat) (f : Fld) (r : Reg) (i value : Nat) (s : State) : Bool :=
  if r.id = rACC_FUSE_CMD.id then (if part ACC_FUSE_CMD.op value = 2 then role = 3 else role = 2)
  else if r.id = rACC_FUSE_DATA.id then role = 2 || rd ACC_STATUS.key_slot 0 s = 0
  else if r.id = rCFG_CS_W0.id && part CFG_CS_W0.op value = 2 then role = 2 || (role = 1 && operatorArm i s)
  else match f.right with
    | .installer => role = 2
    | .operator => role = 1 || role = 2
    | .watcher => 1 ≤ role && role ≤ 3
    | .special => role = 2 || (role = 1 && operatorMay r i value s)

/-- WO registers every write of which acts, whatever the value. -/
def actsAlways (r : Reg) : Bool := [rPOOL_FREE, rPOOL_GIVE, rCFG_STAGE_DATA, rACC_FUSE_DATA].any (fun x => x.id = r.id)

/-- Would a write change a field (R447)? -/
def changes (f : Fld) (r : Reg) (i mask value : Nat) (s : State) : Bool :=
  covers f mask && (match f.acc with
    | .rw => part f (mergeWord r i mask value s) ≠ rd f i s
    | .st => part f (mergeWord r i mask value s) ≠ rd f i s
    | .w1c => (rd f i s &&& part f (value &&& mask)) ≠ 0
    | .w1s => (part f (value &&& mask) ||| rd f i s) ≠ rd f i s
    | .wo => actsAlways r || part f (value &&& mask) ≠ 0
    | _ => false)

/-- Does the role of an access allow a write to one target? -/
def roleOk (a : Access) (r : Reg) (i mask value : Nat) (s : State) : Bool :=
  match accRole a s with
  | none => true
  | some role =>
    openToAll a r (value &&& mask) s ||
      (role ≠ 0 && r.fields.all (fun f => !changes f r i mask value s || mayWrite role f r i (value &&& mask) s))

/-! ### Commands a block refuses -/

/-- GLB_ACC_ERR_INFO kind of a command that is ignored as a whole: 5 an op its table does not name, 4 a state that rules it out. -/
def cmdErr (r : Reg) (i value : Nat) (s : State) : Option Nat :=
  if r.id = rADM_REQ_CMD.id then
    let op := part ADM_REQ_CMD.op value
    if op = 0 || 4 < op then some 5 else if op ≠ 4 && rdB ADM_STATUS.busy 0 s then some 4 else none
  else if r.id = rSLC_RULE_CMD.id then
    let op := part SLC_RULE_CMD.op value
    if op = 0 || 5 < op then some 5 else if rdB SLC_RULE_STATUS.busy (sliceOf r i) s then some 4 else none
  else if r.id = rTBL_CMD.id then
    let op := part TBL_CMD.op value
    if op = 0 || 7 < op then some 5 else if rdB TBL_STATUS.busy i s then some 4 else none
  else if r.id = rTIM_TB_W11.id then (if i = 0 && 2 ≤ part TIM_TB_W11.op value then some 4 else none)
  else if r.id = rCFG_CS_W0.id then
    let op := part CFG_CS_W0.op value
    if op = 0 || 4 < op then some 5 else if csOpBad i op s then some 4 else none
  else if r.id = rCFG_FLASH_CMD.id then
    let op := part CFG_FLASH_CMD.op value
    if op = 0 || 4 < op then some 5 else if rdB CFG_FLASH_STATUS.busy 0 s then some 4 else none
  else if r.id = rACC_FUSE_CMD.id then
    let op := part ACC_FUSE_CMD.op value
    if op = 0 || 2 < op then some 5 else none
  else if r.id = rRED_CX_CMD.id || r.id = rRED_UPDATE_CTRL.id then
    (if redAsks r value s ≠ [] && (redAsks r value s).all not then some 4 else none)
  else if r.id = rRED_SLICE_CMD.id then
    let op := part RED_SLICE_CMD.op value
    let sl := part RED_SLICE_CMD.slice value
    let force := part RED_SLICE_CMD.force value = 1
    if op = 1 then (if (forceFail sl force s).isNone then some 4 else none)
    else if op = 2 then (if (handBack sl force s).isNone then some 4 else none)
    else some 5
  else none

/-! ### WO fields -/

/-- Copy the counters of one slice (R529). -/
def snapSlice (sl : Nat) (s : State) : State := snapWhere (fun k => cntsSLC.any (fun c => c.id = k.1 && k.2 / c.per = sl)) s

/-- The requester a path allocates, frees and gives as (R402). -/
def requester (a : Access) : Nat :=
  match a.path with
  | .pcie => 30
  | .smbus => 29
  | .core => a.who % 4
  | .ring => 8 + a.who % 16
  | _ => 31

/-- Blocks whose snapshot register copies the whole block (R15). -/
def snapBlocks : List (Reg × List Cnt) :=
  [(rADM_SNAPSHOT, cntsADM), (rPRT_SNAPSHOT, cntsPRT), (rTBL_SNAPSHOT, cntsTBL), (rBUF_SNAPSHOT, cntsBUF), (rSCH_SNAPSHOT, cntsSCH),
    (rFAB_SNAPSHOT, cntsFAB), (rTIM_SNAPSHOT, cntsTIM), (rPWR_SNAPSHOT, cntsPWR), (rRED_SNAPSHOT, cntsRED), (rINTC_SNAPSHOT, cntsINTC),
    (rPOOL_SNAPSHOT, cntsPOOL), (rCFG_SNAPSHOT, cntsCFG), (rACC_SNAPSHOT, cntsACC), (rHIF_SNAPSHOT, cntsHIF), (rTEL_SNAPSHOT, cntsTEL),
    (rGLB_SNAPSHOT, cntsGLB)]

/-- A written snapshot register of a block. -/
def woSnap (r : Reg) (value : Nat) (s : State) : State :=
  if value % 2 = 0 then s
  else match snapBlocks.find? (fun x => x.1.id = r.id) with
    | some x => snapBlock x.2 s
    | none => s

/-- A written command of TIM: latch, step by arg_lo, set to arg (R278, R279). -/
def timCmd (op b : Nat) (s : State) : State :=
  match op with
  | 1 => tbLatch b s
  | 2 => cmdStep b (sgn 32 (rd TIM_TB_W12.arg_lo b s) * 2 ^ 32) 2 s
  | 3 =>
    let t := rd TIM_TB_W12.arg_lo b s + 2 ^ 32 * rd TIM_TB_W13.arg_hi b s
    cmdStep b ((t * 2 ^ 32 : Nat) - (rd TBC.count b s : Int)) 3 s
  | _ => s

/-- A written command of RED (R354, R359, R369, R370); outcomes of BIST are free values (log entry 1). -/
def redCmd (r : Reg) (value : Nat) (s : State) : State :=
  if r.id = rRED_CX_CMD.id then
    let d := drawFree 2 s
    if part RED_CX_CMD.rejoin value = 1 && rd RED_CX_STATUS.mode 0 s = 3 then rejoin (bitOf d.1 0) d.2
    else if part RED_CX_CMD.retry value = 1 && rdB HRED.hold 0 s then
      cxRetry (bitOf d.1 0) (bitOf d.1 1) (fun t => forEach [0, 1, 2, 3] (fun c u => poolReclaim c 15 u) t) sessRestart d.2
    else s
  else if r.id = rRED_SLICE_CMD.id then
    let sl := part RED_SLICE_CMD.slice value
    let force := part RED_SLICE_CMD.force value = 1
    ((if part RED_SLICE_CMD.op value = 1 then forceFail sl force s else handBack sl force s)).getD s
  else
    let ph := rd RED_UPDATE_STATUS.phase 0 s
    if part RED_UPDATE_CTRL.start value = 1 && rd RED_CX_STATUS.mode 0 s = 0 then updStart s
    else if part RED_UPDATE_CTRL.abort value = 1 && (ph = 1 || ph = 2) then updAbort 4 s
    else if part RED_UPDATE_CTRL.swap value = 1 && ph = 2 then updSwap s
    else s

/-- A write to WO fields of a target acts. Staging is not here: it needs the address judged (`stageData`). -/
def woAct (reboot : State → State) (a : Access) (r : Reg) (i value : Nat) (s : State) : State :=
  if r.id = rADM_REQ_CMD.id then
    admCmd (part ADM_REQ_CMD.op value) (part ADM_REQ_CMD.stream_id value) ((accRole a s).getD 2) s
  else if r.id = rPRT_OCT_MODULE_CTRL.id then (if part PRT_OCT_MODULE_CTRL.mod_reset value = 1 then moduleReset i s else s)
  else if r.id = rSLC_SNAPSHOT.id then (if value % 2 = 1 then snapSlice i s else s)
  else if r.id = rSLC_ENG_CTRL.id || r.id = rSLC_RULE_CMD.id then sliceWo r i value s
  else if r.id = rTBL_CMD.id then
    tblIssue i (part TBL_CMD.op value) (part TBL_CMD.index value) (part TBL_CMD.by_index value = 1) (part TBL_CMD.longest value = 1) s
  else if r.id = rSCH_Q_CLEAR.id then (if value % 2 = 1 then qClear s else s)
  else if r.id = rTIM_CTRL.id then
    (if part TIM_CTRL.latch_all value = 1 then forEach [0, 1, 2, 3, 4, 5, 6, 7] tbLatch s else s)
  else if r.id = rTIM_TB_W11.id then timCmd (part TIM_TB_W11.op value) i s
  else if r.id = rTIM_TIN_W3.id then (if part TIM_TIN_W3.pop value = 1 then tinPop i s else s)
  else if r.id = rPWR_PG_CTRL.id then (if part PWR_PG_CTRL.claim value = 1 then pgClaim s else s)
  else if r.id = rRED_CX_CMD.id || r.id = rRED_SLICE_CMD.id || r.id = rRED_UPDATE_CTRL.id then redCmd r value s
  else if r.id = rINTC_SW_SET.id then
    (if part INTC_SW_SET.set value = 1 then edge (960 + part INTC_SW_SET.index value) s else s)
  else if r.id = rPOOL_RECLAIM.id then poolReclaim (part POOL_RECLAIM.requester value) (part POOL_RECLAIM.pools value) s
  else if r.id = rPOOL_FREE.id then poolFree (requester a) value s
  else if r.id = rPOOL_GIVE.id then poolGive (requester a) value s
  else if r.id = rCFG_BOOT_STATUS.id then (if part CFG_BOOT_STATUS.reboot value = 1 && noImage s then reboot s else s)
  else if r.id = rCFG_BOOT_SEL.id then (if part CFG_BOOT_SEL.write value = 1 then selStart (part CFG_BOOT_SEL.slot value) s else s)
  else if r.id = rCFG_CS_W0.id then csOp i (part CFG_CS_W0.op value) (whoOf a s) s
  else if r.id = rCFG_FLASH_CMD.id then flashCmd (part CFG_FLASH_CMD.op value) s
  else if r.id = rACC_MAKER_GRANT.id then grantWrite value (whoOf a s) s
  else if r.id = rACC_FUSE_CMD.id then fuseCmd value (whoOf a s) s
  else if r.id = rACC_FUSE_DATA.id then wr ACC_FUSE_DATA.data i value s
  else if r.id = rTEL_SNAP_ALL.id then (if value % 2 = 1 then snapWhere (fun _ => true) s else s)
  else woSnap r value s

/-! ### Staging (R425, R435) -/

/-- Has a register a field that satisfies a test? -/
def hasFld (p : Fld → Bool) (r : Reg) : Bool := r.fields.any p

/-- May records and staged entries write a register (R425): it holds an RW or ST field, and is none of the exceptions? -/
def recordReg (r : Reg) : Bool :=
  let blk := r.base / 0x100000
  hasFld (fun f => f.acc = .rw || f.acc = .st) r && blk ≠ 1 && blk ≠ 2 && !cmdReg r
    && !(0x900020 ≤ r.base && r.base ≤ 0x9001FF) && r.id ≠ rTIM_TB_W11.id && !(0x708000 ≤ r.base && r.base < 0x709000)

/-- The set CFG_PATH_CS names for the path of an access, where it is open. -/
def pathSet (a : Access) (s : State) : Option Nat :=
  let named := match a.path with
    | .pcie => some (rd CFG_PATH_CS.pcie 0 s)
    | .smbus => some (rd CFG_PATH_CS.smbus 0 s)
    | .mgmt0 => some (rd CFG_PATH_CS.mgmt 0 s)
    | .mgmt1 => some (rd CFG_PATH_CS.mgmt 0 s)
    | .inband => some (rd CFG_PATH_CS.mgmt 0 s)
    | _ => none
  match named with
  | some k => if k < 4 && rd CFG_CS_W4.state k s = 1 then some k else none
  | none => none

/-- A write of CFG_STAGE_DATA (R435): judged by its target, its set and the role that stages it. -/
def stageData (a : Access) (addr data : Nat) (s : State) : State :=
  let k := rd CFG_STAGE_CS.cs 0 s
  let t := rd CFG_STAGE_ADDR.addr 0 s
  let mask := rd CFG_STAGE_MASK.mask 0 s
  match (if aligned t then locate t s else .none_) with
  | .reg r i =>
    if !(recordReg r || cmdReg r) || rd CFG_CS_W4.state k s ≠ 1 then accErr a addr 4 true s
    else if !((winTargets t r i s).all (fun j => roleOk a r j mask data s)) then refuse a addr s
    else csStage a addr k t mask data s
  | _ => accErr a addr 4 true s

/-! ### Writes -/

/-- Are the registers of a write those whose accepted write is captured as kind 1 (R454)? -/
def audited (r : Reg) (mask : Nat) : Bool :=
  hasFld (fun f => covers f mask && (f.acc = .rw || f.acc = .wo) && f.right ≠ .watcher) r
    && !([rCFG_STAGE_DATA, rPOOL_FREE, rPOOL_GIVE].any (fun x => x.id = r.id))

/-- Is the accepted write of a register captured as its own kind instead of kind 1: has the grant or the fuse command been (R454)? -/
def replaces (r : Reg) (s0 s : State) : Bool :=
  (r.id = rACC_MAKER_GRANT.id || r.id = rACC_FUSE_CMD.id) && rd HAUD.tail 0 s ≠ rd HAUD.tail 0 s0

/-- The words of a prefix as TBL_DATA carry them (R160); 0 where it is not stored. -/
def lpmData (k : Nat) (s : State) : Nat :=
  match lpmDest k s with
  | some d => lpmAddr k + 2 ^ 128 * (lpmLen k + lpmFam k * 256 + lpmVrf k * 512) + 2 ^ 160 * d
  | none => 0

/-- The entry of a table at an index, as the bytes of its data words: both slots of a double entry (R155, R455). -/
def entryBytes (t i : Nat) (s : State) : List Nat :=
  let o := if t = 0 then slotOwner i s else i
  leBytes 32 (tget t o s + (if t = 0 && slotWidth (tget 0 o s) = 2 then 2 ^ 128 * tget 0 (o + 1) s else 0))

/-- What a table command acts on, as bytes: its prefix, or the entry at the index it ended with, a move's destination (R160, R455). -/
def cmdBytes (t op : Nat) (s0 s u : State) : List Nat :=
  if t = 1 then (if op = 2 then leBytes 32 0 else ((dataPrefix (if op = 6 then s else s0)).map (fun k => leBytes 32 (lpmData k u))).getD (leBytes 32 0))
  else entryBytes t (rd HTBL.res_idx t s) u

/-- Capture an accepted write (R454, R455): kind 2 for a live table or rule command, kinds 8 and 9 by the commands themselves, kind 1 else. -/
def auditWritten (a : Access) (addr : Nat) (r : Reg) (i mask value : Nat) (s0 s : State) : State :=
  if a.path = .core || !audited r mask || replaces r s0 s then s
  else if r.id = rTBL_CMD.id then
    let op := part TBL_CMD.op value
    auditPut false 2 0 addr (op + 256 * i) (hash12 (cmdBytes i op s0 s s0), hash12 (cmdBytes i op s0 s (tblDone i s))) (whoOf a s0) s
  else if r.id = rSLC_RULE_CMD.id then
    let op := part SLC_RULE_CMD.op value
    let sl := sliceOf r i
    let n := sl * 65536 + (if op = 4 then rd SLC_RULE_DEST.dest sl s0 else part SLC_RULE_CMD.index value)
    let w := fun (t : State) => hash12 ((ruleWords n t).flatMap (leBytes 4))
    auditPut false 2 0 addr op (w s0, w (ruleDone sl s)) (whoOf a s0) s
  else
    auditPut (r.id = rRED_CX_CMD.id) 1 0 addr 0 (hash12 (regBytes addr (wordOf r i s0)), hash12 (regBytes addr (value % 2 ^ 32))) (whoOf a s0) s

/-- Store one live write in one target that is not held: W1C, then RW with its effects and pairs, then WO. -/
def storeLive (reboot : State → State) (a : Access) (r : Reg) (mask value i : Nat) (s : State) : State :=
  let w := mergeWord r i mask value s
  let s1 := clearW1c r i (value &&& mask) s
  let pair := pairOf r i
  let own := fun (f : Fld) => match pair with
    | some (p, inst, hi) => f.id = (pairFld p inst hi).2.1.id
    | none => false
  let s2 := setFields (fun f => f.acc = .rw && !own f && openFld r i mask s f) r i w s1
  let s3 := polWritten r i mask w (after s r i s2)
  let s4 := match pair with
    | some (p, inst, hi) =>
      let f := (pairFld p inst hi).2.1
      if covers f mask && openFld r i mask s f then pairWrite p inst hi (part f w) s3 else s3
    | none => s3
  if hasFld (fun f => f.acc = .wo) r then woAct reboot a r i (value &&& mask) s4 else s4

/-- The word mask of the fields that a live write reaches. -/
def liveMask (r : Reg) : Nat := maskOf (fun f => f.acc = .rw || f.acc = .w1c || f.acc = .wo) r

/-- One live write in one target: a slice at rest keeps it in its image (R332), and one in Autumn wakes (R330). -/
def writeTarget (reboot : State → State) (a : Access) (r : Reg) (mask value i : Nat) (s : State) : State :=
  if sliceReg r && r.id ≠ rSLC_SNAPSHOT.id && sliceHeld (sliceOf r i) s then
    let m := mask &&& liveMask r
    if m = 0 then s else imgPush (sliceOf r i) (sliceOff r i) value m s
  else if r.id = rSLC_RULE_CMD.id && !ruleCmdOk (sliceOf r i) (value &&& mask) s then s
  else storeLive reboot a r mask value i (if sliceReg r then autumnWake (sliceOf r i) s else s)

/-- The ST fields of a written word (R435) are staged where the path names an open set. -/
def writeSt (a : Access) (addr : Nat) (r : Reg) (mask value : Nat) (s : State) : State :=
  let m := mask &&& maskOf (fun f => f.acc = .st) r
  if m = 0 then s
  else match pathSet a s with
    | some k => csStage a addr k addr m (value &&& m) s
    | none => s

/-- Does a target of a write that is let through ignore part of it as an access error: a locked field, a rule command that cannot start, one of
several commands to the complexes or of an update, or, where no open set takes it, an ST field that differs (R435, R529)? -/
def targetErr (a : Access) (r : Reg) (mask value i : Nat) (s : State) : Bool :=
  (!(sliceReg r && sliceHeld (sliceOf r i) s) &&
    (lockHit r i mask (mergeWord r i mask value s) s || (r.id = rSLC_RULE_CMD.id && !ruleCmdOk (sliceOf r i) (value &&& mask) s) ||
      (redAsks r (value &&& mask) s).any not)) ||
  ((pathSet a s).isNone && !absentPort r i s && r.fields.any (fun f => f.acc = .st && changes f r i mask value s))

/-- A write of a register from a path: role, block rules, audit room, then the write itself. -/
def writeReg (reboot : State → State) (a : Access) (addr : Nat) (r : Reg) (i mask value : Nat) (s : State) : State :=
  let ts := winTargets addr r i s
  let v := value &&& mask
  if !(ts.all (fun j => roleOk a r j mask value s)) then
    refuse a addr (if r.id = rACC_FUSE_CMD.id && 1 ≤ part ACC_FUSE_CMD.op v && part ACC_FUSE_CMD.op v ≤ 2 then wr ACC_FUSE_CMD.result 0 1 s else s)
  else if absentPort r i s then
    (match pathSet a s with
      | some _ => writeSt a addr r mask value s
      | none => s)
  else match cmdErr r i v s with
    | some kind => accErr a addr kind true s
    | none =>
      if a.path ≠ .core && audited r mask && !auditRoom (r.id = rRED_CX_CMD.id) s then auditFull a addr s
      else if badValue r i mask (mergeWord r i mask value s) s then accErr a addr 4 true s
      else if r.id = rCFG_STAGE_DATA.id then stageData a addr v s
      else
        let s1 := if ts.any (fun j => targetErr a r mask value j s) then accErr a addr 4 true s else s
        let s1 := forEach ts (writeTarget reboot a r mask value) s1
        auditWritten a addr r i mask v s (writeSt a addr r mask value s1)

/-- An access to a counter in a slice's window wakes the slice from Autumn (R330). -/
def cntWake (c : Cnt) (i : Nat) (s : State) : State := if cntsSLC.any (fun k => k.id = c.id) then autumnWake (i / c.per) s else s

/-- A write of a whole aligned word through a path; `mask` selects the bits written (all of them, but for REG_WRITE messages). -/
def busWriteWith (reboot : State → State) (a : Access) (addr mask value : Nat) (s : State) : State :=
  if !aligned addr then accErr a addr 1 true s
  else match locate addr s with
    | .reg r i => writeReg reboot a addr r i (mask % 2 ^ 32) (value % 2 ^ 32) s
    | .cnt c i _ => match accRole a s with
      | some 0 => refuse a addr (cntWake c i s)
      | _ => cntWake c i s
    | .none_ => accErr a addr 2 true s

/-! ### Reads -/

/-- Does a read through a path clear RC fields (R11)? -/
def clearsRc (p : Path) : Bool :=
  match p with
  | .pcie => true
  | .smbus => true
  | .mgmt0 => true
  | .mgmt1 => true
  | .inband => true
  | .core => false
  | .image => false
  | .tap => false
  | .export_ => false
  | .ring => false
  | .bar2 => false

/-- A read of an allocation window (R403, R404, R406, R417). -/
def allocRead (a : Access) (r : Reg) (i : Nat) (s : State) : Nat × State :=
  let may := match accRole a s with
    | none => true
    | some role => role = 1 || role = 2
  if !may then (0xFFFFFFFF, s)
  else poolAlloc (requester a) (if r.id = rPOOL_ALLOC_SIZE.id then poolFor (i + 1) else i) s

/-- After a read that clears: the highest number of head-buffer entries since then is the present one (R110). -/
def rcNote (r : Reg) (i : Nat) (s : State) : State :=
  if r.id = rSLC_HEAD_STATUS.id then wr SLC_HEAD_STATUS.peak i (rd SLC_HEAD_STATUS.used i s) s else s

/-- A read of a whole word through a path. -/
def busRead (a : Access) (addr : Nat) (s : State) : Nat × State :=
  if !aligned addr then (0, accErr a addr 1 false s)
  else match locate addr s with
    | .reg r i =>
      if r.id = rPOOL_ALLOC_SIZE.id || r.id = rPOOL_ALLOC_POOL.id then allocRead a r i s
      else
        let s := if sliceReg r then autumnWake (sliceOf r i) s else s
        let w := wordOf r i s
        if clearsRc a.path then (w, rcNote r i (forEach (r.fields.filter (fun f => f.acc = .rc)) (fun f t => wr f i 0 t) s)) else (w, s)
    | .cnt c i _ => ((peek addr s).getD 0, cntWake c i s)
    | .none_ => (0, accErr a addr 2 false s)

end Sys2Proof.Machine
end

