-- ==== Sys2Proof/Machine/Boot.lean ====
section
/-!
DEFINITION. The configuration image (R421 to R425), boot from PWR_GOOD to ready (R426 to R432), the resets (R510 to R514), and the
staging of an update's image (R433).
-/

namespace Sys2Proof.Machine

/-! ### Resets (R13, R512, R532) -/

/-- Fields a fall of PWR_GOOD leaves: the always-on domain's, the fuses', the audit store's and the flash's boot-select records. -/
def keepAlways : List Fld :=
  [GLB_STATUS.reset_cause, GLB_STATUS.brownout_rail, GLB_PAD_SLEW.tout, GLB_PAD_SLEW.flash, GLB_PAD_SLEW.jtag, GLB_PAD_SLEW.trace,
    ACC_STATUS.key_slot, HFUSE.slot, HFUSE.flaw, HFUSE.maker, HAUD.seq, HAUD.pos, HAUD.badpos, HAUD.boots, ACC_AUDIT_SEQ.seq,
    ACC_AUDIT_STATUS.good, ACC_AUDIT_STATUS.audit_fault, PWR_TRIM_STATUS.trim_floor, HBOOT.alarm, HSEL.valid, HSEL.seq, HSEL.slot]

/-- What a return of the blocks to their Reset values within one boot leaves beside: the straps, the boot's own record, time, the locks,
the voltage, and the links to the host (R431). -/
def keepBoot : List Fld :=
  keepAlways ++ [ACC_STATUS.test_mode, GLB_STATUS.test_mode, GLB_STATUS.pcie_en, GLB_STATUS.smb_addr, HIF_STATUS.pcie_present, HIF_STATUS.link,
    HIF_STATUS.d_state, HIF_STATUS.speed, HIF_STATUS.width, HIF_STATUS.msix_en, HIF_STATUS.mgmt_up, CFG_BOOT_STATUS.fallback,
    CFG_BOOT_STATUS.preferred, CFG_BOOT_LOG.reason, CFG_BOOT_LOG.accepted, CFG_BOOT_LOG.skipped, CFG_BOOT_LOG.record, CFG_BOOT_FAIL_ADDR.addr,
    CFG_EVT.ev_boot, HBOOT.phase, HBOOT.slot, HBOOT.tried, HBOOT.volts, HSEL.busy, TBC.count, TBC.adj, TBC.pll_locked, TIM_CTRL.refclk_ok,
    TIM_CTRL.on_backup, CLK_STATUS.slice_lock, CLK_STATUS.quad_lock, CLK_STATUS.ref_lock, CLK_STATUS.cx_lock, CLK_STATUS.mgmt_lock,
    HAUD.head, HAUD.tail, PWR_STATUS.p_state, PWR_STATUS.limiter, HPWR.vcode, PWR_VCORE.v_set, POOLM.retired]

/-- Lists that hold the audit ring and the stored credentials (R451, R458). -/
def keepLists : List Lst := [LAUD.ring, LACC.cred]

/-- Put everything but the named fields and lists back to its value after reset; observations and the queue of commands are not the device's. -/
def resetBut (fs : List Fld) (ls : List Lst) (s : State) : State :=
  { State.reset with
    regs := s.regs.filter (fun e => fs.any (fun f => f.id = e.1.1))
    lists := s.lists.filter (fun e => ls.any (fun l => l.id = e.1.1))
    out := s.out, fresh := s.fresh, cyc := s.cyc, pending := s.pending }

/-- Every domain but the always-on domain is reset (R512); pins go to their released level. -/
def coreReset (s : State) : State := resetBut keepAlways keepLists s

/-- Buffers that are retired stay out of the free lists (R413). -/
def poolsRetired (s : State) : State :=
  forEach [0, 1, 2, 3] (fun p t =>
    let l := ((touched POOLM.retired t).filter (fun k => k / 32768 = p)).map (· % 32768)
    subF POOL_STATUS.free p l.length (setL LPOOL.gone p l t)) s

/-- Within one boot every block returns to its Reset values (R431): captures taken in this boot stay, and so do retired buffers. -/
def blocksReset (s : State) : State :=
  poolsRetired { resetBut keepBoot (LAUD.cap :: keepLists) s with
    cnts := s.cnts.filter (fun e => [cnt_CFG_flash_stalls, cnt_CFG_flash_late_edges].any (fun c => c.id = e.1.1))
    telFifo := s.telFifo }

/-- PWR_GOOD_FALL (R512): PWR_GOOD low past its filter; captures still in the audit FIFO are lost (R456), the grant ends (R450). -/
def pwrFall (cause rail : Nat) (s : State) : State :=
  coreReset s |> wr GLB_STATUS.reset_cause 0 cause |> wr GLB_STATUS.brownout_rail 0 rail |> wr HBOOT.alarm 0 0

/-- The reset cause of a fall of PWR_GOOD: THERMTRIP_N where it stood (R513), a brown-out already recorded while the device waits for it. -/
def pwrGoodFall (s : State) : State :=
  if rdB HBOOT.alarm 0 s && rd GLB_STATUS.reset_cause 0 s = 2 then s
  else if rdB PWR_STATUS.thermtrip 0 s then pwrFall 3 0 s else pwrFall 1 0 s

/-- BROWN_OUT (R513): a rail low for 10 µs; as a fall of PWR_GOOD, with ALARM_N low until PWR_GOOD has fallen and risen again. -/
def brownOut (rail : Nat) (s : State) : State := wr HBOOT.alarm 0 1 (pwrFall 2 rail s)

/-- AON_POWER_ON (R510): the always-on domain starts anew; the fuses and the non-volatile stores keep what they hold. -/
def aonPowerOn (s : State) : State :=
  let kept := [ACC_STATUS.key_slot, HFUSE.slot, HFUSE.flaw, HFUSE.maker, HAUD.seq, HAUD.pos, HAUD.badpos, HAUD.boots, ACC_AUDIT_SEQ.seq,
    ACC_AUDIT_STATUS.good, ACC_AUDIT_STATUS.audit_fault, HSEL.valid, HSEL.seq, HSEL.slot]
  resetBut kept keepLists s

/-! ### Power-up (R309, R509, R511) -/

/-- BOOT_VOLTAGE_SETUP (R509): VOUT_MODE is read at each address, then PAGE 0 and VOUT_COMMAND go to each that answers. Answers whether
core reset may be released. -/
def bootVolts (answers : List Nat) (arrived : Bool) (s : State) : Bool × State :=
  let s := forEach (List.range 8) (fun k t => pmbus (0x40 + k) [0x20] t) s
  let good := answers.filter (fun a => 0x40 ≤ a && a ≤ 0x47)
  let mv10 := 6000 + 25 * vidOf 5 s
  let s := forEach good (fun a t => pmbus a [0x21, mv10] (pmbus a [0, 0] t)) s
  let ok := good ≠ [] && arrived
  let s := addF HBOOT.volts 0 1 s
  (ok, if ok then wr PWR_VCORE.v_set 0 (600 + vidOf 5 s * 5 / 2) (wr HPWR.vcode 0 (vidOf 5 s) (wr HBOOT.alarm 0 0 s)) else wrB HBOOT.alarm 0 (100 < rd HBOOT.volts 0 s) s)

/-- Core reset is released (R426): fuses read, PLLs locked, core at P5, the preferred slot chosen; with TEST_MODE no image is read (R462). -/
def bootBegin (s : State) : State :=
  let s := wr CLK_STATUS.slice_lock 0 0x1FFFF s |> wr CLK_STATUS.quad_lock 0 15 |> wr CLK_STATUS.ref_lock 0 1 |> wr CLK_STATUS.cx_lock 0 3
    |> wr CLK_STATUS.mgmt_lock 0 1 |> addF HAUD.boots 0 1 |> wr CFG_BOOT_STATUS.preferred 0 (selSlot s) |> wr HBOOT.slot 0 (selSlot s)
    |> wr HBOOT.tried 0 0 |> wr CFG_BOOT_STATUS.state 0 0 |> wr RED_CX_STATUS.a_bist 0 1 |> wr RED_CX_STATUS.b_bist 0 1
  if rdB ACC_STATUS.test_mode 0 s then wr HBOOT.phase 0 6 s |> wr CFG_BOOT_STATUS.state 0 2 |> forEach [0, 1, 2, 3] (fun c t => wr INTC_CORE.in_service c 1 t)
  else wr HBOOT.phase 0 2 s

/-- PWR_GOOD_RISE (R511, R509, R426). A rail out of tolerance keeps the core in reset, with ALARM_N low. -/
def pwrGoodRise (x : PowerUp) (s : State) : State :=
  if rd HBOOT.phase 0 s ≠ 0 then s
  else
    let s := coreReset s
    if !x.railsOk then wr HBOOT.alarm 0 1 s
    else
      let s := wr HBOOT.alarm 0 0 s |> wrB ACC_STATUS.test_mode 0 x.testMode |> wrB GLB_STATUS.test_mode 0 x.testMode
        |> wrB GLB_STATUS.pcie_en 0 x.pcieEn |> wr GLB_STATUS.smb_addr 0 x.smbAddr |> wrB HIF_STATUS.pcie_present 0 x.pcieEn
        |> wr HIF_STATUS.link 0 (if x.pcieEn then 6 else 0)
        |> selLoad 0 x.sel0 |> selLoad 1 x.sel1 |> wr HBOOT.phase 0 1 |> wr PWR_STATUS.p_state 0 5 |> wr PWR_STATUS.limiter 0 7
      let (ok, s) := bootVolts x.answers x.arrived s
      if ok then bootBegin s else s

/-- BOOT_VOLTAGE_RETRY (R509): every 10 ms; after 1 s ALARM_N is low. -/
def bootVoltRetry (answers : List Nat) (arrived : Bool) (s : State) : State :=
  if rd HBOOT.phase 0 s ≠ 1 then s
  else
    let (ok, s) := bootVolts answers arrived s
    if ok then bootBegin s else s

/-- A write of reboot in no-image state (R431): boot again from PWR_GOOD timing; the boot voltage stands. -/
def reboot (s : State) : State :=
  bootBegin (wr CFG_BOOT_STATUS.fallback 0 0 (forEach [0, 1] (fun k t => wr CFG_BOOT_LOG.reason k 0 t |> wr CFG_BOOT_LOG.accepted k 0
    |> wr CFG_BOOT_LOG.skipped k 0 |> wr CFG_BOOT_LOG.record k 0) (blocksReset s)))

/-- A write through a path. -/
def busWrite (a : Access) (addr mask value : Nat) (s : State) : State := busWriteWith reboot a addr mask value s

/-! ### Records (R421, R422) -/

/-- A record: type, flags, its index and flash offset within the image, its value, and its padding. -/
structure IRec where
  type : Nat
  flags : Nat
  idx : Nat
  off : Nat
  val : List Nat
  pad : List Nat
deriving DecidableEq, Repr

/-- The records that fill a byte list exactly (R422), or the index and offset of the one that does not fit. -/
def parseRecs : Nat → List Nat → Nat → Nat → Except (Nat × Nat) (List IRec)
  | 0, bs, idx, off => if bs = [] then .ok [] else .error (idx, off)
  | n + 1, bs, idx, off =>
    if bs = [] then .ok []
    else
      let len := leNat ((bs.drop 4).take 4)
      let full := (len + 3) / 4 * 4
      let rest := bs.drop 8
      if bs.length < 8 || rest.length < full then .error (idx, off)
      else (parseRecs n (rest.drop full) (idx + 1) (off + 8 + full)).map
        (fun l => ⟨leNat (bs.take 2), leNat ((bs.drop 2).take 2), idx, off, rest.take len, (rest.take full).drop len⟩ :: l)

/-- The (address, mask, value) entries of a REG_WRITE or REG_BLOCK record. -/
def regEntries (r : IRec) : List (Nat × Nat × Nat) :=
  if r.type = 1 then (List.range (r.val.length / 12)).map (fun k => (wordAt r.val (3 * k), wordAt r.val (3 * k + 1), wordAt r.val (3 * k + 2)))
  else (List.range (r.val.length / 4 - 1)).map (fun k => (wordAt r.val 0 + 4 * k, 0xFFFFFFFF, wordAt r.val (k + 1)))

/-- May a record write an address (R425)? -/
def recordAddr (addr : Nat) (s : State) : Bool :=
  aligned addr && (match locate addr s with
    | .reg r _ => recordReg r
    | _ => false)

/-- The record types of R422. -/
def knownType (t : Nat) : Bool := [0x1, 0x2, 0x10, 0x11, 0x12, 0x20, 0x30, 0x40].contains t

/-- ID of a SERVICE_PARAM record, and its value. -/
def paramId (r : IRec) : Nat := leNat (r.val.take 2)

/-- Is a record one the device skips and counts: an optional record of an unknown type, or an unknown SERVICE_PARAM? -/
def skips (r : IRec) : Bool := (!knownType r.type && bitOf r.flags 0) || (r.type = 0x20 && 4 ≤ r.val.length && !paramKnown (paramId r))

/-- Check 7 of R424: is a record well formed and allowed? -/
def recOk (r : IRec) (s : State) : Bool :=
  r.flags < 2 && r.pad.all (· = 0) && (skips r || (match r.type with
    | 0x1 => r.val.length % 12 = 0 && (regEntries r).all (fun e => recordAddr e.1 s)
    | 0x2 => r.val.length % 4 = 0 && 4 ≤ r.val.length && (regEntries r).all (fun e => recordAddr e.1 s)
    | 0x10 => r.val.length = 40 && r.val.getD 0 0 < 6 && (r.val.getD 1 0 = 2 || r.val.getD 1 0 = 3) && leNat ((r.val.drop 2).take 2) < 4 && wordAt r.val 1 < 2 ^ 21
    | 0x11 => r.val.length = 232 && wordAt r.val 0 < 2 ^ 17 && wordAt r.val 1 < 65536
    | 0x12 => r.val.length = 24
    | 0x20 => 4 ≤ r.val.length && paramOk (paramId r) (r.val.drop 4)
    | 0x30 => 32 ≤ r.val.length && r.val.length = 32 + 8 * part ADM_REQ_CLASS.hop_count (wordAt r.val 1) && wordAt r.val 0 < 65536
    | 0x40 => 8 ≤ r.val.length
    | _ => false))

/-- The value a TABLE_CMD or LPM_PREFIX record writes: its table, its TBL_CMD word, its data words. -/
def tblParts (r : IRec) : Nat × Nat × List Nat :=
  if r.type = 0x12 then (1, 3, (List.range 6).map (wordAt r.val))
  else (r.val.getD 0 0, r.val.getD 1 0 + 16 * wordAt r.val 1 + 2 ^ 25 * leNat ((r.val.drop 2).take 2), (List.range 8).map (fun k => wordAt r.val (k + 2)))

/-- Slices, index and words of a RULE record. -/
def ruleParts (r : IRec) : List Nat × Nat × List Nat :=
  ((List.range 17).filter (fun sl => bitOf (wordAt r.val 0) sl), wordAt r.val 1, (List.range 56).map (fun k => wordAt r.val (k + 2)))

/-! ### Image checks (R423, R424) -/

/-- Check 3: the header. -/
def headOk (img : List Nat) : Bool :=
  img.take 4 = [0x5A, 0x58, 0x49, 0x4D] && leNat ((img.drop 4).take 2) = 1 && leNat ((img.drop 6).take 2) = 64
    && leNat ((img.drop 8).take 4) = img.length && 320 ≤ img.length && img.length ≤ 67108864 && leNat ((img.drop 16).take 2) = 0x1024
    && img.getD 18 255 ≤ 0xB0 && ((img.drop 19).take 5).all (· = 0) && ((img.drop 32).take 32).all (· = 0)

/-- Check 4: the key hash. A slot whose read-back differed holds no key that can be used (R449); nor does an unclaimed device. -/
def keyOk (img : List Nat) (s : State) : Bool :=
  let sig := img.drop (img.length - 256)
  let n := rd ACC_STATUS.key_slot 0 s
  sig.take 4 = [0x53, 0x49, 0x47, 0x31] && n ≠ 0 && !rdB HFUSE.flaw n s && Config.sha384 ((sig.drop 4).take 97) = rd HFUSE.slot n s

/-- Check 5: the signature over everything before the block. -/
def sigOk (img : List Nat) : Bool :=
  let sig := img.drop (img.length - 256)
  ((sig.drop 101).take 3).all (· = 0) && (sig.drop 200).all (· = 0)
    && Config.ecdsaVerify ((sig.drop 4).take 97) (img.take (img.length - 256)) ((sig.drop 104).take 96)

/-- The first patch with which the code of a list passes what is left of 1 MiB. -/
def patchOver : Nat → List IRec → Option IRec
  | _, [] => none
  | left, r :: l => if left < r.val.length - 8 then some r else patchOver (left - (r.val.length - 8)) l

/-- Checks 3 to 8 of R424: the records, or the reason, the record and, where one fails, its offset. -/
def imageCheck (img : List Nat) (s : State) : Except (Nat × Nat × Option Nat) (List IRec) :=
  if !headOk img then .error (3, 0, none)
  else if !keyOk img s then .error (4, 0, none)
  else if !sigOk img then .error (5, 0, none)
  else match parseRecs img.length ((img.take (img.length - 256)).drop 64) 0 64 with
    | .error (idx, off) => .error (6, idx, some off)
    | .ok rs =>
      if rs.length ≠ leNat ((img.drop 12).take 4) then .error (6, rs.length, none)
      else match rs.find? (fun r => !recOk r s) with
        | some r => .error (6, r.idx, some r.off)
        | none =>
          let ps := rs.filter (fun r => r.type = 0x40)
          match ps.find? (fun r => wordAt r.val 0 ≠ rd GLB_ROM_VERSION.rom_version 0 s) with
          | some r => .error (9, r.idx, some r.off)
          | none => match patchOver 1048576 ps with
            | some r => .error (9, r.idx, some r.off)
            | none => .ok rs

/-! ### Records take effect (R427) -/

/-- The access of image records. -/
def imageAccess : Access := ⟨.image, 0⟩

/-- One target of a record's entry: its RW bits at once. Ports are brought up only at the boot commit (R426). -/
def recStore (addr : Nat) (r : Reg) (mask value i : Nat) (s : State) : State :=
  let w := mergeWord r i mask value s
  if badValue r i mask w s then accErr imageAccess addr 4 true s
  else
    let s1 := if lockHit r i mask w s then accErr imageAccess addr 4 true s else s
    let pair := pairOf r i
    let own := fun (f : Fld) => match pair with
      | some (p, inst, hi) => f.id = (pairFld p inst hi).2.1.id
      | none => false
    let s2 := setFields (fun f => f.acc = .rw && !own f && openFld r i mask s f) r i w s1
    let s3 := if r.id = rPRT_PORT_CFG.id then s2 else polWritten r i mask w (after s r i s2)
    match pair with
    | some (p, inst, hi) =>
      let f := (pairFld p inst hi).2.1
      if covers f mask && openFld r i mask s f then pairWrite p inst hi (part f w) s3 else s3
    | none => s3

/-- One entry of a REG_WRITE or REG_BLOCK record at boot: RW at once, ST into the boot change set; false where the staging memory is full. -/
def recEntry (e : Nat × Nat × Nat) (s : State) : Bool × State :=
  match locate e.1 s with
  | .reg r i =>
    let s := if absentPort r i s then s else forEach (winTargets e.1 r i s) (fun j t => recStore e.1 r e.2.1 e.2.2 j t) s
    let m := e.2.1 &&& maskOf (fun f => f.acc = .st) r
    if m = 0 then (true, s)
    else if 262144 ≤ stageUsed s then (false, s)
    else (true, setL LCS.ent 4 (getL LCS.ent 4 s ++ [e.1, m, e.2.2 &&& m]) s)
  | _ => (true, s)

/-- Apply a test-and-change along a list until one answers false. -/
def whileOk {α : Type} (k : α → State → Bool × State) : List α → State → Bool × State
  | [], s => (true, s)
  | a :: l, s => let (ok, t) := k a s; if ok then whileOk k l t else (false, t)

/-- Record a stream request of the image for the time after ready (R428). -/
def reqKeep (r : IRec) (s : State) : State :=
  let k := rd HREQ.count 0 s
  setL LREQ.words k ((List.range (r.val.length / 4)).map (wordAt r.val)) (wr HREQ.count 0 (k + 1) s)

/-- One record at boot (R427): the reason it rejects the image for, 0 for none. -/
def recApply (r : IRec) (s : State) : Nat × State :=
  if skips r then (0, s)
  else match r.type with
    | 0x1 => let (ok, s) := whileOk recEntry (regEntries r) s; (if ok then 0 else 8, s)
    | 0x2 => let (ok, s) := whileOk recEntry (regEntries r) s; (if ok then 0 else 8, s)
    | 0x11 =>
      let (sls, idx, ws) := ruleParts r
      let (ok, s) := whileOk (fun sl t => let (b, u) := ruleRec sl idx ws t; (!b, u)) sls s
      (if ok then 0 else 7, s)
    | 0x20 => (0, paramApply (paramId r) (r.val.drop 4) s)
    | 0x30 => (0, reqKeep r s)
    | 0x40 => (0, patchIn (r.val.drop 4) s)
    | _ => let (t, w, d) := tblParts r; let (b, s) := tableRec t w d s; (if b then 7 else 0, s)

/-- Apply records in order: the reason and the record that rejects the image, and for each record how many entries stood staged after it. -/
def recsApply : List IRec → List (IRec × Nat) → State → Option (Nat × IRec) × List (IRec × Nat) × State
  | [], marks, s => (none, marks, s)
  | r :: l, marks, s =>
    let (why, t) := recApply r s
    if why ≠ 0 then (some (why, r), marks, t) else recsApply l (marks ++ [(r, (getL LCS.ent 4 t).length / 3)]) t

/-- Bring-up begins at the boot commit for every port the image has set up (R426, R60). -/
def portsBegin (s : State) : State :=
  forEach ((touched PRT_PORT_CFG.admin_up s).filter (fun p => rdB PRT_PORT_CFG.admin_up p s))
    (fun p t => adminUp p true (wr PRT_PORT_CFG.admin_up p 0 t)) s

/-! ### Boot (R426, R431) -/

/-- Folsor runs, from ROM or with the image's patches: the cores take interrupts (R385). -/
def coresOn (s : State) : State := route (forEach [0, 1, 2, 3] (fun c t => wr INTC_CORE.in_service c 1 t) s)

/-- Both slots have failed: no-image state (R431). -/
def noImageState (s : State) : State :=
  coresOn (wr HBOOT.phase 0 5 s |> wr CFG_BOOT_STATUS.state 0 2 |> wr CFG_EVT.ev_boot 0 1
    |> raise 0x0E03 [rd CFG_BOOT_LOG.reason 0 s, rd CFG_BOOT_LOG.reason 1 s])

/-- The slot being read fails with a reason, at a record and a flash address where there is one (R442); the other slot is tried, once (R431). -/
def slotFail (reason rec : Nat) (addr : Option Nat) (applied : Bool) (s : State) : State :=
  let sl := rd HBOOT.slot 0 s
  let s := if applied then blocksReset s else s
  let s := wr CFG_BOOT_LOG.reason sl reason s |> wr CFG_BOOT_LOG.accepted sl 0 |> wr CFG_BOOT_LOG.record sl rec |> setFBit HBOOT.tried 0 sl
    |> wr CFG_BOOT_FAIL_ADDR.addr 0 (addr.getD (rd CFG_BOOT_FAIL_ADDR.addr 0 s)) |> wr HFL.stalls 0 0 |> wr HFL.again 0 0 |> wr HFL.wait 0 0
  if rdBit HBOOT.tried 0 (1 - sl) s then noImageState s
  else
    wr HBOOT.slot 0 (1 - sl) s |> wr CFG_BOOT_STATUS.fallback 0 1 |> wr CFG_EVT.ev_boot 0 1 |> raise 0x0E02 [sl, reason, if reason = 1 then addr.getD 0 else rec]

/-- The image stands in cells of the shared buffer until the device is ready, or the slot fails (R426). -/
def imageCells (len : Nat) (s : State) : State :=
  let n := ceilDiv len 256
  subF BUF_FREE.free 0 n (wr HBOOT.cells 0 n s)

/-- BOOT_IMAGE_READ_DONE (R426): the image of the slot has been read, or the flash could not be (`img` none: R424 check 2). -/
def imageRead (img : Option (List Nat)) (s : State) : State :=
  if rd HBOOT.phase 0 s ≠ 2 then s
  else
    let sl := rd HBOOT.slot 0 s
    let base := sl * 0x4000000
    match img with
    | none => slotFail 2 0 none false s
    | some img =>
      match imageCheck img s with
      | .error (why, rec, off) => slotFail why rec (off.map (base + ·)) false s
      | .ok rs =>
        let s := imageCells img.length (wr CFG_BOOT_LOG.skipped sl (min 7 (rs.filter skips).length) s)
        match recsApply rs [] (setL LCS.ent 4 [] (wr HREQ.count 0 0 s)) with
        | (some (why, r), _, s) => slotFail why r.idx (some (base + r.off)) true s
        | (none, marks, s) =>
          match setCommit 4 [] s with
          | (some (idx, _), s) =>
            let r := (marks.find? (fun m => idx < m.2)).map (·.1)
            slotFail 8 ((r.map (·.idx)).getD 0) (r.map (fun x => base + x.off)) true s
          | (none, s) =>
            trimInit (portsBegin s) |> wr HBOOT.phase 0 3 |> wr CFG_BOOT_STATUS.slot_in_use 0 sl |> wr CFG_BOOT_LOG.accepted sl 1
              |> wr CFG_BOOT_LOG.reason sl 0 |> wr HBOOT.stamp 0 (leNat ((img.drop 24).take 8)) |> auditPut false 10 0 sl 0 (0, hash12 img) whoImage

/-- FLASH_BURST_STALL during boot or the loading of an update fails the slot, or aborts the update, when no reissue is left (R430, R433). -/
def burstStall (addr : Nat) (s : State) : State :=
  if !flashReads s then s
  else
    let (last, s) := flashStall addr s
    if !last then s
    else if rd HBOOT.phase 0 s = 2 then slotFail 1 0 (some addr) false s
    else if rd RED_UPDATE_STATUS.phase 0 s = 1 then updAbort 1 s
    else flashEnd 1 s

/-! ### Stream requests of the image (R428) -/

/-- A hop of a stream request from its two words (R47). -/
def hopOf (a b : Nat) : HopReq :=
  ⟨part ADM_REQ_HOPA.device_id a, part ADM_REQ_HOPA.ingress_port a, part ADM_REQ_HOPA.egress_port a, part ADM_REQ_HOPB.sub_node b, part ADM_REQ_HOPB.queue b⟩

/-- The request the words of a STREAM_REQ record spell (R422). -/
def wordsReq (ws : List Nat) : StreamReq :=
  let w := fun k => ws.getD k 0
  ⟨w 0, part ADM_REQ_CLASS.class_ (w 1), part ADM_REQ_CLASS.frer (w 1), part ADM_REQ_IDENT.ident_ref (w 2), part ADM_REQ_FRAME.max_frame (w 3),
    part ADM_REQ_FRAME.min_frame (w 3), part ADM_REQ_RATE.rate (w 4), part ADM_REQ_BURST.burst (w 5), part ADM_REQ_DEADLINE.deadline (w 6),
    part ADM_REQ_CLASS.time_base (w 1), part ADM_REQ_CLASS.gated_queue (w 1), part ADM_REQ_SCHED.send_offset (w 7),
    (List.range (part ADM_REQ_CLASS.hop_count (w 1))).map (fun k => hopOf (w (8 + 2 * k)) (w (9 + 2 * k)))⟩

/-- Submit request `k` of the image: it carries no role (R445), so no envelope bears on it. -/
def reqSubmit (k : Nat) (s : State) : State :=
  admTake ⟨1, 2, [2, k], 0, ⟨0, 0, 0, 0, 0, 0, 0⟩, wordsReq (getL LREQ.words k s)⟩ (wr HREQ.state k 1 (setL LADM.img k [] s))

/-- The end of the 60 s, in TB0. -/
def reqEnd (s : State) : Nat := rd HBOOT.t0 0 s - 1 + 60000000000

/-- A request of the image has failed for good: STREAM_REQ_FAILED. -/
def reqFailed (k code : Nat) (s : State) : State :=
  wr HREQ.state k 0 s |> wr CFG_EVT.ev_boot 0 1 |> raise 0x0E04 [(getL LREQ.words k s).getD 0 0, code]

/-- A result has come in: PATH_UNREACHABLE or TIME_BASE within the 60 s waits for its next try, any other failure is raised. -/
def reqResult (k : Nat) (s : State) : State :=
  match getL LADM.img k s with
  | code :: _ =>
    let s := setL LADM.img k [] s
    if code = 0 then wr HREQ.state k 0 s
    else if (code = 0x0C || code = 0x0B) && now s < reqEnd s then wr HREQ.state k 2 s |> wr HREQ.code k code |> arm HREQ.due k 1000000000
    else reqFailed k code s
  | [] => s

/-- Results of the image's requests that have come in. -/
def reqNote (s : State) : State := forEach ((touched HREQ.state s).filter (fun k => rd HREQ.state k s = 1)) reqResult s

/-- STREAM_REQ_RETRY (R428): 1 s after it failed, request `k` is submitted again; the end of the 60 s comes first where that lies before. -/
def reqRetry (k : Nat) (s : State) : State :=
  if rd HREQ.state k s ≠ 2 then s
  else
    let due := rd HREQ.due k s - 1
    if reqEnd s ≤ max (now s) due then reqFailed k (rd HREQ.code k s) (passTo (reqEnd s) (disarm HREQ.due k s))
    else reqSubmit k (passTo due (disarm HREQ.due k s))

/-- BOOT_READY (R426): `ms` milliseconds after PWR_GOOD. -/
def bootDone (ms : Nat) (s : State) : State :=
  if rd HBOOT.phase 0 s ≠ 3 then s
  else
    let sl := rd CFG_BOOT_STATUS.slot_in_use 0 s
    let s := coresOn (addF BUF_FREE.free 0 (rd HBOOT.cells 0 s) s |> wr HBOOT.cells 0 0 |> wr HBOOT.phase 0 4 |> wr CFG_BOOT_STATUS.state 0 1 |> wr CFG_BOOT_STATUS.boot_ms 0 (min 2047 ms) |> wr HBOOT.t0 0 (now s + 1)
      |> raise 0x0E01 ([sl] ++ w64 (rd HBOOT.stamp 0 s) ++ [min 2047 ms]))
    reqNote (forEach (List.range (rd HREQ.count 0 s)) reqSubmit s)

/-! ### Update staging (R433) -/

/-- The rules of the slices. -/
def allRules (s : State) : List (Nat × List Nat) := mkind s.lists LRULE.rule.id

/-- Does a staged command leave tables and rules exactly as they stand? A rule of a slice at rest stands as its image leaves it (R332). -/
def leavesAll (l : List Nat) (s : State) : Bool :=
  let t := (recCmd l s).2
  let sl := l.getD 1 0
  if l.headD 0 = 1 && sliceHeld sl s then allRules (imgTake sl t) = allRules (imgTake sl s)
  else t.tbl = s.tbl && allRules t = allRules s

/-- The time a command takes, in ns: LPM INSERT 50 µs, every other 1 µs (R162, R138). -/
def cmdNs (l : List Nat) : Nat := if l.getD 0 0 = 0 && l.getD 1 0 = 1 && l.getD 2 0 % 16 = 3 then 50000 else 1000

/-- One record of the second pass: registers into the update change set, tables and rules that would change something, the rest kept for the swap. -/
def recStage (r : IRec) (s : State) : Bool × State :=
  if skips r then (true, s)
  else
    let cmd := fun (l : List Nat) (t : State) => if leavesAll l t then (true, t)
      else if 262144 < stageUsed t + cmdEntries l then (false, t)
      else (true, setL LCS.cmd 5 (getL LCS.cmd 5 t ++ [l.length] ++ l) t)
    match r.type with
    | 0x11 =>
      let (sls, idx, ws) := ruleParts r
      whileOk (fun sl t => cmd ([1, sl, idx] ++ ws) t) sls s
    | 0x20 =>
      let l := paramId r :: r.val.drop 4
      (true, setL LUPD.par 0 (getL LUPD.par 0 s ++ [l.length] ++ l) s)
    | 0x30 => (true, s)
    | 0x40 => (true, setL LUPD.patch 0 (getL LUPD.patch 0 s ++ [r.val.length - 4] ++ r.val.drop 4) s)
    | 0x10 => let (t, w, d) := tblParts r; cmd ([0, t, w] ++ d) s
    | 0x12 => let (t, w, d) := tblParts r; cmd ([0, t, w] ++ d) s
    | _ => whileOk (fun e t => if 262144 ≤ stageUsed t then (false, t) else (true, setL LCS.ent 5 (getL LCS.ent 5 t ++ [e.1, e.2.1, e.2.2]) t)) (regEntries r) s

/-- UPDATE_STAGED (R370, R433): both passes over the image of the other slot, `again` being what the second pass read; the update is ready or is aborted. -/
def updStaged (img again : List Nat) (s : State) : State :=
  if rd RED_UPDATE_STATUS.phase 0 s ≠ 1 then s
  else match imageCheck img s with
    | .error _ => updAbort 1 s
    | .ok rs =>
      if img ≠ again then updAbort 1 s
      else
        let (ok, s) := whileOk recStage rs s
        let ns := ((parts (getL LCS.cmd 5 s)).map cmdNs).sum
        if !ok || 60000 < ns then updAbort 1 s
        else wr RED_UPDATE_STATUS.phase 0 2 s |> wr HUPD.stamp 0 (leNat ((img.drop 24).take 8))
          |> auditPut false 10 0 (1 - rd CFG_BOOT_STATUS.slot_in_use 0 s) 1 (0, hash12 img) whoImage

end Sys2Proof.Machine
end

