-- ==== Sys2Proof/Machine/Img.lean ====
section
/-!
DEFINITION. Slices come to serve: the end of a Thaw (R331, R332), SL16's load and forwarding (R361 to R363), and hand-back (R369).
-/

namespace Sys2Proof.Machine

/-- Copy one field of a slice register from slice `sl` to slice `onto`. -/
def fldCopy (sl onto per : Nat) (f : Fld) (s : State) : State :=
  let s := forEach ((touched f s).filter (fun i => i / per = onto)) (fun i t => resetF f i t) s
  forEach ((touched f s).filter (fun i => i / per = sl)) (fun i t => wr f (onto * per + i % per) (rd f i t) t) s

/-- A slice's image as its registers and rules hold it goes to another slice. -/
def imageCopy (sl onto : Nat) (s : State) : State :=
  let s := forEach regsSLC (fun r t => forEach (r.fields.filter (fun f => f.acc = .rw || f.acc = .st)) (fldCopy sl onto (slicePer r)) t) s
  let s := forEach (((mkind s.lists LRULE.rule.id).map (·.1)).filter (fun k => k / 65536 = onto)) (fun k t => setL LRULE.rule k [] t) s
  let s := forEach ((touched HRULE.bad s ++ touched HRULE.inval s).filter (fun k => k / 65536 = onto)) (fun k t => wr HRULE.bad k 0 (wr HRULE.inval k 0 t)) s
  forEach (((mkind s.lists LRULE.rule.id).map (·.1)).filter (fun k => k / 65536 = sl))
    (fun k t => setL LRULE.rule (onto * 65536 + k % 65536) (getL LRULE.rule k t) t) s

/-- A slice's numbers and engines start afresh. -/
def sliceFresh (sl : Nat) (s : State) : State :=
  let s := forEach ((touched SLC_PORT_SEQ.next_seq s ++ touched SLC_PORT_SEQ.oldest s).filter (fun i => i / 64 = sl))
    (fun i t => wr SLC_PORT_SEQ.next_seq i 0 (wr SLC_PORT_SEQ.oldest i 0 t)) s
  let s := forEach ((List.range 8).map (8 * sl + ·)) (fun k t => wr SLC_ENG_STAT.fenced k 0 t |> wr SLC_ENG_STAT.cause k 0 |> wr HSLC.rtest k 0) s
  wr SLC_STATUS.fenced sl 0 s

/-- THAW_COMPLETE (R331, R332): one heartbeat has passed each engine, `bad` ones failing; what waited for the slice takes effect. -/
def thawComplete (sl : Nat) (bad : List Nat) (s : State) : State :=
  if rd PWR_SLICE.state sl s ≠ 3 || !rdB SLC_STATUS.serving sl s then s
  else admResume (forEach (bad.filter (· < 8)) (fun e t => fence sl e 4 t) (imgTake sl (wr PWR_SLICE.state sl 0 (disarm HSLC.thaw sl s))))

/-- Ports of a takeover resume and their peers are released (R363 step 7). -/
def portsForward (ps : List Nat) (s : State) : State := forEach ps (fun p t => llFlush p (ordSet p 0x05 0 (wr HPRT.gap p 0 t))) s

/-- A takeover or hand-back is reported. -/
def takeoverNote (shown cause dur : Nat) (s : State) : State :=
  inc cnt_RED_takeover 0 s |> wr RED_EVT.ev_takeover 0 1 |> wr RED_TAKEOVER_LOG.slice 0 shown |> wr RED_TAKEOVER_LOG.cause 0 cause
    |> wr RED_TAKEOVER_LOG.result 0 0 |> wr RED_TAKEOVER_LOG.fail_step 0 0 |> wr RED_TAKEOVER_LOG.duration 0 dur |> raise 0x0805 [shown, cause, dur]

/-- TAKEOVER_FORWARD (R363): `ns` after the give-up, 48 µs at most, SL16 has loaded the failed slice's image and forwards. -/
def takeoverForward (ns : Nat) (s : State) : State :=
  match takenOver s with
  | none => s
  | some sl =>
    let t0 := rd HSLC.give sl s - 1
    let s := passTo (t0 + min ns 48000) s
    let s := setL LSLC.img 16 [] (imageCopy sl 16 s)
    let s := sliceFresh 16 (wr PWR_SLICE.state 16 0 (wr SLC_STATUS.serving 16 1 s))
    let s := imgReplay sl 16 s |> wr RED_SPARE_STATUS.spare_state 0 2
    takeoverNote sl (rd HSLC.cause sl s) ((now s - t0) / 10) (epiEnd 1 sl sl (portsForward (slicePorts 16 s) s))

/-- SL16 gives its ports back: its own frames are disposed of as at a give-up, and it returns to Winter. -/
def spareEnd (ps : List Nat) (s : State) : State :=
  let s := giveUpFrames 16 ps (forEach ps (fun p t => ordSet p 0x04 (rd RED_CTRL.qh_duration 0 t) (wr HPRT.gap p 1 t)) s)
  wr SLC_STATUS.serving 16 0 s |> wr PWR_SLICE.state 16 2 |> wr RED_SPARE_STATUS.spare_state 0 0 |> wr RED_SPARE_STATUS.serving_for 0 31

/-- HAND_BACK_DONE (R369): the fenced slice's test cells pass (`ok`), and `ns` after its own give-up by SL16 the macros are its own again. -/
def handBackDone (ok : Bool) (ns : Nat) (s : State) : State :=
  let sl := rd HRED.hb 0 s
  if sl = 31 then s
  else if !ok then wr HRED.hb 0 31 s
  else
    let s := wr HRED.hb 0 31 s
    let ps := ownPorts sl s
    let ms := (List.range 4).map (4 * sl + ·)
    let moved := rd RED_SPARE_STATUS.spare_state 0 s = 2 && rd RED_SPARE_STATUS.serving_for 0 s = sl
    let s := if moved then spareEnd ps (epiStart 1 sl sl (streamsOnSlice 16 s) s) else s
    let s := forEach ms (fun m t => wr PRT_MACRO_STATUS.serving_slice m sl t) (pass (min ns 48000) s)
    let s := wr SLC_STATUS.failed sl 0 s |> wr SLC_STATUS.serving sl 1 |> clrFBit RED_SPARE_STATUS.failed 0 sl |> wr HSLC.cause sl 0
      |> wr PWR_SLICE.state sl 0
    let s := imgTake sl (sliceFresh sl s)
    let s := if moved then portsForward ps s
      else forEach ps (fun p t => bringStart p (wr HPRT.unserved p 0 (wr HPRT.gap p 0 t))) s
    let s := if (touched HPRT.unserved s).any (fun p => rdB HPRT.unserved p s) then s else wr RED_ALARM.spare_fail 0 0 s
    if moved then takeoverNote 16 6 (min ns 48000 / 10) (epiEnd 1 sl sl s) else s

end Sys2Proof.Machine
end

