-- ==== Sys2Proof/Machine/Hif.lean ====
section
/-!
DEFINITION. The host interface: the PCIe link and its resets (R466 to R470, R396), the management ports (R479) and the management
engine (R480 to R483), the SMBus target (R484), the I²C masters (R486) and the TAP (R461).
-/

namespace Sys2Proof.Machine

/-! ### PCIe -/

/-- ev_pcie and PCIE_LINK with a cause (R489). -/
def pcieEvent (cause : Nat) (s : State) : State :=
  raise 0x0C01 [rd HIF_STATUS.link 0 s, rd HIF_STATUS.d_state 0 s, cause] (wr HIF_EVT.ev_pcie 0 1 s)

/-- PCIE_LINK_DOWN. -/
def linkLost (s : State) : State := if !pcieOn s then s else pcieEvent 1 (wr HIF_STATUS.link 0 0 s)

/-- PCIE_AER_ERROR. -/
def aerError (s : State) : State := if !pcieOn s then s else pcieEvent 4 (wr HPCI.aer 0 1 (inc cnt_HIF_pcie_aer 0 s))

/-- PCIE_PERST_ASSERT (R470): the function is in D3cold, with no link. -/
def perstAssert (s : State) : State :=
  if !pcieOn s then s else pcieEvent 3 (hifReset s |> wr HIF_STATUS.link 0 0 |> wr HIF_STATUS.d_state 0 3)

/-- PCIE_PERST_DEASSERT (R396): PCIE_WAKE_N is released, and the link trains out of D3cold. -/
def perstDeassert (s : State) : State :=
  if !pcieOn s || rd HIF_STATUS.d_state 0 s ≠ 3 then s
  else { wr HIF_STATUS.d_state 0 0 (wr HIF_STATUS.link 0 6 s) with pins := { s.pins with pcieWakeN := true } }

/-- FLR (R470). -/
def flReset (s : State) : State := if !pcieOn s then s else pcieEvent 2 (wr HIF_STATUS.d_state 0 0 (hifReset s))

/-- HOT_RESET (R470). -/
def hotReset (s : State) : State := if !pcieOn s then s else wr HIF_STATUS.d_state 0 0 (hifReset s)

/-- Speeds and widths the endpoint trains to (R467). -/
def linkSupported (speed width : Nat) : Bool := 1 ≤ speed && speed ≤ 5 && (width = 1 || width = 2 || width = 4)

/-- MSIX_LINK_READY (R396): the link reaches L0, at a speed and a width; held messages go out where the function is in D0. -/
def linkReady (speed width : Nat) (s : State) : State :=
  if !pcieOn s || rd HIF_STATUS.d_state 0 s = 3 || !linkSupported speed width then s
  else msixRelease (wr HIF_STATUS.link 0 1 s |> wr HIF_STATUS.speed 0 speed |> wr HIF_STATUS.width 0 width)

/-- ASPM_LINK_ENTRY (R396): an idle link in L0 goes to L0s (2), L1 (3), L1.1 (4) or L1.2 (5). -/
def aspmEntry (l : Nat) (s : State) : State :=
  if pcieOn s && rd HIF_STATUS.link 0 s = 1 && 2 ≤ l && l ≤ 5 then wr HIF_STATUS.link 0 l s else s

/-- D_STATE_CHANGE (R396): D0 or D3hot, with MSI-X Enable and PME_En as the host leaves them. -/
def dState (hot msixEn pmeEn : Bool) (s : State) : State :=
  if !pcieOn s || rd HIF_STATUS.d_state 0 s = 3 then s
  else msixRelease (wr HIF_STATUS.d_state 0 (if hot then 2 else 0) s |> wrB HIF_STATUS.msix_en 0 msixEn |> wrB HINT.pme_en 0 pmeEn)

/-- MSIX_UNMASK (R390): a pending message is sent, or held where link and function are not ready. -/
def msixUnmask (g : Nat) (s : State) : State :=
  if 64 ≤ g then s
  else
    let s := wr HINT.masked g 0 s
    if !rdB HINT.pba g s then s
    else if rd HIF_STATUS.link 0 s = 1 && rd HIF_STATUS.d_state 0 s = 0 && rdB HIF_STATUS.msix_en 0 s then msixSend g (wr HINT.pba g 0 s)
    else msixHold g 1 (wr HINT.pba g 0 s)

/-- A write of BAR2 (R468): address, data and vector control of an MSI-X table entry; the PBA and what lies beyond it take none. -/
def bar2Write (off mask value : Nat) (s : State) : State :=
  let g := off / 16
  let put := fun (f : Fld) => wr f g ((rd f g s &&& (mask ^^^ 0xFFFFFFFF)) ||| (value &&& mask)) s
  if 0x400 ≤ off || off % 4 ≠ 0 then s
  else match off / 4 % 4 with
    | 0 => let t := put HINT.addr_lo; wr HINT.addr_lo g (rd HINT.addr_lo g t / 4 * 4) t
    | 1 => put HINT.addr_hi
    | 2 => put HINT.data
    | _ => if mask % 2 = 0 then s else if value % 2 = 1 then wr HINT.masked g 1 s else msixUnmask g s

/-- A read of BAR2 (R468): the table entries, and the PBA from 0x2000 on. -/
def bar2Read (off : Nat) (s : State) : Nat :=
  let g := off / 16
  if off % 4 ≠ 0 then 0
  else if off < 0x400 then
    match off / 4 % 4 with
    | 0 => rd HINT.addr_lo g s
    | 1 => rd HINT.addr_hi g s
    | 2 => rd HINT.data g s
    | _ => rd HINT.masked g s
  else if off = 0x2000 || off = 0x2004 then
    ((List.range 32).map (fun k => rd HINT.pba (8 * (off - 0x2000) + k) s * 2 ^ k)).sum
  else 0

/-! ### Management ports (R479) -/

/-- Does a management port take frames? -/
def mgmtPort (m : Nat) (s : State) : Bool := m < 2 && rdB HIF_MGMT_W0.enable m s

/-- A frame on a management port takes a pool 2 buffer of requester 24 or 25 while it is served, or is dropped. -/
def mgmtFrame (m : Nat) (k : State → State) (s : State) : State :=
  if !mgmtPort m s then s
  else
    let (h, s) := poolAlloc (24 + m) 2 s
    if h = 0xFFFFFFFF then inc cnt_HIF_mgmt_no_buf 0 s else poolDone (24 + m) h (k (inc cnt_HIF_mgmt_rx 0 s))

/-- A frame that is none of the port's business. -/
def mgmtOther (s : State) : State := inc cnt_HIF_mgmt_other 0 s

/-- MAC address of a management port. -/
def mgmtMac (m : Nat) (s : State) : Nat := rd HIF_MGMT_W2.mac_hi m s * 2 ^ 32 + rd HIF_MGMT_W1.mac_lo m s

/-- IPv6 address of a management port. -/
def mgmtV6 (m : Nat) (s : State) : Nat := beNat ((List.range 4).flatMap (fun k => beBytes 4 (rd HIF_MGMT_V6.ipv6 (4 * m + k) s)))

/-- Send an answer on a management port. -/
def mgmtAnswer (m : Nat) (args : List Nat) (s : State) : State := emit .mgmtFrame m args (inc cnt_HIF_mgmt_tx 0 s)

/-- ARP_REQUEST for `target` from `mac` and `ip`. -/
def arpRequest (m target mac ip : Nat) (s : State) : State :=
  mgmtFrame m (fun s =>
    let own := rd HIF_MGMT_W3.ipv4 m s
    if own ≠ 0 && target = own then mgmtAnswer m [0x0806, mgmtMac m s, own, mac, ip] s else mgmtOther s) s

/-- NEIGHBOUR_SOLICITATION for `target` from `mac` and `ip`. -/
def neighbourSol (m target mac ip : Nat) (s : State) : State :=
  mgmtFrame m (fun s =>
    if mgmtV6 m s ≠ 0 && target = mgmtV6 m s then mgmtAnswer m [0x86DD, 136, mgmtMac m s, target, mac, ip] s else mgmtOther s) s

/-- ECHO_REQUEST to `dst` from `src` with identifier, sequence and data. -/
def echoRequest (m : Nat) (v6 : Bool) (dst src id seq : Nat) (data : List Nat) (s : State) : State :=
  mgmtFrame m (fun s =>
    let own := if v6 then mgmtV6 m s else rd HIF_MGMT_W3.ipv4 m s
    if own ≠ 0 && dst = own then mgmtAnswer m ([if v6 then 129 else 0, own, src, id, seq] ++ data) s else mgmtOther s) s

/-- MGMT_OTHER_FRAME. -/
def otherFrame (m : Nat) (s : State) : State := mgmtFrame m mgmtOther s

/-- MGMT_LINK_CHANGE (R489). -/
def mgmtLink (m : Nat) (up : Bool) (s : State) : State :=
  if 2 ≤ m || rdBit HIF_STATUS.mgmt_up 0 m s = up then s
  else
    let s := if up then setFBit HIF_STATUS.mgmt_up 0 m s else clrFBit HIF_STATUS.mgmt_up 0 m s
    raise 0x0C02 [m, b2n up] (wr (if m = 0 then HIF_EVT.ev_mgmt0 else HIF_EVT.ev_mgmt1) 0 1 s)

/-! ### The management engine (R480 to R483) -/

/-- The path code of a message (R457), where the path carries messages. -/
def msgPath (p : Path) : Option Nat :=
  match p with
  | .mgmt0 => some 2
  | .mgmt1 => some 3
  | .inband => some 4
  | .pcie => none
  | .smbus => none
  | .core => none
  | .image => none
  | .tap => none
  | .export_ => none
  | .ring => none
  | .bar2 => none

/-- Where the answer to a message goes. -/
def replyTo (m : MgmtMsg) : MgmtTo := ⟨(msgPath m.path).getD 0, m.port, m.sess, m.ctr, m.rid⟩

/-- Is the protocol answered: not before ready, not in no-image state or TEST_MODE, not in autonomous hold (R431, R462, R357)? -/
def mgmtServes (s : State) : Bool := bootReady s && !rdB HRED.hold 0 s

/-- A message's header is well formed (R481), and the message no longer than its path takes (R480). -/
def headerOk (m : MgmtMsg) : Bool :=
  m.magic = 0x5A4D && m.ver = 1 && m.len = m.payload.length && m.status = 0 && m.payload.length ≤ (if m.v6 then 1416 else 1436)

/-- The types the engine takes as requests (R482). -/
def requestType (type : Nat) : Bool := [1, 3, 6, 0x10, 0x11, 0x12, 0x13, 0x14, 0x15, 0x16, 0x17, 0x20, 0x21, 0x22].contains type

/-- Is a message to a management port's own address and UDP port (R480)? -/
def addressed (m : MgmtMsg) (pc : Nat) (s : State) : Bool :=
  let own := if m.v6 then mgmtV6 (pc - 2) s else rd HIF_MGMT_W3.ipv4 (pc - 2) s
  own ≠ 0 && m.dst = own && m.udp = rd HIF_MGMT_CFG.udp_port 0 s

/-- A message that is out of range is answered BAD_MSG. -/
def badMsg (type : Nat) (m : MgmtMsg) (s : State) : State := mgmtReply (replyTo m) type 1 [] (inc cnt_HIF_mgmt_bad 0 s)

/-- A request refused on role grounds is answered DENIED and recorded (R482, R454). -/
def deniedMsg (type : Nat) (m : MgmtMsg) (a : Access) (addr : Nat) (s : State) : State :=
  mgmtReply (replyTo m) type 2 [] (refuse a addr s)

/-- Big-endian field of a payload. -/
def beField (bs : List Nat) (off n : Nat) : Nat := beNat ((bs.drop off).take n)

/-- HELLO: credential ID and ephemeral key; an installer or the maker adds the whole public key. -/
def doHello (m : MgmtMsg) (s : State) : State :=
  let n := m.payload.length
  let cred := beField m.payload 0 2
  let known := cred < 32 || (0x101 ≤ cred && cred ≤ 0x104) || cred = 0x200
  let eph := (m.payload.drop 2).take 97
  if m.sess ≠ 0 || !known || n ≠ (if cred < 32 then 99 else 196) || eph.getD 0 0 ≠ 4 then badMsg 1 m s
  else match sessHello ((msgPath m.path).getD 0) cred eph (m.payload.drop 99) s with
    | (none, s) => mgmtReply (replyTo m) 5 0 [] s
    | (some i, s) =>
      let h := getL LACC.hs i s
      mgmtReply (replyTo m) 2 0 (beBytes 32 (h.getD 2 0) ++ Config.deviceKey (h.getD 1 0) ++ beBytes 4 (sessId i)) s

/-- PROOF: session ID and signature. -/
def doProof (m : MgmtMsg) (s : State) : State :=
  let id := beField m.payload 0 4
  if m.sess ≠ 0 || m.payload.length ≠ 100 then badMsg 3 m s
  else if id = 0 || 8 < id || !rdB HACC.wait (id - 1) s then mgmtReply (replyTo m) 5 0 [] s
  else
    let (ok, s) := sessProof (id - 1) (m.payload.drop 4) s
    mgmtReply (replyTo m) (if ok then 4 else 5) 0 (if ok then beBytes 4 id else []) s

/-- The access a session's requests make. -/
def msgAccess (m : MgmtMsg) : Access := ⟨m.path, m.sess - 1⟩

/-- CLOSE: answered under the session's key, then the session closes. -/
def doClose (m : MgmtMsg) (s : State) : State :=
  if m.payload ≠ [] then badMsg 6 m s else sessClose 1 (m.sess - 1) (mgmtReply (replyTo m) 6 0 [] s)

/-- Read `n` words from an address on. -/
def readWords (a : Access) : Nat → Nat → List Nat → State → List Nat × State
  | 0, _, acc, s => (acc, s)
  | n + 1, addr, acc, s => let (v, t) := busRead a addr s; readWords a n (addr + 4) (acc ++ leBytes 4 v) t

/-- REG_READ: address and count, little-endian words. -/
def doRead (m : MgmtMsg) (s : State) : State :=
  let n := wordAt m.payload 1
  if m.payload.length ≠ 8 || n = 0 || 256 < n then badMsg 0x10 m s
  else
    let (vs, s) := readWords (msgAccess m) n (wordAt m.payload 0) [] s
    mgmtReply (replyTo m) 0x10 0 vs s

/-- REG_WRITE entries in order: how many were refused, and the index of the first plus one. -/
def writeWords (a : Access) (p : List Nat) : Nat → Nat → Nat × Nat → State → (Nat × Nat) × State
  | 0, _, acc, s => (acc, s)
  | n + 1, k, acc, s =>
    let t := csNote (busWrite a (wordAt p (3 * k)) (wordAt p (3 * k + 1)) (wordAt p (3 * k + 2)) s)
    let bad := cnt cnt_GLB_access_errors 0 t ≠ cnt cnt_GLB_access_errors 0 s
    writeWords a p n (k + 1) (if bad then (acc.1 + 1, if acc.2 = 0 then k + 1 else acc.2) else acc) t

/-- REG_WRITE. -/
def doWrite (m : MgmtMsg) (s : State) : State :=
  let n := m.payload.length / 12
  if m.payload.length % 12 ≠ 0 || n = 0 || 64 < n then badMsg 0x11 m s
  else
    let (r, s) := writeWords (msgAccess m) m.payload n 0 (0, 0) s
    mgmtReply (replyTo m) 0x11 0 (leBytes 4 r.1 ++ leBytes 4 (r.2 - 1)) s

/-- TABLE_CMD: the value of an image's TABLE_CMD record, with any op of R160; the reply carries TBL_STATUS and TBL_DATA. -/
def doTable (m : MgmtMsg) (s : State) : State :=
  let p := m.payload
  let t := p.getD 0 0
  let op := p.getD 1 0
  if p.length ≠ 40 || 6 ≤ t || op = 0 || 7 < op || 4 ≤ leNat ((p.drop 2).take 2) then badMsg 0x12 m s
  else
    let a := msgAccess m
    let addr := regAddr rTBL_CMD t
    let w := op + 16 * wordAt p 1 + 2 ^ 25 * leNat ((p.drop 2).take 2)
    if !roleOk a rTBL_CMD t 0xFFFFFFFF w s then deniedMsg 0x12 m a addr s
    else if !auditRoom false s then mgmtReply (replyTo m) 0x12 2 [] (auditFull a addr s)
    else
      let (_, s1) := tableRec t w ((List.range 8).map (fun k => wordAt p (k + 2))) s
      let s1 := auditWritten a addr rTBL_CMD t 0xFFFFFFFF w s s1
      mgmtReply (replyTo m) 0x12 0 (leBytes 4 (wordOf rTBL_STATUS t s1) ++ (List.range 8).flatMap (fun k => leBytes 4 (rd TBL_DATA.data (t * 8 + k) s1))) s1

/-- ADMIT, RELEASE, QUERY: handed to the admission engine, whose result is the reply. -/
def doAdmission (type : Nat) (m : MgmtMsg) (s : State) : State :=
  let p := m.payload
  let a := msgAccess m
  let role := rd ACC_SESSION.role (m.sess - 1) s
  let okLen := if type = 0x13 then 32 ≤ p.length && p.length = 32 + 8 * part ADM_REQ_CLASS.hop_count (wordAt p 1) else p.length = 4
  if !okLen || 65536 ≤ wordAt p 0 then badMsg type m s
  else if role ≠ 1 && role ≠ 2 then deniedMsg type m a rADM_REQ_CMD.base s
  else
    let req := if type = 0x13 then wordsReq ((List.range (p.length / 4)).map (wordAt p)) else { wordsReq [] with stream := wordAt p 0 }
    let w := replyTo m
    admTake ⟨type - 0x12, role, [1, w.path, w.port, w.sess, w.ctr, w.rid, type], 0, ⟨0, 0, 0, 0, 0, 0, 0⟩, req⟩ s

/-- The register a service parameter lays its words out as. -/
def paramReg (id : Nat) : Nat :=
  match id with
  | 0xD02 => rACC_PATH_ROLE.base
  | 0xD03 => rACC_OP_ENV.base
  | 0xD04 => rACC_SESSION_CFG.base
  | _ => 0

/-- SERVICE_PARAM: the installer's alone. -/
def doParam (m : MgmtMsg) (s : State) : State :=
  let id := leNat (m.payload.take 2)
  let v := m.payload.drop 4
  let a := msgAccess m
  if m.payload.length < 4 || !paramKnown id || !paramOk id v then badMsg 0x16 m s
  else if rd ACC_SESSION.role (m.sess - 1) s ≠ 2 then deniedMsg 0x16 m a (paramReg id) s
  else if !auditRoom false s then mgmtReply (replyTo m) 0x16 2 [] (auditFull a (paramReg id) s)
  else
    let ad := paramReg id
    let t := if id = 0xD01 then s
      else auditPut false 1 0 ad 0 (hash12 (regBytes ad ((peek ad s).getD 0)), hash12 (regBytes ad (wordAt v 0))) (whoOf a s) s
    paramApply id v (mgmtReply (replyTo m) 0x16 0 [] t)

/-- MODULE_RW: octet, page, bank, offset, direction (1 = write), count, then the bytes to write; the installer's where it writes. -/
def doModule (m : MgmtMsg) (ans : ModAnswer) (s : State) : State :=
  let p := m.payload
  let o := p.getD 0 0
  let wrt := p.getD 4 0 = 1
  let n := p.getD 5 0
  let bus := rd PRT_OCT_MODULE_MAP.i2c_master o s
  if p.length < 6 || 128 ≤ o || 2 ≤ p.getD 4 0 || n = 0 || 128 < n || p.length ≠ (if wrt then 6 + n else 6) then badMsg 0x17 m s
  else if wrt && rd ACC_SESSION.role (m.sess - 1) s ≠ 2 then deniedMsg 0x17 m (msgAccess m) (regAddr rPRT_OCT_MODULE_CTRL o) s
  else if rdBit HIF_STATUS.i2c_stuck 0 bus s || !ans.ok then mgmtReply (replyTo m) 0x17 0 [] (inc cnt_HIF_i2c_err 0 s)
  else mgmtReply (replyTo m) 0x17 0 (if wrt then [] else ans.bytes.take n) (emit .i2c bus p s)

/-- HOP_RESERVE, HOP_COMMIT and HOP_RELEASE over a session: the hop exchange of R34 on the message's port. DESIGN CHOICE (log entry 184): the
payload's layout, the role it takes, and an empty reply. -/
def doHop (type : Nat) (m : MgmtMsg) (s : State) : State :=
  let p := m.payload
  let w := wordAt p
  let role := rd ACC_SESSION.role (m.sess - 1) s
  let okLen := if type = 0x20 then 60 ≤ p.length && p.length = 60 + 8 * part ADM_REQ_CLASS.hop_count (w 8) else p.length = (if type = 0x21 then 4 else 12)
  if !okLen || 65536 ≤ w (if type = 0x20 then 7 else 0) || (type = 0x22 && (32 ≤ w 1 || 32 ≤ w 2)) then badMsg type m s
  else if role ≠ 1 && role ≠ 2 then deniedMsg type m (msgAccess m) rADM_REQ_CMD.base s
  else
    let s := mgmtReply (replyTo m) type 0 [] s
    if type = 0x20 then hopReserve m.port ⟨w 0, w 1, w 2, w 3, w 4, w 5, w 6⟩ (wordsReq ((List.range (p.length / 4 - 7)).map (fun k => w (k + 7)))) s
    else if type = 0x21 then hopCommit m.port (w 0) s
    else hopRelease m.port (w 0) (w 1) (w 2) s

/-- A request of an open session, authenticated and new: it acts. -/
def sessionAct (type : Nat) (m : MgmtMsg) (ans : ModAnswer) (s : State) : State :=
  match type with
  | 0x06 => doClose m s
  | 0x10 => doRead m s
  | 0x11 => doWrite m s
  | 0x12 => doTable m s
  | 0x13 => doAdmission 0x13 m s
  | 0x14 => doAdmission 0x14 m s
  | 0x15 => doAdmission 0x15 m s
  | 0x16 => doParam m s
  | 0x17 => doModule m ans s
  | 0x20 => doHop 0x20 m s
  | 0x21 => doHop 0x21 m s
  | 0x22 => doHop 0x22 m s
  | _ => badMsg type m s

/-- A request of a session (R452, R482, R483): its session is open, its tag holds and its counter is new; one answered already gets its answer again. -/
def sessionMsg (type : Nat) (m : MgmtMsg) (ans : ModAnswer) (s : State) : State :=
  let i := m.sess - 1
  if m.sess = 0 || 8 < m.sess || getL LACC.key i s = [] then mgmtReply (replyTo m) type 3 [] s
  else if m.tag ≠ mgmtTag (getL LACC.key i s) (mgmtHead type m.sess m.ctr m.rid m.len m.status) m.payload || m.ctr < rd HACC.ctr i s then
    inc cnt_ACC_replay_drop 0 s
  else
    let s := wr HACC.ctr i (m.ctr + 1) s |> wr HACC.last i (now s)
    match getL LHIF.reply i s with
    | r :: bytes => if r = m.rid + 1 then mgmtOut (replyTo m) bytes s else sessionAct type m ans s
    | [] => sessionAct type m ans s

/-- Serve one message. -/
def serveMsg (type : Nat) (m : MgmtMsg) (ans : ModAnswer) (s : State) : State :=
  if !headerOk m || !requestType type then badMsg type m s
  else if type = 1 then doHello m s
  else if type = 3 then doProof m s
  else sessionMsg type m ans s

/-- A message as numbers, with its type, the buffer it waits in, and what a reply in band needs of its headers. -/
def packMsg (type h : Nat) (hdr : List Nat) (m : MgmtMsg) : List Nat :=
  [type, h, (msgPath m.path).getD 0, m.port, b2n m.v6, m.dst, m.udp, m.magic, m.ver, m.sess, m.ctr, m.rid, m.len, m.status, m.tag, hdr.length]
    ++ hdr ++ m.payload

/-- The headers kept with a message. -/
def hdrOf (l : List Nat) : List Nat := (l.drop 16).take (l.getD 15 0)

/-- The message a list of numbers stands for. -/
def unpackMsg (l : List Nat) : MgmtMsg :=
  let g := fun k => l.getD k 0
  ⟨if g 2 = 2 then .mgmt0 else if g 2 = 3 then .mgmt1 else .inband, g 3, g 4 = 1, g 5, g 6, g 7, g 8, g 9, g 10, g 11, g 12, g 13, g 14,
    l.drop (16 + g 15)⟩

/-- The pool requester of a message's path: the management ports'; an in-band message stands in no pool buffer. -/
def msgRequester (p : Nat) : Nat := if p = 3 then 25 else 24

/-- A request that finds 1,024 held is dropped (R483). -/
def msgOverflow (s : State) : State := inc cnt_HIF_mgmt_overflow 0 s |> wr HIF_EVT.ev_overflow 0 1 |> raise 0x0C05 [1]

/-- A request joins those that wait. -/
def msgHold (l : List Nat) (s : State) : State := setL LHIF.held 0 (getL LHIF.held 0 s ++ [l.length] ++ l) s

/-- The IP datagram of a frame (R480): is it IPv6, its number of VLAN tags, where its UDP header starts, and its addresses; none where the
frame is no unfragmented UDP datagram that lies whole before its FCS. -/
def udpAt (bs : List Nat) : Option (Bool × Nat × Nat × List Nat × List Nat) :=
  let tag := fun i => beAt bs i 2 = 0x8100 || beAt bs i 2 = 0x88A8
  let n := if !tag 12 then 0 else if !tag 16 then 1 else 2
  let o := 14 + 4 * n
  let r := if beAt bs (o - 2) 2 = 0x0800 && beAt bs o 1 / 16 = 4 && beAt bs (o + 9) 1 = 17 && beAt bs (o + 6) 2 % 16384 = 0 then
      some (false, n, o + 4 * (beAt bs o 1 % 16), (bs.drop (o + 12)).take 4, (bs.drop (o + 16)).take 4)
    else if beAt bs (o - 2) 2 = 0x86DD && beAt bs o 1 / 16 = 6 && beAt bs (o + 6) 1 = 17 then
      some (true, n, o + 40, (bs.drop (o + 8)).take 16, (bs.drop (o + 24)).take 16)
    else none
  r.filter (fun x => 8 ≤ beAt bs (x.2.2.1 + 4) 2 && x.2.2.1 + beAt bs (x.2.2.1 + 4) 2 + 4 ≤ bs.length)

/-- The request a frame from port `p` carries in band, packed with what its reply needs of its headers (R480, R481); none where it is no datagram to
the protocol's UDP port that holds a whole header. DESIGN CHOICE (log entry 183): any destination address, and such a frame is dropped without a
count. -/
def inbandMsg (p : Nat) (bs : List Nat) (s : State) : Option (List Nat) :=
  match udpAt bs with
  | none => none
  | some (v6, n, u, src, dst) =>
    let x := (bs.drop (u + 8)).take (beAt bs (u + 4) 2 - 8)
    let g := fun i k => beAt x i k
    if beAt bs (u + 2) 2 ≠ rd HIF_MGMT_CFG.udp_port 0 s || x.length < 36 then none
    else some (packMsg (g 3 1) 0 ([b2n v6, n] ++ (bs.drop 6).take (6 + 4 * n) ++ src ++ dst ++ (bs.drop u).take 4)
      ⟨.inband, p, v6, beNat dst, beAt bs (u + 2) 2, g 0 2, g 2 1, g 4 4, g 8 4, g 12 4, g 16 2, g 18 2, g 20 16, x.drop 36⟩)

/-- The engine takes the frames handed to it that have ended, oldest first (R475, R480): each carries a request, which waits in arrival order,
or is dropped; their cells return. -/
def mqDrain : List Nat → State → State
  | [], s => s
  | f :: rest, s =>
    if !rdB FRM.ended f s && !rdB FRM.err f s then s
    else
      let t := frmUnref f (setL LHIF.mq 0 rest s)
      mqDrain rest (if rdB FRM.err f s || !mgmtServes s then t
        else match inbandMsg (rd FRM.port f s) (getL LFRM.bytes f s) s with
          | none => t
          | some l =>
            let t := inc cnt_HIF_mgmt_rx 0 t
            if engStopped t && 1024 ≤ (parts (getL LHIF.held 0 t)).length then msgOverflow t else msgHold l t)

/-- The oldest request that waits is served, outside a gap (R483). -/
def heldServe (ans : ModAnswer) (s : State) : State :=
  if engStopped s || !mgmtServes s then s
  else match parts (getL LHIF.held 0 s) with
    | [] => s
    | l :: rest =>
      let s := setL LHIF.held 0 (rest.flatMap (fun x => x.length :: x)) s
      let m := unpackMsg l
      if l.getD 2 0 = 4 then serveMsg (l.getD 0 0) m ans (setL LHIF.hdr m.sess (hdrOf l) s)
      else
        let r := msgRequester (l.getD 2 0)
        poolOwn r (l.getD 1 0) (32 + m.payload.length) (fun s => poolDone r (l.getD 1 0) (serveMsg (l.getD 0 0) m ans s)) s

/-- MGMT_HELD_REQUEST (R483): the oldest request that waits is served. -/
def heldRequest (ans : ModAnswer) (s : State) : State := heldServe ans (mqDrain (getL LHIF.mq 0 s) s)

/-- A management request arrives (R480). On a management port it takes its buffer, and is dropped where it is not to the port's address
and UDP port; during a gap, and behind others that wait, it is held in arrival order. In band it is the oldest request that waits, which a frame
has brought. -/
def mgmtRequest (type : Nat) (m : MgmtMsg) (ans : ModAnswer) (s : State) : State :=
  match msgPath m.path with
  | none => s
  | some pc =>
    let s := mqDrain (getL LHIF.mq 0 s) s
    let held := parts (getL LHIF.held 0 s)
    if pc = 4 then
      match held with
      | [] => s
      | l :: _ => if l.headD 0 = type && unpackMsg l = m then heldServe ans s else s
    else if !mgmtServes s || !mgmtPort (pc - 2) s then s
    else
      let r := msgRequester pc
      let (h, s) := poolAlloc r 2 s
      if h = 0xFFFFFFFF then inc cnt_HIF_mgmt_no_buf 0 s
      else
        let s := inc cnt_HIF_mgmt_rx 0 s
        if !addressed m pc s then poolDone r h (mgmtOther s)
        else if engStopped s || held ≠ [] then
          if engStopped s && 1024 ≤ held.length then poolDone r h (msgOverflow s) else msgHold (packMsg type h [] m) s
        else poolDone r h (serveMsg type m ans s)

/-! ### SMBus target (R484) -/

/-- The access the SMBus target makes. -/
def smbAccess : Access := ⟨.smbus, 0⟩

/-- May a block transfer act: a count of 4, and a PEC that is good (1), or absent (0) where none is required; 2 is a bad one. -/
def smbWrite (count pec : Nat) (k : State → State) (s : State) : State :=
  if count ≠ 4 then s
  else if pec = 2 || (pec = 0 && rdB HIF_BUS_CFG.pec_req 0 s) then inc cnt_HIF_smb_err 0 s
  else k s

/-- SMBUS_SET_ADDRESS. -/
def smbSetAddress (count pec addr : Nat) (s : State) : State := smbWrite count pec (wr HHIF.smb 0 addr) s

/-- SMBUS_WRITE. -/
def smbWriteWord (count pec value : Nat) (s : State) : State :=
  smbWrite count pec (fun s => addF HHIF.smb 0 4 (csNote (busWrite smbAccess (rd HHIF.smb 0 s) 0xFFFFFFFF value s))) s

/-- SMBUS_READ. -/
def smbRead (s : State) : State :=
  let (v, s) := busRead smbAccess (rd HHIF.smb 0 s) s
  addF HHIF.smb 0 4 (emit .smbus 0 (4 :: leBytes 4 v) s)

/-- SMBUS_SCL_TIMEOUT: the target is reset. -/
def smbTimeout (s : State) : State := wr HHIF.smb 0 0 s

/-! ### I²C masters (R486) -/

/-- I2C_STUCK: SDA low for 35 ms; recovery is 9 clocks and a stop; `still` says SDA is low after it. -/
def i2cStuck (bus : Nat) (still : Bool) (s : State) : State :=
  if 8 ≤ bus || rdBit HIF_STATUS.i2c_stuck 0 bus s then s
  else
    let s := emit .i2c bus [9] (inc cnt_HIF_i2c_err 0 s)
    if still then raise 0x0C03 [bus] (wr HIF_EVT.ev_i2c 0 1 (setFBit HIF_STATUS.i2c_stuck 0 bus s)) else s

/-- I2C_RECOVERY_RETRY: every 1 s. -/
def i2cRetry (bus : Nat) (still : Bool) (s : State) : State :=
  if 8 ≤ bus || !rdBit HIF_STATUS.i2c_stuck 0 bus s then s
  else
    let s := emit .i2c bus [9] (pass 1000000000 s)
    if still then s else clrFBit HIF_STATUS.i2c_stuck 0 bus s

/-! ### The TAP (R461) -/

/-- Select a TAP instruction. -/
def tapSelect (code : Nat) (s : State) : State := wr HTAP.drive 0 0 (wr HTAP.ir 0 code s)

/-- IDCODE. -/
def tapIdcode (s : State) : State := emit .tap 1 [0xB1024743] (tapSelect 1 s)

/-- REG_READ: the observe role; nothing is cleared or allocated. -/
def tapRead (addr : Nat) (s : State) : State :=
  let (v, s) := busRead ⟨.tap, 0⟩ addr (tapSelect 0x10 s)
  emit .tap 0x10 [v] s

/-! ### Trace (R460, R461) -/

/-- A packet enters the trace buffer, which holds the latest 32,768 words; while as many wait for the port, packets are dropped, and the
next one that fits comes after an overflow packet with their count. -/
def tracePut (core : Nat) (ws : List Nat) (s : State) : State :=
  let n := rd HTRC.drop 0 s
  let l := if n = 0 then ws else [0x4001 + 0x400 * core, n] ++ ws
  if 32768 < rd HTRC.wait 0 s + l.length then wr HTRC.drop 0 (min (n + 1) 65535) s
  else
    let b := getL LTRC.buf 0 s ++ l
    setL LTRC.buf 0 (b.drop (b.length - 32768)) s |> addF HTRC.wait 0 l.length |> wr HTRC.drop 0 0

/-- The packet the cores trace in a cycle, if any: what they execute is an input (log entry 182). Its type is 1 to 3, and its header counts
its payload words. -/
def tracePacket (s : State) : Option (Nat × List Nat) :=
  let x := fun k => Config.freeInput s.cyc (8192 + k)
  if x 0 % 2 = 0 then none
  else
    let core := x 1 % 4
    let n := x 2 % 1024
    some (core, ((x 3 % 3 + 1) * 4096 + core * 1024 + n) :: (List.range n).map (fun k => x (4 + k) % 65536))

/-- In a cycle the cores trace, and the port sends a word on each edge of its 200 MHz clock. -/
def traceNote (s : State) : State :=
  if !rdB ACC_TRACE_CFG.trace_en 0 s then s
  else
    let s := match (if cxRun s then tracePacket s else none) with
      | some (c, ws) => tracePut c ws s
      | none => s
    let n := min (rd HTRC.wait 0 s) (now s * 2 / 5 - (now s - 1) * 2 / 5)
    if n = 0 then s
    else
      let b := getL LTRC.buf 0 s
      emit .trace 0 ((b.drop (b.length - rd HTRC.wait 0 s)).take n) (subF HTRC.wait 0 n s)

/-- TRACE_READ: the words of the trace buffer, from the oldest. -/
def tapTrace (s : State) : State := emit .tap 0x11 (getL LTRC.buf 0 s) (tapSelect 0x11 s)

/-- A boundary instruction: BYPASS in mission mode; in TEST_MODE it shifts out what the pins carry (a free value, log entry 1), loads
the cells, and drives the outputs as `drive` says (R461). -/
def tapBoundary (code drive : Nat) (cells : List Nat) (s : State) : State :=
  if !rdB ACC_STATUS.test_mode 0 s then tapSelect code s
  else
    let s := wr HTAP.drive 0 drive (tapSelect code s)
    if cells = [] then s
    else
      let d := drawFree cells.length s
      emit .tap code [d.1] (setL LTAP.cells 0 cells d.2)

end Sys2Proof.Machine
end

