-- ==== Sys2Proof/Machine/Flags.lean ====
section
/-!
DEFINITION. What follows every command: RED_ALARM and GLB_STATUS.alarm, the levels of ALARM_N and INT_N, and which source lines
have been taken as edges; and what the block does in a cycle in which no command waits.
-/

namespace Sys2Proof.Machine

/-- ALARM_N is driven low while any bit of RED_ALARM is 1 (R374), or by the always-on supply monitors and the boot voltage
(R509, R511, R513). -/
def alarmLow (s : State) : Bool :=
  rdB RED_ALARM.hold 0 s || rdB RED_ALARM.spare_fail 0 s || rdB RED_ALARM.pll_unlock 0 s || rdB RED_ALARM.simplex 0 s || rdB HBOOT.alarm 0 s

/-- The registers that follow their conditions: RED_ALARM (R374) and GLB_STATUS.alarm (R533). -/
def alarmShow (s : State) : State :=
  let s := alarmNote s
  wrB GLB_STATUS.alarm 0 (alarmLow s) s

/-- A source whose line has fallen can rise again (R380). -/
def linesFall (s : State) : State := setL LINT.seen 0 ((getL LINT.seen 0 s).filter (fun n => line n s)) s

/-- The levels of ALARM_N and INT_N (R374, R391). -/
def pinsDrive (s : State) : State := { s with pins := { s.pins with alarmN := !alarmLow s, intN := !intLow s } }

/-- A command that began in `s` and whose own effect gave `t` is over: registers and pins follow, and the queue is as it was. -/
@[irreducible] def settle (s t : State) : State := { pinsDrive (linesFall (alarmShow t)) with pending := s.pending, cyc := s.cyc + 1 }

/-- The outcome of a command with effect `k`: it always completes. -/
def finish (k : State → State) (s : State) : Host.Outcome State Fault Refusal := .next (settle s (k s))

/-- A cycle in which no command waits (log entry 4): one cycle of the time PLL passes, and what the block does of itself follows: slices
at rest wake (R330, R331), armed change sets whose time has come fire (R436), results of the image's stream requests are taken (R428),
gate windows close (R228), PRBS checkers count bit errors, the cells a copy in transmission has read return (R186), and the trace port
runs (R460). -/
def tick (s : State) : State := settle s (traceNote (txReads (prbsNote (reqNote (csNote (sliceNote (gatesNote (pass 1 s))))))))

end Sys2Proof.Machine
end

