-- ==== Sys2Proof/Machine/Mac.lean ====
section
/-!
DEFINITION. The MAC sorts what it receives (R52, R62, R247, R249, R267, R290): frames it consumes, frames dropped at their first byte, and
data frames, which enter the slice.
-/

namespace Sys2Proof.Machine

/-- A PTP message or interval takes effect only while PTP runs (R355, R357, R358). -/
def ptpDo (k : State → State) (s : State) : State := if ptpRuns s then k s else s

/-- Does a frame begin with the address of R61? -/
def ctrlAddr (bs : List Nat) : Bool := beAt bs 0 6 = 0x0180C200000E

/-- Does a frame begin as every form of R62 and R290 does (R247)? -/
def formByte (bs : List Nat) : Bool := bs.headD 0 = 0x01 || bs.headD 0 = 0x33

/-- Bytes the MAC must see of a frame before it can sort it, from those it has. -/
def macNeed (act : Bool) (bs : List Nat) : Nat :=
  if bs.length < 1 then 1
  else if !formByte bs then (if act then 32 else 0)
  else if bs.length < 18 then 18
  else
    let h := if beAt bs 12 2 = 0x8100 || beAt bs 12 2 = 0x88A8 then 18 else 14
    let et := beAt bs (h - 2) 2
    if et = 0x88F7 then h + 5 else if et = 0x0800 then h + 33 else if et = 0x86DD then h + 53 else if act then 32 else 0

/-- Is a PTP message one the port consumes: a peer-delay message, or of a domain an instance on the port terminates (R290)? -/
def ptpOurs (port : Nat) (m : List Nat) (s : State) : Bool :=
  [2, 3, 10].contains (beAt m 0 1 % 16) || instOf port (beAt m 4 1) s ≠ none

/-- The form of a frame, as macKeep numbers kinds; 7 = PTP that is discarded (R247), 0 = a data frame, or one R249 turns away. -/
def macKind (port : Nat) (bs : List Nat) (s : State) : Nat :=
  let act := rdB PRT_PORT_STATUS.tag_active port s
  let (form, pos) := ptpFind bs
  if ctrlAddr bs && beAt bs 12 2 = 0x88B5 then 2
  else if formByte bs && form ≠ 0 then (if ptpOurs port (bs.drop pos) s then 3 else if act then 7 else 0)
  else
    let body := if act then bs.drop 16 else bs
    if act && tagCheck bs s ≠ 0 then 0
    else if beAt body 0 6 = 0x0180C2000001 && beAt body 12 2 = 0x8808 && (beAt body 14 2 = 1 || beAt body 14 2 = 0x0101) then 4
    else if ctrlAddr body && beAt body 12 2 = 0x88B6 then 5 else 0

/-- A frame whose form is known: the MAC keeps it, drops it, or hands it to the slice. -/
def macSort (port : Nat) (bs : List Nat) (cell : Nat) (s : State) : State :=
  let k := macKind port bs s
  let tagged := k = 4 || k = 5
  if k = 0 then setL LPRT.stamps port [] (rxData port bs cell s)
  else if k = 7 then macKeep port 2 bs (inc cnt_FAB_tag_mismatch 0 s)
  else macKeep port (2 * k + b2n (tagged && rdB PRT_PORT_STATUS.tag_active port s)) bs s

/-- Bytes of a frame the early mark rests on: its outer VLAN tag, where a PCP value is marked (R84). -/
def earlyNeed (port : Nat) (s : State) : Nat :=
  if rd SLC_PORT_CFG.early_pcp (slot port s) s = 0 then 0 else if rdB PRT_PORT_STATUS.tag_active port s then 32 else 16

/-- Bytes of a frame that must have arrived before it is sorted and taken. -/
def rxNeed (port : Nat) (bytes : List Nat) (s : State) : Nat :=
  max (macNeed (rdB PRT_PORT_STATUS.tag_active port s) bytes) (earlyNeed port s)

/-- FRAME_FIRST_BYTE (R83, R247): the first bytes of a frame arrive at a port that receives none. -/
def macFirst (port : Nat) (bytes : List Nat) (cell : Nat) (s : State) : State :=
  if !portExists port s || !portHears port s || rxBusy port s then s
  else
    let s := rxNote (inc cnt_PRT_rx_frames port (peerFrame port (autumnWake (servSlice port s) s))) |> setL LPRT.stamps port ((List.range 8).map (fun b => rd TBC.count b s))
    if bytes.length < rxNeed port bytes s then macKeep port 1 bytes s else macSort port bytes cell s

/-! ### What the MAC consumes -/

/-- A frame of the form of R62. -/
def ctrlTaken (p : Nat) (b : List Nat) (s : State) : State :=
  if beAt b 14 2 ≠ 0x5A58 || beAt b 17 1 ≠ 1 then inc cnt_PRT_rx_ctrl_bad p s
  else if beAt b 16 1 = 1 then capTaken p (beAt b 18 2) (beAt b 20 2) (beAt b 23 1) (beAt b 24 2) (beAt b 26 2) (beAt b 28 4) s
  else if beAt b 16 1 = 2 then inc cnt_PRT_rx_ctrl p s
  else inc cnt_PRT_rx_ctrl_bad p s

/-- A power-group message (R267): its fields, or discarded. -/
def pgTaken (p : Nat) (b : List Nat) (s : State) : State :=
  let bad := !ctrlAddr b || beAt b 12 2 ≠ 0x88B6 || beAt b 14 2 ≠ 0x5A58 || beAt b 17 1 ≠ 1
  let x := fun k => beAt b (18 + 2 * k) 2
  match beAt b 16 1 with
  | 1 => pgReport p (x 0) (x 1) (x 2) (x 5) (x 6) (beAt b 32 1) (beAt b 33 1) (x 8) (x 9) bad s
  | 2 => pgTransfer p (x 0) (x 1) (x 2) (x 3) (x 4) (x 5) (beAt b 33 1) bad s
  | 3 => pgAck p (x 0) (x 1) (x 2) (x 3) (x 4) (x 5) (beAt b 33 1) bad s
  | _ => pgReport p (x 0) (x 1) (x 2) 0 0 0 0 0 0 true s

/-- The TLVs of a PTP message: type and content. -/
def ptpTlvs : Nat → List Nat → List (Nat × List Nat)
  | 0, _ => []
  | n + 1, bs =>
    if bs.length < 4 then [] else (beAt bs 0 2, (bs.drop 4).take (beAt bs 2 2)) :: ptpTlvs n (bs.drop (4 + beAt bs 2 2))

/-- Clock identities of a path trace. -/
def ptpPath : Nat → List Nat → List Nat
  | 0, _ => []
  | n + 1, bs => if bs.length < 8 then [] else beAt bs 0 8 :: ptpPath n (bs.drop 8)

/-- A timestamp field in ns. -/
def ptpNs (m : List Nat) (i : Nat) : Nat := beAt m i 6 * 1000000000 + beAt m (i + 6) 4

/-- Does a PTP message fail the checks of its profile (R290)? Version 2, its whole length, and majorSdoId 1 for gPTP and 0 else. -/
def ptpFails (p : Nat) (m : List Nat) (s : State) : Bool :=
  let ty := beAt m 0 1 % 16
  let least := if [2, 3, 9, 10].contains ty then 54 else if ty = 11 then 64 else 44
  let sdo := match instOf p (beAt m 4 1) s with
    | some b => beAt m 0 1 / 16 = b2n (rd TIM_TB_W0.profile b s = 0)
    | none => true
  beAt m 1 1 % 16 ≠ 2 || beAt m 2 2 < least || m.length < beAt m 2 2 || !([2, 3, 10].contains ty || sdo)

/-- A PTP message is handled by its type (R284, R289, R293); `m` begins at its header. -/
def ptpMsg (p : Nat) (m : List Nat) (s : State) : State :=
  let bad := ptpFails p m s
  let m := m.take (beAt m 2 2)
  let dom := beAt m 4 1
  let seq := beAt m 30 2
  let src := beAt m 20 10
  let corr := sgn 64 (beAt m 8 8)
  let two := (beAt m 6 1).testBit 1
  let tlv := fun k => ((ptpTlvs 256 (m.drop k)))
  match beAt m 0 1 % 16 with
  | 0 => syncRx p dom seq (ptpNs m 34) corr two bad s
  | 1 => delayReqRx p dom seq src corr bad s
  | 2 => pdelayReq p seq src bad s
  | 3 => pdelayResp p seq (beAt m 44 10) (ptpNs m 34 * 65536) corr two bad s
  | 8 => followUpRx p dom seq (ptpNs m 34) corr bad s
  | 9 => delayRespRx p dom seq (beAt m 44 10) (ptpNs m 34) corr bad s
  | 10 => pdelayFollow p seq (beAt m 44 10) (ptpNs m 34 * 65536) corr bad s
  | 11 => announceRx p dom src [beAt m 47 1, beAt m 48 1, beAt m 49 1, beAt m 50 2, beAt m 52 1, beAt m 53 8, beAt m 61 2]
      [beAt m 44 2, bitsOf (beAt m 7 1) 2 1] (((tlv 64).find? (fun x => x.1 = 8)).elim [] (fun x => ptpPath 256 x.2)) bad s
  | 12 =>
    let x := ((tlv 44).find? (fun x => x.1 = 3 && beAt x.2 0 6 = 0x0080C2000002)).elim [] (·.2)
    signalingRx p dom (x.getD 6 0x80) (x.getD 7 0x80) (x.getD 8 0x80) bad s
  | 13 => ptpMgmtRx p dom s
  | _ => ptpTaken true id s

/-- A good frame the MAC consumes, without FCS, by its kind. -/
def macTaken (p k : Nat) (b : List Nat) (s : State) : State :=
  match k with
  | 2 => ctrlTaken p b s
  | 3 => ptpMsg p (b.drop (ptpFind b).2) s
  | 4 => inc cnt_PRT_rx_mac_ctrl p s
  | 5 => inc cnt_FAB_pg_bad 0 s
  | 6 => pgTaken p b s
  | _ => s

/-- The end of a frame the MAC has kept: its counts, what it says, and the receive context is free again. -/
def macDone (p k : Nat) (bytes : List Nat) (s : State) : State :=
  let tag := if k % 2 = 1 then bytes.take 16 else []
  let body := bytes.drop tag.length
  macFree p (macEnd p (k / 2) tag body (macTaken p (k / 2) (body.take (body.length - 4))) s)

/-- The end of the frame a port is receiving: all its bytes, and those its slice has not had. -/
def macClose (port : Nat) (all rest : List Nat) (cell : Nat) (s : State) : State :=
  if rd HPRT.mac port s ≠ 0 then macDone port (rd HPRT.mac port s) all s
  else if rd HPRT.cur port s ≠ 0 then rxLast port rest cell s else s

/-- FRAME_LAST_BYTE (R95, R54, R62): the rest of the frame a port is receiving, through its FCS. -/
def macLast (port : Nat) (rest : List Nat) (cell : Nat) (s : State) : State :=
  let all := getL LPRT.mac port s ++ rest
  if rd HPRT.mac port s = 1 then macClose port all [] cell (macSort port all cell (wr HPRT.mac port 0 (setL LPRT.mac port [] s)))
  else macClose port all rest cell s

end Sys2Proof.Machine
end

