-- ==== Sys2Proof/Machine/Operands.lean ====
section
/-!
DEFINITION. The operand forms the commands share: a write of one register, a write of one field of a register, the words the command
registers take, a read that answers, and what a sender outside the block may name.
-/

namespace Sys2Proof.Machine

/-- The bits of a word that spell `v` in field `f`. -/
def fieldWord (f : Fld) (v : Nat) : Nat := v % 2 ^ f.width * 2 ^ f.lo

/-! ### Transactions of the complexes (R348 to R350, R353, R407) -/

/-- The comparator holds a transaction (R349). -/
def coreHold (x : List Nat) (s : State) : State := setL LCX.held 0 (getL LCX.held 0 s ++ x) s

/-- A write of a core leaves when both complexes agree: at once in lockstep and alone, after the gap in one; in resynchronisation a write
released before is not sent again (R348, R349, R353). Other paths are not compared; PCIe carries nothing without its endpoint (R466). -/
def coreWrite (a : Access) (addr mask value : Nat) (k : State → State) (s : State) : State :=
  if a.path ≠ .core then (if a.path = .pcie && !pcieOn s then s else k s)
  else if rdB HRED.gap 0 s then
    let n := 4 * rd HCX.spos 0 s
    if rd RED_CX_STATUS.mode 0 s = 2 && ((getL LCX.sent 0 s).drop n).take 4 = [a.who, addr, mask, value] then addF HCX.spos 0 1 s
    else coreHold [0, a.who, addr, mask, value] s
  else k (if rd RED_CX_STATUS.mode 0 s = 0 then setL LCX.sent 0 (getL LCX.sent 0 s ++ [a.who, addr, mask, value]) s else s)

/-- The answer of a read goes back on its path. -/
def answer (a : Access) (addr : Nat) (r : Nat × State) : State := emit .busRead (auditPath a.path) [addr, r.1] r.2

/-- A read is made and answered. A core's enters the replay log; in a gap it is held, and in resynchronisation the log answers it without
another access (R349, R350, R353, R407). A read of BAR2 is of its table and PBA (R468). -/
def coreRead (a : Access) (addr : Nat) (k : State → Nat × State) (s : State) : State :=
  if a.path = .bar2 then (if pcieOn s then answer a addr (bar2Read addr s, s) else s)
  else if a.path ≠ .core then (if a.path = .pcie && !pcieOn s then s else answer a addr (k s))
  else if rdB HRED.gap 0 s then
    match ((getL LCX.replay 0 s).drop (2 * rd HCX.rpos 0 s)).take 2, rd RED_CX_STATUS.mode 0 s with
    | [x, v], 2 => if x = addr then answer a addr (v, addF HCX.rpos 0 1 s) else coreHold [1, a.who, addr, 0, 0] s
    | _, _ => coreHold [1, a.who, addr, 0, 0] s
  else
    let r := k s
    answer a addr (r.1, replayNote addr r.1 r.2)

/-- A write of a whole word to instance `i` of register `r`, with all that an access meets (R446, R447, R456, R435). -/
def regWrite (a : Access) (r : Reg) (i value : Nat) (s : State) : State :=
  coreWrite a (regAddr r i) 0xFFFFFFFF (value % 2 ^ 32) (writeReg reboot a (regAddr r i) r i 0xFFFFFFFF (value % 2 ^ 32)) s

/-- A write that gives field `f` of instance `i` of register `r` the value `v` and leaves the register's other bits as they are. -/
def fldWrite (a : Access) (r : Reg) (f : Fld) (i v : Nat) (s : State) : State :=
  coreWrite a (regAddr r i) (fieldWord f (2 ^ f.width - 1)) (fieldWord f v)
    (writeReg reboot a (regAddr r i) r i (fieldWord f (2 ^ f.width - 1)) (fieldWord f v)) s

/-- A write at an address, as it comes (R5 to R8); of BAR2, at an offset in it (R468). A step of a time base by it can bring the time of an armed change set (R436). -/
def addrWrite (a : Access) (addr mask value : Nat) (s : State) : State :=
  if a.path = .bar2 then (if pcieOn s then bar2Write addr mask value s else s)
  else coreWrite a addr mask value (fun s => csNote (busWrite a addr mask value s)) s

/-- Groups of five. -/
def quints : List Nat → List (List Nat)
  | a :: b :: c :: d :: e :: l => [a, b, c, d, e] :: quints l
  | _ => []

/-- What the comparator holds leaves in order once outputs flow again (R352, R353); where the complexes stop or restart it is lost. -/
def heldLeave (s : State) : State :=
  if rdB HRED.gap 0 s || getL LCX.held 0 s = [] then s
  else
    let l := quints (getL LCX.held 0 s)
    let s := setL LCX.held 0 [] s
    if rdB HRED.hold 0 s || rdB HRED.restart 0 s then s
    else forEach l (fun x t =>
      let a : Access := ⟨.core, x.getD 1 0⟩
      if x.headD 0 = 0 then addrWrite a (x.getD 2 0) (x.getD 3 0) (x.getD 4 0) t else coreRead a (x.getD 2 0) (busRead a (x.getD 2 0)) t) s

/-- The word of ADM_REQ_CMD (R47). -/
def admWord (op n : Nat) : Nat := fieldWord ADM_REQ_CMD.op op + fieldWord ADM_REQ_CMD.stream_id n

/-- The word of TBL_CMD (R160). -/
def tblWord (op index : Nat) (byIndex longest : Bool) : Nat :=
  fieldWord TBL_CMD.op op + fieldWord TBL_CMD.index index + fieldWord TBL_CMD.by_index (b2n byIndex) + fieldWord TBL_CMD.longest (b2n longest)

/-- The word of SLC_RULE_CMD (R140). -/
def ruleWord (op index : Nat) : Nat := fieldWord SLC_RULE_CMD.op op + fieldWord SLC_RULE_CMD.index index

/-- The word of RED_SLICE_CMD (R369). -/
def sliceWord (sl op : Nat) (force : Bool) : Nat :=
  fieldWord RED_SLICE_CMD.slice sl + fieldWord RED_SLICE_CMD.op op + fieldWord RED_SLICE_CMD.force (b2n force)

/-- The snapshot register of a block, by its number (R15, R495): 0 ADM, 1 PRT, 2 TBL, 3 BUF, 4 SCH, 5 FAB, 6 TIM, 7 PWR, 8 RED, 9 INTC,
10 POOL, 11 CFG, 12 ACC, 13 HIF, 14 TEL, 15 GLB, 16 SLC. -/
def snapReg (blk : Nat) : Reg :=
  [rADM_SNAPSHOT, rPRT_SNAPSHOT, rTBL_SNAPSHOT, rBUF_SNAPSHOT, rSCH_SNAPSHOT, rFAB_SNAPSHOT, rTIM_SNAPSHOT, rPWR_SNAPSHOT, rRED_SNAPSHOT,
    rINTC_SNAPSHOT, rPOOL_SNAPSHOT, rCFG_SNAPSHOT, rACC_SNAPSHOT, rHIF_SNAPSHOT, rTEL_SNAPSHOT, rGLB_SNAPSHOT].getD blk rSLC_SNAPSHOT

/-- An ordered set whose type no rule defines (R65, R287, R265). -/
def undefinedSet (type : Nat) : Bool := !([1, 2, 3, 4, 5, 0x10, 0x11, 0x20].contains type)

/-- A requester's access to a buffer (R411, R413): `core`, by service-memory address, else by handle, offset and length; `err` is what the
data read has met: 0 nothing, 1 a corrected error, 2 an uncorrectable one. -/
def poolUse (core : Bool) (r h off len err : Nat) (s : State) : State :=
  let code := if core then poolCoreCode r h s else poolUseCode r h off len s
  if code ≠ 0 then poolBadUse r code 2 h s
  else if err = 2 then poolBadUse r 8 3 h s
  else if err = 1 then inc cnt_TEL_svc_ecc_corr 0 s else s

/-- The reclaim of a restart: the buffers of C0 to C3 in every pool (R412). -/
def reclaimCores (s : State) : State := forEach [0, 1, 2, 3] (fun c t => poolReclaim c 15 t) s

end Sys2Proof.Machine
end

