-- ==== Sys2Proof/Machine/Admission.lean ====
section
/-!
DEFINITION. The meanings of commands, one definition for each. Admission requests and the hop protocol (R29 to R48, R252): rows 10 to 21 of the table.
-/

namespace Sys2Proof.Machine

/-- ADM_REQ_ADMIT: ADM_REQ_CMD op 1 runs the admission checks for a stream on each hop, and then reserves it or forwards it (R29). -/
def execAdmReqAdmit (a : Access) (n : Nat) (s : State) : Host.Outcome State Fault Refusal :=
  finish (regWrite a rADM_REQ_CMD 0 (admWord 1 n)) s

/-- ADM_REQ_RELEASE: ADM_REQ_CMD op 2 starts draining an admitted stream, removing it from classification at once (R43). -/
def execAdmReqRelease (a : Access) (n : Nat) (s : State) : Host.Outcome State Fault Refusal :=
  finish (regWrite a rADM_REQ_CMD 0 (admWord 2 n)) s

/-- ADM_REQ_QUERY: ADM_REQ_CMD op 3 selects the stream and reports its state and hop bound (R47). -/
def execAdmReqQuery (a : Access) (n : Nat) (s : State) : Host.Outcome State Fault Refusal :=
  finish (regWrite a rADM_REQ_CMD 0 (admWord 3 n)) s

/-- ADM_REQ_ABORT: ADM_REQ_CMD op 4 aborts this device's tentative first-device request, releases its reservations and sends HOP_RELEASE (R47). -/
def execAdmReqAbort (a : Access) (n : Nat) (s : State) : Host.Outcome State Fault Refusal :=
  finish (regWrite a rADM_REQ_CMD 0 (admWord 4 n)) s

/-- HOP_RESERVE: A received HOP_RESERVE runs this device's hop checks and reservations, then forwards the request or commits it (R34). -/
def execHopReserve (p : Nat) (c : Carried) (r : StreamReq) (s : State) : Host.Outcome State Fault Refusal :=
  finish (fromPeer p (hopReserve p c r)) s

/-- HOP_COMMIT: A received HOP_COMMIT commits the held tentative hops and passes the commit upstream, or releases if they are already released (R34). DESIGN CHOICE (log entry 133): at once even while the engine is stopped. -/
def execHopCommit (p n : Nat) (s : State) : Host.Outcome State Fault Refusal :=
  finish (fromPeer p (hopCommit p n)) s

/-- HOP_RELEASE: A received HOP_RELEASE releases the request's reservations, or its committed stream, on this device (R34). DESIGN CHOICE (log entry 133): at once even while the engine is stopped. -/
def execHopRelease (p n code hop : Nat) (s : State) : Host.Outcome State Fault Refusal :=
  finish (fromPeer p (hopRelease p n code hop)) s

/-- HOP_COMMIT_WAIT_EXPIRY: No HOP_COMMIT or HOP_RELEASE within n times 10 ms fails the request with PATH_UNREACHABLE and sends HOP_RELEASE both ways (R34). -/
def execHopCommitWaitExpiry (n : Nat) (s : State) : Host.Outcome State Fault Refusal :=
  finish (hopWaitExpiry n) s

/-- TENTATIVE_TIMEOUT: A tentative reservation that is not committed within n times 10 ms of HOP_RESERVE is released and counted (R34). -/
def execTentativeTimeout (n : Nat) (s : State) : Host.Outcome State Fault Refusal :=
  finish (tentativeTimeout n) s

/-- ADM_ENGINE_RESUME: When the stopped engine resumes, it runs the held requests in arrival order (R44). -/
def execAdmEngineResume (s : State) : Host.Outcome State Fault Refusal :=
  finish admResume s

/-- DRAIN_SPAN_END: At the end of a hop's drain span, its sums are released, and after the longest span the stream becomes free (R43). -/
def execDrainSpanEnd (n i : Nat) (s : State) : Host.Outcome State Fault Refusal :=
  finish (drainEnd n i) s

/-- BUNDLE_MEMBER_RELEASE: One hop budget after a commit removes a bundle member, that member's reservations for its streams are released (R252). -/
def execBundleMemberRelease (p : Nat) (s : State) : Host.Outcome State Fault Refusal :=
  finish (memberRelease p) s

end Sys2Proof.Machine
end

