-- ==== Sys2Proof/Machine/Bringup.lean ====
section
/-!
DEFINITION. The meanings of commands, one definition for each. Power, boot, flash and boot selection (R419 to R433, R509 to R513): rows 220 to 231 and 300 to 302 of the table.
-/

namespace Sys2Proof.Machine

/-- PWR_GOOD_RISE: PWR_GOOD rises: the rails are checked, the straps sampled and the boot voltage and boot started (R511). -/
def execPwrGoodRise (x : PowerUp) (s : State) : Host.Outcome State Fault Refusal :=
  finish (pwrGoodRise x) s

/-- BOOT_VOLTAGE_RETRY: Every 10 ms without an answer or voltage, the boot voltage setup repeats (R509). -/
def execBootVoltageRetry (answers : List Nat) (arrived : Bool) (s : State) : Host.Outcome State Fault Refusal :=
  finish (bootVoltRetry answers arrived) s

/-- BOOT_IMAGE_READ_DONE: The image is read and hashed, checked, and its records applied and committed (R426). -/
def execBootImageReadDone (img : Option (List Nat)) (s : State) : Host.Outcome State Fault Refusal :=
  finish (imageRead img) s

/-- BOOT_READY: Folsor starts, ready is set, forwarding starts and the stream requests are submitted (R426). -/
def execBootReady (ms : Nat) (s : State) : Host.Outcome State Fault Refusal :=
  finish (bootDone ms) s

/-- STREAM_REQ_RETRY: Every 1 s for up to 60 s, a failed STREAM_REQ is resubmitted (R428). -/
def execStreamReqRetry (k : Nat) (s : State) : Host.Outcome State Fault Refusal :=
  finish (reqRetry k) s

/-- FLASH_BURST_STALL: A burst with no strobe edge for 10 µs is abandoned and the flash is reset (R430). -/
def execFlashBurstStall (addr : Nat) (s : State) : Host.Outcome State Fault Refusal :=
  finish (burstStall addr) s

/-- FLASH_BURST_REISSUE: 1 ms after a stall, the whole burst is reissued (R430). -/
def execFlashBurstReissue (s : State) : Host.Outcome State Fault Refusal :=
  finish flashReissue s

/-- FLASH_LATE_EDGE: A strobe edge of an abandoned burst is ignored and counted (R430). -/
def execFlashLateEdge (n : Nat) (s : State) : Host.Outcome State Fault Refusal :=
  finish (flashLate n) s

/-- REBOOT: A write of reboot in no-image state restarts boot (R431). -/
def execReboot (a : Access) (s : State) : Host.Outcome State Fault Refusal :=
  finish (fldWrite a rCFG_BOOT_STATUS CFG_BOOT_STATUS.reboot 0 1) s

/-- BOOT_SELECT_WRITE: A write of CFG_BOOT_SEL starts writing a new boot-select record (R432). -/
def execBootSelectWrite (a : Access) (slot : Nat) (s : State) : Host.Outcome State Fault Refusal :=
  finish (regWrite a rCFG_BOOT_SEL 0 (fieldWord CFG_BOOT_SEL.slot slot + fieldWord CFG_BOOT_SEL.write 1)) s

/-- BOOT_SELECT_DONE: The boot-select record write completes (R432). -/
def execBootSelectDone (s : State) : Host.Outcome State Fault Refusal :=
  finish selDone s

/-- BOOT_SELECT_FAIL: A boot-select write not complete within 1 s raises BOOT_SELECT_FAIL (R432). -/
def execBootSelectFail (s : State) : Host.Outcome State Fault Refusal :=
  finish selFail s

/-- PWR_GOOD_FALL: PWR_GOOD low past its filter resets every domain but the always-on domain (R512). -/
def execPwrGoodFall (s : State) : Host.Outcome State Fault Refusal :=
  finish pwrGoodFall s

/-- BROWN_OUT: A rail below its threshold for 10 µs resets as a PWR_GOOD fall and drives ALARM_N (R513). -/
def execBrownOut (rail : Nat) (s : State) : Host.Outcome State Fault Refusal :=
  finish (brownOut rail) s

/-- AON_POWER_ON: VDD_AON rises, and the always-on reset is released after 100 AON_CLK cycles (R510). -/
def execAonPowerOn (s : State) : Host.Outcome State Fault Refusal :=
  finish aonPowerOn s

end Sys2Proof.Machine
end

