-- ==== Sys2Proof/Machine/Buffers.lean ====
section
/-!
DEFINITION. The meanings of commands, one definition for each. The buffer pools (R399 to R418): rows 213 to 219 of the table.
-/

namespace Sys2Proof.Machine

/-- ALLOC_SIZE: A read of POOL_ALLOC_SIZE allocates from the smallest fitting pool or returns 0xFFFF_FFFF (R403). -/
def execAllocSize (a : Access) (i : Nat) (s : State) : Host.Outcome State Fault Refusal :=
  finish (coreRead a (regAddr rPOOL_ALLOC_SIZE i) (allocRead a rPOOL_ALLOC_SIZE i)) s

/-- ALLOC_POOL: A read of POOL_ALLOC_POOL allocates from the named pool (R404). -/
def execAllocPool (a : Access) (p : Nat) (s : State) : Host.Outcome State Fault Refusal :=
  finish (coreRead a (regAddr rPOOL_ALLOC_POOL p) (allocRead a rPOOL_ALLOC_POOL p)) s

/-- POOL_FREE: A write of a handle to POOL_FREE checks it and frees the buffer (R410). -/
def execPoolFree (a : Access) (h : Nat) (s : State) : Host.Outcome State Fault Refusal :=
  finish (regWrite a rPOOL_FREE 0 h) s

/-- POOL_GIVE: A write to POOL_GIVE checks the handle and passes the buffer to the target (R410). -/
def execPoolGive (a : Access) (h target : Nat) (s : State) : Host.Outcome State Fault Refusal :=
  finish (regWrite a rPOOL_GIVE 0 (fieldWord POOL_GIVE.handle h + fieldWord POOL_GIVE.target target)) s

/-- POOL_RECLAIM: A write of POOL_RECLAIM frees every buffer of a requester in the named pools (R412). -/
def execPoolReclaim (a : Access) (r pools : Nat) (s : State) : Host.Outcome State Fault Refusal :=
  finish (regWrite a rPOOL_RECLAIM 0 (fieldWord POOL_RECLAIM.requester r + fieldWord POOL_RECLAIM.pools pools)) s

/-- POOL_BUFFER_ACCESS: A hardware agent's or core's buffer access is checked, and a failing access is not performed (R411). -/
def execPoolBufferAccess (core : Bool) (r h off len err : Nat) (s : State) : Host.Outcome State Fault Refusal :=
  finish (poolUse core r h off len err) s

/-- POOL_META_ERROR: An uncorrectable metadata error retires the buffer and raises POOL_META_ERR (R413). -/
def execPoolMetaError (p i : Nat) (corrected : Bool) (s : State) : Host.Outcome State Fault Refusal :=
  finish (fun s => if corrected then inc cnt_TEL_svc_ecc_corr 0 s else poolRetire p i s) s

end Sys2Proof.Machine
end

