-- ==== Sys2Proof/Machine/Change.lean ====
section
/-!
DEFINITION. The meanings of commands, one definition for each. Change sets and flash commands (R434 to R442): rows 232 to 243 of the table.
-/

namespace Sys2Proof.Machine

/-- CS_OPEN: CFG_CS op 1 opens a change set, discarding its entries (R434). -/
def execCsOpen (a : Access) (k : Nat) (s : State) : Host.Outcome State Fault Refusal :=
  finish (regWrite a rCFG_CS_W0 k 1) s

/-- CS_ARM: CFG_CS op 2 arms a set with its trigger, firing at once for trigger now (R436). -/
def execCsArm (a : Access) (k : Nat) (s : State) : Host.Outcome State Fault Refusal :=
  finish (regWrite a rCFG_CS_W0 k 2) s

/-- CS_DISARM: CFG_CS op 3 returns an armed set to open (R436). -/
def execCsDisarm (a : Access) (k : Nat) (s : State) : Host.Outcome State Fault Refusal :=
  finish (regWrite a rCFG_CS_W0 k 3) s

/-- CS_CLEAR: CFG_CS op 4 clears a set to empty (R434). -/
def execCsClear (a : Access) (k : Nat) (s : State) : Host.Outcome State Fault Refusal :=
  finish (regWrite a rCFG_CS_W0 k 4) s

/-- STAGE_DATA: A write of CFG_STAGE_DATA stages an entry into the named set (R435). -/
def execStageData (a : Access) (data : Nat) (s : State) : Host.Outcome State Fault Refusal :=
  finish (regWrite a rCFG_STAGE_DATA 0 data) s

/-- CS_TIME_TRIGGER: A time base reaches T and fires its armed change set (R436). -/
def execCsTimeTrigger (k : Nat) (s : State) : Host.Outcome State Fault Refusal :=
  finish (csTimer k) s

/-- CS_COMMIT_POINT: All other staged values take effect in one cycle and CS_COMMITTED is raised (R437). -/
def execCsCommitPoint (k : Nat) (s : State) : Host.Outcome State Fault Refusal :=
  finish (fun s => csNote (csPoint k s)) s

/-- FLASH_READ: CFG_FLASH_CMD op 1 reads 256 bytes into the data registers (R442). -/
def execFlashRead (a : Access) (s : State) : Host.Outcome State Fault Refusal :=
  finish (regWrite a rCFG_FLASH_CMD 0 1) s

/-- FLASH_PROGRAM: CFG_FLASH_CMD op 2 programs 256 bytes from the data registers (R442). -/
def execFlashProgram (a : Access) (s : State) : Host.Outcome State Fault Refusal :=
  finish (regWrite a rCFG_FLASH_CMD 0 2) s

/-- FLASH_ERASE_4K: CFG_FLASH_CMD op 3 erases a 4 KiB sector (R442). -/
def execFlashErase4k (a : Access) (s : State) : Host.Outcome State Fault Refusal :=
  finish (regWrite a rCFG_FLASH_CMD 0 3) s

/-- FLASH_ERASE_64K: CFG_FLASH_CMD op 4 erases a 64 KiB block (R442). -/
def execFlashErase64k (a : Access) (s : State) : Host.Outcome State Fault Refusal :=
  finish (regWrite a rCFG_FLASH_CMD 0 4) s

/-- FLASH_COMMAND_DONE: A flash command completes, stalls or times out, and its result is set (R442). -/
def execFlashCommandDone (res : Nat) (bytes : List Nat) (s : State) : Host.Outcome State Fault Refusal :=
  finish (flashDone res bytes) s

end Sys2Proof.Machine
end

