-- ==== Sys2Proof/Machine/Endpoint.lean ====
section
/-!
DEFINITION. The meanings of commands, one definition for each. The PCIe function and its DMA rings (R465 to R478, R489): rows 265 to 275 and 304 to 308 of the table.
-/

namespace Sys2Proof.Machine

/-- PCIE_PERST_ASSERT: PCIE_PERST_N asserted resets the function, its rings and its punt queues (R470). -/
def execPciePerstAssert (s : State) : Host.Outcome State Fault Refusal :=
  finish perstAssert s

/-- FLR: A function-level reset resets the configuration space and the rings (R470). -/
def execFlr (s : State) : Host.Outcome State Fault Refusal :=
  finish flReset s

/-- HOT_RESET: A PCIe hot reset resets the configuration space and the rings (R470). -/
def execHotReset (s : State) : Host.Outcome State Fault Refusal :=
  finish hotReset s

/-- RING_TAIL_WRITE: A write of a ring's tail posts descriptors, or is refused if it overfills the ring (R471). -/
def execRingTailWrite (a : Access) (k tail : Nat) (s : State) : Host.Outcome State Fault Refusal :=
  finish (regWrite a rHIF_RING_W3 k tail) s

/-- RING_ENABLE: Setting a ring's enable zeroes head and tail and starts it running (R478). -/
def execRingEnable (a : Access) (k : Nat) (s : State) : Host.Outcome State Fault Refusal :=
  finish (fldWrite a rHIF_RING_W2 HIF_RING_W2.enable k 1) s

/-- RING_DISABLE: Clearing a ring's enable stops it after the descriptor in progress (R478). -/
def execRingDisable (a : Access) (k : Nat) (s : State) : Host.Outcome State Fault Refusal :=
  finish (fldWrite a rHIF_RING_W2 HIF_RING_W2.enable k 0) s

/-- PUNT_DMA: A queued punt frame is copied into the next posted buffer and completed (R475). -/
def execPuntDma (k addr : Nat) (x : PuntRead) (s : State) : Host.Outcome State Fault Refusal :=
  finish (puntDma k addr x.len x.errs) s

/-- INJECT_DMA: An inject descriptor's frame is read, padded, checked and enqueued or sent into the pipeline (R476). -/
def execInjectDma (k addr word : Nat) (data : List Nat) (cell : Nat) (s : State) : Host.Outcome State Fault Refusal :=
  finish (injectDma k addr word data cell) s

/-- RECORD_DMA: A telemetry or event record is written to a posted buffer of its ring (R477). -/
def execRecordDma (k addr len : Nat) (s : State) : Host.Outcome State Fault Refusal :=
  finish (recordDma k addr len) s

/-- DMA_FLUSH_DONE: The zero-length read after a completion finishes, which sets ev_done and raises the ring's source (R474). -/
def execDmaFlushDone (k : Nat) (s : State) : Host.Outcome State Fault Refusal :=
  finish (dmaFlushDone k) s

/-- DMA_ERROR: A DMA error or completion timeout halts the ring and raises RING_HALT (R478). -/
def execDmaError (k : Nat) (canWrite : Bool) (s : State) : Host.Outcome State Fault Refusal :=
  finish (dmaError k canWrite) s

/-- PCIE_LINK_DOWN: The PCIe link goes down, which sets ev_pcie and raises PCIE_LINK with cause 1 (R489). -/
def execPcieLinkDown (s : State) : Host.Outcome State Fault Refusal :=
  finish linkLost s

/-- PCIE_AER_ERROR: The endpoint detects an AER error, counts pcie_aer, sets ev_pcie and raises PCIE_LINK with cause 4 (R489). -/
def execPcieAerError (s : State) : Host.Outcome State Fault Refusal :=
  finish aerError s

/-- PCIE_PERST_DEASSERT: PCIE_PERST_N deasserting releases PCIE_WAKE_N and lets the link train out of D3cold (R396). -/
def execPciePerstDeassert (s : State) : Host.Outcome State Fault Refusal :=
  finish perstDeassert s

/-- ASPM_LINK_ENTRY: ASPM takes an idle PCIe link into L0s, L1 or an L1 substate (R396). -/
def execAspmLinkEntry (l : Nat) (s : State) : Host.Outcome State Fault Refusal :=
  finish (aspmEntry l) s

/-- D_STATE_CHANGE: The host places the function in D3hot or returns it to D0 through its power-management registers (R396). -/
def execDStateChange (hot msixEn pmeEn : Bool) (s : State) : Host.Outcome State Fault Refusal :=
  finish (dState hot msixEn pmeEn) s

end Sys2Proof.Machine
end

