-- ==== Sys2Proof/Machine/Fabric.lean ====
section
/-!
DEFINITION. The meanings of commands, one definition for each. Power groups, resequencing and Rounds (R247 to R273, R336 to R341): rows 110 to 121 of the table.
-/

namespace Sys2Proof.Machine

/-- PG_REPORT_TIMER: Every 10 ms, each member creates a REPORT and then runs the pairing (R268). -/
def execPgReportTimer (s : State) : Host.Outcome State Fault Refusal :=
  finish (fun s => if rdB HRED.gap 0 s || rdB HRED.restart 0 s then s else pgTimer s) s

/-- REPORT: A received REPORT newer than the last from its origin is recorded and flooded on (R268). -/
def execReport (p group origin seq watts draw slack state stretch cap : Nat) (bad : Bool) (s : State) : Host.Outcome State Fault Refusal :=
  finish (pgReport p group origin seq watts draw slack state stretch cap bad) s

/-- TRANSFER: A received TRANSFER raises the budget on its first copy and is answered with ACK (R269). -/
def execTransfer (p group origin seq target tid : Nat) (x : PgAmount) (bad : Bool) (s : State) : Host.Outcome State Fault Refusal :=
  finish (pgTransfer p group origin seq target tid x.watts x.state bad) s

/-- ACK: A received ACK completes the donor's transfer (R269). -/
def execAck (p group origin seq target tid : Nat) (x : PgAmount) (bad : Bool) (s : State) : Host.Outcome State Fault Refusal :=
  finish (pgAck p group origin seq target tid x.watts x.state bad) s

/-- PG_MEMBER_TIMEOUT: An origin without a REPORT for 100 ms leaves the membership, and PG_MEMBER_CHANGE is raised (R268). -/
def execPgMemberTimeout (x : Nat) (s : State) : Host.Outcome State Fault Refusal :=
  finish (pgGone x) s

/-- TRANSFER_RESEND: An unacknowledged TRANSFER is resent every 10 ms (R269). -/
def execTransferResend (tid : Nat) (s : State) : Host.Outcome State Fault Refusal :=
  finish (pgResend tid) s

/-- PG_TRANSFER_LOST: No ACK within 1 s adds the watts to unassigned and raises PG_TRANSFER_LOST (R340). -/
def execPgTransferLost (tid : Nat) (s : State) : Host.Outcome State Fault Refusal :=
  finish (pgLost tid) s

/-- PG_JOIN_LISTEN_END: After 1.1 s of listening, a joining member sets its budget (R338). -/
def execPgJoinListenEnd (s : State) : Host.Outcome State Fault Refusal :=
  finish pgListenEnd s

/-- CLAIM: A write of claim raises this member's budget by the unassigned headroom and clears unassigned (R340). -/
def execClaim (a : Access) (s : State) : Host.Outcome State Fault Refusal :=
  finish (fldWrite a rPWR_PG_CTRL PWR_PG_CTRL.claim 0 1) s

/-- RSQ_TIMEOUT: A context tick finds a frame held for rsq_timeout and skips to it (R256). -/
def execRsqTimeout (c : Nat) (s : State) : Host.Outcome State Fault Refusal :=
  finish (ctxTick c) s

/-- ROUND_BOUNDARY: A Round boundary latches its registers, raises the event, drives TOUT, sends ROUND_MARK and fires waiting change sets (R264). -/
def execRoundBoundary (r : Nat) (s : State) : Host.Outcome State Fault Refusal :=
  finish (fun s => if !rdB FAB_ROUND_W0.enable r s then s else csRound r (rndBoundary r s)) s

/-- ROUND_MARK: A received ROUND_MARK is compared with the own boundary_num, and a mismatch raises ROUND_MISMATCH (R265). -/
def execRoundMark (p payload : Nat) (s : State) : Host.Outcome State Fault Refusal :=
  finish (osTake p 0x20 payload (roundMark p payload)) s

end Sys2Proof.Machine
end

