-- ==== Sys2Proof/Machine/Frames.lean ====
section
/-!
DEFINITION. The meanings of commands, one definition for each. The frame path: arrival, engines, resequencing, the scheduler's choice and departure (R82 to R107, R134, R186, R216): rows 59 to 75 of the table.
-/

namespace Sys2Proof.Machine

/-- FRAME_FIRST_BYTE: A frame's first byte takes a head-buffer entry and a first cell, or the frame is dropped (R83). -/
def execFrameFirstByte (port : Nat) (bytes : List Nat) (cell : Nat) (s : State) : Host.Outcome State Fault Refusal :=
  finish (macFirst port bytes cell) s

/-- FRAME_LAST_BYTE: A frame's end arrives: the FCS is checked, a stored frame becomes eligible and the policer charge is corrected (R95). -/
def execFrameLastByte (port : Nat) (rest : List Nat) (cell : Nat) (s : State) : Host.Outcome State Fault Refusal :=
  finish (stepped (macLast port rest cell)) s

/-- ERRORED_CLOSE: Receive closes a frame as errored, and the device disposes of it according to how far it has gone (R97). -/
def execErroredClose (port : Nat) (fault : Bool) (s : State) : Host.Outcome State Fault Refusal :=
  finish (rxClose port fault) s

/-- HEAD_WORD_WRITE: A waiting head word is written to the frame's cells, and the entry is released after its last word (R184). -/
def execHeadWordWrite (f : Nat) (corrected : Bool) (s : State) : Host.Outcome State Fault Refusal :=
  finish (headWrite f corrected) s

/-- DISPATCH: A ready frame receives the next per-port sequence number and is sent to an engine (R86). -/
def execDispatch (sl : Nat) (s : State) : Host.Outcome State Fault Refusal :=
  finish (dispatch sl) s

/-- ENGINE_RESULT: An engine finishes parse, classification and lookup, and delivers a tagged result to the resequencer (R90). -/
def execEngineResult (sl e epoch sp q corr : Nat) (us : List Nat) (s : State) : Host.Outcome State Fault Refusal :=
  finish (lateSlice sl (engineResult sl e epoch sp q corr us)) s

/-- RESULT_RELEASE: The resequencer releases a result in sequence order, and the frame is policed and enqueued or dropped (R90). -/
def execResultRelease (sl sp : Nat) (s : State) : Host.Outcome State Fault Refusal :=
  finish (lateSlice sl (resultRelease sl sp)) s

/-- RESEQ_SKIP: A number outstanding for 2 µs, with a later number waiting, is skipped and its frame freed (R91). -/
def execReseqSkip (sl sp : Nat) (s : State) : Host.Outcome State Fault Refusal :=
  finish (reseqSkip sl sp) s

/-- HEAD_BUFFER_ECC_ERROR: An uncorrectable head-buffer error is read from the cells instead, or makes the frame errored, and raises HEAD_ECC (R101). -/
def execHeadBufferEccError (f w : Nat) (s : State) : Host.Outcome State Fault Refusal :=
  finish (headEcc f w) s

/-- HEARTBEAT: Every hb_period, a heartbeat cell is sent through each engine and its signature is checked (R102). -/
def execHeartbeat (sl : Nat) (bad : List Nat) (s : State) : Host.Outcome State Fault Refusal :=
  finish (heartbeat sl bad) s

/-- ENGINE_WATCHDOG: No result 1,000 core cycles after a dispatch fences the engine (R102). -/
def execEngineWatchdog (sl e : Nat) (s : State) : Host.Outcome State Fault Refusal :=
  finish (engWatchdog sl e) s

/-- ENGINE_MEMORY_ERROR: An uncorrectable working-memory error, or a program or action parity error, fences the engine (R102). -/
def execEngineMemoryError (sl e : Nat) (parity : Bool) (s : State) : Host.Outcome State Fault Refusal :=
  finish (engMemory sl e parity) s

/-- ENGINE_UNFENCE: Writing an unfence bit clears the engine and runs 16 heartbeat cells through it (R106). -/
def execEngineUnfence (a : Access) (sl mask : Nat) (s : State) : Host.Outcome State Fault Refusal :=
  finish (regWrite a rSLC_ENG_CTRL sl (fieldWord SLC_ENG_CTRL.unfence mask)) s

/-- ENGINE_RETURN_TEST_DONE: The 16 heartbeat cells return: the engine rejoins with ENGINE_RETURNED, or stays fenced with cause 4 (R106). -/
def execEngineReturnTestDone (sl e : Nat) (ok : Bool) (s : State) : Host.Outcome State Fault Refusal :=
  finish (engTested sl e ok) s

/-- SCHEDULER_SELECT: When the port can start a frame, the port root selects the gated, admitted, minimum-rate or excess frame, or none (R216). -/
def execSchedulerSelect (p : Nat) (s : State) : Host.Outcome State Fault Refusal :=
  finish (schedSelect p) s

/-- FRAME_TX_START: The egress engine rewrites the selected frame and its first bit leaves (R134). -/
def execFrameTxStart (p : Nat) (errs : List MemErr) (s : State) : Host.Outcome State Fault Refusal :=
  finish (txStart p errs) s

/-- FRAME_TX_END: A frame's last byte leaves, its cells are returned, and the remainder of a cut-through charge is applied (R186). -/
def execFrameTxEnd (p : Nat) (errs : List MemErr) (s : State) : Host.Outcome State Fault Refusal :=
  finish (txEnd p errs) s

end Sys2Proof.Machine
end

