-- ==== Sys2Proof/Machine/Interrupts.lean ====
section
/-!
DEFINITION. The meanings of commands, one definition for each. Interrupt sources, cores and the host (R378 to R398): rows 204 to 212 of the table.
-/

namespace Sys2Proof.Machine

/-- SOURCE_EDGE: A rising source line sets both pending bits and delivers, or starts the group hold-off (R383). -/
def execSourceEdge (n : Nat) (s : State) : Host.Outcome State Fault Refusal :=
  finish (fun s => if edgeStands n s then edge n (pushL LINT.seen 0 n s) else s) s

/-- HOLDOFF_EXPIRY: A group hold-off timer expires and delivers the group to routing, the host and INT_N (R383). -/
def execHoldoffExpiry (g : Nat) (s : State) : Host.Outcome State Fault Refusal :=
  finish (expire HINT.timer g (fun s => deliver g (wr INTC_GRP.running g 0 s))) s

/-- INTERRUPT_ACK: A core acknowledges its presented source, clearing core pending and stacking it (R385). -/
def execInterruptAck (c : Nat) (s : State) : Host.Outcome State Fault Refusal :=
  finish (coreAck c) s

/-- HANDLER_END: A core ends a handler and removes the source from its stack, lowering its threshold (R385). -/
def execHandlerEnd (c n : Nat) (s : State) : Host.Outcome State Fault Refusal :=
  finish (coreEnd c n) s

/-- PMR_WRITE: A core changes its priority mask, which may withdraw a presentation (R384). -/
def execPmrWrite (c v : Nat) (s : State) : Host.Outcome State Fault Refusal :=
  finish (corePmr c v) s

/-- SW_SET: INTC_SW_SET pulses a software source line (R379). -/
def execSwSet (a : Access) (n : Nat) (s : State) : Host.Outcome State Fault Refusal :=
  finish (regWrite a rINTC_SW_SET 0 (fieldWord INTC_SW_SET.index n + fieldWord INTC_SW_SET.set 1)) s

/-- HPEND_CLEAR: A W1C of INTC_HPEND clears host pending bits, which re-pend if the line is still high (R381). -/
def execHpendClear (a : Access) (g mask : Nat) (s : State) : Host.Outcome State Fault Refusal :=
  finish (regWrite a rINTC_HPEND g mask) s

/-- MSIX_LINK_READY: A held MSI-X message is sent once the link reaches L0 and the function is in D0 (R396). -/
def execMsixLinkReady (speed width : Nat) (s : State) : Host.Outcome State Fault Refusal :=
  finish (linkReady speed width) s

/-- MSIX_UNMASK: Unmasking a vector sends its PBA-pending message (R390). -/
def execMsixUnmask (g : Nat) (s : State) : Host.Outcome State Fault Refusal :=
  finish (msixUnmask g) s

end Sys2Proof.Machine
end

