-- ==== Sys2Proof/Machine/Links.lean ====
section
/-!
DEFINITION. The meanings of commands, one definition for each. Ports, links, Quiet and modules (R49 to R81): rows 22 to 58 of the table.
-/

namespace Sys2Proof.Machine

/-- ADMIN_UP_SET: Setting admin_up starts bring-up at step 1 (R60). -/
def execAdminUpSet (a : Access) (p : Nat) (s : State) : Host.Outcome State Fault Refusal :=
  finish (fldWrite a rPRT_PORT_CFG PRT_PORT_CFG.admin_up p 1) s

/-- ADMIN_UP_CLEAR: Clearing admin_up declares link down at once, with first fault 6 (R72). -/
def execAdminUpClear (a : Access) (p : Nat) (s : State) : Host.Outcome State Fault Refusal :=
  finish (fldWrite a rPRT_PORT_CFG PRT_PORT_CFG.admin_up p 0) s

/-- AUTONEG_PAGE_RX: A partner ability received in Clause 73 auto-negotiation either matches the mode or leaves the port in auto-negotiation (R53). -/
def execAutonegPageRx (p ability : Nat) (has : Bool) (s : State) : Host.Outcome State Fault Refusal :=
  finish (anPage p ability has) s

/-- LINK_TRAINING_DONE: Link training completes and the port moves to aligning (R60). -/
def execLinkTrainingDone (x : Trained) (s : State) : Host.Outcome State Fault Refusal :=
  finish (trainingDone x.port x.loss) s

/-- ALIGNMENT_DONE: CDR, block lock, deskew and FEC lock complete, and up_debounce starts (R60). -/
def execAlignmentDone (p : Nat) (s : State) : Host.Outcome State Fault Refusal :=
  finish (alignmentDone p) s

/-- UP_DEBOUNCE_EXPIRY: up_debounce passes without a fault: link_up is set, LINK_UP is raised, a hold ends and the capability exchange starts (R60). -/
def execUpDebounceExpiry (p : Nat) (s : State) : Host.Outcome State Fault Refusal :=
  finish (expire HPRT.updeb p (linkUp p)) s

/-- BRINGUP_STEP_FAIL: A bring-up step fails, counts bringup_retry and waits 100 ms (R60). -/
def execBringupStepFail (p : Nat) (s : State) : Host.Outcome State Fault Refusal :=
  finish (stepFail p) s

/-- BRINGUP_RETRY: 100 ms after a failed step, the port returns to step 1 (R60). -/
def execBringupRetry (p : Nat) (s : State) : Host.Outcome State Fault Refusal :=
  finish (expire HPRT.retry p (bringStart p)) s

/-- ADAPTATION_STEP: Background adaptation takes at most one receiver tap step per lane per 100 µs (R57). -/
def execAdaptationStep (l loss ser : Nat) (s : State) : Host.Outcome State Fault Refusal :=
  finish (adaptStep l loss ser) s

/-- ADAPT_REVERT_CHECK: 10 ms after a step, the symbol-error rate is compared with the rate before, and the step is reversed if it doubled (R57). -/
def execAdaptRevertCheck (l after : Nat) (s : State) : Host.Outcome State Fault Refusal :=
  finish (adaptCheck l after) s

/-- CAPABILITY_FRAME_TX: Every 100 ms, or every 1 s once a peer frame is valid, the port sends a capability frame (R61). -/
def execCapabilityFrameTx (p : Nat) (s : State) : Host.Outcome State Fault Refusal :=
  finish (capDue p) s

/-- CAPABILITY_FRAME_RX: A valid capability frame sets peer_zx and records the peer's identity and caps (R63). -/
def execCapabilityFrameRx (p dev pport tagv caps group fixed : Nat) (s : State) : Host.Outcome State Fault Refusal :=
  finish (capRx p dev pport tagv caps group fixed) s

/-- PEER_LOST: No valid capability frame for 3.5 s clears peer_zx and tag_active and raises PEER_LOST (R63). -/
def execPeerLost (p : Nat) (s : State) : Host.Outcome State Fault Refusal :=
  finish (peerLost p) s

/-- LINK_LOCAL_FRAME_RX: A frame of subtype 0x02 is consumed by the MAC and handed to the management engine (R62). -/
def execLinkLocalFrameRx (p len : Nat) (s : State) : Host.Outcome State Fault Refusal :=
  finish (macRx p len (inc cnt_PRT_rx_ctrl p)) s

/-- BAD_CONTROL_FRAME_RX: A frame with the capability address and EtherType but a bad magic, subtype or version is discarded in rx_ctrl_bad (R62). -/
def execBadControlFrameRx (p len : Nat) (s : State) : Host.Outcome State Fault Refusal :=
  finish (macRx p len (inc cnt_PRT_rx_ctrl_bad p)) s

/-- MAC_CONTROL_FRAME_RX: A received PAUSE or PFC frame is counted in rx_mac_ctrl and discarded (R52). -/
def execMacControlFrameRx (p len : Nat) (s : State) : Host.Outcome State Fault Refusal :=
  finish (macRx p len (inc cnt_PRT_rx_mac_ctrl p)) s

/-- QUIET_REQ: A received QUIET_REQ is answered with QUIET_ACK or with QUIET_NAK and the first failing reason (R66). -/
def execQuietReq (p : Nat) (s : State) : Host.Outcome State Fault Refusal :=
  finish (quietReq p) s

/-- QUIET_ACK: A received QUIET_ACK completes agreement and starts the 2 µs wait (R67). -/
def execQuietAck (p : Nat) (s : State) : Host.Outcome State Fault Refusal :=
  finish (quietAck p) s

/-- QUIET_NAK: A received QUIET_NAK ends the attempt, restarts quiet_idle and counts quiet_refused (R69). -/
def execQuietNak (p reason : Nat) (s : State) : Host.Outcome State Fault Refusal :=
  finish (quietNak p reason) s

/-- QUIET_HOLD: A received QUIET_HOLD stops frame transmission on the port for the stated duration (R70). -/
def execQuietHold (p us : Nat) (s : State) : Host.Outcome State Fault Refusal :=
  finish (quietHold p us) s

/-- HOLD_END: A received HOLD_END ends a QUIET_HOLD and starts down_debounce if a fault remains (R70). -/
def execHoldEnd (p : Nat) (s : State) : Host.Outcome State Fault Refusal :=
  finish (holdEndRx p) s

/-- UNKNOWN_ORDERED_SET: An ordered set of an undefined type is ignored and counted in rx_os_unknown (R65). -/
def execUnknownOrderedSet (p type : Nat) (s : State) : Host.Outcome State Fault Refusal :=
  finish (fun s => if portHears p s && undefinedSet type then osTake p type 0 (inc cnt_PRT_rx_os_unknown p) s else s) s

/-- QUIET_IDLE_EXPIRY: quiet_idle passes with every condition holding, and the port sends QUIET_REQ (R66). -/
def execQuietIdleExpiry (p : Nat) (s : State) : Host.Outcome State Fault Refusal :=
  finish (quietIdle p) s

/-- QUIET_ANSWER_TIMEOUT: No answer to QUIET_REQ within 20 µs ends the attempt and counts quiet_refused (R69). -/
def execQuietAnswerTimeout (p : Nat) (s : State) : Host.Outcome State Fault Refusal :=
  finish (expire HPRT.reqd p (quietRefused p)) s

/-- QUIET_ENTRY: 2 µs after agreement, the port turns its transmitter off, enters Winter, sets state quiet and counts quiet_entry (R67). -/
def execQuietEntry (p : Nat) (s : State) : Host.Outcome State Fault Refusal :=
  finish (quietEntry p) s

/-- SIGNAL_DETECT_ENERGY: A quiet port's detector sees energy and wakes the port (R68). -/
def execSignalDetectEnergy (p : Nat) (s : State) : Host.Outcome State Fault Refusal :=
  finish (signalEnergy p) s

/-- WAKE_ALIGNED: A waking port realigns and forwards again, counting quiet_wake (R68). -/
def execWakeAligned (p : Nat) (s : State) : Host.Outcome State Fault Refusal :=
  finish (wakeAligned p) s

/-- WAKE_TIMEOUT: Alignment not complete 1 ms after a wake declares link down and reruns bring-up (R68). DESIGN CHOICE (log entry 136): the link down it declares carries first fault 1. -/
def execWakeTimeout (p : Nat) (s : State) : Host.Outcome State Fault Refusal :=
  finish (expire HPRT.wake p (linkDown p 1)) s

/-- QUIET_HOLD_EXPIRY: The duration of a QUIET_HOLD ends, and the port resumes sending frames (R70). -/
def execQuietHoldExpiry (p : Nat) (s : State) : Host.Outcome State Fault Refusal :=
  finish (expire HPRT.hold p (holdOver p)) s

/-- LINK_FAULT: A link fault appears on a port and starts down_debounce (R71). -/
def execLinkFault (p k : Nat) (present : Bool) (s : State) : Host.Outcome State Fault Refusal :=
  finish (linkFault p k present) s

/-- DOWN_DEBOUNCE_EXPIRY: A fault lasting down_debounce declares link down and hands the port to LINK_HOLD and the path masks (R72). -/
def execDownDebounceExpiry (p : Nat) (s : State) : Host.Outcome State Fault Refusal :=
  finish (expire HPRT.debounce p (fun s => linkDown p (rd HPRT.first p s) s)) s

/-- FLAP_HOLD_RELEASE: Writing 1 to flap_hold releases the hold (R75). -/
def execFlapHoldRelease (a : Access) (p : Nat) (s : State) : Host.Outcome State Fault Refusal :=
  finish (fldWrite a rPRT_PORT_STATUS PRT_PORT_STATUS.flap_hold p 1) s

/-- DEGRADE_WINDOW: At the end of each 2^20-codeword window, the symbol errors are compared with degrade_threshold to set or clear degraded (R74). -/
def execDegradeWindow (p errs uncorr : Nat) (s : State) : Host.Outcome State Fault Refusal :=
  finish (degradeWindow p errs uncorr) s

/-- MODULE_POLL: Every 10 ms, presence and IntL are polled, which runs module insertion or removal handling (R77). -/
def execModulePoll (o : Nat) (d : ModData) (s : State) : Host.Outcome State Fault Refusal :=
  finish (modulePoll o d) s

/-- MODULE_MONITOR_POLL: Every 1 s, the module monitors are read (R77). -/
def execModuleMonitorPoll (o state : Nat) (s : State) : Host.Outcome State Fault Refusal :=
  finish (moduleMonitor o state) s

/-- MODULE_RESET: Writing mod_reset starts a 10 ms ResetL pulse (R77). -/
def execModuleReset (a : Access) (o : Nat) (s : State) : Host.Outcome State Fault Refusal :=
  finish (fldWrite a rPRT_OCT_MODULE_CTRL PRT_OCT_MODULE_CTRL.mod_reset o 1) s

/-- MODULE_RESET_PULSE_END: At the end of the ResetL pulse, the insertion steps of R77 rerun (R77). -/
def execModuleResetPulseEnd (o : Nat) (d : ModData) (s : State) : Host.Outcome State Fault Refusal :=
  finish (modulePulseEnd o d) s

end Sys2Proof.Machine
end

