-- ==== Sys2Proof/Machine/Manage.lean ====
section
/-!
DEFINITION. The meanings of commands, one definition for each. Management ports, the management protocol, SMBus and I²C (R479 to R488): rows 276 to 295 of the table.
-/

namespace Sys2Proof.Machine

/-- ARP_REQUEST: A management port answers an ARP request for its address (R479). -/
def execArpRequest (m target mac ip : Nat) (s : State) : Host.Outcome State Fault Refusal :=
  finish (arpRequest m target mac ip) s

/-- NEIGHBOUR_SOLICITATION: A management port answers an IPv6 neighbour solicitation (R479). -/
def execNeighbourSolicitation (m target mac ip : Nat) (s : State) : Host.Outcome State Fault Refusal :=
  finish (neighbourSol m target mac ip) s

/-- ECHO_REQUEST: A management port answers an ICMP or ICMPv6 echo request (R479). -/
def execEchoRequest (m : Nat) (v6 : Bool) (dst src id seq : Nat) (data : List Nat) (s : State) : Host.Outcome State Fault Refusal :=
  finish (echoRequest m v6 dst src id seq data) s

/-- MGMT_OTHER_FRAME: Any other frame on a management port is dropped and counted in mgmt_other (R479). -/
def execMgmtOtherFrame (m : Nat) (s : State) : Host.Outcome State Fault Refusal :=
  finish (otherFrame m) s

/-- MGMT_LINK_CHANGE: A management port's link goes up or down, and MGMT_LINK is raised (R489). -/
def execMgmtLinkChange (m : Nat) (up : Bool) (s : State) : Host.Outcome State Fault Refusal :=
  finish (mgmtLink m up) s

/-- REG_READ: The management message REG_READ returns 1 to 256 register values (R482). -/
def execRegRead (m : MgmtMsg) (s : State) : Host.Outcome State Fault Refusal :=
  finish (mgmtRequest 0x10 m ⟨true, []⟩) s

/-- REG_WRITE: The management message REG_WRITE writes or stages 1 to 64 masked register entries (R482). -/
def execRegWrite (m : MgmtMsg) (s : State) : Host.Outcome State Fault Refusal :=
  finish (mgmtRequest 0x11 m ⟨true, []⟩) s

/-- TABLE_CMD: The management message TABLE_CMD issues a table command and returns its status and data (R482). -/
def execTableCmd (m : MgmtMsg) (s : State) : Host.Outcome State Fault Refusal :=
  finish (mgmtRequest 0x12 m ⟨true, []⟩) s

/-- ADMIT: The management message ADMIT submits a stream request to admission (R482). -/
def execAdmitReq (m : MgmtMsg) (s : State) : Host.Outcome State Fault Refusal :=
  finish (mgmtRequest 0x13 m ⟨true, []⟩) s

/-- RELEASE: The management message RELEASE releases a stream (R482). -/
def execReleaseReq (m : MgmtMsg) (s : State) : Host.Outcome State Fault Refusal :=
  finish (mgmtRequest 0x14 m ⟨true, []⟩) s

/-- QUERY: The management message QUERY returns a stream's state (R482). -/
def execQueryReq (m : MgmtMsg) (s : State) : Host.Outcome State Fault Refusal :=
  finish (mgmtRequest 0x15 m ⟨true, []⟩) s

/-- SERVICE_PARAM: The management message SERVICE_PARAM sets a service parameter, installer only (R482). -/
def execServiceParam (m : MgmtMsg) (s : State) : Host.Outcome State Fault Refusal :=
  finish (mgmtRequest 0x16 m ⟨true, []⟩) s

/-- MODULE_RW: The management message MODULE_RW performs a CMIS access through an I²C master (R482). -/
def execModuleRw (m : MgmtMsg) (ans : ModAnswer) (s : State) : Host.Outcome State Fault Refusal :=
  finish (mgmtRequest 0x17 m ans) s

/-- MGMT_HELD_REQUEST: After a gap, the held management requests are served in arrival order (R483). -/
def execMgmtHeldRequest (ans : ModAnswer) (s : State) : Host.Outcome State Fault Refusal :=
  finish (heldRequest ans) s

/-- SMBUS_SET_ADDRESS: SMBus command 0x01 sets the register address (R484). -/
def execSmbusSetAddress (count pec addr : Nat) (s : State) : Host.Outcome State Fault Refusal :=
  finish (smbSetAddress count pec addr) s

/-- SMBUS_WRITE: SMBus command 0x02 writes the value and advances the address (R484). -/
def execSmbusWrite (count pec value : Nat) (s : State) : Host.Outcome State Fault Refusal :=
  finish (smbWriteWord count pec value) s

/-- SMBUS_READ: SMBus command 0x03 returns the value and advances the address (R484). -/
def execSmbusRead (s : State) : Host.Outcome State Fault Refusal :=
  finish smbRead s

/-- SMBUS_SCL_TIMEOUT: SCL held low for 25 ms resets the SMBus target (R484). -/
def execSmbusSclTimeout (s : State) : Host.Outcome State Fault Refusal :=
  finish smbTimeout s

/-- I2C_STUCK: SDA low for 35 ms triggers recovery, and a bus still stuck raises I2C_STUCK and stops polling (R486). -/
def execI2cStuck (bus : Nat) (still : Bool) (s : State) : Host.Outcome State Fault Refusal :=
  finish (i2cStuck bus still) s

/-- I2C_RECOVERY_RETRY: Every 1 s, recovery of a stuck bus is retried (R486). -/
def execI2cRecoveryRetry (bus : Nat) (still : Bool) (s : State) : Host.Outcome State Fault Refusal :=
  finish (i2cRetry bus still) s

end Sys2Proof.Machine
end

