-- ==== Sys2Proof/Machine/Power.lean ====
section
/-!
DEFINITION. The meanings of commands, one definition for each. The governor, droop, heat, regulators and trim (R308 to R329): rows 154 to 172 of the table.
-/

namespace Sys2Proof.Machine

/-- GOVERNOR_TICK: Every 100 µs, the governor takes the slowest proposal and starts a down-step or an up-step (R311). -/
def execGovernorTick (s : State) : Host.Outcome State Fault Refusal :=
  finish govTick s

/-- DEMAND_UPDATE: Every 1 ms with perf_mode, demand_state is recomputed (R312). -/
def execDemandUpdate (s : State) : Host.Outcome State Fault Refusal :=
  finish demandUpdate s

/-- VOLTAGE_SETTLED: The median voltage reaches its target, and the step's clock slew or completion follows (R313). -/
def execVoltageSettled (s : State) : Host.Outcome State Fault Refusal :=
  finish voltSettled s

/-- UP_STEP_VOLTAGE_TIMEOUT: The voltage not arriving within 200 µs abandons the up-step with reason 2 (R313). -/
def execUpStepVoltageTimeout (s : State) : Host.Outcome State Fault Refusal :=
  finish upTimeout s

/-- CLOCK_SLEW_DONE: The PLL slew reaches its target frequency (R313). -/
def execClockSlewDone (s : State) : Host.Outcome State Fault Refusal :=
  finish slewDone s

/-- DROOP_CROSSING: A detector reads t1_mv or t2_mv below the set voltage, and its domain is stretched (R316). -/
def execDroopCrossing (k below : Nat) (s : State) : Host.Outcome State Fault Refusal :=
  finish (droopCross k below) s

/-- DROOP_CLEAR: A detector reads above its threshold by 5 mV for 16 cycles, and the stretch ends or steps down (R316). -/
def execDroopClear (k below : Nat) (s : State) : Host.Outcome State Fault Refusal :=
  finish (droopBack k below) s

/-- STRETCH_DUTY_EVAL: Every 1 µs, each domain's 10 µs stretch duty is evaluated for excursion (R317). -/
def execStretchDutyEval (s : State) : Host.Outcome State Fault Refusal :=
  finish dutyEval s

/-- DROOP_STATE_UPDATE: Every 1 ms, droop_state is moved by the stretch duty (R318). -/
def execDroopStateUpdate (s : State) : Host.Outcome State Fault Refusal :=
  finish droopUpdate s

/-- VR_ALERT_ASSERT: VR_ALERT_N passing its filter forces every core domain to 1.00 GHz within 150 ns and sets P5 (R319). -/
def execVrAlertAssert (s : State) : Host.Outcome State Fault Refusal :=
  finish vrAssert s

/-- VR_ALERT_DEASSERT: VR_ALERT_N deasserts, and alert_hold starts (R320). -/
def execVrAlertDeassert (s : State) : Host.Outcome State Fault Refusal :=
  finish vrDeassert s

/-- ALERT_HOLD_EXPIRY: alert_hold ends, alert clears, VR_ALERT_CLEAR is raised and the governor resumes (R320). -/
def execAlertHoldExpiry (s : State) : Host.Outcome State Fault Refusal :=
  finish alertEnd s

/-- THERMAL_SENSOR_READ: Every 100 µs, each thermal sensor is read and excluded or readmitted (R321). -/
def execThermalSensorRead (rs : List Int) (s : State) : Host.Outcome State Fault Refusal :=
  finish (thermRead rs) s

/-- THERM_STATE_UPDATE: Every 1 ms, therm_state moves with tmax and the throttle events are raised (R322). -/
def execThermStateUpdate (s : State) : Host.Outcome State Fault Refusal :=
  finish thermUpdate s

/-- THERMTRIP: A valid sensor at 135 °C drives THERMTRIP_N low, latched, and forces P5 (R324). -/
def execThermtrip (k : Nat) (t : Int) (s : State) : Host.Outcome State Fault Refusal :=
  finish (thermComparator k t) s

/-- VOLTAGE_SENSOR_READ: Every 1 µs, the voltage sensors are read, and VOLTAGE_LOW is raised after 10 µs more than 50 mV low (R325). -/
def execVoltageSensorRead (rs : List Nat) (s : State) : Host.Outcome State Fault Refusal :=
  finish (voltRead rs) s

/-- REGULATOR_POLL: Every 10 ms, the regulators are read and draw is updated (R326). -/
def execRegulatorPoll (xs : List VrRead) (s : State) : Host.Outcome State Fault Refusal :=
  finish (vrPolls xs) s

/-- TRIM_PERIOD: Every trim_period, the trim is raised or lowered from margin_min (R328). -/
def execTrimPeriod (margin : Nat) (s : State) : Host.Outcome State Fault Refusal :=
  finish (trimPeriod margin) s

/-- TRIM_VALIDATION: Every 1 s while validating, the corrected-error rate confirms or reverts the last step down (R328). -/
def execTrimValidation (s : State) : Host.Outcome State Fault Refusal :=
  finish trimValidate s

end Sys2Proof.Machine
end

