-- ==== Sys2Proof/Machine/Queues.lean ====
section
/-!
DEFINITION. The meanings of commands, one definition for each. Wheels, gates, policers, samples, the replicator and the shared buffer's own work (R180 to R245): rows 76 to 90 of the table.
-/

namespace Sys2Proof.Machine

/-- WHEEL_PIP: At each 4 ns pip, due wheel entries are refilled and conform or are placed again (R223). -/
def execWheelPip (s : State) : Host.Outcome State Fault Refusal :=
  finish wheelPip s

/-- GATE_ENTRY_START: A gate control list entry begins in its time base, opening or closing gated queues (R225). -/
def execGateEntryStart (p : Nat) (s : State) : Host.Outcome State Fault Refusal :=
  finish (gateEntry p) s

/-- GATE_WINDOW_CLOSE: A window closes, and the frames still queued are carried to the next window (R228). -/
def execGateWindowClose (p q : Nat) (s : State) : Host.Outcome State Fault Refusal :=
  finish (windowClose p q) s

/-- GCL_SWITCH: At the first new cycle start, the committed gate set takes effect, list_pending clears and GCL_SWITCHED is raised (R229). -/
def execGclSwitch (p : Nat) (s : State) : Host.Outcome State Fault Refusal :=
  finish (gclSwitch p) s

/-- POLICER_SWEEP: Every enabled policer is refilled at least once every 100 ms (R236). -/
def execPolicerSweep (s : State) : Host.Outcome State Fault Refusal :=
  finish polSweep s

/-- POLICER_ENABLE: Setting a policer's enable to 1 fills both of its buckets (R237). -/
def execPolicerEnable (a : Access) (k : Nat) (s : State) : Host.Outcome State Fault Refusal :=
  finish (fldWrite a rSCH_POL_W4 SCH_POL_W4.enable k 1) s

/-- QUEUE_SAMPLE: Each period, every in-scope queue's depth and sojourn are sampled, which feeds histograms and the margin check (R239). -/
def execQueueSample (s : State) : Host.Outcome State Fault Refusal :=
  finish queueSample s

/-- Q_CLEAR: A write of SCH_Q_CLEAR restarts the selected queue's minimum and maximum from its next sample (R240). -/
def execQClear (a : Access) (s : State) : Host.Outcome State Fault Refusal :=
  finish (regWrite a rSCH_Q_CLEAR 0 1) s

/-- WATCH_ENTRY_WRITE: A write to a watch entry clears its histogram bins (R241). -/
def execWatchEntryWrite (a : Access) (k value : Nat) (s : State) : Host.Outcome State Fault Refusal :=
  finish (regWrite a rSCH_WATCH k value) s

/-- MULTICAST_REPLICATION: The replicator serves a multicast queue and makes up to 4 copies per cycle of group members and mirrors (R188). -/
def execMulticastReplication (x : Replicated) (s : State) : Host.Outcome State Fault Refusal :=
  finish (mcServe x.copies x.errs) s

/-- CELL_QUARANTINE: A cell with an uncorrectable error, once free, is pattern-tested and returned or retired (R192). -/
def execCellQuarantine (c : Nat) (pass : Bool) (s : State) : Host.Outcome State Fault Refusal :=
  finish (cellTest c pass) s

/-- HARVEST_SWEEP: Every harvest_period, a Harvest sweep starts and clears every touched bit (R201). -/
def execHarvestSweep (s : State) : Host.Outcome State Fault Refusal :=
  finish harvestStart s

/-- HARVEST_SWEEP_END: At the end of a sweep, cells unowned for two sweeps are reclaimed, and BUF_LEAK is raised (R201). -/
def execHarvestSweepEnd (s : State) : Host.Outcome State Fault Refusal :=
  finish harvestEnd s

/-- STALE_CHECK: Every 1 µs during a hold, stale admitted heads are dropped (R203). -/
def execStaleCheck (p : Nat) (s : State) : Host.Outcome State Fault Refusal :=
  finish (staleCheck p) s

/-- LINK_HOLD_EXPIRY: link_hold expires without the link returning: the port's queues are flushed and LINK_HOLD_EXPIRED is raised (R205). -/
def execLinkHoldExpiry (p : Nat) (s : State) : Host.Outcome State Fault Refusal :=
  finish (linkHoldExpiry p) s

end Sys2Proof.Machine
end

