-- ==== Sys2Proof/Machine/Redundancy.lean ====
section
/-!
DEFINITION. The meanings of commands, one definition for each. Lockstep, simplex, hold, takeover and hitless update (R348 to R377): rows 182 to 203 and 303 of the table.
-/

namespace Sys2Proof.Machine

/-- LOCKSTEP_MISMATCH: The comparator finds a mismatch, holds the transactions and starts a gap (R349). -/
def execLockstepMismatch (core kind addr : Nat) (s : State) : Host.Outcome State Fault Refusal :=
  finish (mismatch core kind addr) s

/-- CHECKPOINT: Every 20 µs, or when a log fills, the core state is checkpointed and the logs restart (R350). -/
def execCheckpoint (s : State) : Host.Outcome State Fault Refusal :=
  finish checkpoint s

/-- DIAGNOSIS_DONE: BIST and the ECC status give a verdict of transient, give-up or both failed (R351). -/
def execDiagnosisDone (bistA bistB : Bool) (s : State) : Host.Outcome State Fault Refusal :=
  finish (fun s => heldLeave (diagnosis bistA bistB s)) s

/-- RESYNC_DONE: Resynchronisation completes, and lockstep runs live from the held transaction (R353). -/
def execResyncDone (s : State) : Host.Outcome State Fault Refusal :=
  finish (fun s => heldLeave (resyncDone s)) s

/-- REJOIN: RED_CX_CMD rejoin runs BIST on the given-up complex and starts the state copy (R354). -/
def execRejoin (a : Access) (s : State) : Host.Outcome State Fault Refusal :=
  finish (fldWrite a rRED_CX_CMD RED_CX_CMD.rejoin 0 1) s

/-- REJOIN_COPY_DONE: The state copy completes, lockstep resumes and CX_REJOINED is raised (R354). -/
def execRejoinCopyDone (s : State) : Host.Outcome State Fault Refusal :=
  finish rejoinDone s

/-- SERVICE_WATCHDOG: A missed watchdog signal restarts both complexes warm, or enters hold on the third restart (R358). -/
def execServiceWatchdog (s : State) : Host.Outcome State Fault Refusal :=
  finish (svcWatchdog reclaimCores sessRestart) s

/-- WARM_RESTART_DONE: A warm restart finishes, and Folsor resumes from the hardware state (R359). -/
def execWarmRestartDone (s : State) : Host.Outcome State Fault Refusal :=
  finish warmDone s

/-- RETRY: RED_CX_CMD retry in autonomous hold runs BIST and restarts the passing complexes (R359). -/
def execRetry (a : Access) (s : State) : Host.Outcome State Fault Refusal :=
  finish (fldWrite a rRED_CX_CMD RED_CX_CMD.retry 0 1) s

/-- SLICE_CONTROL_MEMORY_ERROR: An uncorrectable error in a control memory makes the slice fail itself (R360). -/
def execSliceControlMemoryError (sl : Nat) (s : State) : Host.Outcome State Fault Refusal :=
  finish (sliceMemory sl) s

/-- SLICE_WATCHDOG: No dispatch or no egress progress for 10 µs makes the slice fail itself (R360). -/
def execSliceWatchdog (sl : Nat) (s : State) : Host.Outcome State Fault Refusal :=
  finish (sliceWatchdog sl) s

/-- TAKEOVER_FORWARD: SL16 completes the load and self-test and forwards; HOLD_END and SLICE_TAKEOVER follow (R363). -/
def execTakeoverForward (ns : Nat) (s : State) : Host.Outcome State Fault Refusal :=
  finish (takeoverForward ns) s

/-- TAKEOVER_FAILURE: A failed takeover declares the four macros' ports down and raises TAKEOVER_FAILED (R367). -/
def execTakeoverFailure (step : Nat) (s : State) : Host.Outcome State Fault Refusal :=
  finish (takeoverFailure step) s

/-- FORCE_FAIL: RED_SLICE_CMD force_fail starts a takeover of a serving slice with cause 6 (R369). -/
def execForceFail (a : Access) (sl : Nat) (force : Bool) (s : State) : Host.Outcome State Fault Refusal :=
  finish (regWrite a rRED_SLICE_CMD 0 (sliceWord sl 1 force)) s

/-- HAND_BACK: RED_SLICE_CMD hand_back power-cycles and tests the fenced slice before returning its macros (R369). -/
def execHandBack (a : Access) (sl : Nat) (force : Bool) (s : State) : Host.Outcome State Fault Refusal :=
  finish (regWrite a rRED_SLICE_CMD 0 (sliceWord sl 2 force)) s

/-- HAND_BACK_DONE: The macros move back to their own slice, and SL16 returns to Winter (R369). -/
def execHandBackDone (ok : Bool) (ns : Nat) (s : State) : Host.Outcome State Fault Refusal :=
  finish (handBackDone ok ns) s

/-- UPDATE_START: start breaks lockstep, and B loads the other image slot (R370). -/
def execUpdateStart (a : Access) (s : State) : Host.Outcome State Fault Refusal :=
  finish (fldWrite a rRED_UPDATE_CTRL RED_UPDATE_CTRL.start 0 1) s

/-- UPDATE_STAGED: Phase 1 completes and the update waits in ready (R370). -/
def execUpdateStaged (img again : List Nat) (s : State) : Host.Outcome State Fault Refusal :=
  finish (updStaged img again) s

/-- UPDATE_SWAP: swap hands the service state to B, which commits the update change set (R370). -/
def execUpdateSwap (a : Access) (s : State) : Host.Outcome State Fault Refusal :=
  finish (fun s => csNote (fldWrite a rRED_UPDATE_CTRL RED_UPDATE_CTRL.swap 0 1 s)) s

/-- SWAP_DONE: B becomes owner, UPDATE_SWAPPED is raised and the state copy starts (R370). -/
def execSwapDone (s : State) : Host.Outcome State Fault Refusal :=
  finish (fun s => heldLeave (swapDone s)) s

/-- UPDATE_COPY_DONE: The copy completes, lockstep resumes, UPDATE_DONE is raised and boot-select is written (R370). -/
def execUpdateCopyDone (s : State) : Host.Outcome State Fault Refusal :=
  finish updCopyDone s

/-- UPDATE_ABORT: abort in phase 1 or 2 ends the update and copies A's state back (R372). -/
def execUpdateAbort (a : Access) (s : State) : Host.Outcome State Fault Refusal :=
  finish (fldWrite a rRED_UPDATE_CTRL RED_UPDATE_CTRL.abort 0 1) s

/-- COMPLEX_SRAM_ECC_ERROR: An uncorrectable SRAM error detected in a service complex during a hitless update aborts the update, or leaves B serving simplex, or puts the device in autonomous hold (R372). -/
def execComplexSramEccError (c : Nat) (corrected : Bool) (s : State) : Host.Outcome State Fault Refusal :=
  finish (fun s => heldLeave (cxSramError c corrected s)) s

end Sys2Proof.Machine
end

