-- ==== Sys2Proof/Machine/Registers.lean ====
section
/-!
DEFINITION. The meanings of commands, one definition for each. Register accesses (R5 to R15, R435, R441, R495, R528): rows 1 to 9 of the table.
-/

namespace Sys2Proof.Machine

/-- REGISTER_WRITE: A write to a register that has no row of its own acts on each field according to its access code (R9). -/
def execRegisterWrite (a : Access) (addr value : Nat) (s : State) : Host.Outcome State Fault Refusal :=
  finish (addrWrite a addr 0xFFFFFFFF value) s

/-- NARROW_ACCESS: A register access that is narrower than 32 bits or misaligned is ignored, or reads 0, and is counted as an access error (R6). -/
def execNarrowAccess (a : Access) (addr : Nat) (write : Bool) (s : State) : Host.Outcome State Fault Refusal :=
  finish (fun s => if write then coreWrite a addr 0xFFFFFFFF 0 (accErr a addr 1 true) s else coreRead a addr (fun s => (0, accErr a addr 1 false s)) s) s

/-- UNMAPPED_ACCESS: An access to an address that no block maps reads 0 or has no effect, and is counted as an access error (R8). -/
def execUnmappedAccess (a : Access) (addr : Nat) (write : Bool) (s : State) : Host.Outcome State Fault Refusal :=
  finish (fun s => if !aligned addr || locate addr s ≠ .none_ then s
    else if write then coreWrite a addr 0xFFFFFFFF 0 (accErr a addr 2 true) s else coreRead a addr (fun s => (0, accErr a addr 2 false s)) s) s

/-- RC_READ: A read of an RC field through BAR0, the management protocol or SMBus returns the value and then clears it (R11). -/
def execRcRead (a : Access) (addr : Nat) (s : State) : Host.Outcome State Fault Refusal :=
  finish (coreRead a addr (busRead a addr)) s

/-- SNAPSHOT: A write of snap to a block's snapshot register copies all of that block's counters in one core cycle (R15). -/
def execSnapshot (a : Access) (blk sl : Nat) (s : State) : Host.Outcome State Fault Refusal :=
  finish (regWrite a (snapReg blk) (if blk = 16 then sl else 0) 1) s

/-- SNAP_ALL: A write of snap_all copies the counters of every block in one core cycle (R495). -/
def execSnapAll (a : Access) (s : State) : Host.Outcome State Fault Refusal :=
  finish (regWrite a rTEL_SNAP_ALL 0 1) s

/-- BROADCAST_WRITE: A write at 0x2000_0000 reaches all 17 slices and their images, or SL16 alone, according to win16_mode (R528). -/
def execBroadcastWrite (a : Access) (off value : Nat) (s : State) : Host.Outcome State Fault Refusal :=
  finish (addrWrite a (0x20000000 + off % 0x1000000) 0xFFFFFFFF value) s

/-- ST_WRITE_STAGE: A write of a word holding ST fields, through a path whose CFG_PATH_CS names an open set, stages one entry in that set (R435). -/
def execStWriteStage (a : Access) (addr mask value : Nat) (s : State) : Host.Outcome State Fault Refusal :=
  finish (addrWrite a addr mask value) s

/-- PAIRED_FIELD_WRITE: A live write to a paired field is tested against its partner and is adopted, or held as pending (R441). -/
def execPairedFieldWrite (a : Access) (pair inst : Nat) (hi : Bool) (v : Nat) (s : State) : Host.Outcome State Fault Refusal :=
  finish (fldWrite a (pairFld pair inst hi).1 (pairFld pair inst hi).2.1 (pairFld pair inst hi).2.2 v) s

end Sys2Proof.Machine
end

