-- ==== Sys2Proof/Machine/Report.lean ====
section
/-!
DEFINITION. The meanings of commands, one definition for each. The event ring and telemetry export (R496 to R505): rows 296 to 299 of the table.
-/

namespace Sys2Proof.Machine

/-- EVENT_RECORD_WRITE: Folsor takes a capture and writes a stamped 64-byte record into the event ring (R497). -/
def execEventRecordWrite (lag : Nat) (s : State) : Host.Outcome State Fault Refusal :=
  finish (takeCapture lag) s

/-- COUNTER_EXPORT: Every cnt_period, the named counter sets are copied and sent as records (R499). -/
def execCounterExport (s : State) : Host.Outcome State Fault Refusal :=
  finish counterExport s

/-- HISTOGRAM_EXPORT: Every hist_period, the watch bins are copied and sent as records (R499). -/
def execHistogramExport (s : State) : Host.Outcome State Fault Refusal :=
  finish histogramExport s

/-- DATAGRAM_TIMEOUT: 1 ms after its first record, a UDP export datagram is sent (R500). -/
def execDatagramTimeout (d : Nat) (s : State) : Host.Outcome State Fault Refusal :=
  finish (expire HTEL.dg_timer d (dgSend d)) s

end Sys2Proof.Machine
end

