-- ==== Sys2Proof/Machine/Rest.lean ====
section
/-!
DEFINITION. The meanings of commands, one definition for each. Slices and complexes at rest, and clocks (R330 to R346): rows 173 to 181 of the table.
-/

namespace Sys2Proof.Machine

/-- SLICE_AUTUMN_ENTRY: A slice idle for 1 µs enters Autumn (R330). -/
def execSliceAutumnEntry (sl : Nat) (s : State) : Host.Outcome State Fault Refusal :=
  finish (autumnEntry sl) s

/-- SLICE_AUTUMN_WAKE: A start delimiter, a selection, a heartbeat or a window access returns an Autumn slice to Summer (R330). -/
def execSliceAutumnWake (sl : Nat) (s : State) : Host.Outcome State Fault Refusal :=
  finish (autumnWake sl) s

/-- SLICE_WINTER_ENTRY: A slice with every port idle and no admitted stream enters Winter (R331). -/
def execSliceWinterEntry (sl : Nat) (s : State) : Host.Outcome State Fault Refusal :=
  finish (winterEntry sl) s

/-- THAW_START: A wake cause starts a Winter slice's Thaw (R331). -/
def execThawStart (sl : Nat) (s : State) : Host.Outcome State Fault Refusal :=
  finish (thawStart sl) s

/-- THAW_COMPLETE: One heartbeat passes each engine, and the slice returns to Summer (R331). -/
def execThawComplete (sl : Nat) (bad : List Nat) (s : State) : Host.Outcome State Fault Refusal :=
  finish (thawComplete sl bad) s

/-- THAW_TIMEOUT: Thaw not finished within 6 µs makes the slice fail itself (R331). -/
def execThawTimeout (sl : Nat) (s : State) : Host.Outcome State Fault Refusal :=
  finish (thawTimeout sl) s

/-- COMPLEX_SLEEP: Both complexes enter Autumn or Winter together, saving the interrupt state (R334). -/
def execComplexSleep (winter : Bool) (edgeOf : Option Nat) (s : State) : Host.Outcome State Fault Refusal :=
  finish (cxSleep winter edgeOf) s

/-- COMPLEX_WAKE: A wake source returns both complexes to Summer and restores the interrupt state (R334). -/
def execComplexWake (s : State) : Host.Outcome State Fault Refusal :=
  finish cxWake s

/-- PLL_UNLOCK: A PLL loses lock: a slice PLL fails its slice, and any other PLL raises PLL_UNLOCK and ALARM_N (R345). -/
def execPllUnlock (dom : Nat) (back : Bool) (s : State) : Host.Outcome State Fault Refusal :=
  finish (pllLock dom back) s

end Sys2Proof.Machine
end

