-- ==== Sys2Proof/Machine/Roles.lean ====
section
/-!
DEFINITION. The meanings of commands, one definition for each. Sessions, keys, the maker, audit and the test access port (R443 to R464): rows 244 to 264 of the table.
-/

namespace Sys2Proof.Machine

/-- HELLO: A HELLO opens a handshake and is answered with CHALLENGE, or refused (R452). -/
def execHello (m : MgmtMsg) (s : State) : Host.Outcome State Fault Refusal :=
  finish (mgmtRequest 1 m ⟨true, []⟩) s

/-- PROOF: A PROOF is verified and answered with OPEN or REFUSED (R452). -/
def execProof (m : MgmtMsg) (s : State) : Host.Outcome State Fault Refusal :=
  finish (mgmtRequest 3 m ⟨true, []⟩) s

/-- CLOSE: A CLOSE request closes its session (R453). -/
def execClose (m : MgmtMsg) (s : State) : Host.Outcome State Fault Refusal :=
  finish (mgmtRequest 6 m ⟨true, []⟩) s

/-- SESSION_IDLE_TIMEOUT: A session idle for idle_timeout closes (R453). -/
def execSessionIdleTimeout (i : Nat) (s : State) : Host.Outcome State Fault Refusal :=
  finish (sessIdleOut i) s

/-- CREDENTIAL_LOCK_END: lock_time passes and the credential may authenticate again (R453). -/
def execCredentialLockEnd (cred : Nat) (s : State) : Host.Outcome State Fault Refusal :=
  finish (lockEnd cred) s

/-- MAKER_GRANT: A write of grant starts a maker grant of the given minutes (R450). -/
def execMakerGrant (a : Access) (minutes : Nat) (s : State) : Host.Outcome State Fault Refusal :=
  finish (regWrite a rACC_MAKER_GRANT 0 (fieldWord ACC_MAKER_GRANT.minutes minutes + fieldWord ACC_MAKER_GRANT.grant 1)) s

/-- MAKER_REVOKE: A write of revoke ends the grant and closes the maker sessions (R450). -/
def execMakerRevoke (a : Access) (s : State) : Host.Outcome State Fault Refusal :=
  finish (fldWrite a rACC_MAKER_GRANT ACC_MAKER_GRANT.revoke 0 1) s

/-- MAKER_GRANT_EXPIRY: The grant expires and closes every maker session (R450). -/
def execMakerGrantExpiry (s : State) : Host.Outcome State Fault Refusal :=
  finish grantExpiry s

/-- PROGRAM_INSTALLER_SLOT: ACC_FUSE_CMD op 1 programs the next installer key slot (R449). -/
def execProgramInstallerSlot (a : Access) (s : State) : Host.Outcome State Fault Refusal :=
  finish (regWrite a rACC_FUSE_CMD 0 (fieldWord ACC_FUSE_CMD.op 1)) s

/-- PROGRAM_MAKER_FUSE: ACC_FUSE_CMD op 2 programs a maker fuse word (R464). -/
def execProgramMakerFuse (a : Access) (addr : Nat) (s : State) : Host.Outcome State Fault Refusal :=
  finish (regWrite a rACC_FUSE_CMD 0 (fieldWord ACC_FUSE_CMD.op 2 + fieldWord ACC_FUSE_CMD.fuse_addr addr)) s

/-- AUDIT_RECORD_WRITE: Folsor takes a capture, stamps it and writes it into the audit ring (R456). -/
def execAuditRecordWrite (lag bad : Nat) (s : State) : Host.Outcome State Fault Refusal :=
  finish (auditWrite lag bad) s

/-- IDCODE: The TAP IDCODE instruction shifts out 0xB102_4743 (R461). -/
def execIdcode (s : State) : Host.Outcome State Fault Refusal :=
  finish tapIdcode s

/-- TAP_REG_READ: The TAP REG_READ instruction shifts in an address and shifts out its value with the observe role (R461). -/
def execTapRegRead (addr : Nat) (s : State) : Host.Outcome State Fault Refusal :=
  finish (tapRead addr) s

/-- TRACE_READ: The TAP TRACE_READ instruction shifts out the trace buffer from its oldest word (R461). -/
def execTraceRead (s : State) : Host.Outcome State Fault Refusal :=
  finish tapTrace s

/-- BYPASS: The TAP BYPASS instruction selects the bypass register (R461). -/
def execBypass (s : State) : Host.Outcome State Fault Refusal :=
  finish (tapSelect 0xFF) s

/-- EXTEST: The TAP EXTEST instruction performs IEEE 1149.1 boundary test in TEST_MODE (R461). -/
def execExtest (cells : List Nat) (s : State) : Host.Outcome State Fault Refusal :=
  finish (tapBoundary 0 1 cells) s

/-- SAMPLE_PRELOAD: The TAP SAMPLE/PRELOAD instruction captures or loads the boundary cells in TEST_MODE (R461). -/
def execSamplePreload (cells : List Nat) (s : State) : Host.Outcome State Fault Refusal :=
  finish (tapBoundary 2 0 cells) s

/-- EXTEST_PULSE: The TAP EXTEST_PULSE instruction performs IEEE 1149.6 test on SerDes lanes in TEST_MODE (R461). -/
def execExtestPulse (cells : List Nat) (s : State) : Host.Outcome State Fault Refusal :=
  finish (tapBoundary 3 1 cells) s

/-- EXTEST_TRAIN: The TAP EXTEST_TRAIN instruction performs IEEE 1149.6 test on SerDes lanes in TEST_MODE (R461). -/
def execExtestTrain (cells : List Nat) (s : State) : Host.Outcome State Fault Refusal :=
  finish (tapBoundary 4 1 cells) s

/-- HIGHZ: The TAP HIGHZ instruction floats the outputs in TEST_MODE (R461). -/
def execHighz (s : State) : Host.Outcome State Fault Refusal :=
  finish (tapBoundary 5 2 []) s

/-- CLAMP: The TAP CLAMP instruction holds the boundary outputs in TEST_MODE (R461). -/
def execClamp (s : State) : Host.Outcome State Fault Refusal :=
  finish (tapBoundary 6 1 []) s

end Sys2Proof.Machine
end

