-- ==== Sys2Proof/Machine/Tables.lean ====
section
/-!
DEFINITION. The meanings of commands, one definition for each. Forwarding tables, ageing, learning and classification rules (R138 to R178): rows 91 to 109, 310 and 311 of the table.
-/

namespace Sys2Proof.Machine

/-- TABLE_READ: TBL_CMD op 1 reads an entry into the data registers (R160). -/
def execTableRead (a : Access) (t index : Nat) (us : List Nat) (s : State) : Host.Outcome State Fault Refusal :=
  finish (fun s => regWrite a rTBL_CMD t (tblWord 1 index true false) (upsets us s)) s

/-- TABLE_WRITE: TBL_CMD op 2 writes a whole entry at an index, or rebuilds an LPM node (R161). -/
def execTableWrite (a : Access) (t index : Nat) (s : State) : Host.Outcome State Fault Refusal :=
  finish (regWrite a rTBL_CMD t (tblWord 2 index true false)) s

/-- TABLE_INSERT: TBL_CMD op 3 places an entry or prefix by key (R151). -/
def execTableInsert (a : Access) (t index : Nat) (s : State) : Host.Outcome State Fault Refusal :=
  finish (regWrite a rTBL_CMD t (tblWord 3 index false false)) s

/-- TABLE_DELETE: TBL_CMD op 4 deletes an entry, or starts retire for a next hop or group (R166). -/
def execTableDelete (a : Access) (t index : Nat) (byIndex : Bool) (s : State) : Host.Outcome State Fault Refusal :=
  finish (regWrite a rTBL_CMD t (tblWord 4 index byIndex false)) s

/-- TABLE_UPDATE_DATA: TBL_CMD op 5 updates an entry's data in place (R160). -/
def execTableUpdateData (a : Access) (t index : Nat) (byIndex : Bool) (s : State) : Host.Outcome State Fault Refusal :=
  finish (regWrite a rTBL_CMD t (tblWord 5 index byIndex false)) s

/-- TABLE_SEARCH: TBL_CMD op 6 searches by key or prefix and returns the index and entry (R160). -/
def execTableSearch (a : Access) (t : Nat) (longest : Bool) (us : List Nat) (s : State) : Host.Outcome State Fault Refusal :=
  finish (fun s => regWrite a rTBL_CMD t (tblWord 6 0 false longest) (upsets us s)) s

/-- TABLE_MOVE: TBL_CMD op 7 moves an exact-match entry to TBL_MOVE_DEST in one cycle (R161). -/
def execTableMove (a : Access) (t index : Nat) (s : State) : Host.Outcome State Fault Refusal :=
  finish (regWrite a rTBL_CMD t (tblWord 7 index true false)) s

/-- RETIRE_FREE: A retiring entry is freed once 2 µs have passed and holds is 0 (R166). -/
def execRetireFree (t i : Nat) (s : State) : Host.Outcome State Fault Refusal :=
  finish (retireFree t i) s

/-- AGE_TICK: TBL_AGE_NOW advances once per tick_ms (R171). -/
def execAgeTick (s : State) : Host.Outcome State Fault Refusal :=
  finish ageTick s

/-- TICK_MS_WRITE: A write of tick_ms reschedules the next tick (R171). -/
def execTickMsWrite (a : Access) (ms : Nat) (s : State) : Host.Outcome State Fault Refusal :=
  finish (fldWrite a rTBL_AGE_CFG TBL_AGE_CFG.tick_ms 0 ms) s

/-- AGEING_SCAN: The scan visits one bucket per 50 ns, removing aged entries and clearing hold and moves (R172). -/
def execAgeingScan (us : List Nat) (s : State) : Host.Outcome State Fault Refusal :=
  finish (fun s => scanBucket (upsets us s)) s

/-- LEARN_REQUEST: The learning engine takes a request from its FIFO and installs, moves, pins or counts it (R174). -/
def execLearnRequest (s : State) : Host.Outcome State Fault Refusal :=
  finish learnNext s

/-- TABLE_SCRUB: The scrub reads every entry of tables 1 to 5 within 20 ms and reports bad parity (R170). -/
def execTableScrub (us : List Nat) (s : State) : Host.Outcome State Fault Refusal :=
  finish (fun s => tblScrub (upsets us s)) s

/-- RULE_WRITE: SLC_RULE_CMD WRITE installs a rule from the key, mask and action registers in one cycle (R138). -/
def execRuleWrite (a : Access) (sl index : Nat) (s : State) : Host.Outcome State Fault Refusal :=
  finish (regWrite a rSLC_RULE_CMD sl (ruleWord 1 index)) s

/-- RULE_READ: SLC_RULE_CMD READ fills the key, mask and action registers from a rule (R140). -/
def execRuleRead (a : Access) (sl index : Nat) (s : State) : Host.Outcome State Fault Refusal :=
  finish (regWrite a rSLC_RULE_CMD sl (ruleWord 2 index)) s

/-- RULE_INVALIDATE: SLC_RULE_CMD INVALIDATE clears a rule's valid bit (R138). -/
def execRuleInvalidate (a : Access) (sl index : Nat) (s : State) : Host.Outcome State Fault Refusal :=
  finish (regWrite a rSLC_RULE_CMD sl (ruleWord 3 index)) s

/-- RULE_MOVE: SLC_RULE_CMD MOVE writes the destination and invalidates the source in one cycle (R138). -/
def execRuleMove (a : Access) (sl index : Nat) (s : State) : Host.Outcome State Fault Refusal :=
  finish (regWrite a rSLC_RULE_CMD sl (ruleWord 4 index)) s

/-- RULE_CLEAR_HITS: SLC_RULE_CMD CLEAR_HITS clears a rule's hit counter (R141). -/
def execRuleClearHits (a : Access) (sl index : Nat) (s : State) : Host.Outcome State Fault Refusal :=
  finish (regWrite a rSLC_RULE_CMD sl (ruleWord 5 index)) s

/-- RULE_SCRUB: Every 2 ms, every rule is read, and bad-parity rules are invalidated with RULE_PARITY raised (R139). -/
def execRuleScrub (sl : Nat) (bad : List Nat) (s : State) : Host.Outcome State Fault Refusal :=
  finish (fun s => ruleScrub sl (forEach bad (fun i => wr HRULE.bad (sl * 65536 + i % 65536) 1) s)) s

/-- TABLE_COMMAND_DONE: A running table command, such as an LPM INSERT of up to 50 µs, finishes: lookups switch structure, busy clears and TBL_STATUS takes the result (R162). -/
def execTableCommandDone (t : Nat) (s : State) : Host.Outcome State Fault Refusal :=
  finish (tblDone t) s

/-- RULE_COMMAND_DONE: A running SLC_RULE_CMD completes within 1 µs, busy clears and SLC_RULE_STATUS takes the result (R138). -/
def execRuleCommandDone (sl : Nat) (s : State) : Host.Outcome State Fault Refusal :=
  finish (ruleDone sl) s

end Sys2Proof.Machine
end

