-- ==== Sys2Proof/Machine/Time.lean ====
section
/-!
DEFINITION. The meanings of commands, one definition for each. Time bases, PTP, seamless switching and time pins (R274 to R307): rows 122 to 153 and 309 of the table.
-/

namespace Sys2Proof.Machine

/-- TIME_PLL_LOCK: The time PLL first locks after reset, and TB0 starts at 0 (R275). -/
def execTimePllLock (s : State) : Host.Outcome State Fault Refusal :=
  finish timePllLock s

/-- TIME_REFCLK_LOSS: TIME_REFCLK is lost: the PLL moves to backup and locked time bases go to holdover (R277). -/
def execTimeRefclkLoss (s : State) : Host.Outcome State Fault Refusal :=
  finish refclkLoss s

/-- TIME_REFCLK_RESTORE: After 1 s of TIME_REFCLK present, the time PLL returns to it (R277). -/
def execTimeRefclkRestore (s : State) : Host.Outcome State Fault Refusal :=
  finish refclkRestore s

/-- TB_LATCH: TIM_TB op 1 copies the time base's count into its now words (R278). -/
def execTbLatch (a : Access) (b : Nat) (s : State) : Host.Outcome State Fault Refusal :=
  finish (regWrite a rTIM_TB_W11 b 1) s

/-- LATCH_ALL: latch_all copies all eight time bases in one time-PLL cycle (R278). -/
def execLatchAll (a : Access) (s : State) : Host.Outcome State Fault Refusal :=
  finish (fldWrite a rTIM_CTRL TIM_CTRL.latch_all 0 1) s

/-- TB_STEP: TIM_TB op 2 steps the time base by arg_lo ns (R279). -/
def execTbStep (a : Access) (b : Nat) (s : State) : Host.Outcome State Fault Refusal :=
  finish (fun s => csNote (regWrite a rTIM_TB_W11 b 2 s)) s

/-- TB_SET: TIM_TB op 3 sets the time base to arg (R279). -/
def execTbSet (a : Access) (b : Nat) (s : State) : Host.Outcome State Fault Refusal :=
  finish (fun s => csNote (regWrite a rTIM_TB_W11 b 3 s)) s

/-- PDELAY_INTERVAL: Every 2^log_pdelay s, the port sends Pdelay_Req (R284). -/
def execPdelayInterval (p : Nat) (s : State) : Host.Outcome State Fault Refusal :=
  finish (ptpDo (pdelayInterval p)) s

/-- PDELAY_REQ: A received Pdelay_Req is answered (R284). -/
def execPdelayReq (p seq src : Nat) (bad : Bool) (s : State) : Host.Outcome State Fault Refusal :=
  finish (pdelayReq p seq src bad) s

/-- PDELAY_RESP: A received Pdelay_Resp supplies the timestamps of a measurement (R284). -/
def execPdelayResp (p seq req t2 : Nat) (corr : Int) (form : RespForm) (s : State) : Host.Outcome State Fault Refusal :=
  finish (pdelayResp p seq req t2 corr (form = .twoStep) (form = .bad)) s

/-- PDELAY_RESP_FOLLOW_UP: A received Pdelay_Resp_Follow_Up completes a measurement, which updates the link delay (R284). -/
def execPdelayRespFollowUp (p seq req t3 : Nat) (corr : Int) (bad : Bool) (s : State) : Host.Outcome State Fault Refusal :=
  finish (pdelayFollow p seq req t3 corr bad) s

/-- PDELAY_TIMEOUT: An unanswered Pdelay_Req counts pdelay_lost and, after 3 in a row, clears delay_valid (R284). -/
def execPdelayTimeout (p : Nat) (s : State) : Host.Outcome State Fault Refusal :=
  finish (pdelayTimeout p) s

/-- EXT_DELAY: A received EXT_DELAY records the peer's external delay and updates asym_used (R287). -/
def execExtDelay (p payload : Nat) (s : State) : Host.Outcome State Fault Refusal :=
  finish (extDelay p payload) s

/-- EXT_REQ: A received EXT_REQ makes the port send both EXT_DELAY values (R287). -/
def execExtReq (p : Nat) (s : State) : Host.Outcome State Fault Refusal :=
  finish (fun s => if portHears p s then osTake p 0x11 0 (extSend p) s else s) s

/-- EXT_DELAY_PERIODIC: Every 1 s while peer_zx, the port sends its EXT_DELAY values (R287). -/
def execExtDelayPeriodic (p : Nat) (s : State) : Host.Outcome State Fault Refusal :=
  finish (extPeriodic p) s

/-- EXT_REQ_RETRY: Lacking both peer values, the port sends EXT_REQ every 10 ms (R287). -/
def execExtReqRetry (p : Nat) (s : State) : Host.Outcome State Fault Refusal :=
  finish (extReqRetry p) s

/-- SYNC: A received Sync on the slave port gives an offset that runs the servo (R293). -/
def execSync (p dom seq origin : Nat) (corr : Int) (two bad : Bool) (s : State) : Host.Outcome State Fault Refusal :=
  finish (stepped (syncRx p dom seq origin corr two bad)) s

/-- FOLLOW_UP: A received Follow_Up completes a two-step offset measurement (R293). -/
def execFollowUp (p dom seq origin : Nat) (corr : Int) (bad : Bool) (s : State) : Host.Outcome State Fault Refusal :=
  finish (stepped (followUpRx p dom seq origin corr bad)) s

/-- DELAY_REQ: A received Delay_Req is answered with Delay_Resp (R289). -/
def execDelayReq (p dom seq src : Nat) (corr : Int) (bad : Bool) (s : State) : Host.Outcome State Fault Refusal :=
  finish (delayReqRx p dom seq src corr bad) s

/-- DELAY_RESP: A received Delay_Resp completes a delay request-response measurement (R289). -/
def execDelayResp (p dom seq req t4 : Nat) (corr : Int) (bad : Bool) (s : State) : Host.Outcome State Fault Refusal :=
  finish (delayRespRx p dom seq req t4 corr bad) s

/-- ANNOUNCE: A received Announce feeds the best master clock algorithm and grandmaster tracking (R289). -/
def execAnnounce (p dom src : Nat) (set utc path : List Nat) (bad : Bool) (s : State) : Host.Outcome State Fault Refusal :=
  finish (announceRx p dom src set utc path bad) s

/-- SIGNALING: A received Signaling message with the interval request TLV adjusts message intervals (R289). -/
def execSignaling (p dom ipd isync iann : Nat) (bad : Bool) (s : State) : Host.Outcome State Fault Refusal :=
  finish (signalingRx p dom ipd isync iann bad) s

/-- PTP_MANAGEMENT_RX: A received PTP Management message is discarded and counted in ptp_mgmt_drop (R289). -/
def execPtpManagementRx (p dom : Nat) (s : State) : Host.Outcome State Fault Refusal :=
  finish (ptpMgmtRx p dom) s

/-- SYNC_INTERVAL: At each Sync interval, a master port sends Sync and Follow_Up (R289). -/
def execSyncInterval (p b : Nat) (s : State) : Host.Outcome State Fault Refusal :=
  finish (ptpDo (syncInterval p b)) s

/-- ANNOUNCE_INTERVAL: At each Announce interval, a master port sends Announce (R289). -/
def execAnnounceInterval (p b : Nat) (s : State) : Host.Outcome State Fault Refusal :=
  finish (ptpDo (announceInterval p b)) s

/-- SYNC_TIMEOUT: No offset for sync_timeout intervals loses lock with cause 1 (R294). -/
def execSyncTimeout (b : Nat) (s : State) : Host.Outcome State Fault Refusal :=
  finish (fun s => if rdB HRED.gap 0 s || rdB HRED.restart 0 s then s else syncTimeout b s) s

/-- ANNOUNCE_TIMEOUT: An Announce timeout loses lock with cause 6 (R294). -/
def execAnnounceTimeout (p b : Nat) (s : State) : Host.Outcome State Fault Refusal :=
  finish (ptpDo (announceTimeout p b)) s

/-- HS_REVERT: After revert_hold of good own lock, the primary switches back to its own instance (R299). -/
def execHsRevert (p : Nat) (s : State) : Host.Outcome State Fault Refusal :=
  finish (hsRevert p) s

/-- TOUT_PULSE: A TOUT pin emits a pulse at its time, or marks it missed (R300). -/
def execToutPulse (n : Nat) (s : State) : Host.Outcome State Fault Refusal :=
  finish (toutPulse n) s

/-- TOUT_ADOPT: A write to TIM_TOUT word 0 adopts it and all pending words once any pulse has ended (R300). -/
def execToutAdopt (a : Access) (n value : Nat) (s : State) : Host.Outcome State Fault Refusal :=
  finish (regWrite a rTIM_TOUT_W0 n value) s

/-- TIN_EDGE: A selected TIN edge is captured into the FIFO and feeds a PPS servo (R302). -/
def execTinEdge (n : Nat) (rising : Bool) (s : State) : Host.Outcome State Fault Refusal :=
  finish (stepped (tinEdge n rising)) s

/-- TIN_POP: Writing pop removes the head entry of the TIN FIFO (R302). -/
def execTinPop (a : Access) (n : Nat) (s : State) : Host.Outcome State Fault Refusal :=
  finish (regWrite a rTIM_TIN_W3 n 1) s

/-- DELAY_REQ_INTERVAL: In the IEEE 1588 delay request-response profile, a slave port sends Delay_Req at its interval (R289). -/
def execDelayReqInterval (p b : Nat) (s : State) : Host.Outcome State Fault Refusal :=
  finish (ptpDo (delayReqInterval p b)) s

end Sys2Proof.Machine
end

