-- ==== Sys2Proof/Machine/Dispatch.lean ====
section
/-!
DEFINITION. The dispatch of a command to its meaning: one arm for each constructor of Instr.
-/

namespace Sys2Proof.Machine

def exec (i : Instr) (s : State) : Host.Outcome State Fault Refusal :=
  match i with
  | .registerWrite a addr value => Sys2Proof.Machine.execRegisterWrite a addr value s
  | .narrowAccess a addr write => Sys2Proof.Machine.execNarrowAccess a addr write s
  | .unmappedAccess a addr write => Sys2Proof.Machine.execUnmappedAccess a addr write s
  | .rcRead a addr => Sys2Proof.Machine.execRcRead a addr s
  | .snapshot a blk sl => Sys2Proof.Machine.execSnapshot a blk sl s
  | .snapAll a => Sys2Proof.Machine.execSnapAll a s
  | .broadcastWrite a off value => Sys2Proof.Machine.execBroadcastWrite a off value s
  | .stWriteStage a addr mask value => Sys2Proof.Machine.execStWriteStage a addr mask value s
  | .pairedFieldWrite a pair inst hi v => Sys2Proof.Machine.execPairedFieldWrite a pair inst hi v s
  | .admReqAdmit a n => Sys2Proof.Machine.execAdmReqAdmit a n s
  | .admReqRelease a n => Sys2Proof.Machine.execAdmReqRelease a n s
  | .admReqQuery a n => Sys2Proof.Machine.execAdmReqQuery a n s
  | .admReqAbort a n => Sys2Proof.Machine.execAdmReqAbort a n s
  | .hopReserve p c r => Sys2Proof.Machine.execHopReserve p c r s
  | .hopCommit p n => Sys2Proof.Machine.execHopCommit p n s
  | .hopRelease p n code hop => Sys2Proof.Machine.execHopRelease p n code hop s
  | .hopCommitWaitExpiry n => Sys2Proof.Machine.execHopCommitWaitExpiry n s
  | .tentativeTimeout n => Sys2Proof.Machine.execTentativeTimeout n s
  | .admEngineResume => Sys2Proof.Machine.execAdmEngineResume s
  | .drainSpanEnd n ix => Sys2Proof.Machine.execDrainSpanEnd n ix s
  | .bundleMemberRelease p => Sys2Proof.Machine.execBundleMemberRelease p s
  | .adminUpSet a p => Sys2Proof.Machine.execAdminUpSet a p s
  | .adminUpClear a p => Sys2Proof.Machine.execAdminUpClear a p s
  | .autonegPageRx p ability has => Sys2Proof.Machine.execAutonegPageRx p ability has s
  | .linkTrainingDone x => Sys2Proof.Machine.execLinkTrainingDone x s
  | .alignmentDone p => Sys2Proof.Machine.execAlignmentDone p s
  | .upDebounceExpiry p => Sys2Proof.Machine.execUpDebounceExpiry p s
  | .bringupStepFail p => Sys2Proof.Machine.execBringupStepFail p s
  | .bringupRetry p => Sys2Proof.Machine.execBringupRetry p s
  | .adaptationStep l loss ser => Sys2Proof.Machine.execAdaptationStep l loss ser s
  | .adaptRevertCheck l after => Sys2Proof.Machine.execAdaptRevertCheck l after s
  | .capabilityFrameTx p => Sys2Proof.Machine.execCapabilityFrameTx p s
  | .capabilityFrameRx p dev pport tagv caps group fixed => Sys2Proof.Machine.execCapabilityFrameRx p dev pport tagv caps group fixed s
  | .peerLost p => Sys2Proof.Machine.execPeerLost p s
  | .linkLocalFrameRx p len => Sys2Proof.Machine.execLinkLocalFrameRx p len s
  | .badControlFrameRx p len => Sys2Proof.Machine.execBadControlFrameRx p len s
  | .macControlFrameRx p len => Sys2Proof.Machine.execMacControlFrameRx p len s
  | .quietReq p => Sys2Proof.Machine.execQuietReq p s
  | .quietAck p => Sys2Proof.Machine.execQuietAck p s
  | .quietNak p reason => Sys2Proof.Machine.execQuietNak p reason s
  | .quietHold p us => Sys2Proof.Machine.execQuietHold p us s
  | .holdEnd p => Sys2Proof.Machine.execHoldEnd p s
  | .unknownOrderedSet p type => Sys2Proof.Machine.execUnknownOrderedSet p type s
  | .quietIdleExpiry p => Sys2Proof.Machine.execQuietIdleExpiry p s
  | .quietAnswerTimeout p => Sys2Proof.Machine.execQuietAnswerTimeout p s
  | .quietEntry p => Sys2Proof.Machine.execQuietEntry p s
  | .signalDetectEnergy p => Sys2Proof.Machine.execSignalDetectEnergy p s
  | .wakeAligned p => Sys2Proof.Machine.execWakeAligned p s
  | .wakeTimeout p => Sys2Proof.Machine.execWakeTimeout p s
  | .quietHoldExpiry p => Sys2Proof.Machine.execQuietHoldExpiry p s
  | .linkFault p k present => Sys2Proof.Machine.execLinkFault p k present s
  | .downDebounceExpiry p => Sys2Proof.Machine.execDownDebounceExpiry p s
  | .flapHoldRelease a p => Sys2Proof.Machine.execFlapHoldRelease a p s
  | .degradeWindow p errs uncorr => Sys2Proof.Machine.execDegradeWindow p errs uncorr s
  | .modulePoll o d => Sys2Proof.Machine.execModulePoll o d s
  | .moduleMonitorPoll o state => Sys2Proof.Machine.execModuleMonitorPoll o state s
  | .moduleReset a o => Sys2Proof.Machine.execModuleReset a o s
  | .moduleResetPulseEnd o d => Sys2Proof.Machine.execModuleResetPulseEnd o d s
  | .frameFirstByte port bytes cell => Sys2Proof.Machine.execFrameFirstByte port bytes cell s
  | .frameLastByte port rest cell => Sys2Proof.Machine.execFrameLastByte port rest cell s
  | .erroredClose port fault => Sys2Proof.Machine.execErroredClose port fault s
  | .headWordWrite f corrected => Sys2Proof.Machine.execHeadWordWrite f corrected s
  | .dispatch sl => Sys2Proof.Machine.execDispatch sl s
  | .engineResult sl e epoch sp q corr us => Sys2Proof.Machine.execEngineResult sl e epoch sp q corr us s
  | .resultRelease sl sp => Sys2Proof.Machine.execResultRelease sl sp s
  | .reseqSkip sl sp => Sys2Proof.Machine.execReseqSkip sl sp s
  | .headBufferEccError f w => Sys2Proof.Machine.execHeadBufferEccError f w s
  | .heartbeat sl bad => Sys2Proof.Machine.execHeartbeat sl bad s
  | .engineWatchdog sl e => Sys2Proof.Machine.execEngineWatchdog sl e s
  | .engineMemoryError sl e parity => Sys2Proof.Machine.execEngineMemoryError sl e parity s
  | .engineUnfence a sl mask => Sys2Proof.Machine.execEngineUnfence a sl mask s
  | .engineReturnTestDone sl e ok => Sys2Proof.Machine.execEngineReturnTestDone sl e ok s
  | .schedulerSelect p => Sys2Proof.Machine.execSchedulerSelect p s
  | .frameTxStart p errs => Sys2Proof.Machine.execFrameTxStart p errs s
  | .frameTxEnd p errs => Sys2Proof.Machine.execFrameTxEnd p errs s
  | .wheelPip => Sys2Proof.Machine.execWheelPip s
  | .gateEntryStart p => Sys2Proof.Machine.execGateEntryStart p s
  | .gateWindowClose p q => Sys2Proof.Machine.execGateWindowClose p q s
  | .gclSwitch p => Sys2Proof.Machine.execGclSwitch p s
  | .policerSweep => Sys2Proof.Machine.execPolicerSweep s
  | .policerEnable a k => Sys2Proof.Machine.execPolicerEnable a k s
  | .queueSample => Sys2Proof.Machine.execQueueSample s
  | .qClear a => Sys2Proof.Machine.execQClear a s
  | .watchEntryWrite a k value => Sys2Proof.Machine.execWatchEntryWrite a k value s
  | .multicastReplication x => Sys2Proof.Machine.execMulticastReplication x s
  | .cellQuarantine c pass => Sys2Proof.Machine.execCellQuarantine c pass s
  | .harvestSweep => Sys2Proof.Machine.execHarvestSweep s
  | .harvestSweepEnd => Sys2Proof.Machine.execHarvestSweepEnd s
  | .staleCheck p => Sys2Proof.Machine.execStaleCheck p s
  | .linkHoldExpiry p => Sys2Proof.Machine.execLinkHoldExpiry p s
  | .tableRead a t index us => Sys2Proof.Machine.execTableRead a t index us s
  | .tableWrite a t index => Sys2Proof.Machine.execTableWrite a t index s
  | .tableInsert a t index => Sys2Proof.Machine.execTableInsert a t index s
  | .tableDelete a t index byIndex => Sys2Proof.Machine.execTableDelete a t index byIndex s
  | .tableUpdateData a t index byIndex => Sys2Proof.Machine.execTableUpdateData a t index byIndex s
  | .tableSearch a t longest us => Sys2Proof.Machine.execTableSearch a t longest us s
  | .tableMove a t index => Sys2Proof.Machine.execTableMove a t index s
  | .retireFree t ix => Sys2Proof.Machine.execRetireFree t ix s
  | .ageTick => Sys2Proof.Machine.execAgeTick s
  | .tickMsWrite a ms => Sys2Proof.Machine.execTickMsWrite a ms s
  | .ageingScan us => Sys2Proof.Machine.execAgeingScan us s
  | .learnRequest => Sys2Proof.Machine.execLearnRequest s
  | .tableScrub us => Sys2Proof.Machine.execTableScrub us s
  | .ruleWrite a sl index => Sys2Proof.Machine.execRuleWrite a sl index s
  | .ruleRead a sl index => Sys2Proof.Machine.execRuleRead a sl index s
  | .ruleInvalidate a sl index => Sys2Proof.Machine.execRuleInvalidate a sl index s
  | .ruleMove a sl index => Sys2Proof.Machine.execRuleMove a sl index s
  | .ruleClearHits a sl index => Sys2Proof.Machine.execRuleClearHits a sl index s
  | .ruleScrub sl bad => Sys2Proof.Machine.execRuleScrub sl bad s
  | .pgReportTimer => Sys2Proof.Machine.execPgReportTimer s
  | .report p group origin seq watts draw slack state stretch cap bad => Sys2Proof.Machine.execReport p group origin seq watts draw slack state stretch cap bad s
  | .transfer p group origin seq target tid x bad => Sys2Proof.Machine.execTransfer p group origin seq target tid x bad s
  | .ack p group origin seq target tid x bad => Sys2Proof.Machine.execAck p group origin seq target tid x bad s
  | .pgMemberTimeout x => Sys2Proof.Machine.execPgMemberTimeout x s
  | .transferResend tid => Sys2Proof.Machine.execTransferResend tid s
  | .pgTransferLost tid => Sys2Proof.Machine.execPgTransferLost tid s
  | .pgJoinListenEnd => Sys2Proof.Machine.execPgJoinListenEnd s
  | .claim a => Sys2Proof.Machine.execClaim a s
  | .rsqTimeout c => Sys2Proof.Machine.execRsqTimeout c s
  | .roundBoundary r => Sys2Proof.Machine.execRoundBoundary r s
  | .roundMark p payload => Sys2Proof.Machine.execRoundMark p payload s
  | .timePllLock => Sys2Proof.Machine.execTimePllLock s
  | .timeRefclkLoss => Sys2Proof.Machine.execTimeRefclkLoss s
  | .timeRefclkRestore => Sys2Proof.Machine.execTimeRefclkRestore s
  | .tbLatch a b => Sys2Proof.Machine.execTbLatch a b s
  | .latchAll a => Sys2Proof.Machine.execLatchAll a s
  | .tbStep a b => Sys2Proof.Machine.execTbStep a b s
  | .tbSet a b => Sys2Proof.Machine.execTbSet a b s
  | .pdelayInterval p => Sys2Proof.Machine.execPdelayInterval p s
  | .pdelayReq p seq src bad => Sys2Proof.Machine.execPdelayReq p seq src bad s
  | .pdelayResp p seq req t2 corr form => Sys2Proof.Machine.execPdelayResp p seq req t2 corr form s
  | .pdelayRespFollowUp p seq req t3 corr bad => Sys2Proof.Machine.execPdelayRespFollowUp p seq req t3 corr bad s
  | .pdelayTimeout p => Sys2Proof.Machine.execPdelayTimeout p s
  | .extDelay p payload => Sys2Proof.Machine.execExtDelay p payload s
  | .extReq p => Sys2Proof.Machine.execExtReq p s
  | .extDelayPeriodic p => Sys2Proof.Machine.execExtDelayPeriodic p s
  | .extReqRetry p => Sys2Proof.Machine.execExtReqRetry p s
  | .sync p dom seq origin corr two bad => Sys2Proof.Machine.execSync p dom seq origin corr two bad s
  | .followUp p dom seq origin corr bad => Sys2Proof.Machine.execFollowUp p dom seq origin corr bad s
  | .delayReq p dom seq src corr bad => Sys2Proof.Machine.execDelayReq p dom seq src corr bad s
  | .delayResp p dom seq req t4 corr bad => Sys2Proof.Machine.execDelayResp p dom seq req t4 corr bad s
  | .announce p dom src set utc path bad => Sys2Proof.Machine.execAnnounce p dom src set utc path bad s
  | .signaling p dom ipd isync iann bad => Sys2Proof.Machine.execSignaling p dom ipd isync iann bad s
  | .ptpManagementRx p dom => Sys2Proof.Machine.execPtpManagementRx p dom s
  | .syncInterval p b => Sys2Proof.Machine.execSyncInterval p b s
  | .announceInterval p b => Sys2Proof.Machine.execAnnounceInterval p b s
  | .syncTimeout b => Sys2Proof.Machine.execSyncTimeout b s
  | .announceTimeout p b => Sys2Proof.Machine.execAnnounceTimeout p b s
  | .hsRevert p => Sys2Proof.Machine.execHsRevert p s
  | .toutPulse n => Sys2Proof.Machine.execToutPulse n s
  | .toutAdopt a n value => Sys2Proof.Machine.execToutAdopt a n value s
  | .tinEdge n rising => Sys2Proof.Machine.execTinEdge n rising s
  | .tinPop a n => Sys2Proof.Machine.execTinPop a n s
  | .governorTick => Sys2Proof.Machine.execGovernorTick s
  | .demandUpdate => Sys2Proof.Machine.execDemandUpdate s
  | .voltageSettled => Sys2Proof.Machine.execVoltageSettled s
  | .upStepVoltageTimeout => Sys2Proof.Machine.execUpStepVoltageTimeout s
  | .clockSlewDone => Sys2Proof.Machine.execClockSlewDone s
  | .droopCrossing k below => Sys2Proof.Machine.execDroopCrossing k below s
  | .droopClear k below => Sys2Proof.Machine.execDroopClear k below s
  | .stretchDutyEval => Sys2Proof.Machine.execStretchDutyEval s
  | .droopStateUpdate => Sys2Proof.Machine.execDroopStateUpdate s
  | .vrAlertAssert => Sys2Proof.Machine.execVrAlertAssert s
  | .vrAlertDeassert => Sys2Proof.Machine.execVrAlertDeassert s
  | .alertHoldExpiry => Sys2Proof.Machine.execAlertHoldExpiry s
  | .thermalSensorRead rs => Sys2Proof.Machine.execThermalSensorRead rs s
  | .thermStateUpdate => Sys2Proof.Machine.execThermStateUpdate s
  | .thermtrip k t => Sys2Proof.Machine.execThermtrip k t s
  | .voltageSensorRead rs => Sys2Proof.Machine.execVoltageSensorRead rs s
  | .regulatorPoll xs => Sys2Proof.Machine.execRegulatorPoll xs s
  | .trimPeriod margin => Sys2Proof.Machine.execTrimPeriod margin s
  | .trimValidation => Sys2Proof.Machine.execTrimValidation s
  | .sliceAutumnEntry sl => Sys2Proof.Machine.execSliceAutumnEntry sl s
  | .sliceAutumnWake sl => Sys2Proof.Machine.execSliceAutumnWake sl s
  | .sliceWinterEntry sl => Sys2Proof.Machine.execSliceWinterEntry sl s
  | .thawStart sl => Sys2Proof.Machine.execThawStart sl s
  | .thawComplete sl bad => Sys2Proof.Machine.execThawComplete sl bad s
  | .thawTimeout sl => Sys2Proof.Machine.execThawTimeout sl s
  | .complexSleep winter edgeOf => Sys2Proof.Machine.execComplexSleep winter edgeOf s
  | .complexWake => Sys2Proof.Machine.execComplexWake s
  | .pllUnlock dom back => Sys2Proof.Machine.execPllUnlock dom back s
  | .lockstepMismatch core kind addr => Sys2Proof.Machine.execLockstepMismatch core kind addr s
  | .checkpoint => Sys2Proof.Machine.execCheckpoint s
  | .diagnosisDone bistA bistB => Sys2Proof.Machine.execDiagnosisDone bistA bistB s
  | .resyncDone => Sys2Proof.Machine.execResyncDone s
  | .rejoin a => Sys2Proof.Machine.execRejoin a s
  | .rejoinCopyDone => Sys2Proof.Machine.execRejoinCopyDone s
  | .serviceWatchdog => Sys2Proof.Machine.execServiceWatchdog s
  | .warmRestartDone => Sys2Proof.Machine.execWarmRestartDone s
  | .retry a => Sys2Proof.Machine.execRetry a s
  | .sliceControlMemoryError sl => Sys2Proof.Machine.execSliceControlMemoryError sl s
  | .sliceWatchdog sl => Sys2Proof.Machine.execSliceWatchdog sl s
  | .takeoverForward ns => Sys2Proof.Machine.execTakeoverForward ns s
  | .takeoverFailure step => Sys2Proof.Machine.execTakeoverFailure step s
  | .forceFail a sl force => Sys2Proof.Machine.execForceFail a sl force s
  | .handBack a sl force => Sys2Proof.Machine.execHandBack a sl force s
  | .handBackDone ok ns => Sys2Proof.Machine.execHandBackDone ok ns s
  | .updateStart a => Sys2Proof.Machine.execUpdateStart a s
  | .updateStaged img again => Sys2Proof.Machine.execUpdateStaged img again s
  | .updateSwap a => Sys2Proof.Machine.execUpdateSwap a s
  | .swapDone => Sys2Proof.Machine.execSwapDone s
  | .updateCopyDone => Sys2Proof.Machine.execUpdateCopyDone s
  | .updateAbort a => Sys2Proof.Machine.execUpdateAbort a s
  | .sourceEdge n => Sys2Proof.Machine.execSourceEdge n s
  | .holdoffExpiry g => Sys2Proof.Machine.execHoldoffExpiry g s
  | .interruptAck c => Sys2Proof.Machine.execInterruptAck c s
  | .handlerEnd c n => Sys2Proof.Machine.execHandlerEnd c n s
  | .pmrWrite c v => Sys2Proof.Machine.execPmrWrite c v s
  | .swSet a n => Sys2Proof.Machine.execSwSet a n s
  | .hpendClear a g mask => Sys2Proof.Machine.execHpendClear a g mask s
  | .msixLinkReady speed width => Sys2Proof.Machine.execMsixLinkReady speed width s
  | .msixUnmask g => Sys2Proof.Machine.execMsixUnmask g s
  | .allocSize a ix => Sys2Proof.Machine.execAllocSize a ix s
  | .allocPool a p => Sys2Proof.Machine.execAllocPool a p s
  | .poolFree a h => Sys2Proof.Machine.execPoolFree a h s
  | .poolGive a h target => Sys2Proof.Machine.execPoolGive a h target s
  | .poolReclaim a r pools => Sys2Proof.Machine.execPoolReclaim a r pools s
  | .poolBufferAccess core r h off len err => Sys2Proof.Machine.execPoolBufferAccess core r h off len err s
  | .poolMetaError p ix corrected => Sys2Proof.Machine.execPoolMetaError p ix corrected s
  | .pwrGoodRise x => Sys2Proof.Machine.execPwrGoodRise x s
  | .bootVoltageRetry answers arrived => Sys2Proof.Machine.execBootVoltageRetry answers arrived s
  | .bootImageReadDone img => Sys2Proof.Machine.execBootImageReadDone img s
  | .bootReady ms => Sys2Proof.Machine.execBootReady ms s
  | .streamReqRetry k => Sys2Proof.Machine.execStreamReqRetry k s
  | .flashBurstStall addr => Sys2Proof.Machine.execFlashBurstStall addr s
  | .flashBurstReissue => Sys2Proof.Machine.execFlashBurstReissue s
  | .flashLateEdge n => Sys2Proof.Machine.execFlashLateEdge n s
  | .reboot a => Sys2Proof.Machine.execReboot a s
  | .bootSelectWrite a slot => Sys2Proof.Machine.execBootSelectWrite a slot s
  | .bootSelectDone => Sys2Proof.Machine.execBootSelectDone s
  | .bootSelectFail => Sys2Proof.Machine.execBootSelectFail s
  | .csOpen a k => Sys2Proof.Machine.execCsOpen a k s
  | .csArm a k => Sys2Proof.Machine.execCsArm a k s
  | .csDisarm a k => Sys2Proof.Machine.execCsDisarm a k s
  | .csClear a k => Sys2Proof.Machine.execCsClear a k s
  | .stageData a data => Sys2Proof.Machine.execStageData a data s
  | .csTimeTrigger k => Sys2Proof.Machine.execCsTimeTrigger k s
  | .csCommitPoint k => Sys2Proof.Machine.execCsCommitPoint k s
  | .flashRead a => Sys2Proof.Machine.execFlashRead a s
  | .flashProgram a => Sys2Proof.Machine.execFlashProgram a s
  | .flashErase4k a => Sys2Proof.Machine.execFlashErase4k a s
  | .flashErase64k a => Sys2Proof.Machine.execFlashErase64k a s
  | .flashCommandDone res bytes => Sys2Proof.Machine.execFlashCommandDone res bytes s
  | .hello m => Sys2Proof.Machine.execHello m s
  | .proof m => Sys2Proof.Machine.execProof m s
  | .close m => Sys2Proof.Machine.execClose m s
  | .sessionIdleTimeout ix => Sys2Proof.Machine.execSessionIdleTimeout ix s
  | .credentialLockEnd cred => Sys2Proof.Machine.execCredentialLockEnd cred s
  | .makerGrant a minutes => Sys2Proof.Machine.execMakerGrant a minutes s
  | .makerRevoke a => Sys2Proof.Machine.execMakerRevoke a s
  | .makerGrantExpiry => Sys2Proof.Machine.execMakerGrantExpiry s
  | .programInstallerSlot a => Sys2Proof.Machine.execProgramInstallerSlot a s
  | .programMakerFuse a addr => Sys2Proof.Machine.execProgramMakerFuse a addr s
  | .auditRecordWrite lag bad => Sys2Proof.Machine.execAuditRecordWrite lag bad s
  | .idcode => Sys2Proof.Machine.execIdcode s
  | .tapRegRead addr => Sys2Proof.Machine.execTapRegRead addr s
  | .traceRead => Sys2Proof.Machine.execTraceRead s
  | .bypass => Sys2Proof.Machine.execBypass s
  | .extest cells => Sys2Proof.Machine.execExtest cells s
  | .samplePreload cells => Sys2Proof.Machine.execSamplePreload cells s
  | .extestPulse cells => Sys2Proof.Machine.execExtestPulse cells s
  | .extestTrain cells => Sys2Proof.Machine.execExtestTrain cells s
  | .highz => Sys2Proof.Machine.execHighz s
  | .clamp => Sys2Proof.Machine.execClamp s
  | .pciePerstAssert => Sys2Proof.Machine.execPciePerstAssert s
  | .flr => Sys2Proof.Machine.execFlr s
  | .hotReset => Sys2Proof.Machine.execHotReset s
  | .ringTailWrite a k tail => Sys2Proof.Machine.execRingTailWrite a k tail s
  | .ringEnable a k => Sys2Proof.Machine.execRingEnable a k s
  | .ringDisable a k => Sys2Proof.Machine.execRingDisable a k s
  | .puntDma k addr x => Sys2Proof.Machine.execPuntDma k addr x s
  | .injectDma k addr word data cell => Sys2Proof.Machine.execInjectDma k addr word data cell s
  | .recordDma k addr len => Sys2Proof.Machine.execRecordDma k addr len s
  | .dmaFlushDone k => Sys2Proof.Machine.execDmaFlushDone k s
  | .dmaError k canWrite => Sys2Proof.Machine.execDmaError k canWrite s
  | .arpRequest m target mac ip => Sys2Proof.Machine.execArpRequest m target mac ip s
  | .neighbourSolicitation m target mac ip => Sys2Proof.Machine.execNeighbourSolicitation m target mac ip s
  | .echoRequest m v6 dst src id seq data => Sys2Proof.Machine.execEchoRequest m v6 dst src id seq data s
  | .mgmtOtherFrame m => Sys2Proof.Machine.execMgmtOtherFrame m s
  | .mgmtLinkChange m up => Sys2Proof.Machine.execMgmtLinkChange m up s
  | .regRead m => Sys2Proof.Machine.execRegRead m s
  | .regWrite m => Sys2Proof.Machine.execRegWrite m s
  | .tableCmd m => Sys2Proof.Machine.execTableCmd m s
  | .admitReq m => Sys2Proof.Machine.execAdmitReq m s
  | .releaseReq m => Sys2Proof.Machine.execReleaseReq m s
  | .queryReq m => Sys2Proof.Machine.execQueryReq m s
  | .serviceParam m => Sys2Proof.Machine.execServiceParam m s
  | .moduleRw m ans => Sys2Proof.Machine.execModuleRw m ans s
  | .mgmtHeldRequest ans => Sys2Proof.Machine.execMgmtHeldRequest ans s
  | .smbusSetAddress count pec addr => Sys2Proof.Machine.execSmbusSetAddress count pec addr s
  | .smbusWrite count pec value => Sys2Proof.Machine.execSmbusWrite count pec value s
  | .smbusRead => Sys2Proof.Machine.execSmbusRead s
  | .smbusSclTimeout => Sys2Proof.Machine.execSmbusSclTimeout s
  | .i2cStuck bus still => Sys2Proof.Machine.execI2cStuck bus still s
  | .i2cRecoveryRetry bus still => Sys2Proof.Machine.execI2cRecoveryRetry bus still s
  | .eventRecordWrite lag => Sys2Proof.Machine.execEventRecordWrite lag s
  | .counterExport => Sys2Proof.Machine.execCounterExport s
  | .histogramExport => Sys2Proof.Machine.execHistogramExport s
  | .datagramTimeout d => Sys2Proof.Machine.execDatagramTimeout d s
  | .pwrGoodFall => Sys2Proof.Machine.execPwrGoodFall s
  | .brownOut rail => Sys2Proof.Machine.execBrownOut rail s
  | .aonPowerOn => Sys2Proof.Machine.execAonPowerOn s
  | .complexSramEccError c corrected => Sys2Proof.Machine.execComplexSramEccError c corrected s
  | .pcieLinkDown => Sys2Proof.Machine.execPcieLinkDown s
  | .pcieAerError => Sys2Proof.Machine.execPcieAerError s
  | .pciePerstDeassert => Sys2Proof.Machine.execPciePerstDeassert s
  | .aspmLinkEntry l => Sys2Proof.Machine.execAspmLinkEntry l s
  | .dStateChange hot msixEn pmeEn => Sys2Proof.Machine.execDStateChange hot msixEn pmeEn s
  | .delayReqInterval p b => Sys2Proof.Machine.execDelayReqInterval p b s
  | .tableCommandDone t => Sys2Proof.Machine.execTableCommandDone t s
  | .ruleCommandDone sl => Sys2Proof.Machine.execRuleCommandDone sl s

end Sys2Proof.Machine
end

