-- ==== Sys2Proof/Safety.lean ====
section
/-!
DEFINITION. What counts as a safe run, and the terms the statements use: every command completes, the pins agree with the registers they
follow (R374, R391), what it is for a write to be accepted (R446, R456, R81), and what a command leaves as it was.
-/

namespace Sys2Proof.Machine

/-- ALARM_N and INT_N stand at the levels their conditions give them, and GLB_STATUS.alarm shows ALARM_N (R374, R391). -/
def PinsFollow (s : State) : Prop :=
  s.pins.alarmN = !alarmLow s ∧ s.pins.intN = !intLow s ∧ rd GLB_STATUS.alarm 0 s = b2n (alarmLow s)

/-- Every source taken as an edge still has its line high (R380). -/
def SeenHigh (s : State) : Prop := ∀ n ∈ getL LINT.seen 0 s, line n s = true

/-- A step completes: it ends in a next state, not in a fault or a refusal. -/
def Completes (o : Host.Outcome State Fault Refusal) : Prop := ∃ t, o = .next t

/-- A command answers a next state, and that state has a property. -/
def Gives (c : Instr) (s : State) (P : State → Prop) : Prop := ∃ t, exec c s = .next t ∧ P t

/-- An access reaches its register at once: it is of BAR0 (not of BAR2, R468) with the endpoint there (R466), or of another path, and a
core's is not held by the comparator in a gap (R349). -/
def Direct (a : Access) (s : State) : Prop :=
  a.path ≠ .bar2 ∧ (a.path = .pcie → pcieOn s = true) ∧ (a.path = .core → rd HRED.gap 0 s = 0)

/-- The logs of the complexes, which a core's access enters (R350), and what a checkpoint that a full log forces writes. -/
def logLists : List (Lst × Nat) := [(LCX.sent, 0), (LCX.replay, 0)]
def logFlds : List (Fld × Nat) := [(HCX.ckpt, 0), (HCX.ecc, 0), (HCX.ecc, 1)]

/-- A write of `value` under `mask` to instance `i` of register `r` is accepted: it reaches the register at once, its role may make it (R446), its port exists (R81), its
block does not refuse it, and the audit FIFO has room for its capture where it is captured (R456). -/
def Accepted (a : Access) (r : Reg) (i mask value : Nat) (s : State) : Prop :=
  Direct a s ∧ (winTargets (regAddr r i) r i s).all (fun j => roleOk a r j mask value s) = true ∧ absentPort r i s = false ∧
    cmdErr r i (value &&& mask) s = none ∧
    (a.path = .core ∨ audited r mask = false ∨ auditRoom (decide (r.id = rRED_CX_CMD.id)) s = true) ∧
    badValue r i mask (mergeWord r i mask value s) s = false

/-- Every register field instance outside `fs` reads as before, the alarm bits that follow their conditions apart (R374, R533). -/
def FieldsKept (fs : List (Fld × Nat)) (s t : State) : Prop :=
  ∀ (f : Fld) (i : Nat), (∀ g ∈ [RED_ALARM.hold, RED_ALARM.simplex, GLB_STATUS.alarm], f.id ≠ g.id) →
    (∀ e ∈ fs, f.id ≠ e.1.id ∨ i ≠ e.2) → rd f i t = rd f i s

/-- Every list outside `ls` is as before, the source lines taken as edges apart (R380). -/
def ListsKept (ls : List (Lst × Nat)) (s t : State) : Prop :=
  ∀ (l : Lst) (i : Nat), l.id ≠ LINT.seen.id → (∀ e ∈ ls, l.id ≠ e.1.id ∨ i ≠ e.2) → getL l i t = getL l i s

/-- Every counter outside `cs` is as before. -/
def CountsKept (cs : List (Cnt × Nat)) (s t : State) : Prop :=
  ∀ (c : Cnt) (i : Nat), (∀ e ∈ cs, c.id ≠ e.1.id ∨ i ≠ e.2) → cnt c i t = cnt c i s

/-- Table entries, event ring, waiting records, snapshot copies and waiting commands are as before. -/
def StoresKept (s t : State) : Prop :=
  t.tbl = s.tbl ∧ t.evtRing = s.evtRing ∧ t.recs = s.recs ∧ t.snaps = s.snaps ∧ t.pending = s.pending

/-- A command's frame: nothing but the named fields, lists and counters has changed among them, and no other store has. -/
def Frame (fs : List (Fld × Nat)) (ls : List (Lst × Nat)) (cs : List (Cnt × Nat)) (s t : State) : Prop :=
  FieldsKept fs s t ∧ ListsKept ls s t ∧ CountsKept cs s t ∧ StoresKept s t

/-- What an access error writes: its address, path, direction, kind and role (R531, R533). -/
def errFlds : List (Fld × Nat) :=
  [(GLB_ACC_ERR_ADDR.addr, 0), (GLB_ACC_ERR_INFO.path, 0), (GLB_ACC_ERR_INFO.write, 0), (GLB_ACC_ERR_INFO.kind, 0), (GLB_ACC_ERR_INFO.role, 0)]

/-- One access error is counted and logged: the access, its kind, and whether it was a write (R8, R531, R533). -/
def ErrorLogged (addr kind : Nat) (write : Bool) (s t : State) : Prop :=
  cnt cnt_GLB_access_errors 0 t = (cnt cnt_GLB_access_errors 0 s + 1) % 2 ^ 64 ∧ rd GLB_ACC_ERR_ADDR.addr 0 t = addr % 2 ^ 32 ∧
    rd GLB_ACC_ERR_INFO.kind 0 t = kind ∧ rd GLB_ACC_ERR_INFO.write 0 t = b2n write

/-- The live counters are as before, and the copies of those `p` names are taken (R15). -/
def Snapped (p : Cnt → Nat → Bool) (s t : State) : Prop :=
  ∀ (c : Cnt) (i : Nat), cnt c i t = cnt c i s ∧ snapOf c i t = if p c i then cnt c i s else snapOf c i s

/-- A timer has just been started: it is due `d` nanoseconds from now. -/
def Due (f : Fld) (i d : Nat) (t : State) : Prop := rd f i t = (now t + d + 1) % 2 ^ f.width

/-- No event is raised and nothing is put on an outside interface. -/
def Silent (s t : State) : Prop := t.telFifo = s.telFifo ∧ t.out = s.out

/-- Slice `sl`'s counters are zero after a step and every other slice's are as before it (the power cycle of R369). -/
def SliceCountersCleared (sl : Nat) (s t : State) : Prop :=
  ∀ c ∈ cntsSLC, ∀ i ∈ List.range (17 * c.per), cnt c i t = if i / c.per = sl then 0 else cnt c i s

/-- The counts and slews of the eight time bases, which move on when time passes (R274). -/
def timeFlds : List (Fld × Nat) := (List.range 8).map (fun b => (TBC.count, b)) ++ (List.range 8).map (fun b => (TBC.slew, b))

/-- The command has put this on an outside interface. -/
def Emitted (o : Out) (s t : State) : Prop := o ∈ t.out.drop s.out.length

/-- Every field but those named is at its value after reset, and every list but those named is empty (R512). -/
def ResetExcept (fs : List Fld) (ls : List Lst) (t : State) : Prop :=
  (∀ (f : Fld) (i : Nat), (∀ g ∈ fs ++ [RED_ALARM.hold, RED_ALARM.simplex, GLB_STATUS.alarm], f.id ≠ g.id) → rd f i t = rd f i State.reset) ∧
    ∀ (l : Lst) (i : Nat), (∀ g ∈ ls, l.id ≠ g.id) → getL l i t = []

/-- A management message as its session's key tags it (R481). -/
def keyed (type : Nat) (m : MgmtMsg) (s : State) : MgmtMsg :=
  { m with tag := mgmtTag (getL LACC.key (m.sess - 1) s) (mgmtHead type m.sess m.ctr m.rid m.len m.status) m.payload }

/-- A message on a management port reaches the engine and is served at once: the protocol is answered (R431, R357), no gap and no earlier request
holds it (R483), its header is well formed (R481), and its port is enabled, is the one it is sent to, and has a pool 2 buffer for it (R480). -/
def Heard (m : MgmtMsg) (s : State) : Prop :=
  mgmtServes s = true ∧ engStopped s = false ∧ getL LHIF.mq 0 s = [] ∧ getL LHIF.held 0 s = [] ∧ headerOk m = true ∧
    ((m.path = .mgmt0 ∧ mgmtPort 0 s = true ∧ addressed m 2 s = true ∧ (poolAlloc 24 2 s).1 ≠ 0xFFFFFFFF) ∨
      (m.path = .mgmt1 ∧ mgmtPort 1 s = true ∧ addressed m 3 s = true ∧ (poolAlloc 25 2 s).1 ≠ 0xFFFFFFFF))

/-- A message in band is the oldest request that waits, and nothing holds it (R480, R483); `hdr` is what its reply needs of its headers. -/
def Waits (type : Nat) (hdr : List Nat) (m : MgmtMsg) (s : State) : Prop :=
  mgmtServes s = true ∧ engStopped s = false ∧ getL LHIF.mq 0 s = [] ∧ m.path = .inband ∧ headerOk m = true ∧
    getL LHIF.held 0 s = (packMsg type 0 hdr m).length :: packMsg type 0 hdr m

/-- A message is a new request of an open session (R452, R482, R483). -/
def InSession (m : MgmtMsg) (s : State) : Prop :=
  1 ≤ m.sess ∧ m.sess ≤ 8 ∧ getL LACC.key (m.sess - 1) s ≠ [] ∧ rd HACC.ctr (m.sess - 1) s ≤ m.ctr ∧
    (getL LHIF.reply (m.sess - 1) s).head? ≠ some (m.rid + 1)

/-- The state in which a session's request acts: its buffer is taken and its counter is the session's (R480, R452). -/
def atRequest (m : MgmtMsg) (s : State) : State :=
  wr HACC.ctr (m.sess - 1) (m.ctr + 1) (inc cnt_HIF_mgmt_rx 0 (poolAlloc (msgRequester ((msgPath m.path).getD 0)) 2 s).2) |> wr HACC.last (m.sess - 1) (now s)

/-- A message has been answered on its management port with a type, a status and a payload (R480 to R482). -/
def Answered (m : MgmtMsg) (type status : Nat) (payload : List Nat) (s t : State) : Prop :=
  Emitted ⟨.mgmt, (msgPath m.path).getD 0, mgmtBytes (replyTo m) type status payload s⟩ s t

/-- The state in which the admission engine runs a job that nothing waits before (R35). -/
def atJob (j : Job) (s : State) : State := setL LADM.held 0 [] (setL LADM.held 0 (packJobs [j]) s)

/-- The request an ADMIT of ADM_REQ_CMD hands the engine, and the state it is handed in (R47). -/
def reqJob (a : Access) (n : Nat) (s : State) : Job × State :=
  let s1 := wr ADM_REQ_STATUS.busy 0 1 (wr ADM_STATUS.busy 0 1 s)
  (⟨1, (accRole a s).getD 2, [0], 0, ⟨0, 0, 0, 0, 0, 0, 0⟩, regReq n s1⟩, s1)

/-- The job of a HOP_RESERVE received on port `p` (R34). -/
def hopJob (p : Nat) (car : Carried) (r : StreamReq) (s : State) : Job :=
  ⟨5, 0, [3, p], now s + (r.hops.length - car.hop) * 10000000, car, r⟩

/-- A power-group message of these fields has left by a port: 16 bytes of a type-2 tag, the message, and its FCS (R267). -/
def PgSent (p : Nat) (m : List Nat) (s t : State) : Prop :=
  ∃ o ∈ t.out.drop s.out.length, o.kind = .fabMsg ∧ o.at_ = p ∧ (o.args.take 16).length = 16 ∧
    o.args = o.args.take 16 ++ pgBody m s ++ leBytes 4 (fcsOf (o.args.take 16) (pgBody m s))

/-- What the adoption of a port's idle min buckets may write (R222). -/
def minFlds (p : Nat) (s : State) : List (Fld × Nat) :=
  ((nodesOf p s).flatMap (fun n => [subMin n, svcMin (parentOf n s)])).flatMap (fun b => [(BKT.tokens, b), (BKT.rem, b), (BKT.last, b),
    (BKT.rate, b), (BKT.burst, b), (bktConfF (bktKind b), bktNode b), (SCH_SUB_W7.on_wheel, bktNode b), (SCH_SVC_W5.on_wheel, bktNode b)])

/-- A capture made in the command that began in `s` stands in the event FIFO, with this code and payload (R496). -/
def Raised (code : Nat) (payload : List Nat) (s t : State) : Prop :=
  ∃ c ∈ t.telFifo, c.cyc = s.cyc ∧ c.code = code ∧ c.payload = payload

end Sys2Proof.Machine
end

