-- ==== Sys2Proof/Certificates/Slice0/Obligations.lean ====
section
/-!
DEFINITION. The statements for the provers: what the machine does at each command, what each command leaves as it was, and what holds of
every step. Each names the rules it follows.
-/

open Sys2Proof Sys2Proof.Machine

/-- A step with a command at the front of the queue is that command on the queue's rest; on an empty queue one cycle passes (log entry 4). -/
def Obligations.StepTakesFront : Prop :=
  ∀ (c : Instr) (rest : List Instr) (s : State),
    step { s with pending := c :: rest } = exec c { s with pending := rest } ∧
    (s.pending = [] → step s = .next (tick s))

/-- Every command answers a next state, whatever the state and its operands; every step takes the front command and counts one; running the block for as many steps as commands wait ends with none waiting. -/
def Obligations.QueueDrains : Prop :=
  (∀ (c : Instr) (s : State), ∃ t, exec c s = .next t ∧ t.pending = s.pending ∧ t.cyc = s.cyc + 1) ∧
  ∀ s : State, (∃ t, step s = .next t ∧ t.pending = s.pending.tail ∧ t.cyc = s.cyc + 1) ∧
    ∃ t, Host.Core.run Sys2Proof.core s.pending.length s = .next t ∧ t.pending = [] ∧ t.cyc = s.cyc + s.pending.length

/-- An invariant every step keeps: the pins agree with the registers they follow (R374, R391). -/
def Obligations.PinsFollowKept : Prop :=
  ∀ s t : State, step s = .next t → PinsFollow t ∧
    rd RED_ALARM.hold 0 t = b2n (rdB HRED.hold 0 t)

/-- An invariant every step keeps: a source is remembered as an edge only while its line is high (R380). -/
def Obligations.SeenHighKept : Prop :=
  ∀ s t : State, step s = .next t → SeenHigh t

/-- Every register field reads its Reset column after power-on reset (R13); fused and strapped fields have the values of log entry 3. -/
def Obligations.ResetColumn : Prop :=
  (∀ (f : Fld) (i : Nat), rd f i State.reset = f.rst.value i) ∧ rd GLB_DEVICE_ID.device_id 0 State.reset = 0x1024 ∧
  rd GLB_VENDOR_ID.vendor_id 0 State.reset = 0x7A41 ∧ rd ADM_CTRL.port_limit_pct 0 State.reset = 75 ∧
  rd PRT_PORT_CFG.max_frame 5 State.reset = 1518 ∧ rd INTC_CORE.pmr 2 State.reset = 16

/-- The rest of the state after power-on reset, and that the invariants hold in it. -/
def Obligations.ResetState : Prop :=
  (∀ (c : Cnt) (i : Nat), cnt c i State.reset = 0 ∧ snapOf c i State.reset = 0) ∧
  (∀ (l : Lst) (i : Nat), getL l i State.reset = []) ∧ State.reset.tbl = [] ∧ State.reset.telFifo = [] ∧ State.reset.evtRing = [] ∧
  State.reset.recs = [] ∧ State.reset.pending = [] ∧ State.reset.pins = ⟨true, true, true, true⟩ ∧
  PinsFollow State.reset ∧ SeenHigh State.reset

/-- NARROW_ACCESS and UNMAPPED_ACCESS (R6, R8): what is answered, counted and logged, and that nothing else changes. -/
def Obligations.RefusedAddresses : Prop :=
  ∀ (a : Access) (addr : Nat) (write : Bool) (s : State), Direct a s →
    (Gives (.narrowAccess a addr write) s (fun t => ErrorLogged addr 1 write s t ∧ t.telFifo = s.telFifo ∧ t.out = (if write then s.out else s.out ++ [⟨.busRead, auditPath a.path, [addr, 0]⟩]) ∧
        (a.path ≠ .core → Frame errFlds [] [(cnt_GLB_access_errors, 0)] s t) ∧ Frame (errFlds ++ logFlds) logLists [(cnt_GLB_access_errors, 0)] s t)) ∧
    (aligned addr = true → locate addr s = .none_ →
      Gives (.unmappedAccess a addr write) s (fun t => ErrorLogged addr 2 write s t ∧ t.telFifo = s.telFifo ∧ t.out = (if write then s.out else s.out ++ [⟨.busRead, auditPath a.path, [addr, 0]⟩]) ∧
        (a.path ≠ .core → Frame errFlds [] [(cnt_GLB_access_errors, 0)] s t) ∧ Frame (errFlds ++ logFlds) logLists [(cnt_GLB_access_errors, 0)] s t))

/-- SNAPSHOT and SNAP_ALL (R15, R495): the copies that register reads return, and that live counters go on. -/
def Obligations.Snapshots : Prop :=
  ∀ (a : Access) (blk sl : Nat) (s : State),
    (blk < 16 → Accepted a (snapReg blk) 0 0xFFFFFFFF 1 s →
      Gives (.snapshot a blk sl) s (fun t => Snapped (fun c _ => ((snapBlocks.map (·.2)).getD blk []).any (fun d => d.id == c.id)) s t ∧ Silent s t)) ∧
    (sl < 16 → rd PWR_SLICE.state sl s ≠ 1 → Accepted a rSLC_SNAPSHOT sl 0xFFFFFFFF 1 s → by16 sl s = false →
      Gives (.snapshot a 16 sl) s (fun t => Snapped (fun c i => cntsSLC.any (fun d => d.id = c.id && i / d.per = sl)) s t ∧ Silent s t)) ∧
    (Accepted a rTEL_SNAP_ALL 0 0xFFFFFFFF 1 s → Gives (.snapAll a) s (fun t => Snapped (fun _ _ => true) s t ∧ Silent s t))

/-- REGISTER_WRITE (R9, R446, R447) on an RW, a W1C and an RO register, and by a role that may not write. -/
def Obligations.WriteByAccessCode : Prop :=
  ∀ (a : Access) (v : Nat) (s : State), [0, 1, 2, 3].all (fun k => rd CFG_CS_W4.state k s ≠ 2) = true →
    (Accepted a rGLB_SCRATCH 0 0xFFFFFFFF (v % 2 ^ 32) s →
      Gives (.registerWrite a 0x28 v) s (fun t => rd GLB_SCRATCH.scratch 0 t = v % 2 ^ 32 ∧ Silent s t ∧
        Frame [(GLB_SCRATCH.scratch, 0), (HAUD.tail, 0)] [(LAUD.cap, rd HAUD.tail 0 s), (LCX.sent, 0)] [] s t)) ∧
    (Accepted a rFAB_EVT 0 0xFFFFFFFF (v % 2 ^ 32) s → (∀ f ∈ rFAB_EVT.fields, rd f 0 s < 2) →
      Gives (.registerWrite a 0xA00008 v) s (fun t =>
        ∀ f ∈ rFAB_EVT.fields, rd f 0 t = if part f (v % 2 ^ 32) = 1 then 0 else rd f 0 s)) ∧
    (Accepted a rGLB_DEVICE_ID 0 0xFFFFFFFF (v % 2 ^ 32) s →
      Gives (.registerWrite a 0 v) s (fun t => Frame [(HAUD.tail, 0)] [(LAUD.cap, rd HAUD.tail 0 s), (LCX.sent, 0)] [] s t)) ∧
    (Direct a s → accRole a s = some 0 → rd CFG_BOOT_STATUS.state 0 s ≠ 2 →
      Gives (.registerWrite a 0x28 v) s (fun t => rd GLB_SCRATCH.scratch 0 t = rd GLB_SCRATCH.scratch 0 s ∧
        ErrorLogged 0x28 3 true s t ∧ cnt cnt_ACC_denied 0 t = (cnt cnt_ACC_denied 0 s + 1) % 2 ^ 64)) ∧
    (a.path = .core → rd HRED.gap 0 s ≠ 0 → rd RED_CX_STATUS.mode 0 s ≠ 2 → Gives (.registerWrite a 0x28 v) s (fun t =>
        getL LCX.held 0 t = getL LCX.held 0 s ++ [0, a.who, 0x28, 0xFFFFFFFF, v] ∧ Silent s t ∧ Frame [] [(LCX.held, 0)] [] s t)) ∧
    (a.path = .pcie → pcieOn s = false → Gives (.registerWrite a 0x28 v) s (fun t => Silent s t ∧ Frame [] [] [] s t))

/-- BROADCAST_WRITE (R528, R529), on SLC_SNAPSHOT as R529's own example has it. -/
def Obligations.BroadcastSnapshot : Prop :=
  ∀ (a : Access) (s : State), [0, 1, 2, 3].all (fun k => rd CFG_CS_W4.state k s ≠ 2) = true → (List.range 17).all (fun sl => rd PWR_SLICE.state sl s ≠ 1) = true → Accepted a rSLC_SNAPSHOT 16 0xFFFFFFFF 1 s →
    Gives (.broadcastWrite a 4 1) s (fun t => Silent s t ∧
      Snapped (fun c i => cntsSLC.any (fun d => d.id = c.id && (if rd GLB_CTRL.win16_mode 0 s = 0 then i / d.per < 17 else i / d.per = 16))) s t)

/-- RC_READ (R9, R11): the answer, the clearing, and that nothing else changes. -/
def Obligations.ReadsAnswerAndClear : Prop :=
  ∀ (a : Access) (s : State),
    (Direct a s → Gives (.rcRead a 0x300034) s (fun t => t.out = s.out ++ [⟨.busRead, auditPath a.path, [0x300034, wordOf rPWR_VCORE 0 s]⟩] ∧
        rd PWR_VCORE.v_min 0 t = (if clearsRc a.path then 0 else rd PWR_VCORE.v_min 0 s) ∧ t.telFifo = s.telFifo ∧
        (a.path ≠ .core → Frame [(PWR_VCORE.v_min, 0)] [] [] s t) ∧ Frame ((PWR_VCORE.v_min, 0) :: logFlds) logLists [] s t)) ∧
    (Direct a s → Gives (.rcRead a 0x28) s (fun t => t.out = s.out ++ [⟨.busRead, auditPath a.path, [0x28, wordOf rGLB_SCRATCH 0 s]⟩] ∧
        t.telFifo = s.telFifo ∧ (a.path ≠ .core → Frame [] [] [] s t) ∧ Frame logFlds logLists [] s t)) ∧
    (a.path = .core → rd HRED.gap 0 s = 0 → rd RED_CX_STATUS.mode 0 s = 0 → (getL LCX.replay 0 s).length < 2046 →
      Gives (.rcRead a 0x300034) s (fun t =>
        getL LCX.replay 0 t = getL LCX.replay 0 s ++ [0x300034, wordOf rPWR_VCORE 0 s] ∧
        t.out = s.out ++ [⟨.busRead, 5, [0x300034, wordOf rPWR_VCORE 0 s]⟩] ∧ Frame [] [(LCX.replay, 0)] [] s t)) ∧
    (a.path = .core → rd HRED.gap 0 s ≠ 0 → rd RED_CX_STATUS.mode 0 s ≠ 2 → Gives (.rcRead a 0x300034) s (fun t =>
        getL LCX.held 0 t = getL LCX.held 0 s ++ [1, a.who, 0x300034, 0, 0] ∧ Silent s t ∧ Frame [] [(LCX.held, 0)] [] s t))

/-- ST_WRITE_STAGE and STAGE_DATA (R434, R435, R12). -/
def Obligations.StagedWrites : Prop :=
  ∀ (a : Access) (k v : Nat) (s : State), [0, 1, 2, 3].all (fun k => rd CFG_CS_W4.state k s ≠ 2) = true → k < 4 → rd CFG_CS_W4.state k s = 1 → csCount k s < 65536 → stageUsed s < 262144 →
    (a.path = .pcie → rd CFG_PATH_CS.pcie 0 s = k → Accepted a rBUF_RX_CFG 0 0xFFFFFFFF (v % 2 ^ 32) s →
      Gives (.stWriteStage a 0x1000000 0xFFFFFFFF v) s (fun t =>
        getL LCS.ent k t = getL LCS.ent k s ++ [0x1000000, maskOf (fun f => f.acc = .st) rBUF_RX_CFG,
          v % 2 ^ 32 &&& maskOf (fun f => f.acc = .st) rBUF_RX_CFG] ∧ Frame ([(HAUD.tail, 0)] ++ logFlds)
          ([(LCS.ent, k)] ++ (LAUD.cap, rd HAUD.tail 0 s) :: logLists) [] s t)) ∧
    (Accepted a rCFG_STAGE_DATA 0 0xFFFFFFFF (v % 2 ^ 32) s → rd CFG_STAGE_CS.cs 0 s = k → rd CFG_STAGE_ADDR.addr 0 s = 0x1000000 →
      roleOk a rBUF_RX_CFG 0 (rd CFG_STAGE_MASK.mask 0 s) (v % 2 ^ 32) s = true → Gives (.stageData a v) s (fun t =>
        getL LCS.ent k t = getL LCS.ent k s ++ [0x1000000, rd CFG_STAGE_MASK.mask 0 s, v % 2 ^ 32] ∧ Frame [] [(LCS.ent, k), (LCX.sent, 0)] [] s t))

/-- PAIRED_FIELD_WRITE (R440, R441), on pair 0. -/
def Obligations.PairedFields : Prop :=
  ∀ (a : Access) (v : Nat) (s : State), v < 2 ^ 32 → s.telFifo.length < 1024 → Accepted a rTBL_ROUTER_MAC_LO 0 (fieldWord TBL_ROUTER_MAC_LO.mac_lo (2 ^ 32 - 1)) (fieldWord TBL_ROUTER_MAC_LO.mac_lo v) s →
    (rd HPAIR.hi 0 s = 0 → Gives (.pairedFieldWrite a 0 0 false v) s (fun t =>
      rd HPAIR.lo 0 t = v + 1 ∧ rd TBL_ROUTER_MAC_LO.mac_lo 0 t = rd TBL_ROUTER_MAC_LO.mac_lo 0 s ∧
      rd TBL_ROUTER_MAC_HI.mac_hi 0 t = rd TBL_ROUTER_MAC_HI.mac_hi 0 s ∧
      cnt cnt_CFG_pair_holds 0 t = (cnt cnt_CFG_pair_holds 0 s + 1) % 2 ^ 64 ∧ Raised 0x0E07 [0, 0] s t)) ∧
    (∀ (w : Nat), w < 2 ^ 16 → rd HPAIR.hi 0 s = w + 1 → Gives (.pairedFieldWrite a 0 0 false v) s (fun t =>
      rd TBL_ROUTER_MAC_LO.mac_lo 0 t = v ∧ rd TBL_ROUTER_MAC_HI.mac_hi 0 t = w ∧ rd HPAIR.lo 0 t = 0 ∧ rd HPAIR.hi 0 t = 0 ∧
      Frame [(TBL_ROUTER_MAC_LO.mac_lo, 0), (TBL_ROUTER_MAC_HI.mac_hi, 0), (HPAIR.lo, 0), (HPAIR.hi, 0), (HAUD.tail, 0)]
        [(LAUD.cap, rd HAUD.tail 0 s), (LCX.sent, 0)] [] s t))

/-- ADM_REQ_CMD ADMIT, HOP_RESERVE and HOP_COMMIT (R20, R29, R32, R34, R47, R48), on every outcome. The checks are `admPre` before the hops and `admHops` along them; that a HOP_COMMIT acts while the engine is stopped is log entry 133. -/
def Obligations.AdmissionCommits : Prop :=
  ∀ (a : Access) (n p d : Nat) (car : Carried) (r : StreamReq) (j : Job) (s u : State), n < 65536 → engStopped s = false → getL LADM.held 0 s = [] →
    (j = (reqJob a n s).1 → u = atJob j (reqJob a n s).2 → Accepted a rADM_REQ_CMD 0 0xFFFFFFFF (admWord 1 n) s →
      reqSleepers j (reqJob a n s).2 = [] → admPre j (jobHops j u) u = none → (admHops j u).1 = none →
      (admHops j u).2.1.hop = j.req.hops.length → admLate j.req (admHops j u).2.1 = false →
      Gives (.admReqAdmit a n) s (fun t => strState n t = 2 ∧ rd ADM_REQ_STATUS.result 0 t = 0 ∧
        rd ADM_REQ_STATUS.busy 0 t = b2n (regBusy t) ∧ rd SCH_POL_W4.bound n t = 1 ∧ rd SCH_POL_W4.enable n t = 1 ∧
        rd SCH_POL_W0.cir n t = rd ADM_REQ_RATE.rate 0 s % 2 ^ SCH_POL_W0.cir.width ∧
        rd SCH_POL_W1.cbs n t = j.req.burst % 2 ^ SCH_POL_W1.cbs.width ∧
        cnt cnt_ADM_admit 0 t = (cnt cnt_ADM_admit 0 s + 1) % 2 ^ 64)) ∧
    (∀ (eg : Nat), j = (reqJob a n s).1 → u = atJob j (reqJob a n s).2 → Accepted a rADM_REQ_CMD 0 0xFFFFFFFF (admWord 1 n) s →
      reqSleepers j (reqJob a n s).2 = [] → admPre j (jobHops j u) u = none → (admHops j u).1 = none →
      (admHops j u).2.1.hop < j.req.hops.length → eg = (reqHop j.req ((admHops j u).2.1.hop - 1)).eg → forwards eg s = true →
      Gives (.admReqAdmit a n) s (fun t => strState n t = 1 ∧ Due HADM.wait n ((j.req.hops.length - j.car.hop) * 10000000) t ∧ rd STM.first n t = 1 ∧
        rd STM.down n t = (eg + 1) % 2 ^ STM.down.width ∧ rd ADM_REQ_STATUS.busy 0 t = 1 ∧
        Emitted ⟨.admMsg, eg, 0x20 :: (let c := (admHops j u).2.1; [c.hop, c.bin, c.bsum, c.dsum, c.arrive, c.tail, c.cyc] ++ packReq j.req)⟩ s t)) ∧
    (∀ (code hop : Nat), j = (reqJob a n s).1 → u = atJob j (reqJob a n s).2 → Accepted a rADM_REQ_CMD 0 0xFFFFFFFF (admWord 1 n) s →
      reqSleepers j (reqJob a n s).2 = [] →
      (admPre j (jobHops j u) u = some (code, hop) ∨ (admPre j (jobHops j u) u = none ∧ (admHops j u).1 = some (code, hop))) →
      Gives (.admReqAdmit a n) s (fun t => strState n t = strState n s ∧ rd ADM_REQ_STATUS.result 0 t = code % 2 ^ ADM_REQ_STATUS.result.width ∧
        rd ADM_REQ_STATUS.failing_hop 0 t = hop % 2 ^ ADM_REQ_STATUS.failing_hop.width ∧
        cnt cnt_ADM_reject 0 t = (cnt cnt_ADM_reject 0 s + (if code = 0 then 0 else 1)) % 2 ^ 64)) ∧
    (j = (reqJob a n s).1 → u = atJob j (reqJob a n s).2 → Accepted a rADM_REQ_CMD 0 0xFFFFFFFF (admWord 1 n) s →
      reqSleepers j (reqJob a n s).2 = [] → admPre j (jobHops j u) u = none → (admHops j u).1 = none →
      (admHops j u).2.1.hop = j.req.hops.length → admLate j.req (admHops j u).2.1 = true →
      Gives (.admReqAdmit a n) s (fun t => strState n t = 0 ∧ rd ADM_REQ_STATUS.result 0 t = 9 ∧ rd ADM_REQ_STATUS.failing_hop 0 t = 31 ∧
        cnt cnt_ADM_reject 0 t = (cnt cnt_ADM_reject 0 s + 1) % 2 ^ 64)) ∧
    (p < 1024 → rd PRT_PORT_STATUS.peer_zx p s = 1 → j = hopJob p car r s → u = atJob j s → reqSleepers j s = [] →
      admPre j (jobHops j u) u = none → (admHops j u).1 = none → (admHops j u).2.1.hop = r.hops.length →
      admLate r (admHops j u).2.1 = false → forwards p s = true →
      Gives (.hopReserve p car r) s (fun t => strState r.stream t = 2 ∧ cnt cnt_ADM_admit 0 t = (cnt cnt_ADM_admit 0 s + 1) % 2 ^ 64 ∧
        Emitted ⟨.admMsg, p, [0x21, r.stream]⟩ s t)) ∧
    (∀ (eg : Nat), p < 1024 → rd PRT_PORT_STATUS.peer_zx p s = 1 → j = hopJob p car r s → u = atJob j s → reqSleepers j s = [] →
      admPre j (jobHops j u) u = none → (admHops j u).1 = none → (admHops j u).2.1.hop < r.hops.length →
      eg = (reqHop r ((admHops j u).2.1.hop - 1)).eg → forwards eg s = true →
      Gives (.hopReserve p car r) s (fun t => strState r.stream t = 1 ∧ Due HADM.wait r.stream ((r.hops.length - j.car.hop) * 10000000) t ∧
        rd STM.up r.stream t = (p + 1) % 2 ^ STM.up.width ∧ rd STM.down r.stream t = (eg + 1) % 2 ^ STM.down.width ∧
        Emitted ⟨.admMsg, eg, 0x20 :: (let c := (admHops j u).2.1; [c.hop, c.bin, c.bsum, c.dsum, c.arrive, c.tail, c.cyc] ++ packReq r)⟩ s t)) ∧
    (∀ (code hop : Nat), p < 1024 → rd PRT_PORT_STATUS.peer_zx p s = 1 → j = hopJob p car r s → u = atJob j s → reqSleepers j s = [] →
      (admPre j (jobHops j u) u = some (code, hop) ∨ (admPre j (jobHops j u) u = none ∧ (admHops j u).1 = some (code, hop))) →
      forwards p s = true →
      Gives (.hopReserve p car r) s (fun t => strState r.stream t = strState r.stream s ∧ Emitted ⟨.admMsg, p, [0x22, r.stream, code, hop]⟩ s t ∧
        cnt cnt_ADM_reject 0 t = (cnt cnt_ADM_reject 0 s + 1) % 2 ^ 64)) ∧
    (rd PRT_PORT_STATUS.peer_zx p s = 1 → strState n s = 1 → rd STM.down n s = p + 1 → rd STM.up n s = 0 → getL LADM.src n s = [0] →
      Gives (.hopCommit p n) s (fun t => strState n t = 2 ∧ rd ADM_REQ_STATUS.result 0 t = 0 ∧
        rd ADM_REQ_STATUS.busy 0 t = b2n (regBusy t) ∧ rd FAB_STREAM_W1.tx_seq n t = 0 ∧
        cnt cnt_ADM_admit 0 t = (cnt cnt_ADM_admit 0 s + 1) % 2 ^ 64)) ∧
    (rd PRT_PORT_STATUS.peer_zx p s = 1 → strState n s = 1 → rd STM.down n s = p + 1 → rd STM.up n s = d + 1 → forwards d s = true →
      Gives (.hopCommit p n) s (fun t => strState n t = 2 ∧ rd FAB_STREAM_W1.tx_seq n t = 0 ∧ Emitted ⟨.admMsg, d, [0x21, n]⟩ s t ∧
        cnt cnt_ADM_admit 0 t = (cnt cnt_ADM_admit 0 s + 1) % 2 ^ 64)) ∧
    (rd PRT_PORT_STATUS.peer_zx p s = 1 → strState n s = 2 → rd STM.down n s = p + 1 →
      Gives (.hopCommit p n) s (fun t => Silent s t ∧ Frame [] [] [] s t)) ∧
    (rd PRT_PORT_STATUS.peer_zx p s = 0 → Gives (.hopReserve p car r) s (fun t => Silent s t ∧ Frame [] [] [] s t)) ∧
    (rd PRT_PORT_STATUS.peer_zx p s = 0 → Gives (.hopCommit p n) s (fun t => Silent s t ∧ Frame [] [] [] s t)) ∧
    (rd PRT_PORT_STATUS.peer_zx p s = 1 → ((strState n s ≠ 1 ∧ strState n s ≠ 2) ∨ rd STM.down n s ≠ p + 1) → forwards p s = true →
      Gives (.hopCommit p n) s (fun t => Frame [] [] [] s t ∧ t.telFifo = s.telFifo ∧ t.out = s.out ++ [⟨.admMsg, p, [0x22, n, 0x0F, 31]⟩]))

/-- ADM_REQ_CMD RELEASE, QUERY and ABORT, ADM_ENGINE_RESUME, and the hold (R43, R44, R47, R48). Result codes are fixed by R48; busy is what the model takes it to cover (log entry 129). -/
def Obligations.AdmissionAnswers : Prop :=
  ∀ (a : Access) (n p : Nat) (r : StreamReq) (s : State), n < 65536 → engStopped s = false →
    (Accepted a rADM_REQ_CMD 0 0xFFFFFFFF (admWord 2 n) s → getL LADM.held 0 s = [] →
      admHeld ((accRole a s).getD 2) ((hopKeys n s).flatMap (fun k => [rd HOP.in_ k s, rd HOP.eg k s])) s = false → strState n s = 2 →
      Gives (.admReqRelease a n) s (fun t => strState n t = 3 ∧ rd ADM_REQ_STATUS.result 0 t = 0 ∧
        rd ADM_REQ_STATUS.busy 0 t = b2n (regBusy t) ∧ ∀ k ∈ hopKeys n s, running HOP.span k t = true)) ∧
    (Accepted a rADM_REQ_CMD 0 0xFFFFFFFF (admWord 2 n) s → getL LADM.held 0 s = [] →
      admHeld ((accRole a s).getD 2) ((hopKeys n s).flatMap (fun k => [rd HOP.in_ k s, rd HOP.eg k s])) s = false → strState n s = 2 →
      rd STM.down n s = p + 1 → forwards p s = true →
      Gives (.admReqRelease a n) s (fun t => strState n t = 3 ∧ Emitted ⟨.admMsg, p, [0x22, n, 0, 31]⟩ s t)) ∧
    (Accepted a rADM_REQ_CMD 0 0xFFFFFFFF (admWord 3 n) s → getL LADM.held 0 s = [] → admHeld 0 [] s = false → strState n s ≠ 0 →
      Gives (.admReqQuery a n) s (fun t => rd ADM_REQ_STATUS.result 0 t = 0 ∧ rd ADM_REQ_STATUS.busy 0 t = b2n (regBusy t) ∧
        rd ADM_STREAM_SEL.stream 0 t = n ∧ strState n t = strState n s)) ∧
    (Accepted a rADM_REQ_CMD 0 0xFFFFFFFF (admWord 4 n) s → getL LADM.held 0 s = [] → admHeld 0 [] s = false → strState n s = 1 →
      rd STM.up n s = 0 → getL LADM.src n s = [0] →
      Gives (.admReqAbort a n) s (fun t => strState n t = 0 ∧ rd ADM_REQ_STATUS.result 0 t = 0x11 ∧ rd ADM_REQ_STATUS.failing_hop 0 t = 31 ∧
        rd ADM_REQ_STATUS.busy 0 t = b2n (regBusy t))) ∧
    (Accepted a rADM_REQ_CMD 0 0xFFFFFFFF (admWord 2 n) s → getL LADM.held 0 s = [] → rd ADM_CTRL.adm_enable 0 s = 0 →
      Gives (.admReqRelease a n) s (fun t => strState n t = strState n s ∧ rd ADM_REQ_STATUS.result 0 t = 0x0E ∧
        rd ADM_REQ_STATUS.failing_hop 0 t = 31 ∧ cnt cnt_ADM_reject 0 t = (cnt cnt_ADM_reject 0 s + 1) % 2 ^ 64)) ∧
    (r.stream = n → getL LADM.held 0 s = packJobs [⟨3, 0, [0], 0, ⟨0, 0, 0, 0, 0, 0, 0⟩, r⟩] → admHeld 0 [] s = false → strState n s ≠ 0 →
      Gives .admEngineResume s (fun t => getL LADM.held 0 t = [] ∧ rd ADM_REQ_STATUS.result 0 t = 0 ∧ rd ADM_STREAM_SEL.stream 0 t = n))

/-- HOP_RELEASE, HOP_COMMIT_WAIT_EXPIRY, TENTATIVE_TIMEOUT, DRAIN_SPAN_END and BUNDLE_MEMBER_RELEASE (R34, R43, R252). -/
def Obligations.AdmissionEnds : Prop :=
  ∀ (n p d i code hop : Nat) (j : Job) (s : State), s.telFifo.length < 1000 →
    (rd PRT_PORT_STATUS.peer_zx p s = 1 → strState n s = 2 → (rd STM.down n s = p + 1 ∨ rd STM.up n s = p + 1) →
      Gives (.hopRelease p n code hop) s (fun t => strState n t = 3 ∧ ∀ k ∈ hopKeys n s, running HOP.span k t = true)) ∧
    (rd PRT_PORT_STATUS.peer_zx p s = 1 → (strState n s = 1 ∨ strState n s = 2) → rd STM.up n s = p + 1 → rd STM.down n s = d + 1 → d ≠ p →
      forwards d s = true → Gives (.hopRelease p n code hop) s (fun t => Emitted ⟨.admMsg, d, [0x22, n, code, hop]⟩ s t ∧
        strState n t = if strState n s = 1 then 0 else 3)) ∧
    (rd PRT_PORT_STATUS.peer_zx p s = 1 → strState n s = 1 → rd STM.down n s = p + 1 → getL LADM.src n s = [0] → code ≠ 0 → code < 32 →
      hop < 32 →
      Gives (.hopRelease p n code hop) s (fun t => strState n t = 0 ∧ rd ADM_REQ_STATUS.result 0 t = code ∧ rd ADM_REQ_STATUS.failing_hop 0 t = hop ∧
        cnt cnt_ADM_reject 0 t = (cnt cnt_ADM_reject 0 s + 1) % 2 ^ 64 ∧ ∀ k ∈ hopKeys n s, rd HOP.live k t = 0)) ∧
    (((strState n s ≠ 1 ∧ strState n s ≠ 2) ∨ (rd STM.down n s ≠ p + 1 ∧ rd STM.up n s ≠ p + 1) ∨ rd PRT_PORT_STATUS.peer_zx p s = 0) →
      Gives (.hopRelease p n code hop) s (fun t => Silent s t ∧ Frame [] [] [] s t)) ∧
    (strState n s = 1 → running HADM.wait n s = true → getL LADM.src n s = [0] →
      Gives (.hopCommitWaitExpiry n) s (fun t => strState n t = 0 ∧ rd ADM_REQ_STATUS.result 0 t = 0x0C ∧
        Raised 0x0906 [n, rd STM.h0 n s + (getL LADM.hops n s).length] s t)) ∧
    (strState n s = 1 → running HADM.wait n s = true → rd STM.down n s = d + 1 → forwards d s = true →
      Gives (.hopCommitWaitExpiry n) s (fun t => strState n t = 0 ∧
        Emitted ⟨.admMsg, d, [0x22, n, 0x0C, rd STM.h0 n s + (getL LADM.hops n s).length]⟩ s t)) ∧
    ((heldJobs s).find? (fun x => x.op = 5 && x.req.stream = n) = some j →
      Gives (.tentativeTimeout n) s (fun t => getL LADM.held 0 t = packJobs ((heldJobs s).erase j) ∧ Raised 0x0906 [n, j.car.hop] s t)) ∧
    ((heldJobs s).find? (fun x => x.op = 5 && x.req.stream = n) = some j → j.src = [3, p] → forwards p s = true →
      Gives (.tentativeTimeout n) s (fun t => Emitted ⟨.admMsg, p, [0x22, n, 0x0F, j.car.hop]⟩ s t)) ∧
    (strState n s = 3 → running HOP.span (n * 32 + i) s = true → Gives (.drainSpanEnd n i) s (fun t => rd HOP.live (n * 32 + i) t = 0 ∧
        strState n t = if (hopKeys n s).any (fun k => k ≠ n * 32 + i && rdB HOP.live k s) then 3 else 0)) ∧
    (running HADM.extra p s = true →
      Gives (.bundleMemberRelease p) s (fun t => ∀ k ∈ liveHops s, p ∉ getL LHOP.extra k t ∧ p ∉ getL LHOP.extrai k t))

/-- ADMIN_UP_SET, ADMIN_UP_CLEAR, AUTONEG_PAGE_RX, LINK_TRAINING_DONE, ALIGNMENT_DONE, UP_DEBOUNCE_EXPIRY, BRINGUP_STEP_FAIL and BRINGUP_RETRY (R53, R60, R72). One AN_MISMATCH an episode is the reading of log entry 40. -/
def Obligations.LinkBringUp : Prop :=
  ∀ (a : Access) (p ability : Nat) (loss : List Nat) (s : State), s.telFifo.length < 1000 →
    (Accepted a rPRT_PORT_CFG p (fieldWord PRT_PORT_CFG.admin_up 1) (fieldWord PRT_PORT_CFG.admin_up 1) s →
      rd PRT_PORT_CFG.admin_up p s = 0 → portExists p s = true → rd PRT_PORT_STATUS.link_up p s = 0 → rd PRT_PORT_STATUS.state p s = 0 →
      running HPRT.retry p s = false → rd PRT_PORT_STATUS.flap_hold p s = 0 → rd HPRT.unserved p s = 0 → testActive p s = false →
      rd PRT_PORT_CFG.medium p s ≠ 2 →
      Gives (.adminUpSet a p) s (fun t => rd PRT_PORT_CFG.admin_up p t = 1 ∧ rd PRT_PORT_STATUS.link_up p t = 0 ∧ Silent s t ∧
        rd PRT_PORT_STATUS.state p t = if rd PRT_PORT_CFG.an_enable p s ≠ 0 then 1
          else if rd PRT_PORT_CFG.lt_enable p s ≠ 0 ∧ rd PRT_PORT_CFG.medium p s < 2 then 2 else 3)) ∧
    (Accepted a rPRT_PORT_CFG p (fieldWord PRT_PORT_CFG.admin_up 1) 0 s → rd PRT_PORT_CFG.admin_up p s = 1 →
      rd PRT_PORT_STATUS.link_up p s = 1 →
      Gives (.adminUpClear a p) s (fun t => rd PRT_PORT_CFG.admin_up p t = 0 ∧ rd PRT_PORT_STATUS.link_up p t = 0 ∧
        rd PRT_PORT_STATUS.state p t = 0 ∧ rdBit PRT_PORT_STATUS.faults p 5 t = true ∧ rd PRT_PORT_STATUS.peer_zx p t = 0 ∧
        cnt cnt_PRT_link_down p t = (cnt cnt_PRT_link_down p s + 1) % 2 ^ 64 ∧ Raised 0x4002 [p, 6] s t)) ∧
    (rd PRT_PORT_STATUS.state p s = 1 →
      Gives (.autonegPageRx p ability true) s (fun t => Silent s t ∧ Frame [(PRT_PORT_STATUS.state, p)] [] [] s t ∧
        rd PRT_PORT_STATUS.state p t = if rd PRT_PORT_CFG.lt_enable p s ≠ 0 ∧ rd PRT_PORT_CFG.medium p s < 2 then 2 else 3)) ∧
    (rd PRT_PORT_STATUS.state p s = 1 → rd HPRT.mism p s = 0 →
      Gives (.autonegPageRx p ability false) s (fun t => Raised 0x4005 [p, ability] s t ∧
        cnt cnt_PRT_an_mismatch p t = (cnt cnt_PRT_an_mismatch p s + 1) % 2 ^ 64 ∧ Frame [(HPRT.mism, p)] [] [(cnt_PRT_an_mismatch, p)] s t)) ∧
    (rd PRT_PORT_STATUS.state p s = 1 → rd HPRT.mism p s = 1 →
      Gives (.autonegPageRx p ability false) s (fun t => Silent s t ∧ Frame [] [] [] s t)) ∧
    (rd PRT_PORT_STATUS.state p s = 2 → Gives (.linkTrainingDone ⟨p, loss⟩) s (fun t => rd PRT_PORT_STATUS.state p t = 3 ∧ t.out = s.out ∧
        (∀ e ∈ (portLanes p s).zip loss, rd PRT_LANE_STATUS.loss_db e.1 t = min e.2 255) ∧
        ((∀ x ∈ loss, x ≤ 50) → t.telFifo = s.telFifo) ∧ (loss = [] → Frame [(PRT_PORT_STATUS.state, p)] [] [] s t))) ∧
    (rd PRT_PORT_STATUS.state p s = 3 → rd PRT_PORT_STATUS.faults p s < 8 → rd PRT_PORT_TIMERS.up_debounce p s ≠ 0 →
      Gives (.alignmentDone p) s (fun t => rd PRT_PORT_STATUS.state p t = 4 ∧ rd PRT_PORT_STATUS.faults p t = 0 ∧ t.telFifo = s.telFifo ∧ (rd HPRT.rf p s = rd HPRT.lfrx p s → t.out = s.out) ∧
        Due HPRT.updeb p (rd PRT_PORT_TIMERS.up_debounce p s * 1000000) t ∧
        Frame [(PRT_PORT_STATUS.state, p), (PRT_PORT_STATUS.faults, p), (HPRT.updeb, p), (HPRT.first, p), (HPRT.debounce, p), (HPRT.rf, p)] [] [] s t)) ∧
    (running HPRT.updeb p s = true → Gives (.upDebounceExpiry p) s (fun t => rd PRT_PORT_STATUS.link_up p t = 1 ∧
        rd PRT_PORT_EVT.ev_link p t = 1 ∧ rd HPRT.cap p t = 1 ∧ rd BUF_PORT_STATUS.hold_state p t = 0 ∧ running HPRT.updeb p t = false ∧
        Raised 0x4001 [p] s t)) ∧
    (rd PRT_PORT_STATUS.link_up p s = 0 → 1 ≤ rd PRT_PORT_STATUS.state p s → rd PRT_PORT_STATUS.state p s ≤ 4 →
      Gives (.bringupStepFail p) s (fun t => rd PRT_PORT_STATUS.state p t = 0 ∧ Due HPRT.retry p 100000000 t ∧ Silent s t ∧
        cnt cnt_PRT_bringup_retry p t = (cnt cnt_PRT_bringup_retry p s + 1) % 2 ^ 64 ∧ rd HPRT.updeb p t = 0 ∧
        Frame [(PRT_PORT_STATUS.state, p), (HPRT.updeb, p), (HPRT.retry, p)] [] [(cnt_PRT_bringup_retry, p)] s t)) ∧
    (running HPRT.retry p s = true → rd PRT_PORT_STATUS.link_up p s = 0 → rd PRT_PORT_STATUS.state p s = 0 → bringOk p s = true →
      rd PRT_PORT_CFG.medium p s ≠ 2 → Gives (.bringupRetry p) s (fun t => running HPRT.retry p t = false ∧ Silent s t ∧
        Frame ([(PRT_PORT_STATUS.state, p), (HPRT.retry, p), (HPRT.mism, p)] ++ timeFlds) [] [] s t ∧
        rd PRT_PORT_STATUS.state p t = if rd PRT_PORT_CFG.an_enable p s ≠ 0 then 1
          else if rd PRT_PORT_CFG.lt_enable p s ≠ 0 ∧ rd PRT_PORT_CFG.medium p s < 2 then 2 else 3))

/-- CAPABILITY_FRAME_TX, CAPABILITY_FRAME_RX, PEER_LOST, LINK_LOCAL_FRAME_RX, BAD_CONTROL_FRAME_RX, MAC_CONTROL_FRAME_RX and UNKNOWN_ORDERED_SET (R52, R61 to R65). -/
def Obligations.PeerFrames : Prop :=
  ∀ (p len dev pport tagv caps group fixed : Nat) (s : State), s.telFifo.length < 1000 →
    (rd PRT_PORT_STATUS.link_up p s = 1 → rd PRT_PORT_STATUS.state p s = 4 → rd HPRT.captx p s ≠ 0 → rd HPRT.cap p s = 0 →
      Gives (.capabilityFrameTx p) s (fun t => rd HPRT.cap p t = 1 ∧ Due HPRT.captx p 0 t ∧ Silent s t ∧
        now t = now (passTo (rd HPRT.captx p s - 1 + if rd PRT_PORT_STATUS.peer_zx p s = 0 then 100000000 else 1000000000) s) ∧
        Frame ([(HPRT.cap, p), (HPRT.captx, p)] ++ timeFlds) [] [] s t)) ∧
    (portExists p s = true → portHears p s = true → running HPRT.quiet2 p s = false →
      (rd HPRT.rec p s = 0 ∨ (rd PRT_PORT_PEER.peer_device p s = dev ∧ rd PRT_PORT_PEER.peer_port p s = pport)) → dev < 4096 →
      pport < 1024 → caps < 65536 → group < 65536 →
      Gives (.capabilityFrameRx p dev pport tagv caps group fixed) s (fun t => rd PRT_PORT_STATUS.peer_zx p t = 1 ∧
        rd PRT_PORT_PEER.peer_device p t = dev ∧ rd PRT_PORT_PEER.peer_port p t = pport ∧ rd PRT_PORT_PEER_CAP.peer_caps p t = caps ∧
        rd FAB_PORT.peer_group p t = group ∧ rd HPRT.rec p t = 1 ∧ Due HPRT.lost p 3500000000 t ∧
        rd PRT_PORT_STATUS.tag_active p t = (if rd PRT_PORT_CFG.ibyon_enable p s ≠ 0 ∧ caps % 2 = 1 then 1 else 0) ∧
        cnt cnt_PRT_rx_ctrl p t = (cnt cnt_PRT_rx_ctrl p s + 1) % 2 ^ 64 ∧ cnt cnt_PRT_rx_frames p t = (cnt cnt_PRT_rx_frames p s + 1) % 2 ^ 64 ∧
        rd PRT_PORT_STATUS.link_up p t = rd PRT_PORT_STATUS.link_up p s)) ∧
    (portExists p s = true → portHears p s = true → rd HPRT.rec p s = 1 → rd PRT_PORT_PEER.peer_device p s ≠ dev → dev < 4096 →
      Gives (.capabilityFrameRx p dev pport tagv caps group fixed) s (fun t => rd PRT_PORT_PEER.peer_device p t = dev ∧
        Raised 0x4007 [p, rd PRT_PORT_PEER.peer_device p s, dev] s t ∧ rd PRT_PORT_EVT.ev_peer p t = 1)) ∧
    (running HPRT.lost p s = true →
      Gives (.peerLost p) s (fun t => rd PRT_PORT_STATUS.peer_zx p t = 0 ∧ rd PRT_PORT_STATUS.tag_active p t = 0 ∧
        running HPRT.lost p t = false ∧ Raised 0x4008 [p] s t ∧ rd PRT_PORT_EVT.ev_peer p t = 1 ∧
        rd PRT_PORT_STATUS.link_up p t = rd PRT_PORT_STATUS.link_up p s ∧ rd PRT_PORT_PEER.peer_device p t = rd PRT_PORT_PEER.peer_device p s)) ∧
    (portExists p s = true → portHears p s = true → running HPRT.quiet2 p s = false → rd PWR_SLICE.state (servSlice p s) s ≠ 1 →
      Gives (.linkLocalFrameRx p len) s (fun t => Silent s t ∧ cnt cnt_PRT_rx_ctrl p t = (cnt cnt_PRT_rx_ctrl p s + 1) % 2 ^ 64 ∧
        cnt cnt_PRT_rx_frames p t = (cnt cnt_PRT_rx_frames p s + 1) % 2 ^ 64 ∧ cnt cnt_PRT_rx_bytes p t = (cnt cnt_PRT_rx_bytes p s + len) % 2 ^ 64 ∧
        Frame [] [(LPWR.fast, 0)] [(cnt_PRT_rx_ctrl, p), (cnt_PRT_rx_frames, p), (cnt_PRT_rx_bytes, p)] s t)) ∧
    (portExists p s = true → portHears p s = true → running HPRT.quiet2 p s = false → rd PWR_SLICE.state (servSlice p s) s ≠ 1 →
      Gives (.badControlFrameRx p len) s (fun t => Silent s t ∧ cnt cnt_PRT_rx_ctrl_bad p t = (cnt cnt_PRT_rx_ctrl_bad p s + 1) % 2 ^ 64 ∧
        cnt cnt_PRT_rx_frames p t = (cnt cnt_PRT_rx_frames p s + 1) % 2 ^ 64 ∧ cnt cnt_PRT_rx_bytes p t = (cnt cnt_PRT_rx_bytes p s + len) % 2 ^ 64 ∧
        Frame [] [(LPWR.fast, 0)] [(cnt_PRT_rx_ctrl_bad, p), (cnt_PRT_rx_frames, p), (cnt_PRT_rx_bytes, p)] s t)) ∧
    (portExists p s = true → portHears p s = true → running HPRT.quiet2 p s = false → rd PWR_SLICE.state (servSlice p s) s ≠ 1 →
      Gives (.macControlFrameRx p len) s (fun t => Silent s t ∧ cnt cnt_PRT_rx_mac_ctrl p t = (cnt cnt_PRT_rx_mac_ctrl p s + 1) % 2 ^ 64 ∧
        cnt cnt_PRT_rx_frames p t = (cnt cnt_PRT_rx_frames p s + 1) % 2 ^ 64 ∧ cnt cnt_PRT_rx_bytes p t = (cnt cnt_PRT_rx_bytes p s + len) % 2 ^ 64 ∧
        Frame [] [(LPWR.fast, 0)] [(cnt_PRT_rx_mac_ctrl, p), (cnt_PRT_rx_frames, p), (cnt_PRT_rx_bytes, p)] s t)) ∧
    (portHears p s = true → undefinedSet dev = true → osSeen dev 0 (osRecent (now s) (getL LPRT.os p s)) = false →
      Gives (.unknownOrderedSet p dev) s (fun t => Silent s t ∧
        cnt cnt_PRT_rx_os_unknown p t = (cnt cnt_PRT_rx_os_unknown p s + 1) % 2 ^ 64 ∧ Frame [] [(LPRT.os, p)] [(cnt_PRT_rx_os_unknown, p)] s t))

/-- QUIET_IDLE_EXPIRY, QUIET_REQ, QUIET_ACK, QUIET_NAK, QUIET_ANSWER_TIMEOUT, QUIET_HOLD, HOLD_END and QUIET_HOLD_EXPIRY (R66, R67, R69, R70). -/
def Obligations.QuietHandshake : Prop :=
  ∀ (p us : Nat) (s : State),
    (rd PRT_PORT_STATUS.link_up p s = 1 → (rd PRT_PORT_STATUS.state p s = 4 ∨ rd PRT_PORT_STATUS.state p s = 7) →
      running HPRT.reqd p s = false → running HPRT.quiet2 p s = false → rd HPRT.idle0 p s ≠ 0 → rd PRT_PORT_TIMERS.quiet_idle p s ≠ 0 →
      rd PRT_PORT_CFG.quiet_enable p s = 1 → rd PRT_PORT_STATUS.peer_zx p s = 1 → bitOf (rd PRT_PORT_PEER_CAP.peer_caps p s) 1 = true →
      quietNo p s = 0 →
      Gives (.quietIdleExpiry p) s (fun t => Due HPRT.reqd p 20000 t ∧ t.out = s.out ++ [⟨.orderedSet, p, [4, 0x4B, 0xA, 0x01, 0, 0]⟩] ∧ t.telFifo = s.telFifo ∧
        Frame ([(HPRT.reqd, p)] ++ timeFlds) [] [] s t)) ∧
    (portHears p s = true → rd PRT_PORT_STATUS.peer_zx p s = 1 → running HPRT.quiet2 p s = false → running HPRT.reqd p s = false →
      osSeen 1 0 (osRecent (now s) (getL LPRT.os p s)) = false → quietNo p s = 0 →
      Gives (.quietReq p) s (fun t => Due HPRT.quiet2 p 2000 t ∧ Emitted ⟨.orderedSet, p, [4, 0x4B, 0xA, 0x02, 0, 0]⟩ s t ∧ t.telFifo = s.telFifo ∧
        rd PRT_PORT_STATUS.faults p t % 8 = 0 ∧ Frame [(HPRT.quiet2, p), (HPRT.reqd, p), (PRT_PORT_STATUS.faults, p), (HPRT.first, p), (HPRT.debounce, p), (HPRT.rf, p)] [(LPRT.os, p)] [] s t)) ∧
    (portHears p s = true → rd PRT_PORT_STATUS.peer_zx p s = 1 → running HPRT.quiet2 p s = false → running HPRT.reqd p s = true →
      osSeen 1 0 (osRecent (now s) (getL LPRT.os p s)) = false →
      Gives (.quietReq p) s (fun t => Due HPRT.quiet2 p 2000 t ∧ running HPRT.reqd p t = false ∧ t.telFifo = s.telFifo ∧
        Frame [(HPRT.quiet2, p), (HPRT.reqd, p), (PRT_PORT_STATUS.faults, p), (HPRT.first, p), (HPRT.debounce, p), (HPRT.rf, p)] [(LPRT.os, p)] [] s t)) ∧
    (portHears p s = true → rd PRT_PORT_STATUS.peer_zx p s = 1 → running HPRT.quiet2 p s = false → running HPRT.reqd p s = false →
      osSeen 1 0 (osRecent (now s) (getL LPRT.os p s)) = false → quietNo p s ≠ 0 →
      Gives (.quietReq p) s (fun t => t.out = s.out ++ [⟨.orderedSet, p, [4, 0x4B, 0xA, 0x03, 0, quietNo p s]⟩] ∧ t.telFifo = s.telFifo ∧
        Frame [] [(LPRT.os, p)] [] s t)) ∧
    (rd PRT_PORT_STATUS.state p s = 6 → rd PRT_PORT_STATUS.peer_zx p s = 1 → running HPRT.quiet2 p s = false →
      running HPRT.reqd p s = false → osSeen 1 0 (osRecent (now s) (getL LPRT.os p s)) = false → quietNo p s ≠ 0 →
      Gives (.quietReq p) s (fun t => rd HPRT.nak p t = quietNo p s ∧ Silent s t ∧ Frame [(HPRT.nak, p)] [(LPRT.os, p)] [] s t)) ∧
    (running HPRT.reqd p s = true → osSeen 2 0 (osRecent (now s) (getL LPRT.os p s)) = false →
      Gives (.quietAck p) s (fun t => Due HPRT.quiet2 p 2000 t ∧ running HPRT.reqd p t = false ∧ t.telFifo = s.telFifo ∧
        rd PRT_PORT_STATUS.faults p t % 8 = 0 ∧ Frame [(HPRT.quiet2, p), (HPRT.reqd, p), (PRT_PORT_STATUS.faults, p), (HPRT.first, p), (HPRT.debounce, p), (HPRT.rf, p)] [(LPRT.os, p)] [] s t)) ∧
    (running HPRT.reqd p s = true → getL LPRT.llq p s = [] → getL LPRT.pgq p s = [] →
      osSeen 3 us (osRecent (now s) (getL LPRT.os p s)) = false →
      Gives (.quietNak p us) s (fun t => running HPRT.reqd p t = false ∧ Due HPRT.idle0 p 0 t ∧
        cnt cnt_PRT_quiet_refused p t = (cnt cnt_PRT_quiet_refused p s + 1) % 2 ^ 64 ∧ Silent s t ∧
        Frame [(HPRT.reqd, p), (HPRT.idle0, p), (HPRT.wakeup, p)] [(LPRT.os, p)] [(cnt_PRT_quiet_refused, p)] s t)) ∧
    (osSeen 1 0 (osRecent (now s) (getL LPRT.os p s)) = true → Gives (.quietReq p) s (fun t => Silent s t ∧ Frame [] [] [] s t)) ∧
    (osSeen 2 0 (osRecent (now s) (getL LPRT.os p s)) = true → Gives (.quietAck p) s (fun t => Silent s t ∧ Frame [] [] [] s t)) ∧
    (osSeen 3 us (osRecent (now s) (getL LPRT.os p s)) = true → Gives (.quietNak p us) s (fun t => Silent s t ∧ Frame [] [] [] s t)) ∧
    (osSeen 4 us (osRecent (now s) (getL LPRT.os p s)) = true → Gives (.quietHold p us) s (fun t => Silent s t ∧ Frame [] [] [] s t)) ∧
    (osSeen 5 0 (osRecent (now s) (getL LPRT.os p s)) = true → Gives (.holdEnd p) s (fun t => Silent s t ∧ Frame [] [] [] s t)) ∧
    (running HPRT.reqd p s = true → getL LPRT.llq p s = [] → getL LPRT.pgq p s = [] →
      Gives (.quietAnswerTimeout p) s (fun t => running HPRT.reqd p t = false ∧ Due HPRT.idle0 p 0 t ∧
        cnt cnt_PRT_quiet_refused p t = (cnt cnt_PRT_quiet_refused p s + 1) % 2 ^ 64 ∧ Silent s t ∧
        Frame ([(HPRT.reqd, p), (HPRT.idle0, p), (HPRT.wakeup, p)] ++ timeFlds) [] [(cnt_PRT_quiet_refused, p)] s t)) ∧
    (portHears p s = true → rd PRT_PORT_STATUS.state p s = 4 → 0 < us → us < 65536 →
      osSeen 4 us (osRecent (now s) (getL LPRT.os p s)) = false →
      Gives (.quietHold p us) s (fun t => rd PRT_PORT_STATUS.state p t = 7 ∧ Due HPRT.hold p (us * 1000) t ∧ rd HPRT.debounce p t = 0 ∧
        Silent s t ∧ Frame [(PRT_PORT_STATUS.state, p), (HPRT.hold, p), (HPRT.debounce, p)] [(LPRT.os, p)] [] s t)) ∧
    (portHears p s = true → running HPRT.hold p s = true → rd PRT_PORT_STATUS.state p s = 7 → rd PRT_PORT_STATUS.faults p s = 0 →
      getL LPRT.llq p s = [] → getL LPRT.pgq p s = [] → osSeen 5 0 (osRecent (now s) (getL LPRT.os p s)) = false →
      Gives (.holdEnd p) s (fun t =>
        rd PRT_PORT_STATUS.state p t = 4 ∧ running HPRT.hold p t = false ∧ Silent s t ∧ Frame [(PRT_PORT_STATUS.state, p), (HPRT.hold, p)] [(LPRT.os, p)] [] s t)) ∧
    (running HPRT.hold p s = true → rd PRT_PORT_STATUS.state p s = 7 → rd PRT_PORT_STATUS.faults p s = 0 → getL LPRT.llq p s = [] →
      getL LPRT.pgq p s = [] → Gives (.quietHoldExpiry p) s (fun t =>
        rd PRT_PORT_STATUS.state p t = 4 ∧ running HPRT.hold p t = false ∧ Silent s t ∧
        Frame ([(PRT_PORT_STATUS.state, p), (HPRT.hold, p)] ++ timeFlds) [] [] s t))

/-- QUIET_ENTRY, SIGNAL_DETECT_ENERGY, WAKE_ALIGNED, WAKE_TIMEOUT, LINK_FAULT, DOWN_DEBOUNCE_EXPIRY and FLAP_HOLD_RELEASE (R67, R68, R71, R72, R75). -/
def Obligations.QuietAndFaults : Prop :=
  ∀ (a : Access) (p k : Nat) (s : State), s.telFifo.length < 1000 →
    (running HPRT.quiet2 p s = true → rd HPRT.wakeup p s = 0 →
      Gives (.quietEntry p) s (fun t => rd PRT_PORT_STATUS.state p t = 5 ∧ running HPRT.quiet2 p t = false ∧
        cnt cnt_PRT_quiet_entry p t = (cnt cnt_PRT_quiet_entry p s + 1) % 2 ^ 64 ∧ rd HPRT.captx p t = 0 ∧ rd HPRT.cap p t = 0 ∧
        running HPRT.lost p t = false ∧ Silent s t ∧ Frame ([(PRT_PORT_STATUS.state, p), (HPRT.quiet2, p), (PRT_PORT_EVT.ev_peer, p), (HPRT.lost, p),
          (HPRT.captx, p), (HPRT.cap, p), (HPD.wait, p), (HPD.got, p)] ++ timeFlds) [] [(cnt_PRT_quiet_entry, p)] s t)) ∧
    (rd PRT_PORT_STATUS.state p s = 5 →
      Gives (.signalDetectEnergy p) s (fun t => rd PRT_PORT_STATUS.state p t = 6 ∧ Due HPRT.wake p 1000000 t ∧ Silent s t ∧
        Frame [(PRT_PORT_STATUS.state, p), (HPRT.wake, p), (HPRT.wcounted, p)] [] [] s t)) ∧
    (rd PRT_PORT_STATUS.state p s = 6 → running HPRT.hold p s = false → rd HPRT.wcounted p s = 0 → getL LPRT.llq p s = [] →
      getL LPRT.pgq p s = [] → rd HPRT.nak p s = 0 → Gives (.wakeAligned p) s (fun t => rd PRT_PORT_STATUS.state p t = 4 ∧
        cnt cnt_PRT_quiet_wake p t = (cnt cnt_PRT_quiet_wake p s + 1) % 2 ^ 64 ∧ running HPRT.wake p t = false ∧ rd HPRT.cap p t = 1 ∧ Silent s t ∧
        (rd PRT_PORT_STATUS.peer_zx p s ≠ 0 → Due HPRT.lost p 3500000000 t) ∧ Frame [(PRT_PORT_STATUS.state, p), (PRT_PORT_EVT.ev_peer, p),
          (HPRT.wake, p), (HPRT.wcounted, p), (HPRT.cap, p), (HPRT.captx, p), (HPRT.idle0, p), (HPRT.lost, p)] [] [(cnt_PRT_quiet_wake, p)] s t)) ∧
    (rd PRT_PORT_STATUS.state p s = 6 → rd HPRT.nak p s ≠ 0 → rd PRT_PORT_STATUS.peer_zx p s = 1 → Gives (.wakeAligned p) s (fun t =>
        Emitted ⟨.orderedSet, p, [4, 0x4B, 0xA, 0x03, 0, rd HPRT.nak p s]⟩ s t ∧ rd HPRT.nak p t = 0)) ∧
    (running HPRT.wake p s = true → rd PRT_PORT_STATUS.link_up p s = 1 →
      Gives (.wakeTimeout p) s (fun t => rd PRT_PORT_STATUS.link_up p t = 0 ∧ running HPRT.wake p t = false ∧
        cnt cnt_PRT_link_down p t = (cnt cnt_PRT_link_down p s + 1) % 2 ^ 64 ∧ Raised 0x4002 [p, 1] s t)) ∧
    (portExists p s = true → 1 ≤ k → k ≤ 5 → rd PRT_PORT_STATUS.state p s = 4 → running HPRT.quiet2 p s = false → rd HPRT.first p s = 0 →
      rd PRT_PORT_STATUS.link_up p s = 1 → running HPRT.hold p s = false → running HPRT.debounce p s = false →
      rd PRT_PORT_TIMERS.down_debounce p s ≠ 0 →
      Gives (.linkFault p k true) s (fun t => rdBit PRT_PORT_STATUS.faults p (k - 1) t = true ∧ rd HPRT.first p t = k ∧
        Due HPRT.debounce p (rd PRT_PORT_TIMERS.down_debounce p s * 100) t ∧ rd PRT_PORT_STATUS.link_up p t = 1 ∧ t.telFifo = s.telFifo ∧
        (k ≤ 4 → rd HPRT.rf p s = 0 → Emitted ⟨.remoteFault, p, [1]⟩ s t) ∧
        Frame [(PRT_PORT_STATUS.faults, p), (HPRT.first, p), (HPRT.debounce, p), (HPRT.rf, p), (HPRT.lfrx, p)] [] [] s t)) ∧
    (portExists p s = true → 1 ≤ k → k ≤ 5 → rd PRT_PORT_STATUS.state p s = 4 → running HPRT.quiet2 p s = false →
      rd PRT_PORT_STATUS.link_up p s = 1 → (k = 4 → rd HPRT.rfrx p s = 0) →
      Gives (.linkFault p k false) s (fun t => rdBit PRT_PORT_STATUS.faults p (k - 1) t = false ∧ rd PRT_PORT_STATUS.link_up p t = 1 ∧ t.telFifo = s.telFifo ∧
        (rd PRT_PORT_STATUS.faults p t = 0 → running HPRT.debounce p t = false ∧ rd HPRT.first p t = 0) ∧
        Frame [(PRT_PORT_STATUS.faults, p), (HPRT.first, p), (HPRT.debounce, p), (HPRT.rf, p), (HPRT.lfrx, p)] [] [] s t)) ∧
    (portExists p s = true → rd PRT_PORT_STATUS.state p s = 4 → rd HPRT.first p s = 0 → rd PRT_PORT_STATUS.link_up p s = 1 →
      running HPRT.hold p s = false → running HPRT.debounce p s = false → rd PRT_PORT_TIMERS.down_debounce p s ≠ 0 →
      rd PRT_PORT_STATUS.faults p s % 8 = 0 → rd HPRT.lfrx p s = 0 → rd HPRT.rf p s = 0 →
      Gives (.linkFault p 7 true) s (fun t => rdBit PRT_PORT_STATUS.faults p 3 t = true ∧ rd HPRT.first p t = 4 ∧ rd HPRT.rfrx p t = 1 ∧
        Due HPRT.debounce p (rd PRT_PORT_TIMERS.down_debounce p s * 100) t ∧ Silent s t ∧
        Frame [(PRT_PORT_STATUS.faults, p), (HPRT.first, p), (HPRT.debounce, p), (HPRT.rfrx, p)] [] [] s t)) ∧
    (portExists p s = true → ((k = 4 ∧ rd HPRT.rfrx p s = 1) ∨ (k = 7 ∧ rd HPRT.lfrx p s = 1)) →
      Gives (.linkFault p k false) s (fun t => rd PRT_PORT_STATUS.faults p t = rd PRT_PORT_STATUS.faults p s ∧ t.telFifo = s.telFifo ∧
        Frame [(HPRT.rf, p), (HPRT.lfrx, p), (HPRT.rfrx, p)] [] [] s t)) ∧
    (running HPRT.debounce p s = true → rd PRT_PORT_STATUS.link_up p s = 1 →
      Gives (.downDebounceExpiry p) s (fun t => rd PRT_PORT_STATUS.link_up p t = 0 ∧ running HPRT.debounce p t = false ∧
        rd HPRT.first p t = 0 ∧ cnt cnt_PRT_link_down p t = (cnt cnt_PRT_link_down p s + 1) % 2 ^ 64 ∧ Raised 0x4002 [p, rd HPRT.first p s] s t)) ∧
    (Accepted a rPRT_PORT_STATUS p (fieldWord PRT_PORT_STATUS.flap_hold 1) (fieldWord PRT_PORT_STATUS.flap_hold 1) s →
      rd PRT_PORT_STATUS.flap_hold p s = 1 → Gives (.flapHoldRelease a p) s (fun t => rd PRT_PORT_STATUS.flap_hold p t = 0 ∧
        getL LPRT.flaps p t = [] ∧ rd PRT_PORT_STATUS.link_up p t = rd PRT_PORT_STATUS.link_up p s))

/-- DEGRADE_WINDOW, ADAPTATION_STEP, ADAPT_REVERT_CHECK, MODULE_POLL, MODULE_MONITOR_POLL, MODULE_RESET and MODULE_RESET_PULSE_END (R57, R58, R74, R77). -/
def Obligations.LaneAndModule : Prop :=
  ∀ (a : Access) (p errs unc : Nat) (d : ModData) (s : State), s.telFifo.length < 1000 →
    (portExists p s = true → rd PRT_PORT_STATUS.link_up p s = 1 → rd PRT_PORT_FLAP.degrade_threshold p s < errs →
      Gives (.degradeWindow p errs unc) s (fun t => rd PRT_PORT_STATUS.degraded p t = 1 ∧
        Raised 0x4003 [p, errs] s t ∧ rd PRT_PORT_EVT.ev_degrade p t = 1 ∧ cnt cnt_PRT_fec_corr_sym p t = (cnt cnt_PRT_fec_corr_sym p s + errs) % 2 ^ 64 ∧
        cnt cnt_PRT_fec_uncorr p t = (cnt cnt_PRT_fec_uncorr p s + unc) % 2 ^ 64 ∧
        Frame [(PRT_PORT_STATUS.degraded, p), (PRT_PORT_EVT.ev_degrade, p)] [] [(cnt_PRT_fec_corr_sym, p), (cnt_PRT_fec_uncorr, p)] s t)) ∧
    (portExists p s = true → rd PRT_PORT_STATUS.link_up p s = 1 → errs * 2 < rd PRT_PORT_FLAP.degrade_threshold p s →
      Gives (.degradeWindow p errs unc) s (fun t => rd PRT_PORT_STATUS.degraded p t = 0 ∧ Silent s t ∧
        cnt cnt_PRT_fec_corr_sym p t = (cnt cnt_PRT_fec_corr_sym p s + errs) % 2 ^ 64 ∧
        Frame [(PRT_PORT_STATUS.degraded, p)] [] [(cnt_PRT_fec_corr_sym, p), (cnt_PRT_fec_uncorr, p)] s t)) ∧
    (rd PRT_LANE_CFG.adapt_enable p s = 1 → rd PRT_PORT_STATUS.link_up (lanePort p s) s = 1 → rd HLN.step p s = 0 →
      errs ≤ lossLimit (rd PRT_OCT_CFG.mode (p / 8) s) → errs < 256 → Gives (.adaptationStep p errs unc) s (fun t =>
        rd PRT_LANE_STATUS.loss_db p t = errs ∧ rd HLN.taps p t = (rd HLN.taps p s + 1) % 2 ^ 16 ∧ Due HLN.step p 0 t ∧ Silent s t ∧
        getL LLN.steps p t = getL LLN.steps p s ++ [now s, unc] ∧
        Frame [(HLN.step, p), (HLN.taps, p), (PRT_LANE_STATUS.loss_db, p), (HLN.over, p)] [(LLN.steps, p)] [] s t)) ∧
    (∀ (r : Nat), getL LLN.steps p s = [errs, unc] →
      (r ≤ 2 * unc → Gives (.adaptRevertCheck p r) s (fun t => getL LLN.steps p t = [] ∧ Silent s t ∧ Frame timeFlds [(LLN.steps, p)] [] s t)) ∧
      (2 * unc < r → Gives (.adaptRevertCheck p r) s (fun t => getL LLN.steps p t = [] ∧ rd HLN.taps p t = (rd HLN.taps p s + 65535) % 2 ^ 16 ∧
        cnt cnt_PRT_adapt_revert (lanePort p s) t = (cnt cnt_PRT_adapt_revert (lanePort p s) s + 1) % 2 ^ 64 ∧ Silent s t ∧
        Frame ([(HLN.taps, p)] ++ timeFlds) [(LLN.steps, p)] [(cnt_PRT_adapt_revert, lanePort p s)] s t))) ∧
    (moduleOn p s = true → running HOCT.pulse p s = false → rd PRT_OCT_MODULE_STAT.present p s = 0 → d.present = true → d.intLow = false →
      d.passive = true → d.rev < 256 →
      Gives (.modulePoll p d) s (fun t => rd PRT_OCT_MODULE_STAT.present p t = 1 ∧ rd PRT_OCT_MODULE_STAT.ready p t = 1 ∧
        rd PRT_OCT_MODULE_STAT.mod_event p t = 1 ∧ rd PRT_OCT_MODULE_STAT.cmis_rev p t = d.rev ∧ Raised 0x4009 [p, 0] s t)) ∧
    (moduleOn p s = true → running HOCT.pulse p s = false → rd PRT_OCT_MODULE_STAT.present p s = 0 → d.present = true → d.intLow = false →
      d.passive = false → d.class_ < 16 → rd PRT_OCT_MODULE_MAP.max_power_class p s < d.class_ →
      Gives (.modulePoll p d) s (fun t => rd PRT_OCT_MODULE_STAT.present p t = 1 ∧
        rd PRT_OCT_MODULE_STAT.ready p t = 0 ∧ rd PRT_OCT_MODULE_STAT.power_denied p t = 1 ∧ Raised 0x400B [p, d.class_] s t)) ∧
    (moduleOn p s = true → running HOCT.pulse p s = false → rd PRT_OCT_MODULE_STAT.present p s = 0 → d.present = true → d.intLow = false →
      d.passive = false → d.class_ ≤ rd PRT_OCT_MODULE_MAP.max_power_class p s → rd PRT_OCT_MODULE_CTRL.force_lp p s = 0 →
      firstApp (rd PRT_OCT_CFG.mode p s) d.apps = some errs → Gives (.modulePoll p d) s (fun t => rd PRT_OCT_MODULE_STAT.present p t = 1 ∧
        rd PRT_OCT_MODULE_STAT.ready p t = 1 ∧ Raised 0x4009 [p, errs] s t ∧
        Emitted ⟨.i2c, rd PRT_OCT_MODULE_MAP.i2c_master p s, [p, 1, d.class_]⟩ s t ∧ Emitted ⟨.i2c, rd PRT_OCT_MODULE_MAP.i2c_master p s, [p, 2, errs]⟩ s t ∧
        Emitted ⟨.i2c, rd PRT_OCT_MODULE_MAP.i2c_master p s, [p, 3, errs]⟩ s t ∧ Emitted ⟨.i2c, rd PRT_OCT_MODULE_MAP.i2c_master p s, [p, 4, errs]⟩ s t)) ∧
    (moduleOn p s = true → running HOCT.pulse p s = false → rd PRT_OCT_MODULE_STAT.present p s = 1 → d.present = false →
      Gives (.modulePoll p d) s (fun t => rd PRT_OCT_MODULE_STAT.present p t = 0 ∧ rd PRT_OCT_MODULE_STAT.ready p t = 0 ∧
        rd PRT_OCT_MODULE_STAT.mod_event p t = 1 ∧ Raised 0x400A [p] s t)) ∧
    (moduleOn p s = true → rd PRT_OCT_MODULE_STAT.present p s = 1 →
      Gives (.moduleMonitorPoll p errs) s (fun t => rd PRT_OCT_MODULE_STAT.mod_state p t = errs % 2 ^ PRT_OCT_MODULE_STAT.mod_state.width ∧
        t.out = s.out ++ [⟨.i2c, rd PRT_OCT_MODULE_MAP.i2c_master p s, [p]⟩] ∧ t.telFifo = s.telFifo ∧ Frame ([(PRT_OCT_MODULE_STAT.mod_state, p), (HOCT.mon, p)] ++ timeFlds) [] [] s t)) ∧
    (Accepted a rPRT_OCT_MODULE_CTRL p (fieldWord PRT_OCT_MODULE_CTRL.mod_reset 1) (fieldWord PRT_OCT_MODULE_CTRL.mod_reset 1) s →
      Gives (.moduleReset a p) s (fun t => Due HOCT.pulse p 10000000 t ∧
        rd PRT_OCT_MODULE_STAT.ready p t = 0 ∧ Emitted ⟨.modRst, p, [1]⟩ s t)) ∧
    (running HOCT.pulse p s = true → rd PRT_OCT_MODULE_STAT.present p s = 0 →
      Gives (.moduleResetPulseEnd p d) s (fun t => running HOCT.pulse p t = false ∧ t.out = s.out ++ [⟨.modRst, p, [0]⟩] ∧ t.telFifo = s.telFifo ∧
        Frame ([(HOCT.pulse, p)] ++ timeFlds) [] [] s t))

/-- FRAME_FIRST_BYTE, FRAME_LAST_BYTE, ERRORED_CLOSE, HEAD_WORD_WRITE and HEAD_BUFFER_ECC_ERROR (R82 to R85, R95 to R97, R101, R184, R196, R247). Frames are numbered by the model (log entry 42), and the MAC keeps a frame it cannot sort yet (log entry 63). -/
def Obligations.FrameArrival : Prop :=
  ∀ (p f w c : Nat) (tag body bytes : List Nat) (s : State), s.telFifo.length < 1000 →
    (portExists p s = true → portHears p s = true → rd HPRT.cur p s = 0 → rd HPRT.mac p s = 0 →
      (tag ++ body).length < rxNeed p (tag ++ body) s → Gives (.frameFirstByte p (tag ++ body) c) s (fun t => rd HPRT.mac p t = 1 ∧
        getL LPRT.mac p t = tag ++ body ∧ rd HPRT.cur p t = 0 ∧ rd HFRM.next 0 t = rd HFRM.next 0 s ∧ Silent s t ∧
        cnt cnt_PRT_rx_frames p t = (cnt cnt_PRT_rx_frames p s + 1) % 2 ^ 64)) ∧
    (portExists p s = true → portHears p s = true → rd HPRT.cur p s = 0 → rd HPRT.mac p s = 0 →
      rxNeed p (tag ++ body) s ≤ (tag ++ body).length → macKind p (tag ++ body) s = 0 →
      ((rd PRT_PORT_STATUS.tag_active p s = 0 ∧ tag = []) ∨ (rd PRT_PORT_STATUS.tag_active p s = 1 ∧ tag.length = 16 ∧ tagCheck tag s = 0)) →
      bootReady s = true → rd HPRT.gap p s = 0 → headPick (servSlice p s) (earlyMark (servSlice p s * 64 + p % 64) tag body s) s ≠ 0 →
      rd HBUF.rx_used 0 s < (rd BUF_RX_CFG.rx_pool 0 s - if (earlyMark (servSlice p s * 64 + p % 64) tag body s) = true then 0 else rd BUF_RX_CFG.rx_early 0 s) * 1024 →
      rd HFRM.next 0 s = f → f < 4294967295 → body.length ≤ portMax p s →
      Gives (.frameFirstByte p (tag ++ body) c) s (fun t => rd HPRT.cur p t = f + 1 ∧ rd FRM.live f t = 1 ∧ rd FRM.port f t = p ∧
        getL LFRM.bytes f t = body ∧ f ∈ getL LSLC.heads (servSlice p s) t ∧ rd HFRM.next 0 t = f + 1 ∧
        cnt cnt_PRT_rx_frames p t = (cnt cnt_PRT_rx_frames p s + 1) % 2 ^ 64 ∧ t.telFifo = s.telFifo)) ∧
    (portExists p s = true → portHears p s = true → rd HPRT.cur p s = 0 → rd HPRT.mac p s = 0 →
      rxNeed p (tag ++ body) s ≤ (tag ++ body).length → macKind p (tag ++ body) s = 0 →
      ((rd PRT_PORT_STATUS.tag_active p s = 0 ∧ tag = []) ∨ (rd PRT_PORT_STATUS.tag_active p s = 1 ∧ tag.length = 16 ∧ tagCheck tag s = 0)) →
      bootReady s = true → rd HPRT.gap p s = 0 → headPick (servSlice p s) (earlyMark (servSlice p s * 64 + p % 64) tag body s) s = 0 →
      Gives (.frameFirstByte p (tag ++ body) c) s (fun t => cnt cnt_SLC_head_drop (slot p s) t = (cnt cnt_SLC_head_drop (slot p s) s + 1) % 2 ^ 64 ∧
        rd HPRT.cur p t = 0 ∧ rd HFRM.next 0 t = rd HFRM.next 0 s ∧
        (limDue 0x1004 (servSlice p s) 1000000 s = true → rd SLC_EVT.ev_head_drop (servSlice p s) t = 1))) ∧
    (portExists p s = true → portHears p s = true → rd HPRT.cur p s = 0 → rd HPRT.mac p s = 0 →
      rxNeed p (tag ++ body) s ≤ (tag ++ body).length → macKind p (tag ++ body) s = 0 →
      ((rd PRT_PORT_STATUS.tag_active p s = 0 ∧ tag = []) ∨ (rd PRT_PORT_STATUS.tag_active p s = 1 ∧ tag.length = 16 ∧ tagCheck tag s = 0)) →
      bootReady s = false → running HPRT.quiet2 p s = false → rd PWR_SLICE.state (servSlice p s) s ≠ 1 →
      Gives (.frameFirstByte p (tag ++ body) c) s (fun t => Silent s t ∧
        cnt cnt_CFG_boot_rx_drop 0 t = (cnt cnt_CFG_boot_rx_drop 0 s + 1) % 2 ^ 64 ∧
        Frame [(HPRT.mac, p)] [(LPRT.mac, p), (LPRT.stamps, p), (LPWR.fast, 0)] [(cnt_CFG_boot_rx_drop, 0), (cnt_PRT_rx_frames, p)] s t)) ∧
    (rd HPRT.mac p s = 2 → 64 ≤ (getL LPRT.mac p s ++ bytes).length → (getL LPRT.mac p s ++ bytes).length ≤ portMax p s →
      leNat ((getL LPRT.mac p s ++ bytes).drop ((getL LPRT.mac p s ++ bytes).length - 4)) = fcsOf [] ((getL LPRT.mac p s ++ bytes).take ((getL LPRT.mac p s ++ bytes).length - 4)) →
      Gives (.frameLastByte p bytes c) s (fun t => rd HPRT.mac p t = 0 ∧ Silent s t ∧
        cnt cnt_PRT_rx_bytes p t = (cnt cnt_PRT_rx_bytes p s + (getL LPRT.mac p s ++ bytes).length) % 2 ^ 64 ∧
        Frame [(HPRT.mac, p)] [(LPRT.mac, p), (LPRT.stamps, p)] [(cnt_PRT_rx_bytes, p)] s t)) ∧
    (rd HPRT.mac p s = 0 → rd HPRT.cur p s = f + 1 → rd FRM.live f s = 1 → 64 ≤ (getL LFRM.bytes f s ++ bytes).length →
      (getL LFRM.bytes f s ++ bytes).length ≤ portMax p s →
      leNat ((getL LFRM.bytes f s ++ bytes).drop ((getL LFRM.bytes f s ++ bytes).length - 4)) = fcsOf (getL LFRM.rawtag f s) ((getL LFRM.bytes f s ++ bytes).take ((getL LFRM.bytes f s ++ bytes).length - 4)) →
      (rd FRM.refs f s ≠ 0 ∨ rd FRM.stage f s ≠ 3) → portMax p s < 32768 →
      Gives (.frameLastByte p bytes c) s (fun t => rd HPRT.cur p t = 0 ∧ rd FRM.ended f t = 1 ∧ rd FRM.len f t = (getL LFRM.bytes f s ++ bytes).length ∧
        getL LFRM.bytes f t = getL LFRM.bytes f s ++ bytes ∧ rd FRM.err f t = rd FRM.err f s ∧ Silent s t ∧
        cnt cnt_PRT_rx_bytes p t = (cnt cnt_PRT_rx_bytes p s + (getL LFRM.bytes f s ++ bytes).length) % 2 ^ 64 ∧
        cnt cnt_PRT_rx_fcs_err p t = cnt cnt_PRT_rx_fcs_err p s)) ∧
    (rd HPRT.mac p s = 0 → rd HPRT.cur p s = f + 1 → rd FRM.live f s = 1 → getL LFRM.rawtag f s = [] →
      64 ≤ (getL LFRM.bytes f s ++ bytes).length → (getL LFRM.bytes f s ++ bytes).length ≤ portMax p s →
      leNat ((getL LFRM.bytes f s ++ bytes).drop ((getL LFRM.bytes f s ++ bytes).length - 4)) ≠ fcsOf [] ((getL LFRM.bytes f s ++ bytes).take ((getL LFRM.bytes f s ++ bytes).length - 4)) →
      Gives (.frameLastByte p bytes c) s (fun t => rd HPRT.cur p t = 0 ∧ cnt cnt_PRT_rx_fcs_err p t = (cnt cnt_PRT_rx_fcs_err p s + 1) % 2 ^ 64)) ∧
    (rd HPRT.mac p s = 0 → rd HPRT.cur p s = f + 1 → rd FRM.live f s = 1 → rd FRM.stage f s = 0 → rd FRM.refs f s = 0 →
      rd FRM.group f s = 0 → rd FRM.polt f s = 0 →
      Gives (.erroredClose p false) s (fun t => rd HPRT.cur p t = 0 ∧ rd FRM.live f t = 0 ∧ getL LFRM.cells f t = [] ∧
        (rd FRM.head f s ≠ 0 → f ∉ getL LSLC.heads (rd FRM.slice f s) t) ∧
        cnt cnt_PRT_rx_bytes p t = (cnt cnt_PRT_rx_bytes p s + (getL LFRM.bytes f s).length) % 2 ^ 64 ∧
        cnt cnt_SLC_rx_discard_err (rd FRM.slice f s * 64 + rd FRM.port f s % 64) t =
          (cnt cnt_SLC_rx_discard_err (rd FRM.slice f s * 64 + rd FRM.port f s % 64) s + 1) % 2 ^ 64)) ∧
    (headTurn s = some f → rd FRM.stage f s < 2 →
      Gives (.headWordWrite f false) s (fun t => rd FRM.hwords f t = rd FRM.hwords f s + 1 ∧ Silent s t ∧
        Frame ((FRM.hwords, f) :: (getL LFRM.cells f s).map (fun x => (CELL.touched, x))) [] [] s t)) ∧
    (headTurn s = some f → 2 ≤ rd FRM.stage f s → headWords f s = rd FRM.hwords f s + 1 →
      Gives (.headWordWrite f true) s (fun t => rd FRM.head f t = 0 ∧ Silent s t ∧
        cnt cnt_TEL_head_ecc_corr 0 t = (cnt cnt_TEL_head_ecc_corr 0 s + 1) % 2 ^ 64)) ∧
    (rd FRM.head f s ≠ 0 → w < rd FRM.hwords f s →
      Gives (.headBufferEccError f w) s (fun t => Raised 0x1005 [rd FRM.slice f s, rd FRM.port f s, rd FRM.seq f s] s t ∧
        cnt cnt_SLC_head_ecc (rd FRM.slice f s) t = (cnt cnt_SLC_head_ecc (rd FRM.slice f s) s + 1) % 2 ^ 64 ∧
        Frame [(SLC_EVT.ev_head_ecc, rd FRM.slice f s)] [] [(cnt_SLC_head_ecc, rd FRM.slice f s)] s t))

/-- DISPATCH, ENGINE_RESULT, RESULT_RELEASE and RESEQ_SKIP (R86 to R91, R103, R132, R197). -/
def Obligations.EnginesAndOrder : Prop :=
  ∀ (sl sp e q f corr : Nat) (us : List Nat) (s : State),
    (redispatches sl s = [] → nextSlot sl true (rd HSLC.rr sl s) s = some sp → nextOf sl sp true s = some f →
      nextEngine (sl * 64 + rd FRM.port f s % 64) sl s = some e → rd FRM.slice f s = sl →
      Gives (.dispatch sl) s (fun t => rd FRM.stage f t = 1 ∧ rd FRM.eng f t = e ∧
        rd FRM.seq f t = rd SLC_PORT_SEQ.next_seq (sl * 64 + rd FRM.port f s % 64) s % 4096 ∧ Due FRM.disp f 0 t ∧
        rd SLC_PORT_SEQ.next_seq (sl * 64 + rd FRM.port f s % 64) t = (rd SLC_PORT_SEQ.next_seq (sl * 64 + rd FRM.port f s % 64) s + 1) % 4096 ∧
        rd SLC_ENG_STAT.inflight (sl * 8 + e) t = rd SLC_ENG_STAT.inflight (sl * 8 + e) s + 1 ∧ Silent s t)) ∧
    (redispatches sl s = [] → nextSlot sl true (rd HSLC.rr sl s) s = none → nextSlot sl false (rd HSLC.rr2 sl s) s = some sp →
      nextOf sl sp false s = some f → nextEngine (sl * 64 + rd FRM.port f s % 64) sl s = some e → rd FRM.slice f s = sl →
      Gives (.dispatch sl) s (fun t => rd FRM.stage f t = 1 ∧ rd FRM.eng f t = e ∧
        rd FRM.seq f t = rd SLC_PORT_SEQ.next_seq (sl * 64 + rd FRM.port f s % 64) s % 4096 ∧ Due FRM.disp f 0 t ∧
        rd SLC_PORT_SEQ.next_seq (sl * 64 + rd FRM.port f s % 64) t = (rd SLC_PORT_SEQ.next_seq (sl * 64 + rd FRM.port f s % 64) s + 1) % 4096 ∧
        rd SLC_ENG_STAT.inflight (sl * 8 + e) t = rd SLC_ENG_STAT.inflight (sl * 8 + e) s + 1 ∧ Silent s t)) ∧
    (∀ (w : Nat), rd SLC_STATUS.failed sl s = 0 → rd SLC_ENG_STAT.epoch (sl * 8 + e) s = w → frmBySeq sl sp q s = some f →
      rd FRM.stage f s = 1 → rd FRM.eng f s = e → rd FRM.epoch f s = w → engWaits f s = false →
      Gives (.engineResult sl e w sp q corr us) s (fun t => rd FRM.stage f t = 2 ∧
        rd SLC_ENG_STAT.inflight (sl * 8 + e) t = rd SLC_ENG_STAT.inflight (sl * 8 + e) s - 1)) ∧
    (∀ (w : Nat), rd SLC_STATUS.failed sl s = 0 → rd SLC_ENG_STAT.epoch (sl * 8 + e) s = w → frmBySeq sl sp q s = some f →
      engWaits f s = true → Gives (.engineResult sl e w sp q 0 us) s (fun t => Silent s t ∧ Frame [] [] [] s t)) ∧
    (∀ (w : Nat), rd SLC_STATUS.failed sl s = 0 → rd SLC_ENG_STAT.epoch (sl * 8 + e) s ≠ w →
      Gives (.engineResult sl e w sp q corr us) s (fun t => Silent s t ∧
        cnt cnt_SLC_epoch_discard sl t = (cnt cnt_SLC_epoch_discard sl s + 1) % 2 ^ 64 ∧
        cnt cnt_TEL_eng_ecc_corr 0 t = (cnt cnt_TEL_eng_ecc_corr 0 s + corr) % 2 ^ 64 ∧
        Frame [] [] [(cnt_SLC_epoch_discard, sl), (cnt_TEL_eng_ecc_corr, 0)] s t)) ∧
    (rd SLC_STATUS.failed sl s = 0 → oldestOf sl sp s = some f → rd FRM.stage f s = 2 → rd FRM.err f s = 0 → rd FRM.res f s = 4 →
      getL LFRM.mirror f s = [] → rd FRM.inj f s = 0 → rd FRM.refs f s = 0 →
      Gives (.resultRelease sl sp) s (fun t => getL LFRM.cells f t = [] ∧
        rd SLC_PORT_SEQ.oldest (sl * 64 + sp) t = (rd SLC_PORT_SEQ.oldest (sl * 64 + sp) s + 1) % 4096)) ∧
    (∀ (v : Nat), rd SLC_STATUS.failed sl s = 0 → oldestOf sl sp s = some f → rd FRM.stage f s = 2 → rd FRM.err f s = 0 →
      rd FRM.res f s = 1 → rd FRM.adm f s = 0 → rd FRM.pol f s = 0 → getL LFRM.mirror f s = [] → rd FRM.inj f s = 0 →
      rd FRM.node f s = v + 1 → nodePort v s = rd FRM.eg f s → 2 ≤ q → q < 8 → rd FRM.queue f s = q + 1 →
      admitTest f ((8 * v + q) * 4) (rd FRM.eg f s) false s = none → Gives (.resultRelease sl sp) s (fun t =>
        getL LBUF.q ((8 * v + q) * 4) t = getL LBUF.q ((8 * v + q) * 4) s ++ [rd HDSC.next 0 s] ∧ rd FRM.stage f t = 3 ∧
        rd DSC.frame (rd HDSC.next 0 s) t = f % 2 ^ 32 ∧ rd SLC_PORT_SEQ.oldest (sl * 64 + sp) t = (rd SLC_PORT_SEQ.oldest (sl * 64 + sp) s + 1) % 4096)) ∧
    (∀ (w : Nat), rd SLC_STATUS.failed sl s = 1 → Gives (.engineResult sl e w sp q corr us) s (fun t => Silent s t ∧
        cnt cnt_RED_late_slice_discard 0 t = (cnt cnt_RED_late_slice_discard 0 s + 1) % 2 ^ 64 ∧ Frame [] [] [(cnt_RED_late_slice_discard, 0)] s t) ∧
      Gives (.resultRelease sl sp) s (fun t => Silent s t ∧
        cnt cnt_RED_late_slice_discard 0 t = (cnt cnt_RED_late_slice_discard 0 s + 1) % 2 ^ 64 ∧ Frame [] [] [(cnt_RED_late_slice_discard, 0)] s t)) ∧
    (oldestOf sl sp s = some f → rd FRM.stage f s ≠ 2 →
      (touched FRM.live s).any (fun g => rd FRM.slice g s = sl && rd FRM.port g s % 64 = sp && rd FRM.stage g s = 2) = true →
      rd FRM.refs f s = 0 →
      Gives (.reseqSkip sl sp) s (fun t => cnt cnt_SLC_reseq_skip (sl * 64 + sp) t = (cnt cnt_SLC_reseq_skip (sl * 64 + sp) s + 1) % 2 ^ 64 ∧
        (rd HEVT.last (0x1003 * 65536 + sl) s = 0 → rd SLC_EVT.ev_skip sl t = 1) ∧ getL LFRM.cells f t = [] ∧
        rd SLC_PORT_SEQ.oldest (sl * 64 + sp) t = (rd SLC_PORT_SEQ.oldest (sl * 64 + sp) s + 1) % 4096))

/-- ENGINE_WATCHDOG, ENGINE_MEMORY_ERROR, HEARTBEAT, ENGINE_UNFENCE and ENGINE_RETURN_TEST_DONE (R102, R103, R105, R106). -/
def Obligations.EngineFencing : Prop :=
  ∀ (a : Access) (sl e : Nat) (s : State), s.telFifo.length < 1000 → e < 8 → rd SLC_STATUS.serving sl s = 1 → ((List.range 8).filter (fun j => rdB SLC_ENG_STAT.fenced (sl * 8 + j) s)).length < 2 →
    (rd SLC_ENG_STAT.fenced (sl * 8 + e) s = 0 → engFrames sl e s ≠ [] →
      Gives (.engineWatchdog sl e) s (fun t => rd SLC_ENG_STAT.fenced (sl * 8 + e) t = 1 ∧ rd SLC_ENG_STAT.cause (sl * 8 + e) t = 3 ∧
        rd SLC_ENG_STAT.epoch (sl * 8 + e) t = (rd SLC_ENG_STAT.epoch (sl * 8 + e) s + 1) % 16 ∧ rd SLC_ENG_STAT.inflight (sl * 8 + e) t = 0 ∧
        rd SLC_FENCE_LOG.fences sl t = (rd SLC_FENCE_LOG.fences sl s + 1) % 2 ^ SLC_FENCE_LOG.fences.width ∧ rd SLC_EVT.ev_fence sl t = 1 ∧
        t.telFifo.any (fun c => c.code = 0x1001 && c.payload.take 3 = [sl, e, 3] && c.cyc = s.cyc) = true)) ∧
    (∀ (par : Bool), rd SLC_ENG_STAT.fenced (sl * 8 + e) s = 0 → engFrames sl e s = [] →
      Gives (.engineMemoryError sl e par) s (fun t => Raised 0x1001 [sl, e, if par then 2 else 1, 0, 0] s t ∧ rd SLC_ENG_STAT.fenced (sl * 8 + e) t = 1 ∧
        rd SLC_ENG_STAT.cause (sl * 8 + e) t = (if par then 2 else 1) ∧ rd SLC_ENG_STAT.epoch (sl * 8 + e) t = (rd SLC_ENG_STAT.epoch (sl * 8 + e) s + 1) % 16 ∧
        rd SLC_EVT.ev_fence sl t = 1 ∧ rdBit SLC_STATUS.fenced sl e t = true ∧ rd SLC_ENG_STAT.inflight (sl * 8 + e) t = 0 ∧
        rd SLC_FENCE_LOG.fences sl t = (rd SLC_FENCE_LOG.fences sl s + 1) % 2 ^ SLC_FENCE_LOG.fences.width ∧
        Frame [(SLC_ENG_STAT.fenced, sl * 8 + e), (SLC_ENG_STAT.cause, sl * 8 + e), (SLC_ENG_STAT.epoch, sl * 8 + e), (SLC_ENG_STAT.inflight, sl * 8 + e),
          (HSLC.rtest, sl * 8 + e), (SLC_STATUS.fenced, sl), (SLC_FENCE_LOG.engine, sl), (SLC_FENCE_LOG.cause, sl), (SLC_FENCE_LOG.redispatched, sl),
          (SLC_FENCE_LOG.dropped, sl), (SLC_FENCE_LOG.fences, sl), (SLC_EVT.ev_fence, sl)] [] [] s t)) ∧
    (rd PWR_SLICE.state sl s = 0 → rd SLC_ENG_STAT.fenced (sl * 8 + e) s = 0 → engFrames sl e s = [] →
      Gives (.heartbeat sl [e]) s (fun t => rd SLC_ENG_STAT.fenced (sl * 8 + e) t = 1 ∧ rd SLC_ENG_STAT.cause (sl * 8 + e) t = 4 ∧
        rd SLC_ENG_STAT.epoch (sl * 8 + e) t = (rd SLC_ENG_STAT.epoch (sl * 8 + e) s + 1) % 16 ∧ rd SLC_ENG_STAT.inflight (sl * 8 + e) t = 0 ∧
        rd SLC_FENCE_LOG.fences sl t = (rd SLC_FENCE_LOG.fences sl s + 1) % 2 ^ SLC_FENCE_LOG.fences.width ∧
        rd SLC_EVT.ev_fence sl t = 1 ∧ Raised 0x1001 [sl, e, 4, 0, 0] s t) ∧
      Gives (.heartbeat sl []) s (fun t => Due HSLC.hb sl 0 t ∧ Silent s t ∧ Frame ((HSLC.hb, sl) :: timeFlds) [] [] s t)) ∧
    (Accepted a rSLC_ENG_CTRL sl 0xFFFFFFFF (fieldWord SLC_ENG_CTRL.unfence (2 ^ e)) s → by16 sl s = false → rd PWR_SLICE.state sl s = 0 →
      rd SLC_ENG_STAT.fenced (sl * 8 + e) s = 1 → Gives (.engineUnfence a sl (2 ^ e)) s (fun t =>
        rd HSLC.rtest (sl * 8 + e) t = 1 ∧ rd SLC_ENG_STAT.fenced (sl * 8 + e) t = 1)) ∧
    (rd HSLC.rtest (sl * 8 + e) s = 1 →
      Gives (.engineReturnTestDone sl e true) s (fun t => rd SLC_ENG_STAT.fenced (sl * 8 + e) t = 0 ∧ rd SLC_ENG_STAT.cause (sl * 8 + e) t = 0 ∧
        rd HSLC.rtest (sl * 8 + e) t = 0 ∧ Raised 0x1002 [sl, e, rd SLC_ENG_STAT.epoch (sl * 8 + e) s] s t ∧
        Frame [(HSLC.rtest, sl * 8 + e), (SLC_ENG_STAT.fenced, sl * 8 + e), (SLC_ENG_STAT.cause, sl * 8 + e), (SLC_STATUS.fenced, sl),
          (SLC_EVT.ev_fence, sl)] [] [] s t) ∧
      Gives (.engineReturnTestDone sl e false) s (fun t => rd SLC_ENG_STAT.cause (sl * 8 + e) t = 4 ∧ rd HSLC.rtest (sl * 8 + e) t = 0 ∧ Silent s t ∧
        Frame [(HSLC.rtest, sl * 8 + e), (SLC_ENG_STAT.cause, sl * 8 + e)] [] [] s t))

/-- SCHEDULER_SELECT, FRAME_TX_START and FRAME_TX_END (R93, R94, R134, R186, R216, R219). -/
def Obligations.Transmission : Prop :=
  ∀ (p d : Nat) (s : State), pauseCause p s = 0 → sliceAsleep (servSlice p s) s = false →
    (rd HSCH.fly p s = 0 → rd HSCH.sel p s = 0 → (portQueues p s).all (fun c => getL LBUF.q c s = []) = true → gatedPick p s = none →
      (admittedPick p s).1 = none → getL LTIM.tx p s = [] → (bePick p s).1 = none → rd HPRT.cap p s = 1 →
      guardOk p (wirePs p 84 s) s = true →
      Gives (.schedulerSelect p) s (fun t => t.out = s.out ++ [⟨.capFrame, p, capFrame p s ++ leBytes 4 (crcIeee (capFrame p s))⟩] ∧ rd HPRT.cap p t = 0 ∧
        cnt cnt_PRT_tx_frames p t = (cnt cnt_PRT_tx_frames p s + 1) % 2 ^ 64 ∧ cnt cnt_PRT_tx_bytes p t = (cnt cnt_PRT_tx_bytes p s + 64) % 2 ^ 64 ∧
        rd HPRT.capseq p t = (rd HPRT.capseq p s + 1) % 2 ^ 32 ∧ Due HPRT.captx p 0 t ∧ t.telFifo = s.telFifo)) ∧
    (rd HSCH.fly p s = 0 → rd HSCH.sel p s = 0 → rd HBUF.resumed p s = 0 →
      (∀ c ∈ portQueues p s, ∀ x ∈ getL LBUF.q c s, rd DSC.err x s = 0) → gatedPick p s = some d → d < 4294967296 →
      Gives (.schedulerSelect p) s (fun t => rd HSCH.sel p t = d + 1 ∧ Silent s t ∧ Frame ([(HSCH.sel, p), (HSCH.selt, p)] ++ minFlds p s) [(LPWR.slow, 0)] [(cnt_BUF_link_ecc_corr, 0)] s t)) ∧
    (∀ (n mask : Nat), rd HSCH.fly p s = 0 → rd HSCH.sel p s = 0 → rd HBUF.resumed p s = 0 →
      (∀ c ∈ portQueues p s, ∀ x ∈ getL LBUF.q c s, rd DSC.err x s = 0) → gatedPick p s = none → (admittedPick p s).1 = none →
      getL LTIM.tx p s = [] → (bePick p s).1 = some (n, mask) →
      headOf (nodeQ n (pickQueue n (bePick p s).2).1) (pickQueue n (bePick p s).2).2 = some d →
      guardOk p (wirePs p (guardBytes d s) s) s = true → d < 4294967296 →
      Gives (.schedulerSelect p) s (fun t => rd HSCH.sel p t = d + 1 ∧ rd DSC.charged d t = dscCharge d s % 2 ^ 15 ∧ Silent s t)) ∧
    (rd HSCH.sel p s = d + 1 → rd HSCH.fly p s = 0 → rd DSC.live d s = 1 → rd DSC.err d s = 0 → rd FRM.ended (rd DSC.frame d s) s = 1 →
      sentLen d s ≤ portMax p s → lateStale p d s = false → knownBad d 0 1 [] s = [] →
      Gives (.frameTxStart p []) s (fun t => rd HSCH.fly p t = (d + 1) % 2 ^ 33 ∧ rd HSCH.sel p t = 0 ∧
        rd DSC.started d t = 1 ∧ rd DSC.start d t = rd TBC.count 0 t % 2 ^ 96 ∧ d ∉ getL LBUF.q (rd DSC.code d s) t ∧ getL LDSC.tag d t = tagOf d t)) ∧
    (rd HSCH.fly p s = d + 1 → rd DSC.live d s = 1 → rd DSC.eg d s = p →
      (rd DSC.adm d s = 0 ∨ rd FRM.len (rd DSC.frame d s) s ≤ rd STM.maxf (rd DSC.stream d s) s) → rd FRM.ended (rd DSC.frame d s) s = 1 →
      rd DSC.corrupt d s = 0 → sentLen d s ≤ portMax p s → tcForm d s = 0 →
      knownBad d 1 (ceilDiv (getL LFRM.bytes (rd DSC.frame d s) s).length 256) [] s = [] →
      Gives (.frameTxEnd p []) s (fun t => rd HSCH.fly p t = 0 ∧ rd DSC.live d t = 0 ∧
        t.out = s.out ++ [⟨.frame, p, [0] ++ getL LDSC.tag d s ++ sentBody d s ++ leBytes 4 (fcsOf (getL LDSC.tag d s) (sentBody d s))⟩] ∧
        cnt cnt_PRT_tx_bytes p t = (cnt cnt_PRT_tx_bytes p s + sentLen d s) % 2 ^ 64))

/-- WHEEL_PIP, GATE_ENTRY_START, GATE_WINDOW_CLOSE and GCL_SWITCH (R220 to R223, R225, R228, R229). -/
def Obligations.GatesAndWheels : Prop :=
  ∀ (p q b : Nat) (s : State), s.telFifo.length < 1000 →
    (getL LSCH.late 0 s = [] → p % 8192 ≠ 0 → pipNext s = p → getL LSCH.fine (p % 8192) s = [b] → bktPip b s ≤ p →
      rd (bktRateF (bktKind b)) (bktNode b) s ≠ 0 → rd (bktRateF (bktKind b)) (bktNode b) s < 2 ^ BKT.rate.width → rd BKT.rate b s ≠ 0 →
      0 ≤ rdI BKT.tokens b (bktRefill b (now (passTo (4 * p) s)) (passTo (4 * p) s)) →
      Gives .wheelPip s (fun t => rd BKT.place b t = 0 ∧ bktConf b t = true ∧ getL LSCH.fine (p % 8192) t = [] ∧ rd HSCH.pip 0 t = p % 2 ^ HSCH.pip.width ∧
        rd BKT.last b t = now t % 2 ^ BKT.last.width)) ∧
    (getL LSCH.late 0 s = [] → p % 8192 ≠ 0 → pipNext s = p → getL LSCH.fine (p % 8192) s = [] →
      Gives .wheelPip s (fun t => rd HSCH.pip 0 t = p % 2 ^ HSCH.pip.width ∧ Silent s t ∧
        Frame ((HSCH.pip, 0) :: timeFlds) [(LSCH.fine, p % 8192), (LSCH.late, 0)] [] s t)) ∧
    ((schedNow p s).on = true → [0, 1, 2, 3].all (fun q => gatedHere p q s = []) = true → Gives (.gateEntryStart p) s (fun t =>
          (segAt p (schedNow p s) (gateNow p t) s).all (fun e => gateSeg p t = (e.2.2.2, e.2.2.1)) = true ∧
          part SCH_PORT_W7.entry (wordOf rSCH_PORT_W7 p t) = (gateSeg p t).1 % 2 ^ SCH_PORT_W7.entry.width ∧
          part SCH_PORT_W7.open_ (wordOf rSCH_PORT_W7 p t) = (gateSeg p t).2 % 2 ^ SCH_PORT_W7.open_.width ∧
          Silent s t ∧ Frame timeFlds [] [] s t)) ∧
    (∀ (w : Nat × Nat), carryOf p q s = [] → windowNow p q s = some w → carryOf p q (passTb (rd GATE.tb p s) w.2 s) = [b] →
      rd BUF_PORT_STATUS.hold_state p s ≠ 1 → Gives (.gateWindowClose p q) s (fun t => rd DSC.carried b t = 1 ∧
        cnt cnt_SCH_gate_carry p t = (cnt cnt_SCH_gate_carry p s + 1) % 2 ^ 64 ∧ (rd HEVT.last (0x0203 * 65536) s = 0 → rd SCH_EVT.ev_gate_carry 0 t = 1))) ∧
    (∀ (w : Nat × Nat), carryOf p q s = [] → windowNow p q s = some w → carryOf p q (passTb (rd GATE.tb p s) w.2 s) = [] →
      Gives (.gateWindowClose p q) s (fun t => Silent s t ∧ Frame timeFlds [] [] s t)) ∧
    (rd SCH_PORT_W6.list_pending p s = 1 →
      Gives (.gclSwitch p) s (fun t => rd SCH_PORT_W6.list_pending p t = 0 ∧ rd GATE.since p t = 0 ∧ rd SCH_EVT.ev_gcl_switch 0 t = 1 ∧
        rd GATE.list p t = rd SCH_PORT_W2.active_list p s % 2 ∧ rd GATE.enable p t = b2n (rdB SCH_PORT_W2.gate_enable p s) ∧
        Raised 0x0201 ([p, rd SCH_PORT_W2.active_list p s] ++ w64 (cycleFrom (schedNext p s) (rd GATE.since p s - 1))) s t))

/-- POLICER_SWEEP, POLICER_ENABLE, QUEUE_SAMPLE, Q_CLEAR and WATCH_ENTRY_WRITE (R232, R236, R237, R239 to R241). -/
def Obligations.PolicersAndSamples : Prop :=
  ∀ (a : Access) (k v : Nat) (s : State),
    ((touched SCH_POL_W4.enable s).filter (fun k => rdB SCH_POL_W4.enable k s) = [k] →
      Gives .policerSweep s (fun t => rd HPOL.last k t = now t % 2 ^ HPOL.last.width ∧ Silent s t ∧
        Frame [(HPOL.c, k), (HPOL.p, k), (HPOL.last, k), (SCH_POL_W5.c_tokens, k), (SCH_POL_W6.p_tokens, k)] [] [] s t)) ∧
    (Accepted a rSCH_POL_W4 k (fieldWord SCH_POL_W4.enable 1) (fieldWord SCH_POL_W4.enable 1) s → rd SCH_POL_W4.bound k s = 0 →
      rd SCH_POL_W1.cbs k s < 2 ^ 31 → rd SCH_POL_W3.pbs k s < 2 ^ 31 →
      Gives (.policerEnable a k) s (fun t => rd SCH_POL_W4.enable k t = 1 ∧
        rdI HPOL.c k t = rd SCH_POL_W1.cbs k s * 8000000 ∧ rdI HPOL.p k t = rd SCH_POL_W3.pbs k s * 8000000 ∧ Silent s t ∧
        rd SCH_POL_W5.c_tokens k t = rd SCH_POL_W1.cbs k s ∧ rd SCH_POL_W6.p_tokens k t = rd SCH_POL_W3.pbs k s)) ∧
    (rd SCH_CTRL.sample_enable 0 s = 1 → rd SCH_CTRL.sample_scope 0 s = 1 → admQueues s = [] → (watched s).eraseDups = [k] →
      getL LBUF.q k s = [] →
      Gives .queueSample s (fun t => rd SMP.last_s k t = 0 ∧ rd SMP.last_d k t = rd HBUF.q k s % 2 ^ SMP.last_d.width ∧
        Due HSMP.last 0 0 t ∧ cnt cnt_SCH_samples_taken 0 t = (cnt cnt_SCH_samples_taken 0 s + 1) % 2 ^ 64)) ∧
    (Accepted a rSCH_Q_CLEAR 0 0xFFFFFFFF 1 s → rd SCH_Q_SEL.kind 0 s < 3 → rd SCH_Q_SEL.kind 0 s + 4 * rd SCH_Q_SEL.index 0 s = k →
      Gives (.qClear a) s (fun t => rd SMP.clr k t = 1 ∧ rd SMP.min_d k t = 0 ∧ rd SMP.max_d k t = 0 ∧ rd SMP.min_s k t = 0 ∧
        rd SMP.max_s k t = 0 ∧ Silent s t ∧ Frame ([(SMP.clr, k), (SMP.min_d, k), (SMP.max_d, k), (SMP.min_s, k), (SMP.max_s, k), (HAUD.tail, 0)] ++ logFlds)
          ((LAUD.cap, rd HAUD.tail 0 s) :: logLists) [] s t)) ∧
    (Accepted a rSCH_WATCH k 0xFFFFFFFF (v % 2 ^ 32) s →
      Gives (.watchEntryWrite a k v) s (fun t => (∀ b ∈ List.range 32, cnt cnt_SCH_bins (k * 32 + b) t = 0) ∧
        rd SCH_WATCH.enable k t = part SCH_WATCH.enable (v % 2 ^ 32) ∧ Silent s t))

/-- MULTICAST_REPLICATION, CELL_QUARANTINE, HARVEST_SWEEP, HARVEST_SWEEP_END, STALE_CHECK and LINK_HOLD_EXPIRY (R188, R192, R201, R203, R205). -/
def Obligations.BufferWork : Prop :=
  ∀ (p c d k : Nat) (es : List MemErr) (s : State), s.telFifo.length < 1000 →
    (mcPick s = none → Gives (.multicastReplication ⟨k, es⟩) s (fun t => Silent s t ∧ Frame [] [] [] s t)) ∧
    (mcPick s = some c → getL LBUF.q c s = [d] → rd HBUF.mcpos c s = k → k + 1 < mcTotal (rd DSC.frame d s) s → k < 1000 →
      rd FRM.err (rd DSC.frame d s) s = 0 → Gives (.multicastReplication ⟨1, []⟩) s (fun t => rd HBUF.mcpos c t = k + 1)) ∧
    (rd CELL.state c s = 2 → Gives (.cellQuarantine c true) s (fun t => rd CELL.state c t = 0 ∧ rd CELL.bad c t = 0 ∧ Silent s t ∧
        rd BUF_FREE.free 0 t = (rd BUF_FREE.free 0 s + 1) % 2 ^ BUF_FREE.free.width ∧
        cnt cnt_BUF_quarantine_pass 0 t = (cnt cnt_BUF_quarantine_pass 0 s + 1) % 2 ^ 64 ∧
        Frame [(CELL.state, c), (CELL.bad, c), (CELL.badw, c), (CELL.touched, c), (BUF_FREE.free, 0)] [] [(cnt_BUF_quarantine_pass, 0)] s t) ∧
      Gives (.cellQuarantine c false) s (fun t => rd CELL.state c t = 3 ∧ cnt cnt_BUF_quarantine_retire 0 t = (cnt cnt_BUF_quarantine_retire 0 s + 1) % 2 ^ 64 ∧
        rd BUF_RETIRED.retired 0 t = (rd BUF_RETIRED.retired 0 s + 1) % 2 ^ BUF_RETIRED.retired.width ∧
        Raised 0x0103 [c, (rd BUF_RETIRED.retired 0 s + 1) % 2 ^ BUF_RETIRED.retired.width] s t ∧
        Frame [(CELL.state, c), (BUF_RETIRED.retired, 0), (BUF_EVT.ev_retire, 0)] [] [(cnt_BUF_quarantine_retire, 0)] s t)) ∧
    (rd BUF_HARVEST_CFG.harvest_enable 0 s = 1 → rd HBUF.harvest 0 s = 0 →
      Gives .harvestSweep s (fun t => rd HBUF.harvest 0 t = 1 ∧ Due HBUF.hsweep 0 0 t ∧ Silent s t ∧
        ∀ x ∈ touched CELL.touched s, rd CELL.touched x t = 0)) ∧
    (rd HBUF.harvest 0 s = 1 → rd BUF_HARVEST_CFG.harvest_enable 0 s = 1 → unowned s = [] → touched CELL.unowned s = [] →
      Gives .harvestSweepEnd s (fun t => rd HBUF.harvest 0 t = 0 ∧ rd HBUF.swept 0 t = 1 ∧
        rd BUF_HARVEST_STATUS.last_reclaimed 0 t = 0 ∧ rd BUF_HARVEST_STATUS.sweeps 0 t = (rd BUF_HARVEST_STATUS.sweeps 0 s + 1) % 2 ^ BUF_HARVEST_STATUS.sweeps.width ∧
        Silent s t ∧ Frame [(HBUF.harvest, 0), (HBUF.swept, 0), (BUF_HARVEST_STATUS.last_reclaimed, 0), (BUF_HARVEST_STATUS.sweeps, 0)]
          [(LBUF.cells_lost, 0), (LPWR.slow, 0)] [(cnt_BUF_link_ecc_corr, 0)] s t)) ∧
    (rd HBUF.harvest 0 s = 1 → rd BUF_HARVEST_CFG.harvest_enable 0 s = 1 → rd HBUF.swept 0 s = 1 → unowned s = [c] →
      rd CELL.unowned c s = 1 → rd CELL.touched c s = 0 → rd CELL.bad c s = 0 → Gives .harvestSweepEnd s (fun t => rd CELL.state c t = 0 ∧
        cnt cnt_BUF_leak_cells 0 t = (cnt cnt_BUF_leak_cells 0 s + 1) % 2 ^ 64 ∧ Raised 0x0102 [1] s t ∧ rd BUF_EVT.ev_leak 0 t = 1)) ∧
    (rd BUF_PORT_STATUS.hold_state p s = 1 → running HBUF.stale p s = true → portQueues p s = [] →
      Gives (.staleCheck p) s (fun t => Due HBUF.stale p 1000 t ∧ Silent s t ∧ Frame ((HBUF.stale, p) :: timeFlds) [] [] s t)) ∧
    (rd BUF_PORT_STATUS.hold_state p s = 1 → running HBUF.stale p s = true → portQueues p s = [c] → getL LBUF.q c s = [d] →
      rd DSC.code d s = c → rd DSC.eg d s = p → c % 4 = 0 →
      stale d (arm HBUF.stale p 1000 (disarm HBUF.stale p (passTo (rd HBUF.stale p s - 1) s))) = true →
      Gives (.staleCheck p) s (fun t => getL LBUF.q c t = [] ∧
        cnt cnt_BUF_stale_drop p t = (cnt cnt_BUF_stale_drop p s + 1) % 2 ^ 64)) ∧
    (rd BUF_PORT_STATUS.hold_state p s = 1 → running HBUF.hold p s = true →
      (∀ c ∈ portQueues p s, ∀ x ∈ getL LBUF.q c s, rd DSC.code x s = c) →
      Gives (.linkHoldExpiry p) s (fun t => rd BUF_PORT_STATUS.hold_state p t = 2 ∧ rd BUF_PORT_STATUS.hold_left p t = 0 ∧
        running HBUF.hold p t = false ∧ running HBUF.stale p t = false ∧ (∀ c ∈ portQueues p s, getL LBUF.q c t = []) ∧ Raised 0x0105 [p, ((portQueues p s).flatMap (fun c => getL LBUF.q c s)).length] s t))

/-- TABLE_READ, TABLE_WRITE, TABLE_INSERT, TABLE_DELETE, TABLE_UPDATE_DATA, TABLE_SEARCH and TABLE_MOVE (R148 to R166). -/
def Obligations.TableCommands : Prop :=
  ∀ (a : Access) (i j : Nat) (b : Bool) (s : State),
    (Accepted a rTBL_CMD 4 0xFFFFFFFF (tblWord 1 i true false) s → i < 524288 → entryBad 4 i s = false →
      Gives (.tableRead a 4 i []) s (fun t => rd TBL_STATUS.busy 4 t = 1 ∧ rd HTBL.res 4 t = 0 ∧ rd TBL_DATA.data 32 t = tget 4 i s % 2 ^ 32 ∧ rd HTBL.res_idx 4 t = i ∧
        t.tbl = s.tbl ∧ Silent s t ∧ Frame ([(TBL_DATA.data, 32), (TBL_STATUS.busy, 4), (HTBL.res, 4), (HTBL.res_idx, 4), (HAUD.tail, 0)] ++ logFlds) ((LAUD.cap, rd HAUD.tail 0 s) :: logLists) [] s t)) ∧
    (Accepted a rTBL_CMD 4 0xFFFFFFFF (tblWord 2 i true false) s → rd TBL_CTRL.frozen 0 s = 0 → i < 524288 →
      (bitOf (tdata 4 0 s) 18 = true → nhState (bitsOf (tdata 4 0 s) 0 18) s = 1) →
      Gives (.tableWrite a 4 i) s (fun t => rd TBL_STATUS.busy 4 t = 1 ∧ rd HTBL.res 4 t = 0 ∧
        t.tbl = (tset 4 i (tdata 4 0 s % 2 ^ 19) s).tbl ∧ Silent s t)) ∧
    (Accepted a rTBL_CMD 0 0xFFFFFFFF (tblWord 3 j false false) s → rd TBL_CTRL.frozen 0 s = 0 → emEntryBad (dataE1 s) s = none →
      (candSlots (slotKind (dataE1 s)) (slotWidth (dataE1 s)) (dataKey s) s).find? (slotMatches (slotKind (dataE1 s)) (slotWidth (dataE1 s)) (dataKey s) s) = none →
      placeFor (slotKind (dataE1 s)) (slotWidth (dataE1 s)) (dataKey s) s = some i → i < 2097152 →
      Gives (.tableInsert a 0 j) s (fun t => rd TBL_STATUS.busy 0 t = 1 ∧ rd HTBL.res 0 t = 0 ∧
        rd HTBL.res_idx 0 t = i ∧ t.tbl = (slotWrite i (freshSlot (dataE1 s) s) (dataE2 s) s).tbl ∧ Silent s t)) ∧
    (Accepted a rTBL_CMD 1 0xFFFFFFFF (tblWord 3 j false false) s → rd TBL_CTRL.frozen 0 s = 0 → dataPrefix s = some i →
      destInRange (bitsOf (tdata 1 5 s) 0 20) = true → destActive (bitsOf (tdata 1 5 s) 0 20) s = true → lpmDest i s = none →
      rd HTBL.lpm_units 0 s + lpmUnits i ≤ 1048576 →
      Gives (.tableInsert a 1 j) s (fun t => rd TBL_STATUS.busy 1 t = 1 ∧ rd HTBL.res 1 t = 0 ∧
        getL LTBL.lpm 0 t = [3, i, bitsOf (tdata 1 5 s) 0 20] ∧ t.tbl = s.tbl ∧ Silent s t)) ∧
    (Accepted a rTBL_CMD 0 0xFFFFFFFF (tblWord 4 i b false) s → rd TBL_CTRL.frozen 0 s = 0 → (b = false → keyBad (dataE1 s) = false) →
      emTarget i b s = some j → streamLocked j none s = false → j < 2097152 →
      Gives (.tableDelete a 0 i b) s (fun t => rd TBL_STATUS.busy 0 t = 1 ∧ rd HTBL.res 0 t = 0 ∧
        rd HTBL.res_idx 0 t = j ∧ t.tbl = (slotClear j s).tbl ∧ Silent s t)) ∧
    (Accepted a rTBL_CMD 2 0xFFFFFFFF (tblWord 4 i true false) s → rd TBL_CTRL.frozen 0 s = 0 → i < 262144 → nhState i s = 1 →
      rd HTBL.refs i s = 0 →
      Gives (.tableDelete a 2 i true) s (fun t => rd TBL_STATUS.busy 2 t = 1 ∧ rd HTBL.res 2 t = 0 ∧ nhState i t = 2 ∧ Due HTBL.retire i 2000 t ∧
        t.tbl = (tset 2 i (putBits (tget 2 i s) 96 2 2) s).tbl ∧ Silent s t)) ∧
    (Accepted a rTBL_CMD 2 0xFFFFFFFF (tblWord 5 i true false) s → rd TBL_CTRL.frozen 0 s = 0 → i < 262144 → nhState i s = 1 →
      Gives (.tableUpdateData a 2 i true) s (fun t => rd TBL_STATUS.busy 2 t = 1 ∧ rd HTBL.res 2 t = 0 ∧ nhState i t = 1 ∧
        t.tbl = (tset 2 i (putBits (cleanEntry 2 (tdataNat 2 0 4 s)) 96 2 1) s).tbl ∧ Silent s t)) ∧
    (Accepted a rTBL_CMD 0 0xFFFFFFFF (tblWord 6 0 false false) s → keyBad (dataE1 s) = false → emTarget 0 false s = some j →
      slotBad j s = false → j < 2097152 →
      Gives (.tableSearch a 0 false []) s (fun t => rd TBL_STATUS.busy 0 t = 1 ∧ rd HTBL.res 0 t = 0 ∧ rd HTBL.res_idx 0 t = j ∧
        tdataNat 0 0 4 t = tget 0 j s % 2 ^ 128 ∧ t.tbl = s.tbl ∧ Silent s t)) ∧
    (Accepted a rTBL_CMD 0 0xFFFFFFFF (tblWord 7 i true false) s → rd TBL_CTRL.frozen 0 s = 0 → i < 2097152 → slotValid i s = true →
      rd TBL_MOVE_DEST.dest 0 s = j → (candSlots (slotKind (tget 0 i s)) (slotWidth (tget 0 i s)) (slotKey i s) s).contains j = true →
      slotEmpty s j = true → (slotWidth (tget 0 i s) = 2 → j % 2 = 0 ∧ slotEmpty s (j + 1) = true) → j < 2097152 →
      Gives (.tableMove a 0 i) s (fun t => rd TBL_STATUS.busy 0 t = 1 ∧ rd HTBL.res 0 t = 0 ∧ rd HTBL.res_idx 0 t = j ∧
        t.tbl = (slotWrite j (tget 0 i s) (tget 0 (i + 1) s) (slotClear i s)).tbl ∧ Silent s t)) ∧
    (rd TBL_CTRL.frozen 0 s = 1 → j < 6 → Accepted a rTBL_CMD j 0xFFFFFFFF (tblWord 2 i true false) s →
      Gives (.tableWrite a j i) s (fun t => rd TBL_STATUS.busy j t = 1 ∧ rd HTBL.res j t = 13 ∧ t.tbl = s.tbl ∧ Silent s t))

/-- TABLE_COMMAND_DONE, RETIRE_FREE, AGE_TICK, TICK_MS_WRITE, AGEING_SCAN, LEARN_REQUEST and TABLE_SCRUB (R162, R166, R170 to R174). -/
def Obligations.TableUpkeep : Prop :=
  ∀ (a : Access) (k i j d : Nat) (s : State), rd TBL_CTRL.frozen 0 s = 0 →
    (rd TBL_STATUS.busy k s = 1 → k ≠ 1 →
      Gives (.tableCommandDone k) s (fun t => rd TBL_STATUS.busy k t = 0 ∧ rd TBL_STATUS.result k t = rd HTBL.res k s % 2 ^ TBL_STATUS.result.width ∧
        rd TBL_STATUS.index k t = rd HTBL.res_idx k s % 2 ^ TBL_STATUS.index.width ∧ t.tbl = s.tbl ∧ Silent s t ∧
        Frame [(TBL_STATUS.busy, k), (TBL_STATUS.result, k), (TBL_STATUS.index, k)] [] [] s t)) ∧
    (rd TBL_STATUS.busy 1 s = 1 → getL LTBL.lpm 0 s = [3, k, d] → rd HTBL.refs (refKey d) s < 1000000 → destActive d s = true →
      Gives (.tableCommandDone 1) s (fun t => rd TBL_STATUS.busy 1 t = 0 ∧ lpmDest k t = some d ∧ t.tbl = (tset 1 k (d + 1) s).tbl ∧
        rd HTBL.refs (refKey d) t = rd HTBL.refs (refKey d) s + 1 ∧ getL LTBL.lpm 0 t = [] ∧ Silent s t)) ∧
    (rd TBL_STATUS.busy 1 s = 1 → getL LTBL.lpm 0 s = [3, k, d] → destActive d s = false →
      Gives (.tableCommandDone 1) s (fun t => rd TBL_STATUS.busy 1 t = 0 ∧ rd TBL_STATUS.result 1 t = 7 ∧
        t.tbl = s.tbl ∧ getL LTBL.lpm 0 t = [] ∧ Silent s t)) ∧
    (nhState i s = 2 → running HTBL.retire i s = true →
      Gives (.retireFree 2 i) s (fun t => nhState i t = 0 ∧ t.tbl = (tset 2 i 0 s).tbl ∧ running HTBL.retire i t = false ∧ Silent s t)) ∧
    (Gives .ageTick s (fun t => rd TBL_AGE_NOW.now 0 t = (rd TBL_AGE_NOW.now 0 s + 1) % 2 ^ TBL_AGE_NOW.now.width ∧ Silent s t ∧
        Frame ([(TBL_AGE_NOW.now, 0), (HTBL.tick_last, 0)] ++ timeFlds) [] [] s t)) ∧
    (Accepted a rTBL_AGE_CFG 0 (fieldWord TBL_AGE_CFG.tick_ms 65535) (fieldWord TBL_AGE_CFG.tick_ms i) s → 0 < i → i < 65536 →
      (rd TBC.pll_locked 0 s = 0 ∨ now s < rd HTBL.tick_last 0 s + i * 1000000) →
      Gives (.tickMsWrite a i) s (fun t => rd TBL_AGE_CFG.tick_ms 0 t = i ∧
        rd TBL_AGE_CFG.age_limit 0 t = rd TBL_AGE_CFG.age_limit 0 s ∧ rd TBL_AGE_NOW.now 0 t = rd TBL_AGE_NOW.now 0 s ∧ Silent s t)) ∧
    (Accepted a rTBL_AGE_CFG 0 (fieldWord TBL_AGE_CFG.tick_ms 65535) (fieldWord TBL_AGE_CFG.tick_ms i) s → 0 < i → i < 65536 →
      rd TBC.pll_locked 0 s = 1 → rd HTBL.tick_last 0 s + i * 1000000 ≤ now s →
      Gives (.tickMsWrite a i) s (fun t => rd TBL_AGE_CFG.tick_ms 0 t = i ∧
        rd TBL_AGE_NOW.now 0 t = (rd TBL_AGE_NOW.now 0 s + 1) % 2 ^ TBL_AGE_NOW.now.width)) ∧
    (rd TBL_CTRL.scan_enable 0 s = 1 → getL LTBL.flush 0 s = [] →
      (∀ x ∈ List.range 8, slotValid (8 * rd HTBL.scan 0 s + x) s = false ∧ rd HTBL.bad (badKey 0 (8 * rd HTBL.scan 0 s + x)) s = 0) →
      Gives (.ageingScan []) s (fun t => t.tbl = s.tbl ∧
        rd HTBL.scan 0 t = (rd HTBL.scan 0 s + 1) % 2 ^ HTBL.scan.width ∧ Silent s t ∧ Frame [(HTBL.scan, 0), (HTBL.thaw_left, 0)] [(LTBL.flush, 0)] [] s t)) ∧
    (rd TBL_CTRL.scan_enable 0 s = 1 → getL LTBL.flush 0 s = [] → 8 * rd HTBL.scan 0 s = i → slotValid i s = true →
      slotWidth (tget 0 i s) = 1 → slotKind (tget 0 i s) = 0 → slotStatic (tget 0 i s) = false → slotRef (tget 0 i s) = none →
      rd TBL_PART_CFG.age_en 0 s = 1 → rd TBL_AGE_CFG.age_limit 0 s < ageOf (tget 0 i s) s →
      (∀ x ∈ List.range 8, (x ≠ 0 → slotValid (i + x) s = false) ∧ rd HTBL.bad (badKey 0 (i + x)) s = 0) →
      Gives (.ageingScan []) s (fun t =>
        t.tbl = (tset 0 i 0 s).tbl ∧ cnt cnt_TBL_age_removed 0 t = (cnt cnt_TBL_age_removed 0 s + 1) % 2 ^ 64 ∧ Silent s t)) ∧
    (getL LTBL.fifo 0 s = [(i * 2 ^ 48 + j) * 1024 + d] → i < 4096 → j < 2 ^ 48 → d < 1024 → rd HTBL.thaw_left 0 s = 0 →
      emFind 0 1 (l2Key i j) s = none → (∀ x ∈ candSlots 0 1 (l2Key i j) s, rd HTBL.bad (badKey 0 x) s = 0) →
      placeFor 0 1 (l2Key i j) s = some k → Gives .learnRequest s (fun t => getL LTBL.fifo 0 t = [] ∧
        t.tbl = (tset 0 k (learnedEntry i j d s) s).tbl ∧ cnt cnt_TBL_learn_new 0 t = (cnt cnt_TBL_learn_new 0 s + 1) % 2 ^ 64 ∧
        rd TBL_LEARN_STATUS.fifo_depth 0 t = 0 ∧ Silent s t)) ∧
    (rd TBL_CTRL.scrub_enable 0 s = 1 → (touched HTBL.bad s).filter (fun x => 2 ^ 22 ≤ x && rdB HTBL.bad x s) = [k] →
      Gives (.tableScrub []) s (fun t => rd TBL_PARITY_LOG.table 0 t = k / 2 ^ 22 % 2 ^ TBL_PARITY_LOG.table.width ∧
        rd TBL_PARITY_LOG.index 0 t = k % 2 ^ 22 % 2 ^ TBL_PARITY_LOG.index.width ∧ t.tbl = s.tbl ∧
        cnt cnt_TBL_fwd_parity_miss 0 t = (cnt cnt_TBL_fwd_parity_miss 0 s + 1) % 2 ^ 64 ∧
        (rd HEVT.last (0x3001 * 65536 + k / 2 ^ 22) s = 0 → rd TBL_EVT.ev_parity 0 t = 1))) ∧
    (rd TBL_CTRL.scrub_enable 0 s = 1 → (touched HTBL.bad s).filter (fun x => 2 ^ 22 ≤ x && rdB HTBL.bad x s) = [] →
      Gives (.tableScrub []) s (fun t => Silent s t ∧ Frame [] [] [] s t))

/-- RULE_WRITE, RULE_READ, RULE_INVALIDATE, RULE_MOVE, RULE_CLEAR_HITS, RULE_COMMAND_DONE and RULE_SCRUB (R130, R138 to R141). -/
def Obligations.RuleCommands : Prop :=
  ∀ (a : Access) (sl i d : Nat) (s : State), s.telFifo.length < 1000 → sl < 17 → i < 65536 → by16 sl s = false → rd PWR_SLICE.state sl s = 0 →
    (Accepted a rSLC_RULE_CMD sl 0xFFFFFFFF (ruleWord 1 i) s → actsBad sl (ruleActs (ruleRegs sl s)) s = false →
      Gives (.ruleWrite a sl i) s (fun t => getL LRULE.rule (sl * 65536 + i) t = ruleRegs sl s ∧ rd SLC_RULE_STATUS.busy sl t = 1 ∧
        rd HRULE.res sl t = 0 ∧ rd HRULE.inval (sl * 65536 + i) t = 0 ∧ Silent s t)) ∧
    (Accepted a rSLC_RULE_CMD sl 0xFFFFFFFF (ruleWord 2 i) s → Gives (.ruleRead a sl i) s (fun t => rd SLC_RULE_STATUS.busy sl t = 1 ∧
        (∀ n ∈ List.range 20, rd SLC_RULE_KEY.word (sl * 20 + n) t = (ruleWords (sl * 65536 + i) s).getD (1 + n) 0 % 2 ^ 32 ∧
          rd SLC_RULE_MASK.word (sl * 20 + n) t = (ruleWords (sl * 65536 + i) s).getD (21 + n) 0 % 2 ^ 32) ∧
        (∀ n ∈ List.range 16, rd SLC_RULE_ACT.word (sl * 16 + n) t = (ruleWords (sl * 65536 + i) s).getD (41 + n) 0 % 2 ^ 32) ∧ Silent s t)) ∧
    (Accepted a rSLC_RULE_CMD sl 0xFFFFFFFF (ruleWord 3 i) s → (getL LRULE.rule (sl * 65536 + i) s).length = 57 →
      Gives (.ruleInvalidate a sl i) s (fun t => getL LRULE.rule (sl * 65536 + i) t = 0 :: (getL LRULE.rule (sl * 65536 + i) s).tail ∧
        rd SLC_RULE_STATUS.busy sl t = 1 ∧ rd HRULE.res sl t = 0 ∧ Silent s t)) ∧
    (Accepted a rSLC_RULE_CMD sl 0xFFFFFFFF (ruleWord 4 i) s → rd SLC_RULE_DEST.dest sl s = d → d ≠ i →
      (ruleWords (sl * 65536 + d) s).headD 0 ≠ 1 →
      Gives (.ruleMove a sl i) s (fun t => getL LRULE.rule (sl * 65536 + d) t = ruleWords (sl * 65536 + i) s ∧
        getL LRULE.rule (sl * 65536 + i) t = 0 :: (ruleWords (sl * 65536 + i) s).tail ∧ rd SLC_RULE_STATUS.busy sl t = 1 ∧ rd HRULE.res sl t = 0 ∧
        cnt cnt_SLC_rule_hits (sl * 65536 + d) t = cnt cnt_SLC_rule_hits (sl * 65536 + i) s % 2 ^ 64 ∧ cnt cnt_SLC_rule_hits (sl * 65536 + i) t = 0 ∧ Silent s t)) ∧
    (Accepted a rSLC_RULE_CMD sl 0xFFFFFFFF (ruleWord 5 i) s →
      Gives (.ruleClearHits a sl i) s (fun t => cnt cnt_SLC_rule_hits (sl * 65536 + i) t = 0 ∧ rd SLC_RULE_STATUS.busy sl t = 1 ∧ Silent s t ∧
        Frame ([(SLC_RULE_STATUS.busy, sl), (HRULE.res, sl), (HRULE.val, sl), (HAUD.tail, 0)] ++ logFlds) ((LAUD.cap, rd HAUD.tail 0 s) :: logLists) [(cnt_SLC_rule_hits, sl * 65536 + i)] s t)) ∧
    (rd SLC_RULE_STATUS.busy sl s = 1 →
      Gives (.ruleCommandDone sl) s (fun t => rd SLC_RULE_STATUS.busy sl t = 0 ∧ rd SLC_RULE_STATUS.result sl t = rd HRULE.res sl s % 2 ^ SLC_RULE_STATUS.result.width ∧
        rd SLC_RULE_STATUS.valid sl t = rd HRULE.val sl s % 2 ∧ Silent s t ∧
        Frame [(SLC_RULE_STATUS.busy, sl), (SLC_RULE_STATUS.result, sl), (SLC_RULE_STATUS.valid, sl)] [] [] s t)) ∧
    (rd SLC_CLS_CTRL.rule_scrub sl s = 1 → touched HRULE.bad s = [] → rd HRULE.inval (sl * 65536 + i) s = 0 →
      Gives (.ruleScrub sl [i]) s (fun t => rd HRULE.inval (sl * 65536 + i) t = 1 ∧ rd SLC_RULE_PARITY_LOG.index sl t = i ∧
        rd SLC_CLS_EVT.ev_rule_parity sl t = 1 ∧ Raised 0x1006 [sl, i] s t))

/-- REPORT, TRANSFER and ACK (R267 to R269). A REPORT carries its origin's budget, draw, slack, state, stretch and cap. -/
def Obligations.PowerGroupMessages : Prop :=
  ∀ (p group origin seq target tid watts draw slack state stretch cap : Nat) (s : State), s.telFifo.length < 1000 → watts < 65536 → draw < 65536 → state < 256 →
    (portHears p s = true → running HPRT.quiet2 p s = false → group ≠ rd FAB_PG_CFG.group_id 0 s →
      Gives (.report p group origin seq watts draw slack state stretch cap false) s (fun t => Silent s t ∧
        cnt cnt_FAB_pg_bad 0 t = (cnt cnt_FAB_pg_bad 0 s + 1) % 2 ^ 64 ∧ Frame [] [] [(cnt_FAB_pg_bad, 0)] s t)) ∧
    (portHears p s = true → running HPRT.quiet2 p s = false →
      Gives (.ack p group origin seq target tid ⟨watts, state⟩ true) s (fun t => Silent s t ∧
        cnt cnt_FAB_pg_bad 0 t = (cnt cnt_FAB_pg_bad 0 s + 1) % 2 ^ 64 ∧ Frame [] [] [(cnt_FAB_pg_bad, 0)] s t)) ∧
    (portHears p s = true → running HPRT.quiet2 p s = false → rd PRT_PORT_STATUS.tag_active p s ≠ 0 → group = rd FAB_PG_CFG.group_id 0 s →
      inGroup s = true → pgNewer origin seq s = false →
      Gives (.transfer p group origin seq target tid ⟨watts, state⟩ false) s (fun t => Silent s t ∧
        cnt cnt_FAB_pg_rx 0 t = (cnt cnt_FAB_pg_rx 0 s + 1) % 2 ^ 64 ∧ Frame [] [] [(cnt_FAB_pg_rx, 0)] s t)) ∧
    (portHears p s = true → running HPRT.quiet2 p s = false → rd PRT_PORT_STATUS.tag_active p s ≠ 0 → group = rd FAB_PG_CFG.group_id 0 s →
      inGroup s = true → pgNewer origin seq s = true → cap = rd PWR_PG_CFG.group_cap 0 s →
      Gives (.report p group origin seq watts draw slack state stretch cap false) s (fun t => rd PGM.seq origin t = seq % 65536 + 1 ∧ cnt cnt_FAB_pg_rx 0 t = (cnt cnt_FAB_pg_rx 0 s + 1) % 2 ^ 64 ∧ rd PGM.member origin t = 1 ∧
        rd PGM.budget origin t = watts ∧ rd PGM.draw origin t = draw ∧ rd PGM.state origin t = state ∧ Due PGM.last origin 0 t ∧
        (∀ q ∈ pgPorts s, q ≠ p → pauseCause q s = 0 → PgSent q [1, group, origin, seq, 0, 0, watts, draw, slack, state, stretch, cap] s t))) ∧
    (portHears p s = true → running HPRT.quiet2 p s = false → rd PRT_PORT_STATUS.tag_active p s ≠ 0 → group = rd FAB_PG_CFG.group_id 0 s →
      inGroup s = true → pgNewer origin seq s = true → cap ≠ rd PWR_PG_CFG.group_cap 0 s → rd PWR_PG_STATUS.joining 0 s = 0 →
      Gives (.report p group origin seq watts draw slack state stretch cap false) s (fun t => rd PGM.seq origin t = seq % 65536 + 1 ∧ cnt cnt_FAB_pg_rx 0 t = (cnt cnt_FAB_pg_rx 0 s + 1) % 2 ^ 64 ∧ rd PGM.member origin t = 0 ∧
        Raised 0x0A09 [origin, cap] s t ∧ rd FAB_EVT.ev_pg 0 t = 1)) ∧
    (portHears p s = true → running HPRT.quiet2 p s = false → rd PRT_PORT_STATUS.tag_active p s ≠ 0 → group = rd FAB_PG_CFG.group_id 0 s →
      inGroup s = true → pgNewer origin seq s = true → target = rd FAB_CTRL.device_id 0 s → rd PWR_PG_STATUS.joining 0 s = 0 →
      tid ∉ getL LPGM.seen origin s → rd PWR_PG_STATUS.budget 0 s + watts < 2 ^ PWR_PG_STATUS.budget.width →
      Gives (.transfer p group origin seq target tid ⟨watts, state⟩ false) s (fun t => rd PGM.seq origin t = seq % 65536 + 1 ∧ cnt cnt_FAB_pg_rx 0 t = (cnt cnt_FAB_pg_rx 0 s + 1) % 2 ^ 64 ∧
        rd PWR_PG_STATUS.budget 0 t = rd PWR_PG_STATUS.budget 0 s + watts ∧ tid ∈ getL LPGM.seen origin t ∧ (getL LPGM.seen origin t).length ≤ 16 ∧
        (∀ q ∈ pgPorts s, q ≠ p → pauseCause q s = 0 → PgSent q [2, group, origin, seq, target, tid, watts, 0, 0, state, 0, 0] s t) ∧
        cnt cnt_PWR_pg_watts_in 0 t = (cnt cnt_PWR_pg_watts_in 0 s + watts) % 2 ^ 64 ∧
        (∀ q ∈ pgPorts s, pauseCause q s = 0 → PgSent q [3, group, target, rd HPG.seq 0 s, origin, tid, watts, 0, 0, rd PWR_STATUS.p_state 0 s + 128 * b2n (critPath s), 0, 0] s t))) ∧
    (portHears p s = true → running HPRT.quiet2 p s = false → rd PRT_PORT_STATUS.tag_active p s ≠ 0 → group = rd FAB_PG_CFG.group_id 0 s →
      inGroup s = true → pgNewer origin seq s = true → target = rd FAB_CTRL.device_id 0 s → rd PWR_PG_STATUS.joining 0 s = 0 →
      tid ∈ getL LPGM.seen origin s →
      Gives (.transfer p group origin seq target tid ⟨watts, state⟩ false) s (fun t => rd PGM.seq origin t = seq % 65536 + 1 ∧ cnt cnt_FAB_pg_rx 0 t = (cnt cnt_FAB_pg_rx 0 s + 1) % 2 ^ 64 ∧
        rd PWR_PG_STATUS.budget 0 t = rd PWR_PG_STATUS.budget 0 s ∧ cnt cnt_PWR_pg_watts_in 0 t = cnt cnt_PWR_pg_watts_in 0 s ∧
        (∀ q ∈ pgPorts s, q ≠ p → pauseCause q s = 0 → PgSent q [2, group, origin, seq, target, tid, watts, 0, 0, state, 0, 0] s t) ∧
        (∀ q ∈ pgPorts s, pauseCause q s = 0 → PgSent q [3, group, target, rd HPG.seq 0 s, origin, tid, watts, 0, 0, rd PWR_STATUS.p_state 0 s + 128 * b2n (critPath s), 0, 0] s t))) ∧
    (portHears p s = true → running HPRT.quiet2 p s = false → rd PRT_PORT_STATUS.tag_active p s ≠ 0 → group = rd FAB_PG_CFG.group_id 0 s →
      inGroup s = true → pgNewer origin seq s = true → target = rd FAB_CTRL.device_id 0 s →
      Gives (.ack p group origin seq target tid ⟨watts, state⟩ false) s (fun t => rd PGM.seq origin t = seq % 65536 + 1 ∧ cnt cnt_FAB_pg_rx 0 t = (cnt cnt_FAB_pg_rx 0 s + 1) % 2 ^ 64 ∧ rd PWR_PG_STATUS.budget 0 t = rd PWR_PG_STATUS.budget 0 s ∧
        pgOuts (getL LPG.out 0 t) = (pgOuts (getL LPG.out 0 s)).filter (fun x => !(x.1 = tid && x.2.1 = origin)) ∧
        rd FAB_PG_STATUS.pending 0 t = (pgOuts (getL LPG.out 0 t)).length % 2 ^ FAB_PG_STATUS.pending.width ∧ t.telFifo = s.telFifo ∧
        (∀ q ∈ pgPorts s, q ≠ p → pauseCause q s = 0 → PgSent q [3, group, origin, seq, target, tid, watts, 0, 0, state, 0, 0] s t)))

/-- PG_REPORT_TIMER, PG_MEMBER_TIMEOUT, TRANSFER_RESEND, PG_TRANSFER_LOST, PG_JOIN_LISTEN_END and CLAIM (R268, R269, R338 to R341). -/
def Obligations.PowerGroupTimers : Prop :=
  ∀ (a : Access) (x tid watts f d u : Nat) (s : State), s.telFifo.length < 1000 →
    (rd HRED.gap 0 s = 0 → rd HRED.restart 0 s = 0 → running HPG.next 0 s = true → rd PWR_PG_STATUS.joining 0 s = 0 → pgMembers s = [] →
      Gives .pgReportTimer s (fun t => Due HPG.next 0 10000000 t ∧ rd HPG.seq 0 t = (rd HPG.seq 0 s + 1) % 2 ^ HPG.seq.width ∧
        rd PWR_PG_STATUS.budget 0 t = rd PWR_PG_STATUS.budget 0 s ∧ getL LPG.out 0 t = getL LPG.out 0 s ∧
        (∀ q ∈ pgPorts s, pauseCause q s = 0 → PgSent q [1, rd FAB_PG_CFG.group_id 0 s, rd FAB_CTRL.device_id 0 s, rd HPG.seq 0 s, 0, 0,
          rd PWR_PG_STATUS.budget 0 s, rd PWR_DRAW.draw 0 s, rd FAB_PG_STATUS.own_slack 0 s,
          rd PWR_STATUS.p_state 0 s + 128 * b2n (critPath s), rd HPWR.duty10 0 s, rd PWR_PG_CFG.group_cap 0 s] s t))) ∧
    (rd HRED.gap 0 s = 0 → rd HRED.restart 0 s = 0 → running HPG.next 0 s = true → rd PWR_PG_STATUS.joining 0 s ≠ 0 →
      Gives .pgReportTimer s (fun t => Due HPG.next 0 10000000 t ∧ Silent s t ∧ Frame ((HPG.next, 0) :: timeFlds) [] [] s t)) ∧
    (rd HRED.gap 0 s = 0 → rd HRED.restart 0 s = 0 → rd HPG.next 0 s = now s + 1 → rd PWR_PG_STATUS.joining 0 s = 0 → pgMembers s = [x] →
      x ≠ rd FAB_CTRL.device_id 0 s → now s ≤ rd PGM.last x s - 1 + 30000000 → bitOf (rd PGM.state x s) 7 = false → critPath s = false →
      rd PGM.budget x s + 5 ≤ fairShare s → fairShare s + 5 ≤ rd PWR_PG_STATUS.budget 0 s →
      rd PWR_PG_CTRL.donor_margin 0 s + 5 + rd PWR_DRAW.draw 0 s ≤ rd PWR_PG_STATUS.budget 0 s → pgOuts (getL LPG.out 0 s) = [] →
      getL LPG.lost 0 s = [] → rd PWR_PG_CTRL.pg_min 0 s + 5 ≤ rd PWR_PG_STATUS.budget 0 s → rd PWR_PG_STATUS.budget 0 s < 2048 →
      rd HPG.tid 0 s < 65536 → rd HPG.seq 0 s < 65535 → Gives .pgReportTimer s (fun t =>
        rd PWR_PG_STATUS.budget 0 t = rd PWR_PG_STATUS.budget 0 s - 5 ∧ pgOuts (getL LPG.out 0 t) = [(rd HPG.tid 0 s, x, 5, now s, now s)] ∧
        cnt cnt_PWR_pg_watts_out 0 t = (cnt cnt_PWR_pg_watts_out 0 s + 5) % 2 ^ 64 ∧ rd HPG.seq 0 t = (rd HPG.seq 0 s + 2) % 2 ^ HPG.seq.width ∧
        (∀ q ∈ pgPorts s, pauseCause q s = 0 → PgSent q [2, rd FAB_PG_CFG.group_id 0 s, rd FAB_CTRL.device_id 0 s, rd HPG.seq 0 s + 1, x,
          rd HPG.tid 0 s, 5, 0, 0, rd PWR_STATUS.p_state 0 s + 128 * b2n (critPath s), 0, 0] s t))) ∧
    (rd PGM.member x s ≠ 0 → rd PWR_PG_STATUS.joining 0 s = 0 → (pgMembers (wr PGM.member x 0 s)).length = d →
      d ≠ rd FAB_PG_STATUS.members 0 s → Gives (.pgMemberTimeout x) s (fun t => rd PGM.member x t = 0 ∧
        rd FAB_PG_STATUS.members 0 t = d % 2 ^ FAB_PG_STATUS.members.width ∧ Raised 0x0A07 [d] s t ∧ rd FAB_EVT.ev_pg 0 t = 1 ∧ t.out = s.out)) ∧
    (pgOuts (getL LPG.out 0 s) = [(tid, x, watts, f, d)] → d + 10000000 = u → now s ≤ u → u < f + 1000000000 →
      Gives (.transferResend tid) s (fun t => pgOuts (getL LPG.out 0 t) = [(tid, x, watts, f, u)] ∧
        rd HPG.seq 0 t = (rd HPG.seq 0 s + 1) % 2 ^ HPG.seq.width ∧ rd PWR_PG_STATUS.budget 0 t = rd PWR_PG_STATUS.budget 0 s ∧
        (∀ q ∈ pgPorts s, pauseCause q s = 0 → PgSent q [2, rd FAB_PG_CFG.group_id 0 s, rd FAB_CTRL.device_id 0 s, rd HPG.seq 0 s, x, tid, watts, 0, 0, rd PWR_STATUS.p_state 0 s + 128 * b2n (critPath s), 0, 0] s t))) ∧
    (pgOuts (getL LPG.out 0 s) = [(tid, x, watts, f, d)] →
      Gives (.pgTransferLost tid) s (fun t => getL LPG.out 0 t = [] ∧ rd FAB_PG_STATUS.pending 0 t = 0 ∧
        rd PWR_PG_STATUS.unassigned 0 t = (rd PWR_PG_STATUS.unassigned 0 s + watts) % 2 ^ PWR_PG_STATUS.unassigned.width ∧
        getL LPG.lost 0 t = getL LPG.lost 0 s ++ [x] ∧ Raised 0x0A08 [x, tid, watts] s t ∧ rd PWR_PG_STATUS.budget 0 t = rd PWR_PG_STATUS.budget 0 s)) ∧
    (running HPG.join 0 s = true →
      Gives .pgJoinListenEnd s (fun t => rd PWR_PG_STATUS.joining 0 t = 0 ∧ running HPG.join 0 t = false ∧ Silent s t ∧
        rd PWR_PG_STATUS.budget 0 t = min (fairShare s) (rd PWR_PG_CFG.group_cap 0 s - ((pgMembers s).map (fun y => rd PGM.budget y s)).sum) / 5 * 5
          % 2 ^ PWR_PG_STATUS.budget.width ∧
        Frame ([(PWR_PG_STATUS.joining, 0), (PWR_PG_STATUS.budget, 0), (HPG.join, 0), (PWR_DRAW.dev_cap, 0), (FAB_PG_STATUS.own_slack, 0)] ++ timeFlds) [] [] s t)) ∧
    (Accepted a rPWR_PG_CTRL 0 (fieldWord PWR_PG_CTRL.claim 1) (fieldWord PWR_PG_CTRL.claim 1) s → inGroup s = true →
      Gives (.claim a) s (fun t => rd PWR_PG_STATUS.unassigned 0 t = 0 ∧ Silent s t ∧
        rd PWR_PG_STATUS.budget 0 t = (rd PWR_PG_STATUS.budget 0 s + min (rd PWR_PG_CFG.group_cap 0 s - ((pgView s).map (fun y => y.2.1)).sum)
          (rd PWR_CAP.power_limit 0 s - rd PWR_PG_STATUS.budget 0 s) / 5 * 5) % 2 ^ PWR_PG_STATUS.budget.width ∧
        Frame ([(PWR_PG_STATUS.unassigned, 0), (PWR_PG_STATUS.budget, 0), (PWR_DRAW.dev_cap, 0), (FAB_PG_STATUS.own_slack, 0), (HAUD.tail, 0)] ++ logFlds)
          ((LAUD.cap, rd HAUD.tail 0 s) :: logLists) [] s t))

/-- RSQ_TIMEOUT, ROUND_BOUNDARY and ROUND_MARK (R256, R264, R265). -/
def Obligations.ContextsAndRounds : Prop :=
  ∀ (c q f r p v k b u : Nat) (s : State), s.telFifo.length < 1000 →
    ((∀ e ∈ getL LRSQ.slots c s, running RSQ.since (e % 2 ^ 32) s = false) →
      Gives (.rsqTimeout c) s (fun t => Silent s t ∧ Frame [] [] [] s t)) ∧
    (getL LRSQ.slots c s = [q * 2 ^ 32 + f] → q < 65536 → f < 4294967296 → rd FAB_RSQ.next c s < 65536 → running RSQ.since f s = true →
      Gives (.rsqTimeout c) s (fun t => getL LRSQ.slots c t = [] ∧ rd FAB_RSQ.next c t = (q + 1) % 65536 ∧
        cnt cnt_FAB_rsq_skip 0 t = (cnt cnt_FAB_rsq_skip 0 s + (q + 65536 - rd FAB_RSQ.next c s) % 65536) % 2 ^ 64)) ∧
    (rd FAB_ROUND_W0.enable r s ≠ 0 → rd FAB_ROUND_W0.tb r s = b → rndNext r s = k → rndBase r s + k * rndPeriod r s = u →
      csArmed 1 (fun j => rd HCS.round j s = r) s = [] →
      Gives (.roundBoundary r) s (fun t => rd FAB_ROUND_W4.boundary_num r t = k % 2 ^ 32 ∧ rd FAB_ROUND_W5.last_lo r t = u % 2 ^ 32 ∧
        rd FAB_ROUND_W6.last_hi r t = u / 2 ^ 32 % 2 ^ 32 ∧ (rd FAB_ROUND_W0.ev_en r s ≠ 0 → Raised 0x0A04 [r, k % 2 ^ 32] s t) ∧
        (rd FAB_ROUND_W0.mark_en r s ≠ 0 → ∀ j ∈ markPorts s, rd PRT_PORT_STATUS.peer_zx j s ≠ 0 → rd PRT_PORT_STATUS.state j s ≠ 5 →
          rd PRT_PORT_STATUS.state j s ≠ 6 → Emitted ⟨.orderedSet, j, [4, 0x4B, 0xA, 0x20, (r * 4096 + k % 4096) / 256 % 256, (r * 4096 + k % 4096) % 256]⟩ s t))) ∧
    (rd FAB_ROUND_W0.enable r s ≠ 0 → rd FAB_ROUND_W0.tb r s = b → rndNext r s = k → rd FAB_ROUND_W0.ev_en r s = 0 →
      rd FAB_ROUND_W0.mark_en r s = 0 → csArmed 1 (fun j => rd HCS.round j s = r) s = [] →
      (∀ n ∈ List.range 16, rd TIM_TOUT_W0.mode n s ≠ 3) →
      Gives (.roundBoundary r) s (fun t => Silent s t ∧ rd HRND.next r t = (k + 2) % 2 ^ HRND.next.width ∧
        Frame ([(HRND.next, r), (HRND.last, r), (FAB_ROUND_W4.boundary_num, r), (FAB_ROUND_W5.last_lo, r), (FAB_ROUND_W6.last_hi, r)] ++ timeFlds) [] [] s t)) ∧
    (v / 4096 % 16 = r → rd FAB_ROUND_W0.enable r s ≠ 0 →
      (tbNs (rd FAB_ROUND_W0.tb r s) s + rndPeriod r s / 2 - min (tbNs (rd FAB_ROUND_W0.tb r s) s + rndPeriod r s / 2) (rndBase r s)) / rndPeriod r s = k →
      k % 4096 = v % 4096 → osSeen 0x20 v (osRecent (now s) (getL LPRT.os p s)) = false →
      Gives (.roundMark p v) s (fun t => Silent s t ∧ Frame [] [(LPRT.os, p)] [] s t)) ∧
    (v / 4096 % 16 = r → rd FAB_ROUND_W0.enable r s ≠ 0 →
      (tbNs (rd FAB_ROUND_W0.tb r s) s + rndPeriod r s / 2 - min (tbNs (rd FAB_ROUND_W0.tb r s) s + rndPeriod r s / 2) (rndBase r s)) / rndPeriod r s = k →
      k % 4096 ≠ v % 4096 → osSeen 0x20 v (osRecent (now s) (getL LPRT.os p s)) = false →
      Gives (.roundMark p v) s (fun t => Raised 0x0A05 [r, p, k % 4096, v % 4096] s t ∧
        Frame [(FAB_EVT.ev_round, 0)] [(LPRT.os, p)] [(cnt_FAB_round_mismatch, 0)] s t ∧
        cnt cnt_FAB_round_mismatch 0 t = (cnt cnt_FAB_round_mismatch 0 s + 1) % 2 ^ 64))

/-- TIME_PLL_LOCK, TIME_REFCLK_LOSS, TIME_REFCLK_RESTORE, TB_LATCH, LATCH_ALL, TB_STEP and TB_SET (R274 to R279, R294). -/
def Obligations.TimePll : Prop :=
  ∀ (a : Access) (b : Nat) (s : State), s.telFifo.length < 1000 →
    (rd TBC.pll_locked 0 s = 0 →
      Gives .timePllLock s (fun t => rd TBC.pll_locked 0 t = 1 ∧ rd TIM_CTRL.refclk_ok 0 t = 1 ∧ (∀ c ∈ List.range 8, rd TBC.count c t = 0) ∧
        Silent s t ∧ Frame ([(TBC.pll_locked, 0), (TIM_CTRL.refclk_ok, 0)] ++ timeFlds) [] [] s t)) ∧
    (rd TIM_CTRL.on_backup 0 s = 0 → rd TBC.pll_locked 0 s ≠ 0 → (∀ c ∈ List.range 8, rd TIM_TB_W5.state c s ≠ 2) →
      Gives .timeRefclkLoss s (fun t => rd TIM_CTRL.on_backup 0 t = 1 ∧ rd TIM_CTRL.refclk_ok 0 t = 0 ∧
        Raised 0x060A [] s t ∧ Frame [(TIM_CTRL.on_backup, 0), (TIM_CTRL.refclk_ok, 0), (TIM_EVT.ev_refclk, 0)] [] [] s t)) ∧
    (rd TIM_CTRL.on_backup 0 s = 0 → rd TBC.pll_locked 0 s ≠ 0 → 0 < b → b < 8 → rd TIM_TB_W5.state b s = 2 →
      (∀ c ∈ List.range 8, c ≠ b → rd TIM_TB_W5.state c s ≠ 2) → Gives .timeRefclkLoss s (fun t => rd TIM_CTRL.on_backup 0 t = 1 ∧
        rd TIM_TB_W5.state b t = 3 ∧ Raised 0x0601 [b, 4] s t)) ∧
    (rd TIM_CTRL.on_backup 0 s ≠ 0 →
      Gives .timeRefclkRestore s (fun t => rd TIM_CTRL.on_backup 0 t = 0 ∧ rd TIM_CTRL.refclk_ok 0 t = 1 ∧ Raised 0x060B [] s t ∧
        Frame [(TIM_CTRL.on_backup, 0), (TIM_CTRL.refclk_ok, 0), (TIM_EVT.ev_refclk, 0)] [] [] s t)) ∧
    (b < 8 → Accepted a rTIM_TB_W11 b 0xFFFFFFFF 1 s →
      Gives (.tbLatch a b) s (fun t => rd TIM_TB_W8.now_lo b t = rd TBC.count b s / 2 ^ 32 % 2 ^ 32 ∧
        rd TIM_TB_W9.now_hi b t = rd TBC.count b s / 2 ^ 64 % 2 ^ 32 ∧ rd TIM_TB_W10.now_frac b t = rd TBC.count b s / 2 ^ 16 % 2 ^ 16 ∧ Silent s t ∧
        Frame ([(TIM_TB_W8.now_lo, b), (TIM_TB_W9.now_hi, b), (TIM_TB_W10.now_frac, b), (HAUD.tail, 0)] ++ logFlds)
          ((LAUD.cap, rd HAUD.tail 0 s) :: logLists) [] s t)) ∧
    (Accepted a rTIM_CTRL 0 (fieldWord TIM_CTRL.latch_all 1) (fieldWord TIM_CTRL.latch_all 1) s →
      Gives (.latchAll a) s (fun t => (∀ c ∈ List.range 8, rd TIM_TB_W8.now_lo c t = rd TBC.count c s / 2 ^ 32 % 2 ^ 32 ∧
        rd TIM_TB_W9.now_hi c t = rd TBC.count c s / 2 ^ 64 % 2 ^ 32 ∧ rd TIM_TB_W10.now_frac c t = rd TBC.count c s / 2 ^ 16 % 2 ^ 16 ∧
        rd TBC.count c t = rd TBC.count c s) ∧ Silent s t)) ∧
    (0 < b → b < 8 → rd TIM_TB_W5.state b s ≠ 2 → Accepted a rTIM_TB_W11 b 0xFFFFFFFF 2 s →
      (∀ k ∈ List.range 4, rd CFG_CS_W4.state k s ≠ 2) → Gives (.tbStep a b) s (fun t =>
        rd TBC.count b t = ((rd TBC.count b s : Int) + sgn 32 (rd TIM_TB_W12.arg_lo b s) * 2 ^ 32).toNat % 2 ^ TBC.count.width ∧
        Raised 0x0603 ([b] ++ wI64 ((tbNs b t : Int) - tbNs b s) ++ [2]) s t ∧ rd TIM_EVT.ev_step 0 t = 1)) ∧
    (0 < b → b < 8 → rd TIM_TB_W5.state b s ≠ 2 → Accepted a rTIM_TB_W11 b 0xFFFFFFFF 3 s →
      (∀ k ∈ List.range 4, rd CFG_CS_W4.state k s ≠ 2) → Gives (.tbSet a b) s (fun t =>
        rd TBC.count b t = (rd TIM_TB_W12.arg_lo b s + 2 ^ 32 * rd TIM_TB_W13.arg_hi b s) * 2 ^ 32 % 2 ^ TBC.count.width ∧
        Raised 0x0603 ([b] ++ wI64 ((tbNs b t : Int) - tbNs b s) ++ [3]) s t ∧ rd TIM_EVT.ev_step 0 t = 1))

/-- PDELAY_INTERVAL, PDELAY_REQ, PDELAY_RESP, PDELAY_RESP_FOLLOW_UP, PDELAY_TIMEOUT, EXT_DELAY, EXT_REQ, EXT_DELAY_PERIODIC and EXT_REQ_RETRY (R284 to R287). -/
def Obligations.LinkDelay : Prop :=
  ∀ (p seq src t2 t3 n m payload : Nat) (corr : Int) (form : RespForm) (s : State), s.telFifo.length < 1000 →
    (ptpRuns s = true → rd TIM_PORT_W0.delay_mode p s ≠ 0 → ptpUp p s = true →
      askedNs HPD.ipd p (sgn 4 (rd TIM_PORT_W0.log_pdelay p s)) s = some n → Gives (.pdelayInterval p) s (fun t =>
        getL LTIM.tx p t = getL LTIM.tx p s ++ [2, 0, (rd HPD.seq p s + 1) % 65536, 0, 0, 0] ∧ rd HPD.seq p t = (rd HPD.seq p s + 1) % 65536 ∧
        rd HPD.wait p t = 1 ∧ rd HPD.got p t = 0 ∧ Due HPD.ival p 0 t ∧ Silent s t ∧
        Frame ([(HPD.ival, p), (HPD.seq, p), (HPD.wait, p), (HPD.got, p), (HPD.t1, p)] ++ timeFlds) [(LTIM.tx, p)] [] s t)) ∧
    (Gives (.pdelayReq p seq src true) s (fun t => Silent s t ∧ Frame [] [] [(cnt_TIM_ptp_rx, 0), (cnt_TIM_ptp_bad, 0)] s t ∧
        cnt cnt_TIM_ptp_rx 0 t = (cnt cnt_TIM_ptp_rx 0 s + 1) % 2 ^ 64 ∧ cnt cnt_TIM_ptp_bad 0 t = (cnt cnt_TIM_ptp_bad 0 s + 1) % 2 ^ 64)) ∧
    (ptpRuns s = true → rd TIM_PORT_W0.delay_mode p s ≠ 0 → ptpUp p s = true → Gives (.pdelayReq p seq src false) s (fun t =>
        getL LTIM.tx p t = getL LTIM.tx p s ++ [3, 0, seq, rxStamp p 0 s, src, 0] ∧ cnt cnt_TIM_ptp_rx 0 t = (cnt cnt_TIM_ptp_rx 0 s + 1) % 2 ^ 64 ∧ Silent s t ∧
        Frame [] [(LTIM.tx, p)] [(cnt_TIM_ptp_rx, 0)] s t)) ∧
    (ptpRuns s = true → rd HPD.wait p s ≠ 0 → rd HPD.seq p s = seq → t2 < 2 ^ 81 →
      Gives (.pdelayResp p seq (portId p s) t2 corr .twoStep) s (fun t => rd HPD.got p t = 1 ∧ rd HPD.t2 p t = t2 * 2 ^ 16 ∧
        rd HPD.t4 p t = rxStamp p 0 s % 2 ^ HPD.t4.width ∧ rd HPD.corr p t = unsgn HPD.corr.width corr ∧ Silent s t ∧
        Frame [(HPD.got, p), (HPD.t2, p), (HPD.t4, p), (HPD.corr, p)] [] [(cnt_TIM_ptp_rx, 0)] s t)) ∧
    (ptpRuns s = true → rd HPD.wait p s ≠ 0 → rd HPD.seq p s = seq → rdI HPD.ratio p s = 0 → rd TIM_PORT_W6.delay_valid p s = 0 →
      getL LPD.win p s = [] → rxStamp p 0 s < 2 ^ HPD.t4.width → sgn HPD.corr.width (unsgn HPD.corr.width corr) = corr →
      (((rxStamp p 0 s : Int) - rd HPD.t1 p s - corr * 2 ^ 16) / 2).toNat = m →
      Gives (.pdelayResp p seq (portId p s) t2 corr .oneStep) s (fun t =>
        getL LPD.win p t = [m] ∧ rd TIM_PORT_W4.link_delay p t = m * 1000 / 2 ^ 32 % 2 ^ 32 ∧ rd HPD.wait p t = 0 ∧ rd HPD.lost p t = 0)) ∧
    (ptpRuns s = true → (rd HPD.wait p s = 0 ∨ rd HPD.seq p s ≠ seq) → form ≠ .bad →
      Gives (.pdelayResp p seq src t2 corr form) s (fun t => Silent s t ∧ Frame [] [] [(cnt_TIM_ptp_rx, 0)] s t)) ∧
    (ptpRuns s = true → rd HPD.wait p s ≠ 0 → rd HPD.got p s ≠ 0 → rd HPD.seq p s = seq → rd HPD.t3p p s = 0 → rdI HPD.ratio p s = 0 →
      rd TIM_PORT_W6.delay_valid p s = 0 → getL LPD.win p s = [] →
      (((rd HPD.t4 p s : Int) - rd HPD.t1 p s - ((t3 * 2 ^ 16 : Nat) - rd HPD.t2 p s) - (rdI HPD.corr p s + corr) * 2 ^ 16) / 2).toNat = m →
      Gives (.pdelayRespFollowUp p seq (portId p s) t3 corr false) s (fun t =>
        getL LPD.win p t = [m] ∧ rd TIM_PORT_W4.link_delay p t = m * 1000 / 2 ^ 32 % 2 ^ 32 ∧ rd HPD.wait p t = 0 ∧ rd HPD.lost p t = 0 ∧
        rd TIM_PORT_W6.delay_valid p t = 0)) ∧
    (ptpRuns s = true → rd HPD.wait p s ≠ 0 → rd HPD.got p s ≠ 0 → rd HPD.seq p s = seq → rd TIM_PORT_W6.delay_valid p s = 0 →
      (getL LPD.win p s).length = 3 →
      Gives (.pdelayRespFollowUp p seq (portId p s) t3 corr false) s (fun t => rd TIM_PORT_W6.delay_valid p t = 1 ∧
        (getL LPD.win p t).length = 4 ∧ rd TIM_PORT_W4.link_delay p t = (getL LPD.win p t).sum * 1000 / 4 / 2 ^ 32 % 2 ^ 32)) ∧
    (ptpRuns s = true → rd HPD.wait p s ≠ 0 → rd HPD.got p s ≠ 0 → rd HPD.seq p s = seq → rd HPD.t3p p s = 0 → rdI HPD.ratio p s = 0 →
      rd TIM_PORT_W6.delay_valid p s ≠ 0 → (getL LPD.win p s) = [n] →
      (((rd HPD.t4 p s : Int) - rd HPD.t1 p s - ((t3 * 2 ^ 16 : Nat) - rd HPD.t2 p s) - (rdI HPD.corr p s + corr) * 2 ^ 16) / 2).toNat = m →
      n + 100 * 2 ^ 32 < m → Gives (.pdelayRespFollowUp p seq (portId p s) t3 corr false) s (fun t =>
        cnt cnt_TIM_delay_spike 0 t = (cnt cnt_TIM_delay_spike 0 s + 1) % 2 ^ 64 ∧ getL LPD.win p t = [n] ∧ rd TIM_PORT_W4.link_delay p t = rd TIM_PORT_W4.link_delay p s ∧ Silent s t)) ∧
    (rd HPD.wait p s ≠ 0 → ptpUp p s = true → rd HPD.lost p s < 2 →
      Gives (.pdelayTimeout p) s (fun t => rd HPD.wait p t = 0 ∧ rd HPD.lost p t = rd HPD.lost p s + 1 ∧
        cnt cnt_TIM_pdelay_lost 0 t = (cnt cnt_TIM_pdelay_lost 0 s + 1) % 2 ^ 64 ∧ rd TIM_PORT_W6.delay_valid p t = rd TIM_PORT_W6.delay_valid p s ∧ Silent s t ∧
        Frame [(HPD.wait, p), (HPD.got, p), (HPD.lost, p)] [] [(cnt_TIM_pdelay_lost, 0)] s t)) ∧
    (rd HPD.wait p s ≠ 0 → ptpUp p s = true → rd HPD.lost p s = 2 →
      Gives (.pdelayTimeout p) s (fun t => rd TIM_PORT_W6.delay_valid p t = 0 ∧ getL LPD.win p t = [] ∧ rd HPD.lost p t = 0 ∧
        cnt cnt_TIM_pdelay_lost 0 t = (cnt cnt_TIM_pdelay_lost 0 s + 1) % 2 ^ 64 ∧ Silent s t)) ∧
    (rd PRT_PORT_STATUS.peer_zx p s ≠ 0 → payload < 32768 → rd HPD.prx p s ≠ 0 → bitOf (rd PRT_PORT_PEER_CAP.peer_caps p s) 2 = true →
      osSeen 0x10 payload (osRecent (now s) (getL LPRT.os p s)) = false →
      Gives (.extDelay p payload) s (fun t => rd HPD.ptx p t = (payload + 1) % 2 ^ 16 ∧ rd TIM_PORT_W6.asym_peer p t = 1 ∧
        rd TIM_PORT_W5.asym_used p t = unsgn 32 ((((rd TIM_PORT_W1.tx_ext p s + (rd HPD.prx p s - 1) : Nat) : Int) - (payload + rd TIM_PORT_W1.rx_ext p s : Nat)) * 10 / 2 +
          rdI TIM_PORT_W2.asym_cfg p s) ∧ t.out = s.out)) ∧
    (rd PRT_PORT_STATUS.peer_zx p s ≠ 0 → 32768 ≤ payload → payload < 65536 →
      osSeen 0x10 payload (osRecent (now s) (getL LPRT.os p s)) = false →
      Gives (.extDelay p payload) s (fun t => rd HPD.prx p t = (payload - 32768 + 1) % 2 ^ 16 ∧ rd HPD.ptx p t = rd HPD.ptx p s ∧ t.out = s.out)) ∧
    (portHears p s = true → rd PRT_PORT_STATUS.peer_zx p s ≠ 0 → osSeen 0x11 0 (osRecent (now s) (getL LPRT.os p s)) = false →
      Gives (.extReq p) s (fun t => Emitted ⟨.orderedSet, p, [4, 0x4B, 0xA, 0x10, rd TIM_PORT_W1.tx_ext p s % 32768 / 256, rd TIM_PORT_W1.tx_ext p s % 256]⟩ s t ∧
        Emitted ⟨.orderedSet, p, [4, 0x4B, 0xA, 0x10, 128 + rd TIM_PORT_W1.rx_ext p s % 32768 / 256, rd TIM_PORT_W1.rx_ext p s % 256]⟩ s t ∧ t.telFifo = s.telFifo ∧ Frame [] [(LPRT.os, p)] [] s t)) ∧
    (rd PRT_PORT_STATUS.peer_zx p s ≠ 0 → rd PRT_PORT_STATUS.state p s ≠ 5 → rd PRT_PORT_STATUS.state p s ≠ 6 →
      Gives (.extDelayPeriodic p) s (fun t => Emitted ⟨.orderedSet, p, [4, 0x4B, 0xA, 0x10, rd TIM_PORT_W1.tx_ext p s % 32768 / 256, rd TIM_PORT_W1.tx_ext p s % 256]⟩ s t ∧
        Emitted ⟨.orderedSet, p, [4, 0x4B, 0xA, 0x10, 128 + rd TIM_PORT_W1.rx_ext p s % 32768 / 256, rd TIM_PORT_W1.rx_ext p s % 256]⟩ s t ∧ Due HPD.extt p 0 t ∧ t.telFifo = s.telFifo ∧ Frame ((HPD.extt, p) :: timeFlds) [] [] s t)) ∧
    (rd PRT_PORT_STATUS.peer_zx p s ≠ 0 → rd PRT_PORT_STATUS.state p s ≠ 5 → rd PRT_PORT_STATUS.state p s ≠ 6 →
      (rd HPD.ptx p s = 0 ∨ rd HPD.prx p s = 0) →
      Gives (.extReqRetry p) s (fun t => Emitted ⟨.orderedSet, p, [4, 0x4B, 0xA, 0x11, 0, 0]⟩ s t ∧ Due HPD.extr p 0 t ∧
        t.telFifo = s.telFifo ∧ Frame ((HPD.extr, p) :: timeFlds) [] [] s t))

/-- SYNC, FOLLOW_UP, SYNC_TIMEOUT, ANNOUNCE_TIMEOUT and HS_REVERT (R293 to R299). -/
def Obligations.TimeServo : Prop :=
  ∀ (p dom seq origin b : Nat) (corr o : Int) (s : State), s.telFifo.length < 1000 →
    (ptpRuns s = true → instOf p dom s = some b → roleOf p b s = 2 → rd TIM_TB_W0.source b s = 1 →
      Gives (.sync p dom seq origin corr true false) s (fun t => rd HSY.wait (b * 1024 + p) t = 1 ∧ rd HSY.seq (b * 1024 + p) t = seq % 65536 ∧
        rd HSY.t2 (b * 1024 + p) t = rxStamp p b s % 2 ^ HSY.t2.width ∧ rd HSY.corr (b * 1024 + p) t = unsgn HSY.corr.width corr ∧ Silent s t ∧
        Frame [(HSY.wait, b * 1024 + p), (HSY.seq, b * 1024 + p), (HSY.t2, b * 1024 + p), (HSY.corr, b * 1024 + p)] [] [(cnt_TIM_ptp_rx, 0)] s t)) ∧
    (ptpRuns s = true → instOf p dom s = some b → roleOf p b s = 2 → rd TIM_TB_W0.source b s = 1 → rd TIM_TB_W5.src b s = 0 →
      ((origin * 2 ^ 32 : Nat) : Int) + corr * 2 ^ 16 + inDelay b p s - (rxStamp p b s : Int) = o → rd TIM_TB_W5.state b s ≠ 2 →
      absI o ≤ psToU (rd TIM_TB_W3.step_threshold b s * 1000000 : Nat) → rd HTB.good b s + 1 < rd TIM_TB_W3.lock_count b s →
      rd TIM_TB_W3.lock_count b s < 16 →
      Gives (.sync p dom seq origin corr false false) s (fun t => rd TIM_TB_W6.offset b t = unsgn 32 (sat32 (uToPs o)) ∧
        rd HTB.integ b t = unsgn HTB.integ.width (clampInt (-(rd TIM_TB_W2.max_adj b s * 2 ^ 64 : Nat)) (rd TIM_TB_W2.max_adj b s * 2 ^ 64 : Nat) (rdI HTB.integ b s + o * 2 ^ 32 / 2 ^ rd TIM_TB_W2.ki_shift b s)) ∧
        rd TBC.adj b t = unsgn TBC.adj.width (clampInt (-(rd TIM_TB_W2.max_adj b s * 2 ^ 64 : Nat)) (rd TIM_TB_W2.max_adj b s * 2 ^ 64 : Nat) (clampInt (-(rd TIM_TB_W2.max_adj b s * 2 ^ 64 : Nat)) (rd TIM_TB_W2.max_adj b s * 2 ^ 64 : Nat)
          (rdI HTB.integ b s + o * 2 ^ 32 / 2 ^ rd TIM_TB_W2.ki_shift b s) + o * 2 ^ 32 / 2 ^ rd TIM_TB_W2.kp_shift b s) / (1000000000 * 2 ^ 32)) ∧ rd TIM_TB_W5.state b t = 1 ∧ Silent s t)) ∧
    (ptpRuns s = true → instOf p dom s = some b → roleOf p b s = 2 → rd TIM_TB_W0.source b s = 1 → rd TIM_TB_W5.src b s = 0 →
      ((origin * 2 ^ 32 : Nat) : Int) + corr * 2 ^ 16 + inDelay b p s - (rxStamp p b s : Int) = o → rd TIM_TB_W5.state b s ≠ 2 →
      absI o ≤ psToU (rd TIM_TB_W3.step_threshold b s * 1000000 : Nat) → rd HTB.good b s + 1 = rd TIM_TB_W3.lock_count b s →
      absI o ≤ psToU (rd TIM_TB_W3.lock_threshold b s * 100 : Nat) → rd HTB.good b s < 15 →
      Gives (.sync p dom seq origin corr false false) s (fun t => rd TIM_TB_W6.offset b t = unsgn 32 (sat32 (uToPs o)) ∧
        rd HTB.integ b t = unsgn HTB.integ.width (clampInt (-(rd TIM_TB_W2.max_adj b s * 2 ^ 64 : Nat)) (rd TIM_TB_W2.max_adj b s * 2 ^ 64 : Nat) (rdI HTB.integ b s + o * 2 ^ 32 / 2 ^ rd TIM_TB_W2.ki_shift b s)) ∧
        rd TBC.adj b t = unsgn TBC.adj.width (clampInt (-(rd TIM_TB_W2.max_adj b s * 2 ^ 64 : Nat)) (rd TIM_TB_W2.max_adj b s * 2 ^ 64 : Nat) (clampInt (-(rd TIM_TB_W2.max_adj b s * 2 ^ 64 : Nat)) (rd TIM_TB_W2.max_adj b s * 2 ^ 64 : Nat)
          (rdI HTB.integ b s + o * 2 ^ 32 / 2 ^ rd TIM_TB_W2.ki_shift b s) + o * 2 ^ 32 / 2 ^ rd TIM_TB_W2.kp_shift b s) / (1000000000 * 2 ^ 32)) ∧ rd TIM_TB_W5.state b t = 2 ∧
        Raised 0x0602 [b, rd TIM_TB_W6.offset b t] s t)) ∧
    (ptpRuns s = true → instOf p dom s = some b → roleOf p b s = 2 → rd TIM_TB_W0.source b s = 1 → rd TIM_TB_W5.src b s = 0 →
      ((origin * 2 ^ 32 : Nat) : Int) + corr * 2 ^ 16 + inDelay b p s - (rxStamp p b s : Int) = o → rd TIM_TB_W5.state b s ≠ 2 →
      rd TIM_TB_W0.step_enable b s ≠ 0 → psToU (rd TIM_TB_W3.step_threshold b s * 1000000 : Nat) < absI o →
      (∀ k ∈ List.range 4, rd CFG_CS_W4.state k s ≠ 2) → Gives (.sync p dom seq origin corr false false) s (fun t =>
        rd TBC.count b t = ((rd TBC.count b s : Int) + o).toNat % 2 ^ TBC.count.width ∧ rd TIM_TB_W5.state b t = 1 ∧ rd HTB.integ b t = 0 ∧
        Raised 0x0603 ([b] ++ wI64 ((tbNs b t : Int) - tbNs b s) ++ [1]) s t)) ∧
    (ptpRuns s = true → instOf p dom s = some b → roleOf p b s = 2 → rd TIM_TB_W0.source b s = 1 → rd TIM_TB_W5.src b s = 0 →
      ((origin * 2 ^ 32 : Nat) : Int) + corr * 2 ^ 16 + inDelay b p s - (rxStamp p b s : Int) = o → rd TIM_TB_W5.state b s = 2 →
      psToU (rd TIM_TB_W3.unlock_threshold b s * 10000 : Nat) < absI o → rd HTB.bad b s = 2 → rd TIM_TB_W0.pair_en b s = 0 →
      followers b s = [] → Gives (.sync p dom seq origin corr false false) s (fun t =>
        rd TIM_TB_W5.state b t = 3 ∧ Raised 0x0601 [b, 2] s t ∧ rd TIM_TB_W6.offset b t = unsgn 32 (sat32 (uToPs o)))) ∧
    (ptpRuns s = true → instOf p dom s = some b → roleOf p b s = 2 → rd HSY.wait (b * 1024 + p) s ≠ 0 → rd HSY.seq (b * 1024 + p) s = seq →
      rd TIM_TB_W5.src b s = 0 →
      ((origin * 2 ^ 32 : Nat) : Int) + (rdI HSY.corr (b * 1024 + p) s + corr) * 2 ^ 16 + inDelay b p s - (rd HSY.t2 (b * 1024 + p) s : Int) = o →
      rd TIM_TB_W5.state b s ≠ 2 → absI o ≤ psToU (rd TIM_TB_W3.step_threshold b s * 1000000 : Nat) →
      rd HTB.good b s + 1 < rd TIM_TB_W3.lock_count b s → rd TIM_TB_W3.lock_count b s < 16 →
      Gives (.followUp p dom seq origin corr false) s (fun t => rd TIM_TB_W6.offset b t = unsgn 32 (sat32 (uToPs o)) ∧
        rd HTB.integ b t = unsgn HTB.integ.width (clampInt (-(rd TIM_TB_W2.max_adj b s * 2 ^ 64 : Nat)) (rd TIM_TB_W2.max_adj b s * 2 ^ 64 : Nat) (rdI HTB.integ b s + o * 2 ^ 32 / 2 ^ rd TIM_TB_W2.ki_shift b s)) ∧
        rd TBC.adj b t = unsgn TBC.adj.width (clampInt (-(rd TIM_TB_W2.max_adj b s * 2 ^ 64 : Nat)) (rd TIM_TB_W2.max_adj b s * 2 ^ 64 : Nat) (clampInt (-(rd TIM_TB_W2.max_adj b s * 2 ^ 64 : Nat)) (rd TIM_TB_W2.max_adj b s * 2 ^ 64 : Nat)
          (rdI HTB.integ b s + o * 2 ^ 32 / 2 ^ rd TIM_TB_W2.ki_shift b s) + o * 2 ^ 32 / 2 ^ rd TIM_TB_W2.kp_shift b s) / (1000000000 * 2 ^ 32)) ∧
        rd TIM_TB_W5.state b t = 1 ∧ rd HSY.wait (b * 1024 + p) t = 0 ∧ Silent s t)) ∧
    (ptpRuns s = true → instOf p dom s = some b → (roleOf p b s ≠ 2 ∨ rd HSY.seq (b * 1024 + p) s ≠ seq) →
      Gives (.followUp p dom seq origin corr false) s (fun t => Silent s t ∧ Frame [] [] [(cnt_TIM_ptp_rx, 0)] s t)) ∧
    (rd HRED.gap 0 s = 0 → rd HRED.restart 0 s = 0 → rd HTB.last b s ≠ 0 → rd TIM_TB_W0.enable b s ≠ 0 → rd TIM_TB_W0.source b s ≠ 0 →
      rd TIM_TB_W5.src b s = 0 → rd TIM_TB_W5.state b s = 2 → rd TIM_TB_W0.pair_en b s = 0 → followers b s = [] →
      Gives (.syncTimeout b) s (fun t =>
        rd TIM_TB_W5.state b t = 3 ∧ rd TIM_TB_W5.inst_state b t = 3 ∧ rd HTB.last b t = 0 ∧ Raised 0x0601 [b, 1] s t)) ∧
    (ptpRuns s = true → getL LTB.ann (b * 1024 + p) s ≠ [] → roleOf p b s = 2 → 0 < b → b < 8 → instPorts b s = [p] →
      rd TIM_TB_W0.source b s = 1 → rd TIM_TB_W5.src b s = 0 → rd TIM_TB_W5.state b s = 2 → rd TIM_TB_W0.pair_en b s = 0 →
      followers b s = [] → Gives (.announceTimeout p b) s (fun t =>
        rd TIM_TB_W5.state b t = 3 ∧ roleOf p b t = 1 ∧ getL LTB.ann (b * 1024 + p) t = [] ∧ Raised 0x0601 [b, 6] s t)) ∧
    (rd TIM_TB_W5.src p s ≠ 0 → rd TIM_TB_W0.revert_en p s ≠ 0 → rd TIM_TB_W5.inst_state p s = 2 → rd HTB.revert p s ≠ 0 →
      rd TIM_TB_W5.gm_class p s ≤ rd TIM_TB_W4.class_limit p s → Gives (.hsRevert p) s (fun t => rd TIM_TB_W5.src p t = 0 ∧
        rd TBC.slew p t = unsgn TBC.slew.width (rdI HTB.prev p s) ∧ rd TBC.adj p t = rd TBC.adj p s ∧ Raised 0x0604 [p, 0, wI (uToPs (rdI HTB.prev p s))] s t))

/-- ANNOUNCE, DELAY_REQ, DELAY_RESP, SIGNALING, PTP_MANAGEMENT_RX, SYNC_INTERVAL, ANNOUNCE_INTERVAL and DELAY_REQ_INTERVAL (R288 to R290). -/
def Obligations.PtpMessages : Prop :=
  ∀ (p dom seq src t4 n b : Nat) (corr : Int) (set utc path : List Nat) (s : State), s.telFifo.length < 1000 → ptpRuns s = true →
    (instOf p dom s = some b → instPorts b s = [p] → rd TIM_TB_W0.source b s = 1 → rd TIM_TB_W5.state b s ≠ 2 → rd TIM_TB_W5.src b s = 0 →
      src / 2 ^ 16 ≠ clockId s → (rd TIM_TB_W0.profile b s ≠ 0 ∨ path.contains (clockId s) = false) → set.length = 7 →
      lexLt (set ++ [src, p]) (ownSet b s) = true → Gives (.announce p dom src set utc path false) s (fun t => roleOf p b t = 2 ∧
        rd TIM_TB_W14.gm_lo b t = set.getD 5 0 % 2 ^ 32 ∧ rd TIM_TB_W15.gm_hi b t = set.getD 5 0 / 2 ^ 32 % 2 ^ 32 ∧ rd TIM_TB_W5.gm_class b t = set.getD 1 0 % 256 ∧
        rd TIM_TB_W5.utc_offset b t = utc.getD 0 0 % 2 ^ TIM_TB_W5.utc_offset.width ∧ rd TIM_TB_W5.utc_valid b t = utc.getD 1 0 % 2)) ∧
    (instOf p dom s = some b → instPorts b s = [p] → rd TIM_TB_W0.source b s = 1 → rd TIM_TB_W5.state b s ≠ 2 → rd TIM_TB_W5.src b s = 0 →
      src / 2 ^ 16 ≠ clockId s → (rd TIM_TB_W0.profile b s ≠ 0 ∨ path.contains (clockId s) = false) → set.length = 7 →
      lexLt (set ++ [src, p]) (ownSet b s) = false → Gives (.announce p dom src set utc path false) s (fun t => roleOf p b t = 1 ∧
        rd TIM_TB_W14.gm_lo b t = clockId s % 2 ^ 32 ∧ rd TIM_TB_W15.gm_hi b t = clockId s / 2 ^ 32 % 2 ^ 32 ∧ rd TIM_TB_W5.gm_class b t = ownClass b s % 256)) ∧
    (instOf p dom s = some b →
      Gives (.announce p dom src set utc path true) s (fun t => Silent s t ∧ Frame [] [] [(cnt_TIM_ptp_rx, 0), (cnt_TIM_ptp_bad, 0)] s t ∧
        cnt cnt_TIM_ptp_bad 0 t = (cnt cnt_TIM_ptp_bad 0 s + 1) % 2 ^ 64)) ∧
    (instOf p dom s = some b → roleOf p b s = 1 → rd TIM_TB_W0.profile b s = 1 → Gives (.delayReq p dom seq src corr false) s (fun t =>
        getL LTIM.tx p t = getL LTIM.tx p s ++ [9, b, seq, rxStamp p b s, src, unsgn 64 corr] ∧ Silent s t ∧ Frame [] [(LTIM.tx, p)] [(cnt_TIM_ptp_rx, 0)] s t)) ∧
    (instOf p dom s = some b → roleOf p b s = 2 → rd HTB.t3 b s ≠ 0 → (seq + 1) % 65536 = rd HSY.txd (b * 1024 + p) s →
      Gives (.delayResp p dom seq (portId p s) t4 corr false) s (fun t => rd HTB.t3 b t = 0 ∧
        rd HTB.e2e b t = ((((rd HTB.t2 b s : Int) - rd HTB.t1 b s + ((t4 * 2 ^ 32 : Nat) - corr * 2 ^ 16 - ((rd HTB.t3 b s : Int) - 1))) / 2).toNat + 1) % 2 ^ HTB.e2e.width ∧
        Silent s t ∧ Frame [(HTB.t3, b), (HTB.e2e, b)] [] [(cnt_TIM_ptp_rx, 0)] s t)) ∧
    (instOf p dom s = some b →
      Gives (.signaling p dom 3 126 0x80 false) s (fun t => rd HPD.ipd p t = 3 ∧ rd HSY.isync (b * 1024 + p) t = 0x80 ∧
        rd HSY.iann (b * 1024 + p) t = rd HSY.iann (b * 1024 + p) s ∧ Silent s t ∧ Frame [(HPD.ipd, p), (HSY.isync, b * 1024 + p)] [] [(cnt_TIM_ptp_rx, 0)] s t)) ∧
    (instOf p dom s = some b →
      Gives (.ptpManagementRx p dom) s (fun t => cnt cnt_TIM_ptp_mgmt_drop 0 t = (cnt cnt_TIM_ptp_mgmt_drop 0 s + 1) % 2 ^ 64 ∧ Silent s t ∧
        Frame [] [] [(cnt_TIM_ptp_rx, 0), (cnt_TIM_ptp_mgmt_drop, 0)] s t)) ∧
    (roleOf p b s = 1 → ptpUp p s = true → askedNs HSY.isync (b * 1024 + p) (sgn 4 (rd TIM_TB_W1.log_sync b s)) s = some n →
      Gives (.syncInterval p b) s (fun t =>
        getL LTIM.tx p t = getL LTIM.tx p s ++ [0, b, rd HSY.txs (b * 1024 + p) s, 0, 0, 0] ∧ Due HSY.synct (b * 1024 + p) 0 t ∧ Silent s t ∧
        Frame ([(HSY.synct, b * 1024 + p), (HSY.txs, b * 1024 + p)] ++ timeFlds) [(LTIM.tx, p)] [] s t)) ∧
    (roleOf p b s = 1 → ptpUp p s = true → askedNs HSY.iann (b * 1024 + p) (sgn 4 (rd TIM_TB_W1.log_announce b s)) s = some n →
      Gives (.announceInterval p b) s (fun t =>
        getL LTIM.tx p t = getL LTIM.tx p s ++ [11, b, rd HSY.txa (b * 1024 + p) s, 0, 0, 0] ∧ Due HSY.annt (b * 1024 + p) 0 t ∧ Silent s t ∧
        Frame ([(HSY.annt, b * 1024 + p), (HSY.txa, b * 1024 + p)] ++ timeFlds) [(LTIM.tx, p)] [] s t)) ∧
    (roleOf p b s = 2 → rd TIM_TB_W0.profile b s = 1 → ptpUp p s = true → Gives (.delayReqInterval p b) s (fun t =>
        getL LTIM.tx p t = getL LTIM.tx p s ++ [1, b, rd HSY.txd (b * 1024 + p) s, 0, 0, 0] ∧ rd HSY.txd (b * 1024 + p) t = (rd HSY.txd (b * 1024 + p) s + 1) % 65536 ∧
        Silent s t ∧ Frame [(HSY.txd, b * 1024 + p)] [(LTIM.tx, p)] [] s t))

/-- TOUT_PULSE, TOUT_ADOPT, TIN_EDGE and TIN_POP (R300 to R303). -/
def Obligations.TimePins : Prop :=
  ∀ (a : Access) (n b v c u : Nat) (rising : Bool) (s : State), s.telFifo.length < 1000 →
    (rd HTOUT.next n s = u + 1 → rd TIM_TOUT_W0.mode n s = 1 → rd TIM_TOUT_W0.tb n s = b → squelched n b s = false →
      Gives (.toutPulse n) s (fun t => rd TIM_TOUT_W6.armed n t = 0 ∧ rd HTOUT.next n t = 0 ∧
        t.out = s.out ++ [⟨.touT, n, w64 u ++ [rd HTOUT.width n s, rd TIM_TOUT_W0.polarity n s, rd HTOUT.delay n s]⟩] ∧ t.telFifo = s.telFifo ∧
        Frame ([(TIM_TOUT_W6.armed, n), (HTOUT.next, n), (HTOUT.last, n), (HTOUT.busy, n)] ++ timeFlds) [] [] s t)) ∧
    (rd HTOUT.next n s = u + 1 → rd TIM_TOUT_W0.mode n s = 2 → rd TIM_TOUT_W0.tb n s = b → squelched n b s = false →
      Gives (.toutPulse n) s (fun t => rd TIM_TOUT_W6.armed n t = 1 ∧
        rd HTOUT.next n t = (u + rd HTOUT.period n s + 1) % 2 ^ HTOUT.next.width ∧
        t.out = s.out ++ [⟨.touT, n, w64 u ++ [rd HTOUT.width n s, rd TIM_TOUT_W0.polarity n s, rd HTOUT.delay n s]⟩] ∧ t.telFifo = s.telFifo)) ∧
    (rd HTOUT.next n s = u + 1 → rd TIM_TOUT_W0.mode n s = 2 → rd TIM_TOUT_W0.tb n s = b → squelched n b s = true →
      Gives (.toutPulse n) s (fun t => Silent s t ∧ rd TIM_TOUT_W6.armed n t = 1 ∧
        Frame ([(TIM_TOUT_W6.armed, n), (HTOUT.next, n), (HTOUT.last, n)] ++ timeFlds) [] [] s t)) ∧
    (n < 16 → v < 2 ^ 32 → Accepted a rTIM_TOUT_W0 n 0xFFFFFFFF v s →
      Gives (.toutAdopt a n v) s (fun t => rd TIM_TOUT_W0.mode n t = v % 4 ∧ rd TIM_TOUT_W0.tb n t = v / 4 % 8 ∧ rd TIM_TOUT_W0.round n t = v / 32 % 16 ∧
        rd TIM_TOUT_W0.polarity n t = v / 512 % 2 ∧ rd TIM_TOUT_W0.squelch n t = v / 1024 % 2 ∧
        rd HTOUT.start n t = (rd TIM_TOUT_W1.start_lo n s + 2 ^ 32 * rd TIM_TOUT_W2.start_hi n s) % 2 ^ 64 ∧
        rd HTOUT.period n t = rd TIM_TOUT_W3.period n s % 2 ^ 32 ∧ rd HTOUT.width n t = rd TIM_TOUT_W4.width n s % 2 ^ 24 ∧
        rd HTOUT.delay n t = rd TIM_TOUT_W5.tout_delay n s % 2 ^ 16 ∧ (v % 4 = 0 → rd TIM_TOUT_W6.armed n t = 0) ∧ (v % 4 = 2 → rd TIM_TOUT_W6.armed n t = 1))) ∧
    (rd TIM_TIN_W0.enable n s ≠ 0 → (if rising then (rd TIM_TIN_W0.edge n s).testBit 0 else (rd TIM_TIN_W0.edge n s).testBit 1) = true →
      (rd HTIN.last n s = 0 ∨ rd HTIN.last n s - 1 + 20 ≤ now s) → rd TIM_TIN_W0.tb n s = b → (getL LTIM.tin n s).length < 16 →
      ((capCount b s : Int) - psToU (rdI TIM_TIN_W1.tin_delay n s)).toNat = c → (∀ j ∈ List.range 8, rd TIM_TB_W0.source j s ≠ 2) →
      Gives (.tinEdge n rising) s (fun t =>
        getL LTIM.tin n t = getL LTIM.tin n s ++ [c * 2 + b2n (!rising)] ∧ rd TIM_TIN_W2.fill n t = (getL LTIM.tin n s).length + 1 ∧ Silent s t ∧
        Frame [(HTIN.last, n), (TIM_TIN_W2.fill, n), (TIM_TIN_W2.head_edge, n), (TIM_TIN_W4.cap_lo, n), (TIM_TIN_W5.cap_hi, n), (TIM_TIN_W6.cap_frac, n)] [(LTIM.tin, n)] [] s t)) ∧
    (rd TIM_TIN_W0.enable n s ≠ 0 → (if rising then (rd TIM_TIN_W0.edge n s).testBit 0 else (rd TIM_TIN_W0.edge n s).testBit 1) = true →
      rd HTIN.last n s ≠ 0 → now s < rd HTIN.last n s - 1 + 20 → Gives (.tinEdge n rising) s (fun t => Silent s t ∧
        cnt cnt_TIM_tin_glitch 0 t = (cnt cnt_TIM_tin_glitch 0 s + 1) % 2 ^ 64 ∧ Frame [] [] [(cnt_TIM_tin_glitch, 0)] s t)) ∧
    (rd TIM_TIN_W0.enable n s ≠ 0 → (if rising then (rd TIM_TIN_W0.edge n s).testBit 0 else (rd TIM_TIN_W0.edge n s).testBit 1) = true →
      (rd HTIN.last n s = 0 ∨ rd HTIN.last n s - 1 + 20 ≤ now s) → 16 ≤ (getL LTIM.tin n s).length →
      (∀ j ∈ List.range 8, rd TIM_TB_W0.source j s ≠ 2) →
      Gives (.tinEdge n rising) s (fun t => rd TIM_TIN_W2.overflow n t = 1 ∧ Raised 0x0609 [n] s t ∧
        cnt cnt_TIM_tin_overflow 0 t = (cnt cnt_TIM_tin_overflow 0 s + 1) % 2 ^ 64 ∧ Frame [(HTIN.last, n), (TIM_TIN_W2.overflow, n), (TIM_EVT.ev_tin, 0)] [] [(cnt_TIM_tin_overflow, 0)] s t)) ∧
    (rd TIM_TIN_W0.enable n s ≠ 0 → (rd TIM_TIN_W0.edge n s).testBit 0 = true → (rd HTIN.last n s = 0 ∨ rd HTIN.last n s - 1 + 20 ≤ now s) →
      rd TIM_TIN_W0.tb n s = b → 0 < b → b < 8 → rd TIM_TB_W0.enable b s ≠ 0 → rd TIM_TB_W0.source b s = 2 → rd TIM_TB_W0.tin b s = n →
      ptpRuns s = true → ((capCount b s : Int) - psToU (rdI TIM_TIN_W1.tin_delay n s)).toNat = c → Gives (.tinEdge n true) s (fun t =>
        rd TIM_TB_W6.offset b t = unsgn 32 (sat32 (uToPs ((((c + 1000000000 * 2 ^ 32 / 2) / (1000000000 * 2 ^ 32) * (1000000000 * 2 ^ 32) : Nat) : Int) - c))) ∧
        Due HTB.last b 0 t)) ∧
    (n < 8 → Accepted a rTIM_TIN_W3 n 0xFFFFFFFF 1 s →
      Gives (.tinPop a n) s (fun t => getL LTIM.tin n t = (getL LTIM.tin n s).tail ∧ rd TIM_TIN_W2.fill n t = (getL LTIM.tin n s).tail.length % 32 ∧ Silent s t ∧
        Frame ([(TIM_TIN_W2.fill, n), (TIM_TIN_W2.head_edge, n), (TIM_TIN_W4.cap_lo, n), (TIM_TIN_W5.cap_hi, n), (TIM_TIN_W6.cap_frac, n), (HAUD.tail, 0)] ++ logFlds)
          ([(LTIM.tin, n)] ++ (LAUD.cap, rd HAUD.tail 0 s) :: logLists) [] s t))

/-- GOVERNOR_TICK, DEMAND_UPDATE, VOLTAGE_SETTLED, UP_STEP_VOLTAGE_TIMEOUT and CLOCK_SLEW_DONE (R309 to R314). -/
def Obligations.GovernorAndSteps : Prop :=
  ∀ (x l : Nat) (s : State), s.telFifo.length < 900 →
    (govRuns s = true → govTarget s = (x, l) → rd PWR_STATUS.p_state 0 s = x → rd HPWR.step 0 s = 0 →
      Gives .governorTick s (fun t => rd PWR_STATUS.p_target 0 t = x % 8 ∧ rd PWR_STATUS.limiter 0 t = l % 8 ∧ Silent s t ∧ Due HPWR.tgov 0 0 t ∧
        Frame ([(PWR_DRAW.dev_cap, 0), (FAB_PG_STATUS.own_slack, 0), (HPWR.tgov, 0), (PWR_STATUS.p_target, 0), (PWR_STATUS.limiter, 0), (HPWR.gov, 0)] ++ timeFlds) [] [] s t)) ∧
    (rd HPWR.gov 0 s = 0 → rd HPWR.run 0 s ≠ 0 → (vrUsed s).all (fun r => rd HVR.seen r s ≠ 0) = true → rd HPWR.step 0 s = 0 →
      Gives .governorTick s (fun t => govRuns t = true ∧ rd PWR_STATUS.p_target 0 t = (govTarget t).1 % 8 ∧ Due HPWR.tgov 0 0 t)) ∧
    (rd HPWR.gov 0 s = 0 → rd HPWR.run 0 s = 0 → rd HPWR.step 0 s = 0 →
      Gives .governorTick s (fun t => govRuns t = false ∧ rd PWR_STATUS.p_target 0 t = rd PWR_STATUS.p_target 0 s ∧ Silent s t ∧
        Frame ((HPWR.tgov, 0) :: timeFlds) [] [] s t)) ∧
    (govRuns s = true → govTarget s = (x, l) → rd PWR_STATUS.p_state 0 s < x → x < 8 → rd HPWR.step 0 s = 0 →
      Gives .governorTick s (fun t => rd PWR_STATUS.p_target 0 t = x ∧ rd PWR_STATUS.limiter 0 t = l % 8 ∧ rd HPWR.to 0 t = x ∧
        rd HPWR.step 0 t = (if droopClear t = true then 2 else 1) ∧ rd PWR_STATUS.p_state 0 t = rd PWR_STATUS.p_state 0 s)) ∧
    (govRuns s = true → govTarget s = (x, l) → x < rd PWR_STATUS.p_state 0 s → rd PWR_STATUS.p_state 0 s < 8 → rd HPWR.step 0 s = 0 →
      Gives .governorTick s (fun t => rd PWR_STATUS.p_target 0 t = x % 8 ∧ (since HPWR.uplast 0 1000000 t = true → droopClear t = true →
        rd HPWR.step 0 t = 5 ∧ rd HPWR.to 0 t = rd PWR_STATUS.p_state 0 s - 1 ∧ Due HPWR.upto 0 200000 t ∧ rd PWR_STATUS.step_busy 0 t = 1 ∧
        rd HPWR.vcode 0 t = codeFor (rd PWR_STATUS.p_state 0 s - 1) s % 2 ^ HPWR.vcode.width ∧ rd PWR_VCORE.v_set 0 t = (600 + rd HPWR.vcode 0 t * 5 / 2) % 2 ^ PWR_VCORE.v_set.width ∧
        (∀ r ∈ vrSet s, Emitted ⟨.pmbus, rd PWR_VR.addr r s, [rd HIF_BUS_CFG.pmb_pec 0 s, 0x00, rd PWR_VR.page r s, 0x21, 6000 + 25 * codeFor (rd PWR_STATUS.p_state 0 s - 1) s]⟩ s t)))) ∧
    (rd PWR_CTRL.perf_mode 0 s = 0 →
      Gives .demandUpdate s (fun t => rd HPWR.demand 0 t = 0 ∧ Silent s t ∧ Frame [(HPWR.demand, 0)] [] [] s t)) ∧
    (rd PWR_CTRL.perf_mode 0 s ≠ 0 →
      Gives .demandUpdate s (fun t => rd HPWR.demand 0 t ≤ 5 ∧ (rd HPWR.demand 0 t ≠ 0 → ((lastMs t).1 * 10 ≤ 8 * 128 * pMhz (rd HPWR.demand 0 t) * 1000 ∧ (lastMs t).2 * 10 ≤ 8 * 512 * pMhz (rd HPWR.demand 0 t) * 1000)) ∧
        (∀ k ∈ List.range 6, rd HPWR.demand 0 t < k → ¬((lastMs t).1 * 10 ≤ 8 * 128 * pMhz k * 1000 ∧ (lastMs t).2 * 10 ≤ 8 * 512 * pMhz k * 1000)) ∧ Silent s t ∧ Frame ([(HPWR.demand, 0), (HPWR.tdem, 0)] ++ timeFlds) [] [] s t)) ∧
    (rd HPWR.step 0 s = 4 → rd HPWR.old 0 s ≠ rd PWR_STATUS.p_state 0 s → (getL LPWR.pc 0 s).length < 100 →
      Gives .voltageSettled s (fun t => rd HPWR.step 0 t = 0 ∧ rd PWR_STATUS.step_busy 0 t = 0 ∧
        Raised 0x0301 [rd HPWR.old 0 s, rd PWR_STATUS.p_state 0 s, rd PWR_STATUS.limiter 0 s] s t ∧
        cnt cnt_PWR_pstate_changes 0 t = (cnt cnt_PWR_pstate_changes 0 s + 1) % 2 ^ 64 ∧
        Frame [(HPWR.step, 0), (PWR_STATUS.step_busy, 0)] [(LPWR.pc, 0)] [(cnt_PWR_pstate_changes, 0)] s t)) ∧
    (rd HPWR.step 0 s = 5 → voltIn s = true → (vrSet s).all (fun r => rd PWR_VR_TEL.fault r s = 0) = true →
      Gives .voltageSettled s (fun t => rd HPWR.step 0 t = 6 ∧ rd PWR_STATUS.step_busy 0 t = 0 ∧ Due HPWR.vt 0 0 t ∧ rd HPWR.upto 0 t = 0 ∧ Silent s t ∧
        Frame [(HPWR.step, 0), (PWR_STATUS.step_busy, 0), (HPWR.vt, 0), (HPWR.upto, 0)] [] [] s t)) ∧
    (rd HPWR.step 0 s = 5 → voltIn s = false → Gives .voltageSettled s (fun t => Silent s t ∧ Frame [] [] [] s t)) ∧
    (rd HPWR.step 0 s = 5 → running HPWR.upto 0 s = true →
      Gives .upStepVoltageTimeout s (fun t => rd HPWR.step 0 t = 8 ∧ rd HPWR.upto 0 t = 0 ∧ Raised 0x0302 [rd HPWR.to 0 s, 2] s t ∧
        cnt cnt_PWR_step_abandon 0 t = (cnt cnt_PWR_step_abandon 0 s + 1) % 2 ^ 64 ∧ rd PWR_STATUS.p_state 0 t = rd PWR_STATUS.p_state 0 s ∧
        rd HPWR.vcode 0 t = codeFor (rd PWR_STATUS.p_state 0 s) s % 2 ^ HPWR.vcode.width ∧ rd PWR_VCORE.v_set 0 t = (600 + rd HPWR.vcode 0 t * 5 / 2) % 2 ^ PWR_VCORE.v_set.width ∧
        (∀ r ∈ vrSet s, Emitted ⟨.pmbus, rd PWR_VR.addr r s, [rd HIF_BUS_CFG.pmb_pec 0 s, 0x00, rd PWR_VR.page r s, 0x21, 6000 + 25 * codeFor (rd PWR_STATUS.p_state 0 s) s]⟩ s t))) ∧
    (rd HPWR.step 0 s = 2 → rd HPWR.to 0 s < 8 →
      Gives .clockSlewDone s (fun t => rd PWR_STATUS.p_state 0 t = rd HPWR.to 0 s ∧ rd HPWR.step 0 t = 4 ∧ rd PWR_STATUS.step_busy 0 t = 1 ∧ t.telFifo = s.telFifo ∧
        rd HPWR.vcode 0 t = codeFor (rd HPWR.to 0 s) s % 2 ^ HPWR.vcode.width ∧ rd PWR_VCORE.v_set 0 t = (600 + rd HPWR.vcode 0 t * 5 / 2) % 2 ^ PWR_VCORE.v_set.width ∧
        (∀ r ∈ vrSet s, Emitted ⟨.pmbus, rd PWR_VR.addr r s, [rd HIF_BUS_CFG.pmb_pec 0 s, 0x00, rd PWR_VR.page r s, 0x21, 6000 + 25 * codeFor (rd HPWR.to 0 s) s]⟩ s t))) ∧
    (rd HPWR.step 0 s = 6 → rd HPWR.to 0 s < 8 → rd HPWR.old 0 s ≠ rd HPWR.to 0 s →
      Gives .clockSlewDone s (fun t => rd PWR_STATUS.p_state 0 t = rd HPWR.to 0 s ∧ rd HPWR.step 0 t = 0 ∧ rd PWR_STATUS.step_busy 0 t = 0 ∧
        cnt cnt_PWR_pstate_changes 0 t = (cnt cnt_PWR_pstate_changes 0 s + 1) % 2 ^ 64 ∧ rd HPWR.vcode 0 t = rd HPWR.vcode 0 s))

/-- DROOP_CROSSING, DROOP_CLEAR, STRETCH_DUTY_EVAL, DROOP_STATE_UPDATE, VR_ALERT_ASSERT, VR_ALERT_DEASSERT and ALERT_HOLD_EXPIRY (R314 to R320). -/
def Obligations.DroopAndAlert : Prop :=
  ∀ (k b d : Nat) (s : State), s.telFifo.length < 900 →
    (k < 64 → rd PWR_DROOP.level k s = 0 → rd PWR_DROOP_CFG.t1_mv 0 s ≤ b → b < rd PWR_DROOP_CFG.t2_mv 0 s → rd HPWR.step 0 s = 0 →
      Gives (.droopCrossing k b) s (fun t => rd PWR_DROOP.level k t = 1 ∧
        cnt cnt_PWR_droop_l1 0 t = (cnt cnt_PWR_droop_l1 0 s + 1) % 2 ^ 64 ∧ Silent s t ∧
        Frame [(PWR_DROOP.level, k), (HDRP.level, detDom k), (HDRP.since, detDom k)] [(LDRP.segs, detDom k)] [(cnt_PWR_droop_l1, 0)] s t)) ∧
    (k < 64 → rd PWR_DROOP.level k s = 0 → rd PWR_DROOP_CFG.t2_mv 0 s ≤ b → rd HPWR.step 0 s = 0 →
      (∀ j ∈ domDets (detDom k), rd PWR_DROOP.level j s ≤ 2) → Gives (.droopCrossing k b) s (fun t => rd PWR_DROOP.level k t = 2 ∧
        rd HDRP.level (detDom k) t = 2 ∧
        cnt cnt_PWR_droop_l1 0 t = (cnt cnt_PWR_droop_l1 0 s + 1) % 2 ^ 64 ∧ cnt cnt_PWR_droop_l2 0 t = (cnt cnt_PWR_droop_l2 0 s + 1) % 2 ^ 64 ∧ Silent s t)) ∧
    (k < 64 → rd PWR_DROOP.level k s = 0 → rd PWR_DROOP_CFG.t1_mv 0 s ≤ b → b < rd PWR_DROOP_CFG.t2_mv 0 s → rd HPWR.step 0 s = 5 →
      Gives (.droopCrossing k b) s (fun t => rd PWR_DROOP.level k t = 1 ∧ rd HPWR.step 0 t = 8 ∧
        Raised 0x0302 [rd HPWR.to 0 s, 1] s t ∧ cnt cnt_PWR_step_abandon 0 t = (cnt cnt_PWR_step_abandon 0 s + 1) % 2 ^ 64)) ∧
    (k < 64 → rd PWR_DROOP.level k s ≠ 0 → b + 5 ≤ rd PWR_DROOP_CFG.t1_mv 0 s →
      Gives (.droopClear k b) s (fun t => rd PWR_DROOP.level k t = 0 ∧ Silent s t ∧
        Frame [(PWR_DROOP.level, k), (HDRP.level, detDom k), (HDRP.since, detDom k), (HPWR.clear, 0)] [(LDRP.segs, detDom k)] [] s t)) ∧
    (d < 22 → rd HPWR.step 0 s = 0 →
      Gives .stretchDutyEval s (fun t => (∀ j ∈ domDets d, rd PWR_DROOP.duty_max j t = max (rd PWR_DROOP.duty_max j s) (min (stretchAdded d 10000 t / 10000) 255) % 2 ^ PWR_DROOP.duty_max.width) ∧
        t.out = s.out)) ∧
    (d < 17 → rd HDRP.exc d s = 0 →
      Gives .stretchDutyEval s (fun t => 200000 < stretchAdded d 10000 t → rd HDRP.exc d t = 1 ∧ Raised 0x0905 [d, stretchAdded d 10000 t / 10000] s t)) ∧
    (0 < rd PWR_DROOP_CFG.relief 0 s →
      Gives .droopStateUpdate s (fun t => (rd PWR_DROOP_CFG.relief 0 s * 1000000 < ((List.range 22).map (fun d => stretchAdded d 1000000 t)).foldl max 0 →
        rd HPWR.droopst 0 t = min 5 (max (rd HPWR.droopst 0 s) (rd PWR_STATUS.p_state 0 s + 1))) ∧ (((List.range 22).map (fun d => stretchAdded d 1000000 t)).foldl max 0 ≤ 1000000 → rd HPWR.droopst 0 t % 8 ≤ rd HPWR.droopst 0 s ∧
        rd HPWR.droopst 0 s ≤ rd HPWR.droopst 0 t + 1) ∧ Silent s t ∧
        Frame ([(HPWR.tdroop, 0), (HPWR.duty10, 0), (HPWR.droopst, 0), (HPWR.quiet, 0), (HPWR.relax, 0)] ++ timeFlds) [] [] s t)) ∧
    (rd HPWR.asserted 0 s = 0 → rd PWR_STATUS.thermtrip 0 s = 0 →
      Gives .vrAlertAssert s (fun t => rd PWR_STATUS.alert 0 t = 1 ∧ rd PWR_STATUS.p_state 0 t = 5 ∧ rd PWR_STATUS.p_target 0 t = 5 ∧ rd PWR_STATUS.limiter 0 t = (if govRuns s = true then 6 else 7) ∧
        rd HPWR.asserted 0 t = 1 ∧ Raised 0x0303 [rd PWR_STATUS.p_state 0 s] s t ∧ cnt cnt_PWR_vr_alert 0 t = (cnt cnt_PWR_vr_alert 0 s + 1) % 2 ^ 64)) ∧
    (rd HPWR.asserted 0 s ≠ 0 →
      Gives .vrAlertDeassert s (fun t => rd HPWR.asserted 0 t = 0 ∧ Due HPWR.alerth 0 (rd PWR_THERM.alert_hold 0 s * 1000000) t ∧ Silent s t ∧
        Frame [(HPWR.asserted, 0), (HPWR.tde, 0), (HPWR.alerth, 0)] [] [] s t)) ∧
    (running HPWR.alerth 0 s = true →
      Gives .alertHoldExpiry s (fun t => rd PWR_STATUS.alert 0 t = 0 ∧ Raised 0x0304 [(rd HPWR.tde 0 s - rd HPWR.tas 0 s) / 1000] s t ∧
        Frame ([(PWR_DRAW.dev_cap, 0), (FAB_PG_STATUS.own_slack, 0), (PWR_STATUS.alert, 0), (PWR_EVT.ev_alert, 0), (HPWR.alerth, 0)] ++ timeFlds) [] [] s t))

/-- THERMAL_SENSOR_READ, THERM_STATE_UPDATE, THERMTRIP, VOLTAGE_SENSOR_READ and REGULATOR_POLL (R321 to R327). -/
def Obligations.SensorsAndRegulators : Prop :=
  ∀ (k v mv ma w : Nat) (x : Int) (rs : List Int) (vs : List Nat) (s : State), s.telFifo.length < 900 →
    (rs.length = 32 → (∀ y ∈ rs, -1024 ≤ y ∧ y < 1024) →
      Gives (.thermalSensorRead rs) s (fun t => (∀ j ∈ List.range 32, rdI PWR_TEMP.temp j t = rs.getD j 0 ∧
        (rd PWR_TEMP.valid j t ≠ 0 → rs.getD j 0 ≤ rdI PWR_THERM_STATUS.tmax 0 t)) ∧ rd PWR_THERM_STATUS.valid_count 0 t = (thermValid t).length)) ∧
    (rs.length = 32 → k < 32 → rs.getD k 0 = x → (x < -280 ∨ 640 < x) → -1024 ≤ x → x < 1024 → rd HTHM.seen k s ≠ 0 →
      rd PWR_TEMP.valid k s ≠ 0 → Gives (.thermalSensorRead rs) s (fun t => rd PWR_TEMP.valid k t = 0 ∧ Raised 0x0309 [1, k, wI x] s t)) ∧
    (24 ≤ (thermValid s).length → rd PWR_THERM_STATUS.valid_count 0 s ≠ 0 → rdI PWR_THERM_STATUS.tmax 0 s = x →
      (4 * rd PWR_THERM.throttle_temp 0 s : Int) ≤ x →
      Gives .thermStateUpdate s (fun t => rd HPWR.therm 0 t = min 5 (max (rd HPWR.therm 0 s) (rd PWR_STATUS.p_state 0 s + 1)) ∧
        cnt cnt_PWR_throttle_ms 0 t = (cnt cnt_PWR_throttle_ms 0 s + 1) % 2 ^ 64 ∧ (rd HPWR.thr 0 s = 0 → Raised 0x0305 [rd PWR_THERM_STATUS.hottest 0 s, wI x] s t))) ∧
    ((thermValid s).length < 24 → Gives .thermStateUpdate s (fun t => rd HPWR.therm 0 t = 5 ∧ t.out = s.out)) ∧
    (k < 32 → rd PWR_TEMP.valid k s ≠ 0 → 540 ≤ x → x < 1024 → rd PWR_STATUS.thermtrip 0 s = 0 →
      Gives (.thermtrip k x) s (fun t => rd PWR_STATUS.thermtrip 0 t = 1 ∧ t.pins.thermtripN = false ∧ rd PWR_STATUS.p_state 0 t = 5 ∧
        rd PWR_STATUS.limiter 0 t = 7 ∧ (cxRun s = true → Raised 0x0308 [k, wI x] s t ∧ rd PWR_EVT.ev_thermal 0 t = 1))) ∧
    (vs.length ≤ 64 → k < vs.length → vs.getD k 0 = v → v < 2048 → Gives (.voltageSensorRead vs) s (fun t => rd PWR_VSENSE.last k t = v ∧
        rd PWR_VSENSE.min k t = (if rd PWR_VSENSE.min k s = 0 then v else min (rd PWR_VSENSE.min k s) v) % 2 ^ PWR_VSENSE.min.width ∧ t.out = s.out)) ∧
    (below50 v s = true → rd HEVT.last (0x030B * 65536) s = 0 → running HVS.low 0 s = true →
      Gives (.voltageSensorRead [v]) s (fun t => heldFor HVS.low 0 10000 t = true → Raised 0x030B [0, v] s t ∧ rd PWR_EVT.ev_sensor 0 t = 1)) ∧
    (k < 16 → vrUsed s = [k] → rd HVR.known k s ≠ 0 → rd HVR.out k s = 0 → vrFaultBits w = false →
      Gives (.regulatorPoll [⟨k, true, mv, ma, w, [true, true, true]⟩]) s (fun t => rd PWR_VR_TEL.power k t = min (mv * ma / 1000000) 2047 ∧ rd PWR_VR_TEL.fault k t = 0 ∧
        rd PWR_DRAW.draw 0 t = min (drawNow t) 2047 ∧ rd HVR.seen k t = 1 ∧
        Emitted ⟨.pmbus, rd PWR_VR.addr k s, [rd HIF_BUS_CFG.pmb_pec 0 s, 0x8B]⟩ s t ∧ Emitted ⟨.pmbus, rd PWR_VR.addr k s, [rd HIF_BUS_CFG.pmb_pec 0 s, 0x8C]⟩ s t ∧
        Emitted ⟨.pmbus, rd PWR_VR.addr k s, [rd HIF_BUS_CFG.pmb_pec 0 s, 0x79]⟩ s t ∧
        (rd PWR_DRAW.dev_cap 0 t < rd PWR_DRAW.draw 0 t → rd HPWR.caps 0 t = min 5 (max (rd HPWR.caps 0 s) (rd PWR_STATUS.p_state 0 s + 1))))) ∧
    (k < 16 → vrUsed s = [k] → rd HVR.known k s ≠ 0 → rd HVR.out k s = 0 → rd PWR_VR_TEL.fault k s = 0 →
      Gives (.regulatorPoll [⟨k, true, mv, ma, w, [false, false, false]⟩]) s (fun t => rd PWR_VR_TEL.fault k t = 1 ∧ Raised 0x030F [k, w] s t ∧
        rd PWR_STATUS.on_worst_case 0 t = 1 ∧ cnt cnt_PWR_pmbus_err 0 t = (cnt cnt_PWR_pmbus_err 0 s + 1) % 2 ^ 64))

/-- TRIM_PERIOD, TRIM_VALIDATION, SLICE_AUTUMN_ENTRY, SLICE_AUTUMN_WAKE, SLICE_WINTER_ENTRY, THAW_START, THAW_COMPLETE, THAW_TIMEOUT, COMPLEX_SLEEP and COMPLEX_WAKE (R328 to R334, R392, R394). -/
def Obligations.TrimAndRest : Prop :=
  ∀ (m sl n : Nat) (s : State), s.telFifo.length < 900 →
    (rd PWR_CTRL.trim_enable 0 s = 0 → Gives (.trimPeriod m) s (fun t => rd PWR_TRIM_STATUS.margin_min 0 t = min m 255 ∧ Silent s t ∧
        Frame ([(PWR_TRIM_STATUS.margin_min, 0), (HPWR.ttrim, 0)] ++ timeFlds) [] [] s t)) ∧
    (rd PWR_CTRL.trim_enable 0 s ≠ 0 → m < rd PWR_VID1.margin_lo 0 s → m < 256 → -16 ≤ rdI PWR_TRIM_STATUS.trim 0 s →
      rdI PWR_TRIM_STATUS.trim 0 s < 16 → trimFree s = true →
      Gives (.trimPeriod m) s (fun t => rdI PWR_TRIM_STATUS.trim 0 t = rdI PWR_TRIM_STATUS.trim 0 s + 1 ∧
        rd PWR_TRIM_STATUS.margin_min 0 t = m ∧ rd PWR_TRIM_STATUS.validating 0 t = 0 ∧ cnt cnt_PWR_trim_steps 0 t = (cnt cnt_PWR_trim_steps 0 s + 1) % 2 ^ 64 ∧
        rd HPWR.vcode 0 t = codeFor (rd PWR_STATUS.p_state 0 s) t % 2 ^ HPWR.vcode.width ∧ Raised 0x030C [wI (rdI PWR_TRIM_STATUS.trim 0 s + 1), m] s t)) ∧
    (rd PWR_TRIM_STATUS.validating 0 s ≠ 0 → -16 ≤ rdI PWR_TRIM_STATUS.trim 0 s → rdI PWR_TRIM_STATUS.trim 0 s < 16 → trimFree s = true →
      Gives .trimValidation s (fun t =>
        max (2 * rd HPWR.base 0 s) (rd PWR_TRIM_CFG.ce_limit 0 s) < (lastSec t).2 → rdI PWR_TRIM_STATUS.trim 0 t = rdI PWR_TRIM_STATUS.trim 0 s + 1 ∧
          rdI PWR_TRIM_STATUS.trim_floor 0 t = rdI PWR_TRIM_STATUS.trim 0 s ∧ rd PWR_TRIM_STATUS.validating 0 t = 0 ∧
          cnt cnt_PWR_trim_reverts 0 t = (cnt cnt_PWR_trim_reverts 0 s + 1) % 2 ^ 64 ∧
          Raised 0x030D [wI (rdI PWR_TRIM_STATUS.trim 0 s + 1), (lastSec t).2, rd HPWR.base 0 s] s t)) ∧
    (rd PWR_CTRL.auto_autumn 0 s ≠ 0 → rd PWR_SLICE.max_depth sl s ≠ 0 → rd SLC_STATUS.serving sl s ≠ 0 → rd PWR_SLICE.state sl s = 0 →
      sliceBusy sl s = false →
      Gives (.sliceAutumnEntry sl) s (fun t => rd PWR_SLICE.state sl t = 1 ∧ Silent s t ∧ Frame ((PWR_SLICE.state, sl) :: timeFlds) [] [] s t)) ∧
    (rd PWR_SLICE.state sl s = 1 →
      Gives (.sliceAutumnWake sl) s (fun t => rd PWR_SLICE.state sl t = 0 ∧ Silent s t ∧ Frame [(PWR_SLICE.state, sl)] [] [] s t)) ∧
    (winterOk sl s = true → rd SLC_STATUS.serving sl s ≠ 0 → rd PWR_SLICE.state sl s < 2 → sliceBusy sl s = false →
      Gives (.sliceWinterEntry sl) s (fun t => rd PWR_SLICE.state sl t = 2 ∧ Silent s t ∧ Frame [(PWR_SLICE.state, sl)] [] [] s t)) ∧
    (sl < 16 → rd SLC_STATUS.serving sl s ≠ 0 → winterWake sl s = true → rd PWR_SLICE.state sl s = 2 →
      Gives (.thawStart sl) s (fun t => rd PWR_SLICE.state sl t = 3 ∧ Due HSLC.thaw sl 6000 t ∧ Silent s t ∧ Frame [(PWR_SLICE.state, sl), (HSLC.thaw, sl)] [] [] s t)) ∧
    (rd PWR_SLICE.state sl s = 3 → rd SLC_STATUS.serving sl s ≠ 0 → getL LSLC.img sl s = [] → getL LADM.held 0 s = [] →
      Gives (.thawComplete sl []) s (fun t => rd PWR_SLICE.state sl t = 0 ∧ running HSLC.thaw sl t = false ∧ Silent s t ∧
        Frame [(PWR_SLICE.state, sl), (HSLC.thaw, sl)] [] [] s t)) ∧
    (running HSLC.thaw sl s = true → rd PWR_SLICE.state sl s = 3 → rd SLC_STATUS.serving sl s ≠ 0 → sl < 16 →
      Gives (.thawTimeout sl) s (fun t => rd SLC_STATUS.serving sl t = 0 ∧ rd SLC_STATUS.failed sl t = 1 ∧ rd HSLC.cause sl t = 2 ∧
        rdBit RED_SPARE_STATUS.failed 0 sl t = true)) ∧
    (rd PWR_CX.state 0 s = 0 → rd HRED.hold 0 s = 0 → rd HRED.restart 0 s = 0 → (∀ c ∈ List.range 4, rd INTC_CORE.presented c s = 0) →
      rd PWR_CTRL.cx_autumn_en 0 s ≠ 0 →
      Gives (.complexSleep false none) s (fun t => rd PWR_CX.state 0 t = 1 ∧ Due HRED.cx0 0 0 t ∧ Silent s t ∧
        Frame ((PWR_CX.state, 0) :: (HRED.cx0, 0) :: [0, 1, 2, 3].map (fun c => (INTC_CORE.pres_id, c))) [] [] s t)) ∧
    (rd PWR_CX.state 0 s = 0 → rd RED_CX_STATUS.mode 0 s = 0 → (∀ c ∈ List.range 4, rd INTC_CORE.presented c s = 0) →
      rd PWR_CTRL.cx_winter_en 0 s ≠ 0 → busyStreams s = [] → rd RED_UPDATE_STATUS.phase 0 s = 0 →
      Gives (.complexSleep true none) s (fun t => rd PWR_CX.state 0 t = 2 ∧ Silent s t ∧
        Frame ((PWR_CX.state, 0) :: [0, 1, 2, 3].map (fun c => (INTC_CORE.pres_id, c)) ++ timeFlds) [] [] s t)) ∧
    (rd PWR_CX.state 0 s = 1 → rd INTC_STATUS.wake_issued 0 s = 0 → rd RED_CX_STATUS.mode 0 s = 0 →
      (∀ c ∈ List.range 4, rd INTC_CORE.presented c s = 0) → rd PWR_CTRL.cx_winter_en 0 s ≠ 0 → busyStreams s = [] →
      rd RED_UPDATE_STATUS.phase 0 s = 0 →
      Gives (.complexSleep true none) s (fun t => rd PWR_CX.state 0 t = 2 ∧ now t = now (passTo (rd HRED.cx0 0 s - 1 + 1000000) s) ∧ Silent s t ∧
        Frame ((PWR_CX.state, 0) :: [0, 1, 2, 3].map (fun c => (INTC_CORE.pres_id, c)) ++ timeFlds) [] [] s t)) ∧
    (rd PWR_CX.state 0 s = 0 → rd HRED.hold 0 s = 0 → rd HRED.restart 0 s = 0 → (∀ c ∈ List.range 4, rd INTC_CORE.presented c s = 0) →
      rd PWR_CTRL.cx_autumn_en 0 s ≠ 0 → wakeSource n s = true → edgeStands n s = true →
      Gives (.complexSleep false (some n)) s (fun t => rd PWR_CX.state 0 t = 0 ∧ rd INTC_STATUS.sleep_abort 0 t = 1 ∧
        cnt cnt_INTC_sleep_abort 0 t = (cnt cnt_INTC_sleep_abort 0 s + 1) % 2 ^ 64)) ∧
    (cxAsleep s = true → rd INTC_STATUS.wake_issued 0 s ≠ 0 →
      Gives .complexWake s (fun t => rd PWR_CX.state 0 t = 0 ∧ rd INTC_STATUS.wake_issued 0 t = 0 ∧ Silent s t))

/-- PLL_UNLOCK, LOCKSTEP_MISMATCH, CHECKPOINT, DIAGNOSIS_DONE, RESYNC_DONE, REJOIN and REJOIN_COPY_DONE (R345, R349 to R354, R357, R374). The outcome of a rejoin's test is a free value (log entry 1). -/
def Obligations.LockstepAndDiagnosis : Prop :=
  ∀ (a : Access) (d k b : Nat) (s : State), s.telFifo.length < 900 →
    (∀ (f : Fld), lockBit d = some (f, b) → (d < 2 ∨ 18 < d) → rdBit f 0 b s = true →
      Gives (.pllUnlock d false) s (fun t => rdBit f 0 b t = false ∧ rd RED_ALARM.pll_unlock 0 t = 1 ∧ t.pins.alarmN = false ∧ rd CLK_EVT.ev_unlock 0 t = 1 ∧
        Raised 0x0401 [d] s t)) ∧
    (∀ (f : Fld), lockBit d = some (f, b) → 2 ≤ d → d ≤ 18 → rdBit f 0 b s = true → rd SLC_STATUS.serving (d - 2) s ≠ 0 →
      Gives (.pllUnlock d false) s (fun t => rd SLC_STATUS.serving (d - 2) t = 0 ∧ rd SLC_STATUS.failed (d - 2) t = 1 ∧
        rd HSLC.cause (d - 2) t = 3)) ∧
    (∀ (f : Fld), lockBit d = some (f, b) → 2 ≤ d → d ≤ 18 →
      Gives (.pllUnlock d true) s (fun t => rdBit f 0 b t = true ∧ Silent s t ∧ Frame [(f, 0)] [] [] s t)) ∧
    (rd RED_CX_STATUS.mode 0 s = 0 → d < 4 → k < 4 → b < 2 ^ 32 →
      Gives (.lockstepMismatch d k b) s (fun t => rd RED_CX_STATUS.mode 0 t = 1 ∧ rd HRED.gap 0 t = 1 ∧ Due HRED.gap0 0 0 t ∧ ∀ c ∈ List.range 4, rd INTC_CORE.presented c t = 0 ∧
        rd RED_MISMATCH_LOG.core 0 t = d ∧ rd RED_MISMATCH_LOG.kind 0 t = k ∧ rd RED_MISMATCH_LOG.verdict 0 t = 0 ∧ rd RED_MISMATCH_ADDR.addr 0 t = b ∧
        Raised 0x0801 [d, k, b] s t ∧ cnt cnt_RED_mismatch 0 t = (cnt cnt_RED_mismatch 0 s + 1) % 2 ^ 64)) ∧
    (rd RED_CX_STATUS.mode 0 s = 0 →
      Gives .checkpoint s (fun t => Due HCX.ckpt 0 0 t ∧ rd HCX.ecc 0 t = 0 ∧ rd HCX.ecc 1 t = 0 ∧ Silent s t ∧
        Frame logFlds logLists [] s t)) ∧
    (rd RED_CX_STATUS.mode 0 s = 1 → rd HRED.gap 0 s ≠ 0 → rd HCX.ecc 0 s = 0 → rd HCX.ecc 1 s = 0 → rd HRED.second 0 s = 0 →
      Gives (.diagnosisDone true true) s (fun t => rd RED_CX_STATUS.mode 0 t = 2 ∧ rd RED_MISMATCH_LOG.verdict 0 t = 1 ∧
        rd RED_CX_STATUS.transients 0 t = (rd RED_CX_STATUS.transients 0 s + 1) % 256 ∧ rd RED_CX_STATUS.a_bist 0 t = 1 ∧ rd RED_CX_STATUS.b_bist 0 t = 1 ∧ Silent s t)) ∧
    (rd RED_CX_STATUS.mode 0 s = 1 → rd HRED.gap 0 s ≠ 0 → rd HCX.ecc 0 s = 0 → getL LCX.held 0 s = [] →
      Gives (.diagnosisDone true false) s (fun t => rd RED_CX_STATUS.mode 0 t = 3 ∧ rd RED_CX_STATUS.b_in_service 0 t = 0 ∧ rd RED_CX_STATUS.owner 0 t = 0 ∧
        rd RED_MISMATCH_LOG.verdict 0 t = 3 ∧ rd HRED.gap 0 t = 0 ∧ Raised 0x0802 [1, cxBits false (rdB HCX.ecc 1 s), gapUs s] s t ∧
        cnt cnt_RED_give_up 0 t = (cnt cnt_RED_give_up 0 s + 1) % 2 ^ 64)) ∧
    (rd RED_CX_STATUS.mode 0 s = 1 → rd HRED.gap 0 s ≠ 0 → rd HCX.ecc 1 s = 0 → getL LCX.held 0 s = [] →
      Gives (.diagnosisDone false true) s (fun t => rd RED_CX_STATUS.mode 0 t = 3 ∧ rd RED_CX_STATUS.a_in_service 0 t = 0 ∧ rd RED_CX_STATUS.owner 0 t = 1 ∧
        rd RED_MISMATCH_LOG.verdict 0 t = 2 ∧ rd HRED.gap 0 t = 0 ∧ Raised 0x0802 [0, cxBits false (rdB HCX.ecc 0 s), gapUs s] s t)) ∧
    (rd RED_CX_STATUS.mode 0 s = 1 → rd HRED.gap 0 s ≠ 0 →
      Gives (.diagnosisDone false false) s (fun t => rd RED_CX_STATUS.mode 0 t = 5 ∧ rd HRED.hold 0 t = 1 ∧ rd HRED.gap 0 t = 0 ∧ rd TBL_CTRL.frozen 0 t = 1 ∧
        rd RED_CX_STATUS.a_in_service 0 t = 0 ∧ rd RED_CX_STATUS.b_in_service 0 t = 0 ∧ rd RED_ALARM.hold 0 t = 1 ∧ t.pins.alarmN = false ∧ ∀ c ∈ List.range 4, rd INTC_CORE.presented c t = 0 ∧
        Raised 0x0804 [cxBits false (rdB HCX.ecc 0 s), cxBits false (rdB HCX.ecc 1 s)] s t)) ∧
    (rd RED_CX_STATUS.mode 0 s = 2 → getL LCX.held 0 s = [] →
      Gives .resyncDone s (fun t => rd RED_CX_STATUS.mode 0 t = 0 ∧ rd HRED.gap 0 t = 0 ∧ Raised 0x0803 [gapUs s] s t ∧
        cnt cnt_RED_transient 0 t = (cnt cnt_RED_transient 0 s + 1) % 2 ^ 64)) ∧
    (a.path = .core → rd HRED.gap 0 s ≠ 0 → rd RED_CX_STATUS.mode 0 s ≠ 2 →
      Gives (.registerWrite a d k) s (fun t => getL LCX.held 0 t = getL LCX.held 0 s ++ [0, a.who, d, 0xFFFFFFFF, k] ∧ Silent s t ∧
        Frame [] [(LCX.held, 0)] [] s t)) ∧
    (rd RED_CX_STATUS.mode 0 s = 2 → getL LCX.held 0 s = [0, k, regAddr rGLB_SCRATCH 0, 0xFFFFFFFF, b] → b < 2 ^ 32 → rd HRED.hold 0 s = 0 →
      rd HRED.restart 0 s = 0 → Gives .resyncDone s (fun t => rd GLB_SCRATCH.scratch 0 t = b ∧ getL LCX.held 0 t = [] ∧
        rd RED_CX_STATUS.mode 0 t = 0 ∧ rd HRED.gap 0 t = 0)) ∧
    (Accepted a rRED_CX_CMD 0 (fieldWord RED_CX_CMD.rejoin 1) (fieldWord RED_CX_CMD.rejoin 1) s →
      Gives (.rejoin a) s (fun t => (rd RED_CX_STATUS.mode 0 t = 7 ∧ cnt cnt_RED_rejoin_fail 0 t = cnt cnt_RED_rejoin_fail 0 s) ∨
        (rd RED_CX_STATUS.mode 0 t = 3 ∧ cnt cnt_RED_rejoin_fail 0 t = (cnt cnt_RED_rejoin_fail 0 s + 1) % 2 ^ 64 ∧ rd RED_EVT.ev_rejoin 0 t = 1))) ∧
    (rd RED_CX_STATUS.mode 0 s = 7 →
      Gives .rejoinCopyDone s (fun t => rd RED_CX_STATUS.mode 0 t = 0 ∧ rd RED_CX_STATUS.a_in_service 0 t = 1 ∧ rd RED_CX_STATUS.b_in_service 0 t = 1 ∧
        rd RED_CX_STATUS.owner 0 t = 0 ∧ rd RED_ALARM.simplex 0 t = 0 ∧ Raised 0x080B [givenUp s] s t))

/-- SERVICE_WATCHDOG, WARM_RESTART_DONE, RETRY, UPDATE_START, UPDATE_STAGED, UPDATE_SWAP, SWAP_DONE, UPDATE_COPY_DONE, UPDATE_ABORT and COMPLEX_SRAM_ECC_ERROR (R357 to R359, R370, R372, R387). Test outcomes are free values (log entry 1); the image check rests on uninterpreted cryptography (log entry 2). -/
def Obligations.RestartsAndUpdates : Prop :=
  ∀ (a : Access) (m c : Nat) (img : List Nat) (s : State), s.telFifo.length < 900 →
    (rd RED_CTRL.wd_enable 0 s ≠ 0 → rd RED_CX_STATUS.mode 0 s = 0 → getL LRED.wd 0 s = [] →
      Gives .serviceWatchdog s (fun t => rd RED_CX_STATUS.mode 0 t = 6 ∧ rd HRED.restart 0 t = 1 ∧ rd HRED.after 0 t = 0 ∧
        Raised 0x080A [1] s t ∧ cnt cnt_RED_wd_restart 0 t = (cnt cnt_RED_wd_restart 0 s + 1) % 2 ^ 64)) ∧
    (rd RED_CTRL.wd_enable 0 s ≠ 0 → rd RED_CX_STATUS.mode 0 s = 0 → rd HRED.wd 0 s = 0 →
      2 ≤ ((getL LRED.wd 0 s).filter (fun x => now s < x + 600000000000)).length →
      Gives .serviceWatchdog s (fun t => rd RED_CX_STATUS.mode 0 t = 5 ∧
        rd HRED.hold 0 t = 1 ∧ rd RED_ALARM.hold 0 t = 1 ∧ t.pins.alarmN = false)) ∧
    (rd HRED.restart 0 s ≠ 0 → rd HRED.after 0 s = m →
      Gives .warmRestartDone s (fun t => rd HRED.restart 0 t = 0 ∧ rd RED_CX_STATUS.mode 0 t = m % 8 ∧
        (∀ c ∈ List.range 4, rd INTC_CORE.pmr c t = 16 ∧ getL LINT.stack c t = []) ∧ Silent s t)) ∧
    (Accepted a rRED_CX_CMD 0 (fieldWord RED_CX_CMD.retry 1) (fieldWord RED_CX_CMD.retry 1) s →
      Gives (.retry a) s (fun t => (rd HRED.hold 0 t = rd HRED.hold 0 s ∧ rd RED_CX_STATUS.a_bist 0 t = 0 ∧ rd RED_CX_STATUS.b_bist 0 t = 0) ∨
        (rd HRED.hold 0 t = 0 ∧ rd HRED.restart 0 t = 1 ∧ rd RED_CX_STATUS.mode 0 t = 6 ∧ rd TBL_CTRL.frozen 0 t = 0))) ∧
    (Accepted a rRED_UPDATE_CTRL 0 (fieldWord RED_UPDATE_CTRL.start 1) (fieldWord RED_UPDATE_CTRL.start 1) s →
      Gives (.updateStart a) s (fun t => rd RED_CX_STATUS.mode 0 t = 4 ∧ rd RED_CX_STATUS.owner 0 t = 0 ∧ rd RED_UPDATE_STATUS.phase 0 t = 1 ∧
        rd RED_UPDATE_STATUS.abort_reason 0 t = 0 ∧ rd RED_UPDATE_STATUS.last_ok 0 t = 0 ∧ getL LCS.ent 5 t = [] ∧ Silent s t)) ∧
    (rd RED_UPDATE_STATUS.phase 0 s = 1 → getL LCS.cmd 5 s = [] → Gives (.updateStaged img img) s (fun t => 
        ((imageCheck img s).toOption.map List.length = none → rd RED_UPDATE_STATUS.phase 0 t = 0 ∧ rd RED_UPDATE_STATUS.abort_reason 0 t = 1 ∧ Raised 0x0809 [1, 1] s t) ∧
        ((imageCheck img s).toOption.map List.length = some 0 → rd RED_UPDATE_STATUS.phase 0 t = 2 ∧ rd HUPD.stamp 0 t = leNat ((img.drop 24).take 8) % 2 ^ 64 ∧ Silent s t))) ∧
    (∀ (img2 : List Nat), rd RED_UPDATE_STATUS.phase 0 s = 1 → img ≠ img2 →
      Gives (.updateStaged img img2) s (fun t => rd RED_UPDATE_STATUS.phase 0 t = 0 ∧ rd RED_UPDATE_STATUS.abort_reason 0 t = 1 ∧ rd HUPD.back 0 t = 1 ∧
        Raised 0x0809 [1, 1] s t)) ∧
    (Accepted a rRED_UPDATE_CTRL 0 (fieldWord RED_UPDATE_CTRL.swap 1) (fieldWord RED_UPDATE_CTRL.swap 1) s → csEnts 5 s = [] →
      getL LCS.cmd 5 s = [] → getL LUPD.par 0 s = [] → getL LUPD.patch 0 s = [] → (∀ k ∈ List.range 4, rd CFG_CS_W4.state k s ≠ 2) →
      Gives (.updateSwap a) s (fun t => rd RED_UPDATE_STATUS.phase 0 t = 3 ∧
        rd RED_CX_STATUS.mode 0 t = 4 ∧ rd HRED.gap 0 t = 1 ∧ ∀ c ∈ List.range 4, rd INTC_CORE.presented c t = 0 ∧ Due HUPD.swap0 0 0 t ∧ Raised 0x0E05 [5, 0, 0, 0, 0] s t)) ∧
    (rd RED_UPDATE_STATUS.phase 0 s = 3 → getL LCX.held 0 s = [] →
      Gives .swapDone s (fun t => rd RED_UPDATE_STATUS.phase 0 t = 4 ∧ rd RED_CX_STATUS.owner 0 t = 1 ∧ rd HRED.gap 0 t = 0 ∧ rd RED_CX_STATUS.mode 0 t = 4 ∧
        rd CFG_BOOT_STATUS.slot_in_use 0 t = (1 - rd CFG_BOOT_STATUS.slot_in_use 0 s) % 2 ∧
        Raised 0x0807 [(now s + 1 - rd HUPD.swap0 0 s) / 1000] s t)) ∧
    (rd HUPD.back 0 s = 0 → rd RED_UPDATE_STATUS.phase 0 s = 4 →
      Gives .updateCopyDone s (fun t => rd RED_UPDATE_STATUS.phase 0 t = 0 ∧ rd RED_UPDATE_STATUS.last_ok 0 t = 1 ∧ rd RED_CX_STATUS.mode 0 t = 0 ∧
        rd RED_CX_STATUS.a_in_service 0 t = 1 ∧ rd RED_CX_STATUS.b_in_service 0 t = 1 ∧ rd HSEL.busy 0 t = (rd CFG_BOOT_STATUS.slot_in_use 0 s + 1) % 2 ^ HSEL.busy.width ∧
        cnt cnt_RED_update_done 0 t = (cnt cnt_RED_update_done 0 s + 1) % 2 ^ 64 ∧ Raised 0x0808 [] s t)) ∧
    (rd HUPD.back 0 s ≠ 0 → rd RED_CX_STATUS.mode 0 s = 4 →
      Gives .updateCopyDone s (fun t => rd HUPD.back 0 t = 0 ∧ rd RED_CX_STATUS.mode 0 t = 0 ∧ rd RED_CX_STATUS.b_in_service 0 t = 1 ∧ Silent s t)) ∧
    (Accepted a rRED_UPDATE_CTRL 0 (fieldWord RED_UPDATE_CTRL.abort 1) (fieldWord RED_UPDATE_CTRL.abort 1) s →
      Gives (.updateAbort a) s (fun t => rd RED_UPDATE_STATUS.phase 0 t = 0 ∧ rd RED_UPDATE_STATUS.abort_reason 0 t = 4 ∧ rd HUPD.back 0 t = 1 ∧
        Raised 0x0809 [rd RED_UPDATE_STATUS.phase 0 s, 4] s t ∧ cnt cnt_RED_update_abort 0 t = (cnt cnt_RED_update_abort 0 s + 1) % 2 ^ 64)) ∧
    (getL LCX.held 0 s = [] →
      Gives (.complexSramEccError c true) s (fun t => Silent s t ∧ cnt cnt_TEL_cx_ecc_corr 0 t = (cnt cnt_TEL_cx_ecc_corr 0 s + 1) % 2 ^ 64 ∧ Frame [] [] [(cnt_TEL_cx_ecc_corr, 0)] s t)) ∧
    (rd RED_CX_STATUS.mode 0 s ≠ 4 → getL LCX.held 0 s = [] →
      Gives (.complexSramEccError c false) s (fun t => rd HCX.ecc c t = 1 ∧ Silent s t ∧ Frame [(HCX.ecc, c)] [] [] s t)) ∧
    (rd RED_CX_STATUS.mode 0 s = 4 → rd RED_CX_STATUS.owner 0 s = c → getL LCX.held 0 s = [] →
      Gives (.complexSramEccError c false) s (fun t => rd RED_CX_STATUS.mode 0 t = 5 ∧ rd HRED.hold 0 t = 1 ∧
        Raised 0x0804 [cxBits true (c = 0), cxBits true (c = 1)] s t))

/-- SLICE_CONTROL_MEMORY_ERROR, SLICE_WATCHDOG, TAKEOVER_FORWARD, TAKEOVER_FAILURE, FORCE_FAIL, HAND_BACK and HAND_BACK_DONE (R360 to R369). -/
def Obligations.SliceTakeover : Prop :=
  ∀ (a : Access) (sl n i : Nat) (force : Bool) (s : State), s.telFifo.length < 900 →
    (sl < 16 → rd SLC_STATUS.serving sl s ≠ 0 → rd RED_CTRL.takeover_enable 0 s ≠ 0 → rd RED_SPARE_STATUS.spare_state 0 s = 0 →
      Gives (.sliceControlMemoryError sl) s (fun t => rd SLC_STATUS.serving sl t = 0 ∧ rd SLC_STATUS.failed sl t = 1 ∧
        rd HSLC.cause sl t = 4 ∧ rdBit RED_SPARE_STATUS.failed 0 sl t = true ∧ (∀ m ∈ sliceMacros sl s, rd PRT_MACRO_STATUS.serving_slice m t = 16) ∧
        rd RED_SPARE_STATUS.spare_state 0 t = 1 ∧ rd RED_SPARE_STATUS.serving_for 0 t = sl ∧ rd PWR_SLICE.state 16 t = 3 ∧ rd PWR_SLICE.state sl t = 2)) ∧
    (sl < 16 → rd SLC_STATUS.serving sl s ≠ 0 → (rd RED_CTRL.takeover_enable 0 s = 0 ∨ rd RED_SPARE_STATUS.spare_state 0 s ≠ 0) →
      Gives (.sliceControlMemoryError sl) s (fun t => rd SLC_STATUS.serving sl t = 0 ∧ rd SLC_STATUS.failed sl t = 1 ∧
        rd RED_ALARM.spare_fail 0 t = 1 ∧ t.pins.alarmN = false ∧ rd RED_TAKEOVER_LOG.result 0 t = 1 ∧ rd RED_TAKEOVER_LOG.fail_step 0 t = 5 ∧
        rd RED_TAKEOVER_LOG.slice 0 t = sl ∧ cnt cnt_RED_takeover_fail 0 t = (cnt cnt_RED_takeover_fail 0 s + 1) % 2 ^ 64)) ∧
    (sl < 16 → rd SLC_STATUS.serving sl s ≠ 0 → sliceOwes sl s = true →
      Gives (.sliceWatchdog sl) s (fun t => rd SLC_STATUS.serving sl t = 0 ∧ rd SLC_STATUS.failed sl t = 1 ∧ rd HSLC.cause sl t = 5)) ∧
    (rd SLC_STATUS.serving sl s ≠ 0 → sliceOwes sl s = false → Gives (.sliceWatchdog sl) s (fun t => Silent s t ∧ Frame [] [] [] s t)) ∧
    (rd RED_SPARE_STATUS.spare_state 0 s = 1 → rd RED_SPARE_STATUS.serving_for 0 s = sl → sl < 16 → getL LSLC.img sl s = [] → i < 65536 →
      Gives (.takeoverForward n) s (fun t => rd RED_SPARE_STATUS.spare_state 0 t = 2 ∧ rd SLC_STATUS.serving 16 t = 1 ∧
        rd PWR_SLICE.state 16 t = 0 ∧ getL LRULE.rule (16 * 65536 + i) t = getL LRULE.rule (sl * 65536 + i) s ∧ rd RED_TAKEOVER_LOG.slice 0 t = sl ∧
        rd RED_TAKEOVER_LOG.result 0 t = 0 ∧ cnt cnt_RED_takeover 0 t = (cnt cnt_RED_takeover 0 s + 1) % 2 ^ 64)) ∧
    (rd RED_SPARE_STATUS.spare_state 0 s = 1 → rd RED_SPARE_STATUS.serving_for 0 s = sl → 1 ≤ n → n ≤ 4 →
      Gives (.takeoverFailure n) s (fun t => rd RED_SPARE_STATUS.spare_state 0 t = (if n = 4 then 0 else 3) ∧ rd RED_SPARE_STATUS.serving_for 0 t = 31 ∧
        rd RED_TAKEOVER_LOG.result 0 t = 1 ∧ rd RED_TAKEOVER_LOG.fail_step 0 t = n ∧ rd RED_ALARM.spare_fail 0 t = 1 ∧ t.pins.alarmN = false ∧
        cnt cnt_RED_takeover_fail 0 t = (cnt cnt_RED_takeover_fail 0 s + 1) % 2 ^ 64)) ∧
    (Accepted a rRED_SLICE_CMD 0 0xFFFFFFFF (sliceWord sl 1 force) s → sl < 16 →
      Gives (.forceFail a sl force) s (fun t => rd SLC_STATUS.serving sl t = 0 ∧ rd SLC_STATUS.failed sl t = 1 ∧ rd HSLC.cause sl t = 6)) ∧
    (Accepted a rRED_SLICE_CMD 0 0xFFFFFFFF (sliceWord sl 2 force) s → sl < 16 →
      Gives (.handBack a sl force) s (fun t => rd HRED.hb 0 t = sl ∧ rd HRED.hbforce 0 t = b2n force ∧ Silent s t ∧
        SliceCountersCleared sl s t)) ∧
    (rd HRED.hb 0 s ≠ 31 → Gives (.handBackDone false n) s (fun t => rd HRED.hb 0 t = 31 ∧ Silent s t ∧ Frame [(HRED.hb, 0)] [] [] s t)) ∧
    (rd HRED.hb 0 s = sl → sl < 16 → rd RED_SPARE_STATUS.spare_state 0 s ≠ 2 → getL LSLC.img sl s = [] →
      Gives (.handBackDone true n) s (fun t => rd HRED.hb 0 t = 31 ∧ rd SLC_STATUS.serving sl t = 1 ∧ rd SLC_STATUS.failed sl t = 0 ∧
        rd PWR_SLICE.state sl t = 0 ∧ rdBit RED_SPARE_STATUS.failed 0 sl t = false ∧ (∀ m ∈ List.range 4, rd PRT_MACRO_STATUS.serving_slice (4 * sl + m) t = sl)))

/-- SOURCE_EDGE, HOLDOFF_EXPIRY, INTERRUPT_ACK, HANDLER_END, PMR_WRITE, SW_SET and HPEND_CLEAR (R379 to R386, R391). -/
def Obligations.SourcesAndCores : Prop :=
  ∀ (a : Access) (n g c v : Nat) (s : State),
    (n < 1024 → edgeStands n s = true → rd INTC_GRP.running (n / 16) s = 0 → rd INTC_GRP.holdoff (n / 16) s ≠ 0 →
      Gives (.sourceEdge n) s (fun t => cpend n t = true ∧ hpend n t = true ∧ rd INTC_GRP.running (n / 16) t = 1 ∧ rd INTC_GRP.fresh (n / 16) t = 1 ∧
        Due HINT.timer (n / 16) (rd INTC_GRP.holdoff (n / 16) s * 100) t ∧ Silent s t)) ∧
    (n < 1024 → edgeStands n s = true → rd INTC_GRP.running (n / 16) s = 0 → rd INTC_GRP.holdoff (n / 16) s = 0 →
      Gives (.sourceEdge n) s (fun t => cpend n t = true ∧ hpend n t = true ∧ released n t = true ∧ n ∈ getL LINT.seen 0 t ∧
        (rd INTC_SRC.enable n s ≠ 0 → rd INTC_SRC.int_n n s ≠ 0 → t.pins.intN = false))) ∧
    (edgeStands n s = false → Gives (.sourceEdge n) s (fun t => Silent s t ∧ Frame [] [] [] s t)) ∧
    (n < 1024 → edgeStands n s = true → rd INTC_GRP.running (n / 16) s = 0 → rd INTC_GRP.holdoff (n / 16) s = 0 → coresFlow s = true →
      touched HINT.rel s = [] → rd INTC_CPEND.cpend (n / 16) s = 0 → c < 4 → rd INTC_SRC.enable n s ≠ 0 → rd INTC_SRC.cores n s = 2 ^ c →
      rd INTC_CORE.in_service c s ≠ 0 → rd INTC_CORE.threshold c s ≤ prio n s → (∀ d ∈ List.range 4, rd INTC_CORE.presented d s = 0) →
      Gives (.sourceEdge n) s (fun t =>
        rd INTC_CORE.presented c t = 1 ∧ rd INTC_CORE.pres_id c t = n)) ∧
    (running HINT.timer g s = true →
      Gives (.holdoffExpiry g) s (fun t => rd INTC_GRP.running g t = 0 ∧ rd INTC_GRP.fresh g t = 0 ∧ running HINT.timer g t = false ∧
        rd HINT.rel g t = (rd HINT.rel g s ||| rd INTC_CPEND.cpend g s) % 2 ^ 16 ∧ rd HINT.deliv g t = (rd HINT.deliv g s ||| rd INTC_HPEND.hpend g s) % 2 ^ 16)) ∧
    (rd INTC_CORE.presented c s ≠ 0 → rd INTC_CORE.pres_id c s = n → line n s = false →
      Gives (.interruptAck c) s (fun t => cpend n t = false ∧ getL LINT.stack c t = getL LINT.stack c s ++ [n + 1024 * prio n s] ∧
        rd INTC_CORE.depth c t = ((getL LINT.stack c s).length + 1) % 2 ^ INTC_CORE.depth.width ∧
        cnt cnt_INTC_core_deliveries 0 t = (cnt cnt_INTC_core_deliveries 0 s + 1) % 2 ^ 64 ∧ Silent s t)) ∧
    (rd INTC_CORE.presented c s ≠ 0 → rd INTC_CORE.pres_id c s = n → line n s = true →
      Gives (.interruptAck c) s (fun t => cpend n t = true ∧ getL LINT.stack c t = getL LINT.stack c s ++ [n + 1024 * prio n s] ∧
        cnt cnt_INTC_repend 0 t = (cnt cnt_INTC_repend 0 s + 1) % 2 ^ 64 ∧ cnt cnt_INTC_core_deliveries 0 t = (cnt cnt_INTC_core_deliveries 0 s + 1) % 2 ^ 64)) ∧
    (∀ (l : List Nat), getL LINT.stack c s = l ++ [v] → v % 1024 = n →
      Gives (.handlerEnd c n) s (fun t => getL LINT.stack c t = l ∧ rd INTC_CORE.depth c t = l.length % 2 ^ INTC_CORE.depth.width ∧
        rd INTC_CORE.threshold c t = max (rd INTC_CORE.pmr c s) ((l.map (fun e => e / 1024 + 1)).foldl max 0) % 2 ^ INTC_CORE.threshold.width ∧ Silent s t)) ∧
    (Gives (.pmrWrite c v) s (fun t => rd INTC_CORE.pmr c t = min v 16 ∧
        rd INTC_CORE.threshold c t = max (min v 16) (activeTop c s) % 2 ^ INTC_CORE.threshold.width ∧
        (rd INTC_CORE.presented c t ≠ 0 → rd INTC_CORE.threshold c t ≤ prio (rd INTC_CORE.pres_id c t) t) ∧ Silent s t)) ∧
    (n < 64 → Accepted a rINTC_SW_SET 0 0xFFFFFFFF (fieldWord INTC_SW_SET.index n + fieldWord INTC_SW_SET.set 1) s →
      Gives (.swSet a n) s (fun t => cpend (960 + n) t = true ∧ hpend (960 + n) t = true)) ∧
    (g < 64 → v < 65536 → Accepted a rINTC_HPEND g 0xFFFFFFFF v s → Gives (.hpendClear a g v) s (fun t => ∀ k ∈ List.range 16,
        (v.testBit k = true → line (16 * g + k) s = false → hpend (16 * g + k) t = false) ∧ (v.testBit k = false ∨ line (16 * g + k) s = true → hpend (16 * g + k) t = hpend (16 * g + k) s)))

/-- SOURCE_EDGE to the host, MSIX_LINK_READY and MSIX_UNMASK (R389, R390, R396). The reset value of a vector's mask is 1, as PCI Express sets it (PRESUMED). -/
def Obligations.HostMessages : Prop :=
  ∀ (n g v w : Nat) (s : State),
    (n < 1024 → edgeStands n s = true → rd INTC_GRP.running (n / 16) s = 0 → rd INTC_GRP.holdoff (n / 16) s = 0 →
      rd INTC_SRC.enable n s ≠ 0 → rd INTC_SRC.host n s ≠ 0 → rd HIF_STATUS.pcie_present 0 s ≠ 0 → rd HIF_STATUS.d_state 0 s = 0 →
      rd HIF_STATUS.link 0 s = 1 → rd HIF_STATUS.msix_en 0 s ≠ 0 → rd HINT.masked (n / 16) s = 0 → Gives (.sourceEdge n) s (fun t =>
        t.out = s.out ++ [⟨.msix, n / 16, [rd HINT.addr_lo (n / 16) s, rd HINT.addr_hi (n / 16) s, rd HINT.data (n / 16) s]⟩] ∧ cnt cnt_INTC_msix_sent 0 t = (cnt cnt_INTC_msix_sent 0 s + 1) % 2 ^ 64 ∧ t.telFifo = s.telFifo)) ∧
    (n < 1024 → edgeStands n s = true → rd INTC_GRP.running (n / 16) s = 0 → rd INTC_GRP.holdoff (n / 16) s = 0 →
      rd INTC_SRC.enable n s ≠ 0 → rd INTC_SRC.host n s ≠ 0 → rd HIF_STATUS.pcie_present 0 s ≠ 0 → rd HIF_STATUS.d_state 0 s = 0 →
      rd HIF_STATUS.msix_en 0 s ≠ 0 → rd HINT.masked (n / 16) s ≠ 0 →
      Gives (.sourceEdge n) s (fun t => rd HINT.pba (n / 16) t = 1 ∧ Silent s t)) ∧
    (n < 1024 → edgeStands n s = true → rd INTC_GRP.running (n / 16) s = 0 → rd INTC_GRP.holdoff (n / 16) s = 0 →
      rd INTC_SRC.enable n s ≠ 0 → rd INTC_SRC.host n s ≠ 0 → rd HIF_STATUS.pcie_present 0 s ≠ 0 → rd HIF_STATUS.d_state 0 s = 0 →
      2 ≤ rd HIF_STATUS.link 0 s → rd HIF_STATUS.link 0 s ≤ 5 → rd HIF_STATUS.msix_en 0 s ≠ 0 → rd HINT.masked (n / 16) s = 0 →
      rd INTC_GRP.msg_held (n / 16) s = 0 → Gives (.sourceEdge n) s (fun t =>
        rd INTC_GRP.msg_held (n / 16) t = 1 ∧ rd HIF_STATUS.link 0 t = 6 ∧ Silent s t)) ∧
    (pcieOn s = true → linkSupported v w = true → rd HIF_STATUS.d_state 0 s = 0 → touched INTC_GRP.msg_held s = [] →
      Gives (.msixLinkReady v w) s (fun t => rd HIF_STATUS.link 0 t = 1 ∧ rd HIF_STATUS.speed 0 t = v ∧ rd HIF_STATUS.width 0 t = w ∧ Silent s t ∧
        Frame [(HIF_STATUS.link, 0), (HIF_STATUS.speed, 0), (HIF_STATUS.width, 0)] [] [] s t)) ∧
    (pcieOn s = true → linkSupported v w = true → rd HIF_STATUS.d_state 0 s = 0 → rd HIF_STATUS.msix_en 0 s ≠ 0 →
      touched INTC_GRP.msg_held s = [g] → rd INTC_GRP.msg_held g s ≠ 0 → rd HINT.masked g s = 0 →
      Gives (.msixLinkReady v w) s (fun t => rd HIF_STATUS.link 0 t = 1 ∧ rd INTC_GRP.msg_held g t = 0 ∧ t.out = s.out ++ [⟨.msix, g, [rd HINT.addr_lo g s, rd HINT.addr_hi g s, rd HINT.data g s]⟩] ∧
        cnt cnt_INTC_msix_sent 0 t = (cnt cnt_INTC_msix_sent 0 s + 1) % 2 ^ 64)) ∧
    (g < 64 → rd HINT.pba g s ≠ 0 → rd HIF_STATUS.link 0 s = 1 → rd HIF_STATUS.d_state 0 s = 0 → rd HIF_STATUS.msix_en 0 s ≠ 0 →
      Gives (.msixUnmask g) s (fun t => rd HINT.masked g t = 0 ∧ rd HINT.pba g t = 0 ∧ t.out = s.out ++ [⟨.msix, g, [rd HINT.addr_lo g s, rd HINT.addr_hi g s, rd HINT.data g s]⟩] ∧
        Frame [(HINT.masked, g), (HINT.pba, g)] [] [(cnt_INTC_msix_sent, 0)] s t)) ∧
    (g < 64 → rd HINT.pba g s = 0 →
      Gives (.msixUnmask g) s (fun t => rd HINT.masked g t = 0 ∧ Silent s t ∧ Frame [(HINT.masked, g)] [] [] s t))

/-- ALLOC_SIZE, ALLOC_POOL, POOL_FREE, POOL_GIVE, POOL_RECLAIM, POOL_BUFFER_ACCESS and POOL_META_ERROR (R403, R404, R410 to R413, R418). -/
def Obligations.PoolBuffers : Prop :=
  ∀ (a : Access) (r p i h q k e : Nat) (s : State), s.telFifo.length < 1000 →
    (Direct a s → accRole a s ∈ [none, some 1, some 2] → requester a = r → p < 4 → r < 32 → poolOut r p s < poolQuota r p s →
      rd POOL_STATUS.free p s ≠ 0 →
      (poolUnused r p s ≠ 0 ∨ poolUnusedSum (poolRequesters.filter (fun x => x ≠ r)) p s < rd POOL_STATUS.free p s) →
      poolHead p s = some i →
      Gives (.allocPool a p) s (fun t => t.out = s.out ++ [⟨.busRead, auditPath a.path, [regAddr rPOOL_ALLOC_POOL p, poolHandle p i ((rd POOLM.gen (poolKey p i) s + 1) % 8)]⟩] ∧ rd POOLM.allocated (poolKey p i) t = 1 ∧ rd POOLM.owner (poolKey p i) t = r ∧ rd POOLM.gen (poolKey p i) t = (rd POOLM.gen (poolKey p i) s + 1) % 8 ∧
        poolOut r p t = (poolOut r p s + 1) % 2 ^ 16 ∧ rd POOL_STATUS.free p t = (rd POOL_STATUS.free p s - 1) % 2 ^ 16 ∧ rd POOL_REQ_W6.last_result r t = 0 ∧
        cnt cnt_POOL_alloc_ok 0 t = (cnt cnt_POOL_alloc_ok 0 s + 1) % 2 ^ 64)) ∧
    (Direct a s → accRole a s ∈ [none, some 1, some 2] → requester a = r → poolFor (k + 1) = p → r < 32 → poolOut r p s < poolQuota r p s →
      rd POOL_STATUS.free p s ≠ 0 →
      (poolUnused r p s ≠ 0 ∨ poolUnusedSum (poolRequesters.filter (fun x => x ≠ r)) p s < rd POOL_STATUS.free p s) →
      poolHead p s = some i →
      Gives (.allocSize a k) s (fun t => t.out = s.out ++ [⟨.busRead, auditPath a.path, [regAddr rPOOL_ALLOC_SIZE k, poolHandle p i ((rd POOLM.gen (poolKey p i) s + 1) % 8)]⟩] ∧ rd POOLM.allocated (poolKey p i) t = 1 ∧ rd POOLM.owner (poolKey p i) t = r ∧ rd POOLM.gen (poolKey p i) t = (rd POOLM.gen (poolKey p i) s + 1) % 8 ∧
        poolOut r p t = (poolOut r p s + 1) % 2 ^ 16 ∧ rd POOL_STATUS.free p t = (rd POOL_STATUS.free p s - 1) % 2 ^ 16 ∧ rd POOL_REQ_W6.last_result r t = 0 ∧
        cnt cnt_POOL_alloc_ok 0 t = (cnt cnt_POOL_alloc_ok 0 s + 1) % 2 ^ 64)) ∧
    (Direct a s → accRole a s ∈ [none, some 1, some 2] → requester a = r → poolQuota r p s ≤ poolOut r p s →
      Gives (.allocPool a p) s (fun t => t.out = s.out ++ [⟨.busRead, auditPath a.path, [regAddr rPOOL_ALLOC_POOL p, 0xFFFFFFFF]⟩] ∧ rd POOL_REQ_W6.last_result r t = 2 ∧ Frame ((POOL_REQ_W6.last_result, r) :: logFlds) logLists [(cnt_POOL_alloc_quota, 0)] s t)) ∧
    (Direct a s → accRole a s = some q → q ≠ 1 → q ≠ 2 →
      Gives (.allocPool a p) s (fun t => t.out = s.out ++ [⟨.busRead, auditPath a.path, [regAddr rPOOL_ALLOC_POOL p, 0xFFFFFFFF]⟩] ∧ Frame logFlds logLists [] s t)) ∧
    (Accepted a rPOOL_FREE 0 0xFFFFFFFF h s → requester a = r → r < 32 → h < 2 ^ 27 → poolCheck r h s = 0 → handlePool h = p →
      handleIndex h = i →
      Gives (.poolFree a h) s (fun t => rd POOLM.allocated (poolKey p i) t = 0 ∧ poolOut r p t = (poolOut r p s - 1) % 2 ^ 16 ∧
        rd POOL_STATUS.free p t = (rd POOL_STATUS.free p s + 1) % 2 ^ 16 ∧ getL LPOOL.freed p t = getL LPOOL.freed p s ++ [i] ∧ rd POOL_REQ_W6.last_result r t = 0)) ∧
    (Accepted a rPOOL_FREE 0 0xFFFFFFFF h s → requester a = r → r < 32 → h < 2 ^ 27 → poolCheck r h s = e → e ≠ 0 →
      rd HEVT.last (0x0701 * 65536) s = 0 → getL LEVT.first (0x0701 * 65536) s = [] →
      Gives (.poolFree a h) s (fun t => rd POOL_REQ_W6.last_result r t = e ∧ rd POOL_ERR_LOG.requester 0 t = r ∧ rd POOL_ERR_LOG.code 0 t = e ∧
        rd POOL_ERR_LOG.op 0 t = 0 ∧ rd POOL_ERR_HANDLE.handle 0 t = h ∧ cnt cnt_POOL_free_reject 0 t = (cnt cnt_POOL_free_reject 0 s + 1) % 2 ^ 64 ∧
        Frame ([(POOL_ERR_LOG.requester, 0), (POOL_ERR_LOG.code, 0), (POOL_ERR_LOG.op, 0), (POOL_ERR_LOG.count, 0), (POOL_ERR_HANDLE.handle, 0), (POOL_REQ_W6.last_result, r), (POOL_EVT.ev_bad_free, 0), (HEVT.last, 0x0701 * 65536), (HEVT.count, 0x0701 * 65536), (HAUD.tail, 0)] ++ logFlds)
          ([(LEVT.first, 0x0701 * 65536), (LAUD.cap, rd HAUD.tail 0 s)] ++ logLists) [(cnt_POOL_free_reject, 0)] s t)) ∧
    (Accepted a rPOOL_GIVE 0 0xFFFFFFFF (fieldWord POOL_GIVE.handle h + fieldWord POOL_GIVE.target q) s → requester a = r → r < 32 → q < 32 →
      h < 2 ^ 27 → poolCheck r h s = 0 → poolReserved q = false → handlePool h = p → handleIndex h = i → poolOut q p s < poolQuota q p s →
      q ≠ r → Gives (.poolGive a h q) s (fun t =>
        rd POOLM.owner (poolKey p i) t = q ∧ rd POOLM.allocated (poolKey p i) t = rd POOLM.allocated (poolKey p i) s ∧ poolOut r p t = (poolOut r p s - 1) % 2 ^ 16 ∧
        poolOut q p t = (poolOut q p s + 1) % 2 ^ 16 ∧ rd POOL_REQ_W6.last_result r t = 0)) ∧
    (Accepted a rPOOL_RECLAIM 0 0xFFFFFFFF (fieldWord POOL_RECLAIM.requester r + fieldWord POOL_RECLAIM.pools q) s → r < 32 → q < 16 →
      k / 32768 = p → p < 4 → q.testBit p = true → rd POOLM.allocated k s ≠ 0 → rd POOLM.owner k s = r → rd POOLM.retired k s = 0 →
      Gives (.poolReclaim a r q) s (fun t => rd POOLM.allocated k t = 0 ∧
        k % 32768 ∈ getL LPOOL.freed p t)) ∧
    (Accepted a rPOOL_RECLAIM 0 0xFFFFFFFF (fieldWord POOL_RECLAIM.requester r + fieldWord POOL_RECLAIM.pools q) s → r < 32 → q < 16 →
      rd POOLM.owner k s ≠ r →
      Gives (.poolReclaim a r q) s (fun t => rd POOLM.allocated k t = rd POOLM.allocated k s ∧ rd POOLM.owner k t = rd POOLM.owner k s)) ∧
    (poolUseCode r h q e s = 0 → Gives (.poolBufferAccess false r h q e 0) s (fun t => Silent s t ∧ Frame [] [] [] s t)) ∧
    (poolUseCode r h q e s = k → k ≠ 0 → r < 32 → h < 2 ^ 32 →
      Gives (.poolBufferAccess false r h q e 0) s (fun t => rd POOL_ERR_LOG.requester 0 t = r ∧ rd POOL_ERR_LOG.code 0 t = k % 16 ∧ rd POOL_ERR_LOG.op 0 t = 2 ∧
        rd POOL_ERR_HANDLE.handle 0 t = h ∧ cnt cnt_POOL_use_reject 0 t = (cnt cnt_POOL_use_reject 0 s + 1) % 2 ^ 64 ∧ t.out = s.out)) ∧
    (p < 4 → i < poolCount p → rd POOLM.retired (poolKey p i) s = 0 →
      Gives (.poolMetaError p i false) s (fun t => rd POOLM.retired (poolKey p i) t = 1 ∧ rd POOL_EVT.ev_meta 0 t = 1 ∧
        cnt cnt_POOL_meta_retire 0 t = (cnt cnt_POOL_meta_retire 0 s + 1) % 2 ^ 64 ∧
        Raised 0x0704 [p, i, if rd POOLM.allocated (poolKey p i) s ≠ 0 then rd POOLM.owner (poolKey p i) s else 0] s t)) ∧
    (Gives (.poolMetaError p i true) s (fun t => Silent s t ∧ Frame [] [] [(cnt_TEL_svc_ecc_corr, 0)] s t ∧
        cnt cnt_TEL_svc_ecc_corr 0 t = (cnt cnt_TEL_svc_ecc_corr 0 s + 1) % 2 ^ 64))

/-- PWR_GOOD_FALL, BROWN_OUT, AON_POWER_ON, PWR_GOOD_RISE and BOOT_VOLTAGE_RETRY (R509 to R513, R426). What each reset keeps is the model's reading of R512 and R513 (log entry 43). -/
def Obligations.ResetsAndPowerUp : Prop :=
  ∀ (x : PowerUp) (n k b : Nat) (l : List Nat) (d : Bool) (s : State),
    (rd HBOOT.alarm 0 s = 0 →
      Gives .pwrGoodFall s (fun t => rd GLB_STATUS.reset_cause 0 t = (if rd PWR_STATUS.thermtrip 0 s = 0 then 1 else 3) ∧
        ResetExcept keepAlways keepLists t ∧ t.cnts = [] ∧ t.telFifo = [] ∧ t.tbl = [] ∧ t.evtRing = [] ∧ t.out = s.out ∧
        (∀ f ∈ [GLB_PAD_SLEW.tout, HFUSE.slot, HFUSE.flaw, HFUSE.maker, HAUD.seq, HAUD.pos, ACC_AUDIT_SEQ.seq, PWR_TRIM_STATUS.trim_floor, HSEL.valid, HSEL.seq, HSEL.slot],
          rd f k t = rd f k s) ∧ (∀ l ∈ keepLists, getL l k t = getL l k s))) ∧
    (rd HBOOT.alarm 0 s ≠ 0 → rd GLB_STATUS.reset_cause 0 s = 2 → Gives .pwrGoodFall s (fun t => Silent s t ∧ Frame [] [] [] s t)) ∧
    (Gives (.brownOut n) s (fun t => rd GLB_STATUS.reset_cause 0 t = 2 ∧ rd GLB_STATUS.brownout_rail 0 t = n % 2 ^ GLB_STATUS.brownout_rail.width ∧
        rd HBOOT.phase 0 t = 0 ∧ t.pins.alarmN = false ∧ ResetExcept keepAlways keepLists t ∧ t.cnts = [] ∧ t.telFifo = [] ∧ t.tbl = [])) ∧
    (Gives .aonPowerOn s (fun t => rd GLB_STATUS.reset_cause 0 t = 0 ∧ rd HBOOT.phase 0 t = 0 ∧ t.pins.alarmN = true ∧ ResetExcept keepAlways keepLists t ∧ t.tbl = [] ∧
        (∀ f ∈ [HFUSE.slot, HFUSE.flaw, HFUSE.maker, HAUD.seq, HAUD.pos, HSEL.valid, HSEL.seq, HSEL.slot], rd f k t = rd f k s))) ∧
    (rd HBOOT.phase 0 s = 0 → x.railsOk = false →
      Gives (.pwrGoodRise x) s (fun t => rd HBOOT.phase 0 t = 0 ∧ rd HBOOT.alarm 0 t = 1 ∧ t.pins.alarmN = false ∧ t.out = s.out)) ∧
    (rd HBOOT.phase 0 s = 0 → x.railsOk = true → b ∈ x.answers → 0x40 ≤ b → b ≤ 0x47 → x.arrived = true → Gives (.pwrGoodRise x) s (fun t => 
        rd HBOOT.phase 0 t = (if x.testMode = true then 6 else 2) ∧ rd CFG_BOOT_STATUS.state 0 t = (if x.testMode = true then 2 else 0) ∧
        rd GLB_STATUS.test_mode 0 t = b2n x.testMode ∧ rd GLB_STATUS.pcie_en 0 t = b2n x.pcieEn ∧
        rd GLB_STATUS.smb_addr 0 t = x.smbAddr % 2 ^ GLB_STATUS.smb_addr.width ∧ rd PWR_STATUS.p_state 0 t = 5 ∧ rd HPWR.vcode 0 t = vidOf 5 t ∧
        Emitted ⟨.pmbus, b, [rd HIF_BUS_CFG.pmb_pec 0 t, 0, 0]⟩ s t ∧ Emitted ⟨.pmbus, b, [rd HIF_BUS_CFG.pmb_pec 0 t, 0x21, 6000 + 25 * vidOf 5 t]⟩ s t ∧ rd CLK_STATUS.ref_lock 0 t = 1 ∧ rd CLK_STATUS.cx_lock 0 t = 3 ∧
        rd CFG_BOOT_STATUS.preferred 0 t = selSlot t ∧ rd HBOOT.slot 0 t = selSlot t ∧ t.pins.alarmN = true)) ∧
    (rd HBOOT.phase 0 s = 0 → x.railsOk = true → (x.answers.all (fun e => e < 0x40 || 0x47 < e) = true ∨ x.arrived = false) →
      Gives (.pwrGoodRise x) s (fun t => rd HBOOT.phase 0 t = 1 ∧
        rd CFG_BOOT_STATUS.state 0 t = 0 ∧ rd CLK_STATUS.cx_lock 0 t = 0)) ∧
    (rd HBOOT.phase 0 s ≠ 0 → Gives (.pwrGoodRise x) s (fun t => Silent s t ∧ Frame [] [] [] s t)) ∧
    (rd HBOOT.phase 0 s = 1 → b ∈ l → 0x40 ≤ b → b ≤ 0x47 → rd ACC_STATUS.test_mode 0 s = 0 →
      Gives (.bootVoltageRetry l true) s (fun t => rd HBOOT.phase 0 t = 2 ∧ rd HPWR.vcode 0 t = vidOf 5 s ∧ rd HBOOT.alarm 0 t = 0 ∧
        Emitted ⟨.pmbus, b, [rd HIF_BUS_CFG.pmb_pec 0 s, 0x21, 6000 + 25 * vidOf 5 s]⟩ s t)) ∧
    (rd HBOOT.phase 0 s = 1 → (l.all (fun e => e < 0x40 || 0x47 < e) = true ∨ d = false) → rd HBOOT.volts 0 s < 65535 →
      Gives (.bootVoltageRetry l d) s (fun t => rd HBOOT.phase 0 t = 1 ∧
        (100 ≤ rd HBOOT.volts 0 s → rd HBOOT.alarm 0 t = 1 ∧ t.pins.alarmN = false) ∧ (rd HBOOT.volts 0 s < 100 → rd HBOOT.alarm 0 t = 0)))

/-- BOOT_IMAGE_READ_DONE, BOOT_READY, STREAM_REQ_RETRY, FLASH_BURST_STALL, FLASH_BURST_REISSUE, FLASH_LATE_EDGE, REBOOT, BOOT_SELECT_WRITE, BOOT_SELECT_DONE and BOOT_SELECT_FAIL (R424 to R432). The image check rests on uninterpreted cryptography (log entry 2). -/
def Obligations.BootAndFlashReading : Prop :=
  ∀ (a : Access) (sl n k : Nat) (img : List Nat) (s : State), s.telFifo.length < 900 →
    (rd HBOOT.phase 0 s = 2 → rd HBOOT.slot 0 s = sl → rdBit HBOOT.tried 0 (1 - sl) s = false →
      Gives (.bootImageReadDone none) s (fun t => rd CFG_BOOT_LOG.reason sl t = 2 ∧ rd CFG_BOOT_LOG.accepted sl t = 0 ∧
        rd HBOOT.slot 0 t = 1 - sl ∧ rd HBOOT.phase 0 t = 2 ∧ rd CFG_BOOT_STATUS.fallback 0 t = 1 ∧ rd CFG_EVT.ev_boot 0 t = 1 ∧ Raised 0x0E02 [sl, 2, 0] s t)) ∧
    (rd HBOOT.phase 0 s = 2 → rd HBOOT.slot 0 s = sl → rdBit HBOOT.tried 0 (1 - sl) s = true →
      Gives (.bootImageReadDone none) s (fun t => rd CFG_BOOT_LOG.reason sl t = 2 ∧ rd HBOOT.phase 0 t = 5 ∧
        rd CFG_BOOT_STATUS.state 0 t = 2 ∧ (∀ c ∈ List.range 4, rd INTC_CORE.in_service c t = 1) ∧
        Raised 0x0E03 [if sl = 0 then 2 else rd CFG_BOOT_LOG.reason 0 s, if sl = 1 then 2 else rd CFG_BOOT_LOG.reason 1 s] s t)) ∧
    (rd HBOOT.phase 0 s = 2 → rd HBOOT.slot 0 s = sl → rdBit HBOOT.tried 0 (1 - sl) s = false →
      Gives (.bootImageReadDone (some img)) s (fun t => 
        ((imageCheck img s).toOption.map List.length = none → rd CFG_BOOT_LOG.reason sl t ∈ [3, 4, 5, 6, 9] ∧ rd HBOOT.slot 0 t = 1 - sl ∧ rd HBOOT.phase 0 t = 2 ∧
          rd CFG_BOOT_STATUS.fallback 0 t = 1) ∧
        ((imageCheck img s).toOption.map List.length = some 0 → rd HBOOT.phase 0 t = 3 ∧ rd CFG_BOOT_STATUS.slot_in_use 0 t = sl ∧
          rd CFG_BOOT_LOG.accepted sl t = 1 ∧ rd CFG_BOOT_LOG.reason sl t = 0 ∧ rd HBOOT.stamp 0 t = leNat ((img.drop 24).take 8) % 2 ^ 64))) ∧
    (rd HBOOT.phase 0 s = 3 → rd HREQ.count 0 s = 0 → touched HREQ.state s = [] →
      Gives (.bootReady n) s (fun t => rd HBOOT.phase 0 t = 4 ∧ rd CFG_BOOT_STATUS.state 0 t = 1 ∧ rd CFG_BOOT_STATUS.boot_ms 0 t = min 2047 n ∧
        (∀ c ∈ List.range 4, rd INTC_CORE.in_service c t = 1) ∧ Due HBOOT.t0 0 0 t ∧
        Raised 0x0E01 ([rd CFG_BOOT_STATUS.slot_in_use 0 s] ++ w64 (rd HBOOT.stamp 0 s) ++ [min 2047 n]) s t)) ∧
    (rd HREQ.state k s = 2 → max (now s) (rd HREQ.due k s - 1) < reqEnd s → Gives (.streamReqRetry k) s (fun t => rd HREQ.state k t = 1)) ∧
    (rd HREQ.state k s = 2 → reqEnd s ≤ max (now s) (rd HREQ.due k s - 1) →
      Gives (.streamReqRetry k) s (fun t => rd HREQ.state k t = 0 ∧ rd HREQ.due k t = 0 ∧ rd CFG_EVT.ev_boot 0 t = 1 ∧
        Raised 0x0E04 [(getL LREQ.words k s).getD 0 0, rd HREQ.code k s] s t ∧ Frame ([(HREQ.state, k), (HREQ.due, k), (CFG_EVT.ev_boot, 0)] ++ timeFlds) [] [] s t)) ∧
    (flashReads s = true → n < 2 ^ 32 → (isReissue n s = false ∨ rd HFL.stalls 0 s < 3) →
      Gives (.flashBurstStall n) s (fun t => Emitted ⟨.flash, 6, []⟩ s t ∧ rd HFL.wait 0 t = 1 ∧ rd HFL.burst 0 t = n / 4096 * 4096 ∧
        rd CFG_BOOT_FAIL_ADDR.addr 0 t = n ∧ cnt cnt_CFG_flash_stalls 0 t = (cnt cnt_CFG_flash_stalls 0 s + 1) % 2 ^ 64)) ∧
    (flashReads s = true → rd HBOOT.phase 0 s = 2 → n < 2 ^ 32 → isReissue n s = true → 3 ≤ rd HFL.stalls 0 s → rd HBOOT.slot 0 s = sl →
      rdBit HBOOT.tried 0 (1 - sl) s = false → Gives (.flashBurstStall n) s (fun t => rd CFG_BOOT_LOG.reason sl t = 1 ∧
        rd HBOOT.slot 0 t = 1 - sl ∧ rd CFG_BOOT_FAIL_ADDR.addr 0 t = n ∧ rd HFL.wait 0 t = 0 ∧ Raised 0x0E02 [sl, 1, n] s t)) ∧
    (rd HBOOT.phase 0 s ≠ 2 → flashReads s = true → rd RED_UPDATE_STATUS.phase 0 s = 1 → isReissue n s = true → 3 ≤ rd HFL.stalls 0 s →
      Gives (.flashBurstStall n) s (fun t => rd RED_UPDATE_STATUS.phase 0 t = 0 ∧
        rd RED_UPDATE_STATUS.abort_reason 0 t = 1 ∧ Raised 0x0809 [1, 1] s t)) ∧
    (rd HBOOT.phase 0 s ≠ 2 → rd RED_UPDATE_STATUS.phase 0 s ≠ 1 → flashReads s = true → isReissue n s = true → 3 ≤ rd HFL.stalls 0 s →
      Gives (.flashBurstStall n) s (fun t => 
        rd HFL.op 0 t = 0 ∧ rd CFG_FLASH_STATUS.busy 0 t = 0 ∧ rd CFG_FLASH_STATUS.result 0 t = 1 ∧ rd CFG_EVT.ev_flash 0 t = 1)) ∧
    (rd HFL.wait 0 s ≠ 0 →
      Gives .flashBurstReissue s (fun t => rd HFL.wait 0 t = 0 ∧ Emitted ⟨.flash, 1, [rd HFL.burst 0 s]⟩ s t ∧ t.telFifo = s.telFifo)) ∧
    (Gives (.flashLateEdge n) s (fun t => cnt cnt_CFG_flash_late_edges 0 t = (cnt cnt_CFG_flash_late_edges 0 s + n) % 2 ^ 64 ∧ Silent s t ∧
        Frame [] [] [(cnt_CFG_flash_late_edges, 0)] s t)) ∧
    (Accepted a rCFG_BOOT_STATUS 0 (fieldWord CFG_BOOT_STATUS.reboot 1) (fieldWord CFG_BOOT_STATUS.reboot 1) s → noImage s = true →
      Gives (.reboot a) s (fun t => rd HBOOT.phase 0 t = (if rd ACC_STATUS.test_mode 0 s = 0 then 2 else 6) ∧
        rd CFG_BOOT_STATUS.state 0 t = (if rd ACC_STATUS.test_mode 0 s = 0 then 0 else 2) ∧ rd CFG_BOOT_STATUS.fallback 0 t = 0 ∧
        (∀ k ∈ List.range 2, rd CFG_BOOT_LOG.reason k t = 0) ∧ rd HBOOT.slot 0 t = selSlot s ∧ t.tbl = [] ∧ t.evtRing = [])) ∧
    (Accepted a rCFG_BOOT_STATUS 0 (fieldWord CFG_BOOT_STATUS.reboot 1) (fieldWord CFG_BOOT_STATUS.reboot 1) s → noImage s = false →
      Gives (.reboot a) s (fun t => Silent s t ∧ Frame ([(HAUD.tail, 0)] ++ logFlds)
          ([(LAUD.cap, rd HAUD.tail 0 s)] ++ logLists) [] s t)) ∧
    (Accepted a rCFG_BOOT_SEL 0 0xFFFFFFFF (fieldWord CFG_BOOT_SEL.slot sl + fieldWord CFG_BOOT_SEL.write 1) s → sl < 2 →
      Gives (.bootSelectWrite a sl) s (fun t => rd HSEL.busy 0 t = sl + 1 ∧
        Emitted ⟨.flash, 7, selTarget s :: (selBody (selSeq s) sl ++ leBytes 4 (crcIeee (selBody (selSeq s) sl)))⟩ s t)) ∧
    (rd HSEL.busy 0 s ≠ 0 →
      Gives .bootSelectDone s (fun t => rd HSEL.busy 0 t = 0 ∧ rd HSEL.valid (selTarget s) t = 1 ∧ rd HSEL.seq (selTarget s) t = selSeq s ∧
        rd HSEL.slot (selTarget s) t = (rd HSEL.busy 0 s - 1) % 2 ∧ rd CFG_BOOT_STATUS.preferred 0 t = (rd HSEL.busy 0 s - 1) % 2 ∧ Silent s t ∧
        Frame [(HSEL.busy, 0), (HSEL.valid, selTarget s), (HSEL.seq, selTarget s), (HSEL.slot, selTarget s), (CFG_BOOT_STATUS.preferred, 0)] [] [] s t)) ∧
    (rd HSEL.busy 0 s ≠ 0 →
      Gives .bootSelectFail s (fun t => rd HSEL.busy 0 t = 0 ∧ rd CFG_BOOT_STATUS.preferred 0 t = rd CFG_BOOT_STATUS.preferred 0 s ∧
        rd CFG_EVT.ev_flash 0 t = 1 ∧ Raised 0x0E08 [selTarget s] s t))

/-- CS_OPEN, CS_ARM, CS_DISARM, CS_CLEAR, STAGE_DATA, CS_TIME_TRIGGER, CS_COMMIT_POINT, FLASH_READ, FLASH_PROGRAM, FLASH_ERASE_4K, FLASH_ERASE_64K and FLASH_COMMAND_DONE (R434 to R438, R442). -/
def Obligations.ChangeSetsAndFlash : Prop :=
  ∀ (a : Access) (k i v : Nat) (bs : List Nat) (s : State), s.telFifo.length < 900 →
    (k < 4 → Accepted a rCFG_CS_W0 k 0xFFFFFFFF 1 s →
      Gives (.csOpen a k) s (fun t => rd CFG_CS_W4.state k t = 1 ∧ rd CFG_CS_W4.overflow k t = 0 ∧ getL LCS.ent k t = [] ∧ Silent s t ∧
        Frame ([(CFG_CS_W4.state, k), (CFG_CS_W4.overflow, k), (HAUD.tail, 0)] ++ logFlds)
          ([(LCS.ent, k), (LAUD.cap, rd HAUD.tail 0 s)] ++ logLists) [] s t)) ∧
    (k < 4 → Accepted a rCFG_CS_W0 k 0xFFFFFFFF 4 s →
      Gives (.csClear a k) s (fun t => rd CFG_CS_W4.state k t = 0 ∧ rd CFG_CS_W4.overflow k t = 0 ∧ getL LCS.ent k t = [] ∧ Silent s t ∧
        Frame ([(CFG_CS_W4.state, k), (CFG_CS_W4.overflow, k), (HAUD.tail, 0)] ++ logFlds)
          ([(LCS.ent, k), (LAUD.cap, rd HAUD.tail 0 s)] ++ logLists) [] s t)) ∧
    (k < 4 → Accepted a rCFG_CS_W0 k 0xFFFFFFFF 3 s →
      Gives (.csDisarm a k) s (fun t => rd CFG_CS_W4.state k t = 1 ∧ Silent s t ∧ Frame ([(CFG_CS_W4.state, k), (HAUD.tail, 0)] ++ logFlds)
          ([(LAUD.cap, rd HAUD.tail 0 s)] ++ logLists) [] s t)) ∧
    (k < 4 → Accepted a rCFG_CS_W0 k 0xFFFFFFFF 2 s → armBad k s = some v →
      Gives (.csArm a k) s (fun t => rd CFG_CS_W4.state k t = 1 ∧ rd CFG_CS_W4.result k t = v ∧ v ∈ [3, 4, 5] ∧ Silent s t ∧
        Frame ([(CFG_CS_W4.state, k), (CFG_CS_W4.result, k), (HAUD.tail, 0)] ++ logFlds)
          ([(LAUD.cap, rd HAUD.tail 0 s)] ++ logLists) [] s t)) ∧
    (k < 4 → Accepted a rCFG_CS_W0 k 0xFFFFFFFF 2 s → armBad k s = none → rd CFG_CS_W1.trigger k s ≠ 0 →
      Gives (.csArm a k) s (fun t => rd CFG_CS_W4.state k t = 2 ∧ rd HCS.trig k t = rd CFG_CS_W1.trigger k s ∧ rd HCS.tb k t = rd CFG_CS_W1.tb k s ∧
        rd HCS.round k t = rd CFG_CS_W1.round k s ∧ rd HCS.time k t = csTime k s % 2 ^ HCS.time.width ∧ Silent s t ∧
        Frame ([(CFG_CS_W4.state, k), (HCS.trig, k), (HCS.tb, k), (HCS.round, k), (HCS.time, k), (HCS.who, k), (HAUD.tail, 0)] ++ logFlds)
          ([(LAUD.cap, rd HAUD.tail 0 s)] ++ logLists) [] s t)) ∧
    (k < 4 → Accepted a rCFG_CS_W0 k 0xFFFFFFFF 2 s → armBad k s = none → rd CFG_CS_W1.trigger k s = 0 → csEnts k s = [] →
      (∀ j ∈ List.range 4, rd CFG_CS_W4.state j s ≠ 3) →
      Gives (.csArm a k) s (fun t => rd CFG_CS_W4.state k t = 3 ∧ rd CFG_CS_W5.cmd_errors k t = 0)) ∧
    (∀ (r : Reg), Accepted a rCFG_STAGE_DATA 0 0xFFFFFFFF v s → v < 2 ^ 32 → rd CFG_STAGE_CS.cs 0 s = k → rd CFG_CS_W4.state k s = 1 →
      aligned (rd CFG_STAGE_ADDR.addr 0 s) = true → locate (rd CFG_STAGE_ADDR.addr 0 s) s = .reg r i →
      (recordReg r = true ∨ cmdReg r = true) →
      (winTargets (rd CFG_STAGE_ADDR.addr 0 s) r i s).all (fun j => roleOk a r j (rd CFG_STAGE_MASK.mask 0 s) v s) = true →
      Gives (.stageData a v) s (fun t => 
        (csCount k s < 65536 → stageUsed s < 262144 → getL LCS.ent k t = getL LCS.ent k s ++ [rd CFG_STAGE_ADDR.addr 0 s, rd CFG_STAGE_MASK.mask 0 s, v] ∧
          Silent s t ∧ Frame logFlds ((LCS.ent, k) :: logLists) [] s t) ∧
        (65536 ≤ csCount k s ∨ 262144 ≤ stageUsed s → rd CFG_CS_W4.overflow k t = 1 ∧ ErrorLogged (regAddr rCFG_STAGE_DATA 0) 4 true s t ∧
          getL LCS.ent k t = getL LCS.ent k s))) ∧
    (k < 4 → rd CFG_CS_W4.state k s = 2 → rd HCS.trig k s = 2 → csEnts k s = [] → (∀ j ∈ List.range 4, rd CFG_CS_W4.state j s ≠ 3) →
      Gives (.csTimeTrigger k) s (fun t => rd CFG_CS_W4.state k t = 3 ∧ rd CFG_CS_W5.cmd_errors k t = 0)) ∧
    (rd CFG_CS_W4.state k s = 3 → csEnts k s = [] → (∀ j ∈ List.range 4, rd CFG_CS_W4.state j s ≠ 2) →
      Gives (.csCommitPoint k) s (fun t => rd CFG_CS_W4.state k t = 0 ∧ getL LCS.ent k t = [] ∧
        rd CFG_CS_W4.result k t = (if rd CFG_CS_W5.cmd_errors k s = 0 then 0 else 6) ∧ cnt cnt_CFG_cs_commits 0 t = (cnt cnt_CFG_cs_commits 0 s + 1) % 2 ^ 64 ∧
        Raised 0x0E05 [k, rd HCS.trig k s, 0, if rd CFG_CS_W5.cmd_errors k s = 0 then 0 else 6, rd CFG_CS_W5.cmd_errors k s] s t)) ∧
    (rd CFG_CS_W4.state k s = 3 → i < 16 → csEnts k s = [(regAddr rFAB_ROUND_W1 i, 0xFFFFFFFF, v)] → v < 2 ^ 30 →
      (∀ j ∈ List.range 4, rd CFG_CS_W4.state j s ≠ 2) → Gives (.csCommitPoint k) s (fun t => rd CFG_CS_W4.state k t = 0 ∧
        rd FAB_ROUND_W1.period i t = v ∧ Raised 0x0E05 [k, rd HCS.trig k s, 1, if rd CFG_CS_W5.cmd_errors k s = 0 then 0 else 6, rd CFG_CS_W5.cmd_errors k s] s t)) ∧
    (Accepted a rCFG_FLASH_CMD 0 0xFFFFFFFF 1 s → flashRefused 1 s = false →
      Gives (.flashRead a) s (fun t => rd HFL.op 0 t = 1 ∧ rd CFG_FLASH_STATUS.busy 0 t = 1 ∧ Emitted ⟨.flash, 1, [rd CFG_FLASH_ADDR.addr 0 s / 256 * 256]⟩ s t ∧
        rd CFG_FLASH_STATUS.result 0 t = rd CFG_FLASH_STATUS.result 0 s)) ∧
    (Accepted a rCFG_FLASH_CMD 0 0xFFFFFFFF 1 s → flashRefused 1 s = true →
      Gives (.flashRead a) s (fun t => rd CFG_FLASH_STATUS.result 0 t = 2 ∧ rd CFG_FLASH_STATUS.busy 0 t = 0 ∧ rd CFG_EVT.ev_flash 0 t = 1 ∧ t.out = s.out)) ∧
    (Accepted a rCFG_FLASH_CMD 0 0xFFFFFFFF 2 s → flashRefused 2 s = false →
      Gives (.flashProgram a) s (fun t => rd HFL.op 0 t = 2 ∧ rd CFG_FLASH_STATUS.busy 0 t = 1 ∧ Emitted ⟨.flash, 2, (rd CFG_FLASH_ADDR.addr 0 s / 256 * 256 :: (List.range 64).map (fun k => rd CFG_FLASH_DATA.data k s))⟩ s t ∧
        rd CFG_FLASH_STATUS.result 0 t = rd CFG_FLASH_STATUS.result 0 s)) ∧
    (Accepted a rCFG_FLASH_CMD 0 0xFFFFFFFF 2 s → flashRefused 2 s = true →
      Gives (.flashProgram a) s (fun t => rd CFG_FLASH_STATUS.result 0 t = 2 ∧ rd CFG_FLASH_STATUS.busy 0 t = 0 ∧ rd CFG_EVT.ev_flash 0 t = 1 ∧ t.out = s.out)) ∧
    (Accepted a rCFG_FLASH_CMD 0 0xFFFFFFFF 3 s → flashRefused 3 s = false →
      Gives (.flashErase4k a) s (fun t => rd HFL.op 0 t = 3 ∧ rd CFG_FLASH_STATUS.busy 0 t = 1 ∧ Emitted ⟨.flash, 3, [rd CFG_FLASH_ADDR.addr 0 s / 4096 * 4096]⟩ s t ∧
        rd CFG_FLASH_STATUS.result 0 t = rd CFG_FLASH_STATUS.result 0 s)) ∧
    (Accepted a rCFG_FLASH_CMD 0 0xFFFFFFFF 3 s → flashRefused 3 s = true →
      Gives (.flashErase4k a) s (fun t => rd CFG_FLASH_STATUS.result 0 t = 2 ∧ rd CFG_FLASH_STATUS.busy 0 t = 0 ∧ rd CFG_EVT.ev_flash 0 t = 1 ∧ t.out = s.out)) ∧
    (Accepted a rCFG_FLASH_CMD 0 0xFFFFFFFF 4 s → flashRefused 4 s = false →
      Gives (.flashErase64k a) s (fun t => rd HFL.op 0 t = 4 ∧ rd CFG_FLASH_STATUS.busy 0 t = 1 ∧ Emitted ⟨.flash, 4, [rd CFG_FLASH_ADDR.addr 0 s / 65536 * 65536]⟩ s t ∧
        rd CFG_FLASH_STATUS.result 0 t = rd CFG_FLASH_STATUS.result 0 s)) ∧
    (Accepted a rCFG_FLASH_CMD 0 0xFFFFFFFF 4 s → flashRefused 4 s = true →
      Gives (.flashErase64k a) s (fun t => rd CFG_FLASH_STATUS.result 0 t = 2 ∧ rd CFG_FLASH_STATUS.busy 0 t = 0 ∧ rd CFG_EVT.ev_flash 0 t = 1 ∧ t.out = s.out)) ∧
    (rd HFL.op 0 s = 1 →
      Gives (.flashCommandDone 0 bs) s (fun t => rd HFL.op 0 t = 0 ∧ rd CFG_FLASH_STATUS.busy 0 t = 0 ∧ rd CFG_FLASH_STATUS.result 0 t = 0 ∧
        (∀ k ∈ List.range 64, rd CFG_FLASH_DATA.data k t = leNat ((bs.drop (4 * k)).take 4) % 2 ^ 32) ∧ Silent s t)) ∧
    (1 < rd HFL.op 0 s → v ≤ 3 → v ≠ 2 →
      Gives (.flashCommandDone v bs) s (fun t => rd HFL.op 0 t = 0 ∧ rd CFG_FLASH_STATUS.busy 0 t = 0 ∧ rd CFG_FLASH_STATUS.result 0 t = v ∧
        (v ≠ 0 → rd CFG_EVT.ev_flash 0 t = 1) ∧ rd CFG_FLASH_DATA.data k t = rd CFG_FLASH_DATA.data k s ∧ Silent s t))

/-- HELLO, PROOF, CLOSE, SESSION_IDLE_TIMEOUT and CREDENTIAL_LOCK_END (R445, R452 to R454), with what every session message meets first (R482). Signatures and tags are uninterpreted (log entry 2), nonces free (log entry 1), session IDs the model's (log entry 31). -/
def Obligations.Sessions : Prop :=
  ∀ (m : MgmtMsg) (i c : Nat) (s : State), s.telFifo.length < 900 →
    (Heard m s → m.sess = 0 → beField m.payload 0 2 = c →
      ((c < 32 ∧ m.payload.length = 99) ∨ (c ∈ [0x101, 0x102, 0x103, 0x104, 0x200] ∧ m.payload.length = 196)) → m.payload.getD 2 0 = 4 →
      sessSlot s = some i → Gives (.hello m) s (fun t => rd HACC.wait i t = 1 ∧
        (getL LACC.hs i t).getD 0 0 = c ∧ getL LACC.eph i t = (m.payload.drop 2).take 97 ∧
        Answered m 2 0 (beBytes 32 ((getL LACC.hs i t).getD 2 0) ++ Config.deviceKey ((getL LACC.hs i t).getD 1 0) ++ beBytes 4 (i + 1)) s t)) ∧
    (Heard m s → m.sess = 0 → beField m.payload 0 2 = c → c < 32 → m.payload.length = 99 → m.payload.getD 2 0 = 4 → sessSlot s = none →
      Gives (.hello m) s (fun t => Answered m 5 0 [] s t)) ∧
    (Heard m s → m.sess = 0 → m.payload.length ≠ 100 →
      Gives (.proof m) s (fun t => Answered m 3 1 [] s t ∧ cnt cnt_HIF_mgmt_bad 0 t = (cnt cnt_HIF_mgmt_bad 0 s + 1) % 2 ^ 64)) ∧
    (Heard m s → m.sess = 0 → m.payload.length = 100 → beField m.payload 0 4 = i + 1 → i < 8 → rd HACC.wait i s = 1 →
      (getL LACC.hs i s).getD 0 0 = c → Gives (.proof m) s (fun t => rd HACC.wait i t = 0 ∧
        (proofCode i (m.payload.drop 4) s = 0 → getL LACC.key i t ≠ [] ∧ rd ACC_SESSION.cred i t = c % 2 ^ 16 ∧ rd ACC_SESSION.role i t = credRole c ∧
          rd HACC.ctr i t = 0 ∧ cnt cnt_ACC_auth_ok 0 t = (cnt cnt_ACC_auth_ok 0 s + 1) % 2 ^ 64 ∧ Answered m 4 0 (beBytes 4 (i + 1)) s t) ∧
        (proofCode i (m.payload.drop 4) s ≠ 0 → getL LACC.key i t = getL LACC.key i s ∧ rd ACC_SESSION.role i t = rd ACC_SESSION.role i s ∧
          cnt cnt_ACC_auth_fail 0 t = (cnt cnt_ACC_auth_fail 0 s + 1) % 2 ^ 64 ∧ Answered m 5 0 [] s t) ∧
        (proofCode i (m.payload.drop 4) s ∈ [1, 2, 4] →
          rd ACC_SESSION_CFG.lock_limit 0 s ≤ ((getL LACC.fails c s).filter (fun x => now s < x + 60000000000)).length + 1 →
          Due HACC.lock c (rd ACC_SESSION_CFG.lock_time 0 s * 1000000000) t ∧ getL LACC.fails c t = [] ∧ Raised 0x0D01 [c, rd ACC_SESSION_CFG.lock_time 0 s] s t))) ∧
    (Heard m s → InSession m s → m.payload = [] → m.sess = i + 1 →
      Gives (.close (keyed 6 m s)) s (fun t => getL LACC.key i t = [] ∧ rd ACC_SESSION.cred i t = 0xFFFF ∧ rd ACC_SESSION.role i t = 0 ∧
        getL LHIF.reply i t = [] ∧ Answered m 6 0 [] s t)) ∧
    (Heard m s → 1 ≤ m.sess → (m.sess ≤ 8 → getL LACC.key (m.sess - 1) s = []) → Gives (.close m) s (fun t => Answered m 6 3 [] s t)) ∧
    (Heard m s → 1 ≤ m.sess → m.sess ≤ 8 → getL LACC.key (m.sess - 1) s ≠ [] → m.ctr < rd HACC.ctr (m.sess - 1) s →
      Gives (.close m) s (fun t => t.out = s.out ∧ getL LACC.key (m.sess - 1) t = getL LACC.key (m.sess - 1) s ∧
        cnt cnt_ACC_replay_drop 0 t = (cnt cnt_ACC_replay_drop 0 s + 1) % 2 ^ 64)) ∧
    (∀ (bs : List Nat), Heard m s → m.sess = i + 1 → i < 8 → getL LACC.key i s ≠ [] → rd HACC.ctr i s ≤ m.ctr →
      getL LHIF.reply i s = (m.rid + 1) :: bs → Gives (.close (keyed 6 m s)) s (fun t => 
        Emitted ⟨.mgmt, (msgPath m.path).getD 0, bs⟩ s t ∧
        getL LACC.key i t = getL LACC.key i s)) ∧
    (i < 8 → getL LACC.key i s ≠ [] →
      Gives (.sessionIdleTimeout i) s (fun t => getL LACC.key i t = [] ∧ rd ACC_SESSION.cred i t = 0xFFFF ∧ rd ACC_SESSION.role i t = 0 ∧ t.out = s.out)) ∧
    (rd HACC.lock c s ≠ 0 → Gives (.credentialLockEnd c) s (fun t => rd HACC.lock c t = 0 ∧ Silent s t))

/-- MAKER_GRANT, MAKER_REVOKE, MAKER_GRANT_EXPIRY, PROGRAM_INSTALLER_SLOT, PROGRAM_MAKER_FUSE and AUDIT_RECORD_WRITE (R449, R450, R456 to R458, R464). A fuse's read-back is a free value (log entry 1). -/
def Obligations.MakerFusesAndAudit : Prop :=
  ∀ (a : Access) (n i : Nat) (s : State), s.telFifo.length < 900 →
    (Accepted a rACC_MAKER_GRANT 0 0xFFFFFFFF (fieldWord ACC_MAKER_GRANT.minutes n + fieldWord ACC_MAKER_GRANT.grant 1) s → 1 ≤ n →
      n ≤ 1440 →
      Gives (.makerGrant a n) s (fun t => Due HACC.grant 0 (n * 60000000000) t ∧ rd ACC_MAKER_GRANT.minutes 0 t = n ∧ rd ACC_EVT.ev_maker 0 t = 1 ∧
        Raised 0x0D02 [1, n] s t)) ∧
    (Accepted a rACC_MAKER_GRANT 0 (fieldWord ACC_MAKER_GRANT.revoke 1) (fieldWord ACC_MAKER_GRANT.revoke 1) s → rd HACC.grant 0 s ≠ 0 →
      Gives (.makerRevoke a) s (fun t => rd HACC.grant 0 t = 0 ∧ (∀ j ∈ List.range 8, getL LACC.key j t = (if getL LACC.key j s ≠ [] ∧ rd ACC_SESSION.cred j s = 0x200 then [] else getL LACC.key j s)) ∧ Raised 0x0D02 [3, 0] s t)) ∧
    (rd HACC.grant 0 s ≠ 0 →
      Gives .makerGrantExpiry s (fun t => rd HACC.grant 0 t = 0 ∧ rd ACC_EVT.ev_maker 0 t = 1 ∧ (∀ j ∈ List.range 8, getL LACC.key j t = (if getL LACC.key j s ≠ [] ∧ rd ACC_SESSION.cred j s = 0x200 then [] else getL LACC.key j s)) ∧ Raised 0x0D02 [3, 0] s t)) ∧
    (Accepted a rACC_FUSE_CMD 0 0xFFFFFFFF (fieldWord ACC_FUSE_CMD.op 1) s → rd ACC_STATUS.key_slot 0 s = n → n < 4 →
      Gives (.programInstallerSlot a) s (fun t => rd ACC_STATUS.key_slot 0 t = n + 1 ∧
        rd HFUSE.slot (n + 1) t = fuseHash s % 2 ^ 384 ∧ (∀ k ∈ List.range 5, k ≠ n + 1 → rd HFUSE.slot k t = rd HFUSE.slot k s) ∧
        rd ACC_FUSE_CMD.result 0 t = 2 * rd HFUSE.flaw (n + 1) t ∧ rd ACC_EVT.ev_key 0 t = 1 ∧ Raised 0x0D05 [n + 1, rd ACC_FUSE_CMD.result 0 t] s t)) ∧
    (Accepted a rACC_FUSE_CMD 0 0xFFFFFFFF (fieldWord ACC_FUSE_CMD.op 1) s → rd ACC_STATUS.key_slot 0 s = 4 →
      Gives (.programInstallerSlot a) s (fun t => rd ACC_FUSE_CMD.result 0 t = 3 ∧ Silent s t ∧
        Frame ([(ACC_FUSE_CMD.result, 0), (HAUD.tail, 0)] ++ logFlds)
          ((LAUD.cap, rd HAUD.tail 0 s) :: logLists) [] s t)) ∧
    (Accepted a rACC_FUSE_CMD 0 0xFFFFFFFF (fieldWord ACC_FUSE_CMD.op 2 + fieldWord ACC_FUSE_CMD.fuse_addr i) s → i < 1024 →
      Gives (.programMakerFuse a i) s (fun t => 
        (rd ACC_FUSE_CMD.result 0 t = 0 ∧ rd HFUSE.maker i t = rd HFUSE.maker i s ||| rd ACC_FUSE_DATA.data 0 s) ∨
        (rd ACC_FUSE_CMD.result 0 t = 2 ∧ rd HFUSE.maker i t ≠ rd HFUSE.maker i s ||| rd ACC_FUSE_DATA.data 0 s))) ∧
    (rd HAUD.head 0 s = n → n < rd HAUD.tail 0 s → folsorWrites s = true →
      Gives (.auditRecordWrite i 0) s (fun t => rd HAUD.head 0 t = n + 1 ∧ getL LAUD.cap n t = [] ∧ rd HAUD.seq 0 t = (rd HAUD.seq 0 s + 1) % 2 ^ 64 ∧
        getL LAUD.ring (goodPos (rd HAUD.pos 0 s) s 65536) t = (rd HAUD.seq 0 s + 1) :: auditWords (rd HAUD.seq 0 s)
          (if (getL LAUD.cap n s).getD 10 0 = 1 then (getL LAUD.cap n s).getD 9 0 else (getL LAUD.cap n s).getD 9 0 + min i (lagMost (some 50) s)) (rd HAUD.boots 0 s)
          (if (getL LAUD.cap n s).getD 10 0 = 1 then 0 else min i (lagMost (some 50) s)) (getL LAUD.cap n s) ∧
        cnt cnt_ACC_audit_records 0 t = (cnt cnt_ACC_audit_records 0 s + 1) % 2 ^ 64 ∧ Silent s t)) ∧
    (folsorWrites s = false → Gives (.auditRecordWrite i n) s (fun t => Silent s t ∧ Frame [] [] [] s t))

/-- IDCODE to CLAMP (R461, R462). Captured cells are free values (log entry 1). -/
def Obligations.TestAccessPort : Prop :=
  ∀ (i : Nat) (r : Reg) (bs : List Nat) (s : State),
    (Gives .idcode s (fun t => rd HTAP.ir 0 t = 1 ∧ t.out = s.out ++ [⟨.tap, 1, [0xB1024743]⟩] ∧ t.telFifo = s.telFifo ∧ Frame [(HTAP.ir, 0), (HTAP.drive, 0)] [] [] s t)) ∧
    (∀ (k : Nat), aligned i = true → locate i s = .reg r k → sliceReg r = false → r.id ≠ rPOOL_ALLOC_SIZE.id → r.id ≠ rPOOL_ALLOC_POOL.id →
      Gives (.tapRegRead i) s (fun t => rd HTAP.ir 0 t = 0x10 ∧
        t.out = s.out ++ [⟨.tap, 0x10, [wordOf r k (tapSelect 0x10 s)]⟩] ∧ t.telFifo = s.telFifo ∧ Frame [(HTAP.ir, 0), (HTAP.drive, 0)] [] [] s t)) ∧
    (aligned i = true → locate i s = .none_ → Gives (.tapRegRead i) s (fun t => Emitted ⟨.tap, 0x10, [0]⟩ s t ∧ ErrorLogged i 2 false s t)) ∧
    (Gives .traceRead s (fun t => rd HTAP.ir 0 t = 0x11 ∧ t.out = s.out ++ [⟨.tap, 0x11, getL LTRC.buf 0 s⟩] ∧ t.telFifo = s.telFifo ∧
        Frame [(HTAP.ir, 0), (HTAP.drive, 0)] [] [] s t)) ∧
    (Gives .bypass s (fun t => rd HTAP.ir 0 t = 0xFF ∧ rd HTAP.drive 0 t = 0 ∧ Silent s t ∧ Frame [(HTAP.ir, 0), (HTAP.drive, 0)] [] [] s t)) ∧
    (rd ACC_STATUS.test_mode 0 s = 0 →
      Gives (.extest bs) s (fun t => rd HTAP.ir 0 t = 0 ∧ rd HTAP.drive 0 t = 0 ∧ Silent s t ∧ Frame [(HTAP.ir, 0), (HTAP.drive, 0)] [] [] s t)) ∧
    (rd ACC_STATUS.test_mode 0 s ≠ 0 → bs ≠ [] →
      Gives (.extest bs) s (fun t => rd HTAP.ir 0 t = 0 ∧ rd HTAP.drive 0 t = 1 ∧ getL LTAP.cells 0 t = bs ∧
        Emitted ⟨.tap, 0, [Config.freeValue s.fresh % 2 ^ bs.length]⟩ s t ∧ t.telFifo = s.telFifo ∧ Frame [(HTAP.ir, 0), (HTAP.drive, 0)] [(LTAP.cells, 0)] [] s t)) ∧
    (rd ACC_STATUS.test_mode 0 s = 0 →
      Gives (.samplePreload bs) s (fun t => rd HTAP.ir 0 t = 2 ∧ rd HTAP.drive 0 t = 0 ∧ Silent s t ∧ Frame [(HTAP.ir, 0), (HTAP.drive, 0)] [] [] s t)) ∧
    (rd ACC_STATUS.test_mode 0 s ≠ 0 → bs ≠ [] →
      Gives (.samplePreload bs) s (fun t => rd HTAP.ir 0 t = 2 ∧ rd HTAP.drive 0 t = 0 ∧ getL LTAP.cells 0 t = bs ∧
        Emitted ⟨.tap, 2, [Config.freeValue s.fresh % 2 ^ bs.length]⟩ s t ∧ t.telFifo = s.telFifo ∧ Frame [(HTAP.ir, 0), (HTAP.drive, 0)] [(LTAP.cells, 0)] [] s t)) ∧
    (rd ACC_STATUS.test_mode 0 s = 0 →
      Gives (.extestPulse bs) s (fun t => rd HTAP.ir 0 t = 3 ∧ rd HTAP.drive 0 t = 0 ∧ Silent s t ∧ Frame [(HTAP.ir, 0), (HTAP.drive, 0)] [] [] s t)) ∧
    (rd ACC_STATUS.test_mode 0 s ≠ 0 → bs ≠ [] →
      Gives (.extestPulse bs) s (fun t => rd HTAP.ir 0 t = 3 ∧ rd HTAP.drive 0 t = 1 ∧ getL LTAP.cells 0 t = bs ∧
        Emitted ⟨.tap, 3, [Config.freeValue s.fresh % 2 ^ bs.length]⟩ s t ∧ t.telFifo = s.telFifo ∧ Frame [(HTAP.ir, 0), (HTAP.drive, 0)] [(LTAP.cells, 0)] [] s t)) ∧
    (rd ACC_STATUS.test_mode 0 s = 0 →
      Gives (.extestTrain bs) s (fun t => rd HTAP.ir 0 t = 4 ∧ rd HTAP.drive 0 t = 0 ∧ Silent s t ∧ Frame [(HTAP.ir, 0), (HTAP.drive, 0)] [] [] s t)) ∧
    (rd ACC_STATUS.test_mode 0 s ≠ 0 → bs ≠ [] →
      Gives (.extestTrain bs) s (fun t => rd HTAP.ir 0 t = 4 ∧ rd HTAP.drive 0 t = 1 ∧ getL LTAP.cells 0 t = bs ∧
        Emitted ⟨.tap, 4, [Config.freeValue s.fresh % 2 ^ bs.length]⟩ s t ∧ t.telFifo = s.telFifo ∧ Frame [(HTAP.ir, 0), (HTAP.drive, 0)] [(LTAP.cells, 0)] [] s t)) ∧
    (Gives .highz s (fun t => rd HTAP.ir 0 t = 5 ∧ rd HTAP.drive 0 t = (if rd ACC_STATUS.test_mode 0 s = 0 then 0 else 2) ∧ Silent s t ∧
        Frame [(HTAP.ir, 0), (HTAP.drive, 0)] [] [] s t)) ∧
    (Gives .clamp s (fun t => rd HTAP.ir 0 t = 6 ∧ rd HTAP.drive 0 t = (if rd ACC_STATUS.test_mode 0 s = 0 then 0 else 1) ∧ Silent s t ∧
        Frame [(HTAP.ir, 0), (HTAP.drive, 0)] [] [] s t))

/-- REGISTER_WRITE on PCIe, PCIE_PERST_ASSERT, FLR, HOT_RESET, PCIE_LINK_DOWN, PCIE_AER_ERROR, PCIE_PERST_DEASSERT, ASPM_LINK_ENTRY and D_STATE_CHANGE (R396, R466, R468, R470, R489). MSI-X masks of 1 after a reset are the family's (log entry 44). -/
def Obligations.PcieFunction : Prop :=
  ∀ (a : Access) (l g v : Nat) (hot m p : Bool) (s : State), s.telFifo.length < 900 →
    (pcieOn s = true →
      Gives .pciePerstAssert s (fun t => rd HIF_STATUS.link 0 t = 0 ∧ rd HIF_STATUS.d_state 0 t = 3 ∧ rd HIF_EVT.ev_pcie 0 t = 1 ∧
        (∀ k ∈ List.range 16, rd HIF_RING_W2.enable k t = 0 ∧ rd HIF_RING_W5.state k t = 0 ∧ rd HIF_RING_W3.tail k t = 0 ∧ rd HIF_RING_W4.head k t = 0 ∧ getL LHIF.punt k t = []) ∧ t.recs = [] ∧
        rd HIF_STATUS.msix_en 0 t = 0 ∧ rd HINT.pme_en 0 t = 0 ∧ rd HPCI.aer 0 t = 0 ∧
        (∀ g ∈ List.range 64, rd HINT.masked g t = 1 ∧ rd HINT.pba g t = 0 ∧ rd HINT.addr_lo g t = 0 ∧ rd HINT.addr_hi g t = 0 ∧ rd HINT.data g t = 0) ∧ ((∀ k ∈ List.range 16, getL LHIF.punt k s = []) → s.recs = [] → Raised 0x0C01 [0, 3, 3] s t))) ∧
    (pcieOn s = true →
      Gives .flr s (fun t => rd HIF_STATUS.link 0 t = rd HIF_STATUS.link 0 s ∧ rd HIF_STATUS.d_state 0 t = 0 ∧ rd HIF_EVT.ev_pcie 0 t = 1 ∧
        (∀ k ∈ List.range 16, rd HIF_RING_W2.enable k t = 0 ∧ rd HIF_RING_W5.state k t = 0 ∧ rd HIF_RING_W3.tail k t = 0 ∧ rd HIF_RING_W4.head k t = 0 ∧ getL LHIF.punt k t = []) ∧ t.recs = [] ∧
        rd HIF_STATUS.msix_en 0 t = 0 ∧ rd HINT.pme_en 0 t = 0 ∧ rd HPCI.aer 0 t = 0 ∧
        (∀ g ∈ List.range 64, rd HINT.masked g t = 1 ∧ rd HINT.pba g t = 0 ∧ rd HINT.addr_lo g t = 0 ∧ rd HINT.addr_hi g t = 0 ∧ rd HINT.data g t = 0) ∧ ((∀ k ∈ List.range 16, getL LHIF.punt k s = []) → s.recs = [] → Raised 0x0C01 [rd HIF_STATUS.link 0 s, 0, 2] s t))) ∧
    (pcieOn s = true → Gives .hotReset s (fun t => rd HIF_STATUS.link 0 t = rd HIF_STATUS.link 0 s ∧ rd HIF_STATUS.d_state 0 t = 0 ∧
        (∀ k ∈ List.range 16, rd HIF_RING_W2.enable k t = 0 ∧ rd HIF_RING_W5.state k t = 0 ∧ rd HIF_RING_W3.tail k t = 0 ∧ rd HIF_RING_W4.head k t = 0 ∧ getL LHIF.punt k t = []) ∧ t.recs = [] ∧
        rd HIF_STATUS.msix_en 0 t = 0 ∧ rd HINT.pme_en 0 t = 0 ∧ rd HPCI.aer 0 t = 0 ∧
        (∀ g ∈ List.range 64, rd HINT.masked g t = 1 ∧ rd HINT.pba g t = 0 ∧ rd HINT.addr_lo g t = 0 ∧ rd HINT.addr_hi g t = 0 ∧ rd HINT.data g t = 0) ∧ ((∀ k ∈ List.range 16, getL LHIF.punt k s = []) → s.recs = [] → t.telFifo = s.telFifo))) ∧
    (pcieOn s = true → rd HIF_STATUS.d_state 0 s = 3 →
      Gives .pciePerstDeassert s (fun t => rd HIF_STATUS.d_state 0 t = 0 ∧ rd HIF_STATUS.link 0 t = 6 ∧ t.pins.pcieWakeN = true ∧ Silent s t ∧
        Frame [(HIF_STATUS.d_state, 0), (HIF_STATUS.link, 0)] [] [] s t)) ∧
    (pcieOn s = true →
      Gives .pcieLinkDown s (fun t => rd HIF_STATUS.link 0 t = 0 ∧ rd HIF_EVT.ev_pcie 0 t = 1 ∧ Raised 0x0C01 [0, rd HIF_STATUS.d_state 0 s, 1] s t ∧
        Frame [(HIF_STATUS.link, 0), (HIF_EVT.ev_pcie, 0)] [] [] s t)) ∧
    (pcieOn s = true →
      Gives .pcieAerError s (fun t => rd HIF_EVT.ev_pcie 0 t = 1 ∧ Raised 0x0C01 [rd HIF_STATUS.link 0 s, rd HIF_STATUS.d_state 0 s, 4] s t ∧
        cnt cnt_HIF_pcie_aer 0 t = (cnt cnt_HIF_pcie_aer 0 s + 1) % 2 ^ 64 ∧ rd HPCI.aer 0 t = 1 ∧ Frame [(HIF_EVT.ev_pcie, 0), (HPCI.aer, 0)] [] [(cnt_HIF_pcie_aer, 0)] s t)) ∧
    (pcieOn s = true → rd HIF_STATUS.link 0 s = 1 → 2 ≤ l → l ≤ 5 →
      Gives (.aspmLinkEntry l) s (fun t => rd HIF_STATUS.link 0 t = l ∧ Silent s t ∧ Frame [(HIF_STATUS.link, 0)] [] [] s t)) ∧
    (pcieOn s = true → rd HIF_STATUS.d_state 0 s ≠ 3 →
      Gives (.dStateChange hot m p) s (fun t => rd HIF_STATUS.d_state 0 t = (if hot = true then 2 else 0) ∧ rd HIF_STATUS.msix_en 0 t = b2n m ∧
        rd HINT.pme_en 0 t = b2n p ∧ t.telFifo = s.telFifo ∧
        (hot = false → m = true → rd HIF_STATUS.link 0 s = 1 → ∀ g ∈ touched INTC_GRP.msg_held s, rd INTC_GRP.msg_held g t = 0))) ∧
    (pcieOn s = false → Gives .flr s (fun t => Silent s t ∧ Frame [] [] [] s t)) ∧
    (pcieOn s = false → Gives .hotReset s (fun t => Silent s t ∧ Frame [] [] [] s t)) ∧
    (pcieOn s = false → Gives .pciePerstAssert s (fun t => Silent s t ∧ Frame [] [] [] s t)) ∧
    (a.path = .pcie → pcieOn s = false → Gives (.registerWrite a g v) s (fun t => Silent s t ∧ Frame [] [] [] s t)) ∧
    (a.path = .bar2 → pcieOn s = true → g < 64 → v < 2 ^ 32 →
      Gives (.registerWrite a (16 * g + 8) v) s (fun t => rd HINT.data g t = v ∧ Silent s t ∧ Frame [(HINT.data, g)] [] [] s t)) ∧
    (a.path = .bar2 → pcieOn s = true → g < 64 → v < 2 ^ 32 →
      Gives (.registerWrite a (16 * g) v) s (fun t => rd HINT.addr_lo g t = v / 4 * 4 ∧ Silent s t ∧ Frame [(HINT.addr_lo, g)] [] [] s t))

/-- RING_TAIL_WRITE, RING_ENABLE, RING_DISABLE, PUNT_DMA, INJECT_DMA, RECORD_DMA, DMA_FLUSH_DONE and DMA_ERROR (R471 to R478, R498). Frames are numbered by the model (log entry 42). -/
def Obligations.DmaRings : Prop :=
  ∀ (a : Access) (k f n len : Nat) (d : List Nat) (errs : List MemErr) (s : State), s.telFifo.length < 900 →
    (k < 16 → Accepted a rHIF_RING_W3 k 0xFFFFFFFF n s → n < 2 ^ 32 →
      Gives (.ringTailWrite a k n) s (fun t => rd HIF_RING_W3.tail k t = n ∧ Silent s t ∧
        Frame ([(HIF_RING_W3.tail, k), (HAUD.tail, 0)] ++ logFlds)
          ((LAUD.cap, rd HAUD.tail 0 s) :: logLists) [] s t)) ∧
    (k < 16 → n < 2 ^ 32 → tailOver k n s = true → rd HRED.gap 0 s = 0 →
      Gives (.ringTailWrite ⟨.core, f⟩ k n) s (fun t => rd HIF_RING_W3.tail k t = rd HIF_RING_W3.tail k s ∧ ErrorLogged (regAddr rHIF_RING_W3 k) 4 true s t ∧ Silent s t)) ∧
    (k < 16 → Accepted a rHIF_RING_W2 k (fieldWord HIF_RING_W2.enable 1) (fieldWord HIF_RING_W2.enable 1) s → rd HIF_RING_W2.enable k s = 0 →
      Gives (.ringEnable a k) s (fun t => rd HIF_RING_W2.enable k t = 1 ∧ rd HIF_RING_W5.state k t = 1 ∧ rd HIF_RING_W3.tail k t = 0 ∧
        rd HIF_RING_W4.head k t = 0 ∧ Silent s t)) ∧
    (k < 16 → Accepted a rHIF_RING_W2 k (fieldWord HIF_RING_W2.enable 1) 0 s → rd HIF_RING_W2.enable k s = 1 →
      Gives (.ringDisable a k) s (fun t => rd HIF_RING_W2.enable k t = 0 ∧ Silent s t ∧
        rd HIF_RING_W5.state k t = (if rd HIF_RING_W5.state k s = 1 ∧ rd HHIF.dma k s ≠ 0 then 1 else 0))) ∧
    (∀ (q : List Nat), ringServes k 0 s = true → getL LHIF.punt k s = f :: q → rd FRM.err f s = 0 → rd FRM.ended f s = 1 →
      lenOk n len = true → badWords f 0 65536 s = [] → (∀ e ∈ errs, e = .cellCorr ∨ e = .linkCorr) →
      Gives (.puntDma k n ⟨len, errs⟩) s (fun t => 
        Emitted ⟨.hostWrite, k, w64 n ++ ((getL LFRM.bytes f s).take ((getL LFRM.bytes f s).length - 4)).take len⟩ s t ∧
        Emitted ⟨.hostWrite, k, w64 (ringDesc k s + 16) ++ completionBytes k (min len ((getL LFRM.bytes f s).length - 4)) (if len < (getL LFRM.bytes f s).length - 4 then 1 else 0) (rd FRM.reason f s) (rd FRM.port f s) (rd FRM.stamp f s / 2 ^ 32) s⟩ s t ∧
        rd HHIF.turn 0 t = (k + 1) % 16 ∧ rd HIF_RING_W4.head k t = (rd HIF_RING_W4.head k s + 1) % 2 ^ 32 ∧ cnt cnt_HIF_completions k t = (cnt cnt_HIF_completions k s + 1) % 2 ^ 64 ∧ getL LHIF.punt k t = q ∧ rd HIF_RING_W5.queued k t = q.length % 2 ^ 9 ∧
        cnt cnt_BUF_ecc_corr 0 t = (cnt cnt_BUF_ecc_corr 0 s + errs.count .cellCorr) % 2 ^ 64)) ∧
    (∀ (q : List Nat), ringServes k 0 s = true → getL LHIF.punt k s = f :: q → rd FRM.err f s = 1 →
      Gives (.puntDma k n ⟨len, errs⟩) s (fun t => getL LHIF.punt k t = q ∧ rd HIF_RING_W4.head k t = rd HIF_RING_W4.head k s ∧ t.out = s.out)) ∧
    (∀ (q : List Nat) (w : Nat), ringServes k 0 s = true → getL LHIF.punt k s = f :: q → q.head? ≠ some f → rd FRM.err f s = 0 →
      rd FRM.ended f s = 1 → lenOk n len = true → badWords f 0 65536 s = [] → frmWord f w s ≠ none → errs = [.cellBad w] →
      Gives (.puntDma k n ⟨len, errs⟩) s (fun t => getL LHIF.punt k t = q ∧ rd HIF_RING_W4.head k t = rd HIF_RING_W4.head k s ∧ t.out = s.out ∧ cnt cnt_BUF_ecc_uncorr 0 t = (cnt cnt_BUF_ecc_uncorr 0 s + 1) % 2 ^ 64)) ∧
    (∀ (q : List Nat), ringServes k 0 s = true → getL LHIF.punt k s = f :: q → rd FRM.err f s = 0 → rd FRM.ended f s = 1 →
      lenOk n len = false →
      Gives (.puntDma k n ⟨len, errs⟩) s (fun t => getL LHIF.punt k t = f :: q ∧ Emitted ⟨.hostWrite, k, w64 (ringDesc k s + 16) ++ completionBytes k 0 3 0 0 (now s) s⟩ s t ∧ rd HHIF.turn 0 t = (k + 1) % 16 ∧ rd HIF_RING_W4.head k t = (rd HIF_RING_W4.head k s + 1) % 2 ^ 32 ∧ cnt cnt_HIF_completions k t = (cnt cnt_HIF_completions k s + 1) % 2 ^ 64)) ∧
    (ringServes k 1 s = true → bootReady s = true → n % 8 = 0 →
      (rd BUF_RX_CFG.rx_pool 0 s - rd BUF_RX_CFG.rx_early 0 s) * 1024 ≤ rd HBUF.rx_used 0 s →
      Gives (.injectDma k n f d 0) s (fun t => Emitted ⟨.hostWrite, k, w64 (ringDesc k s + 16) ++ completionBytes k 0 2 0 (f % 1024) (now s) s⟩ s t ∧ rd HHIF.turn 0 t = (k + 1) % 16 ∧ rd HIF_RING_W4.head k t = (rd HIF_RING_W4.head k s + 1) % 2 ^ 32 ∧ cnt cnt_HIF_completions k t = (cnt cnt_HIF_completions k s + 1) % 2 ^ 64 ∧
        Emitted ⟨.hostRead, k, w64 n ++ [d.length]⟩ s t ∧ cnt cnt_HIF_inject_refused k t = (cnt cnt_HIF_inject_refused k s + 1) % 2 ^ 64 ∧ rd HIF_RING_W6.ev_drop k t = 1 ∧
        rd HFRM.next 0 t = rd HFRM.next 0 s)) ∧
    (ringServes k 1 s = true → bootReady s = true → n % 8 = 0 →
      rd HBUF.rx_used 0 s < (rd BUF_RX_CFG.rx_pool 0 s - rd BUF_RX_CFG.rx_early 0 s) * 1024 →
      (portExists (f % 1024) s = false ∨ portMax (f % 1024) s < (injectBytes d).length) → Gives (.injectDma k n f d 0) s (fun t => 
        Emitted ⟨.hostWrite, k, w64 (ringDesc k s + 16) ++ completionBytes k 0 3 0 (f % 1024) (now s) s⟩ s t ∧ rd HHIF.turn 0 t = (k + 1) % 16 ∧ rd HIF_RING_W4.head k t = (rd HIF_RING_W4.head k s + 1) % 2 ^ 32 ∧ cnt cnt_HIF_completions k t = (cnt cnt_HIF_completions k s + 1) % 2 ^ 64 ∧ rd HFRM.next 0 t = rd HFRM.next 0 s)) ∧
    (∀ (c : Nat), ringServes k 1 s = true → bootReady s = true → n % 8 = 0 →
      rd HBUF.rx_used 0 s < (rd BUF_RX_CFG.rx_pool 0 s - rd BUF_RX_CFG.rx_early 0 s) * 1024 → portExists (f % 1024) s = true →
      (injectBytes d).length ≤ portMax (f % 1024) s → bitOf f 28 = false → Gives (.injectDma k n f d c) s (fun t => 
        Emitted ⟨.hostWrite, k, w64 (ringDesc k s + 16) ++ completionBytes k ((injectBytes d).length - 4) 0 0 (f % 1024) (now s) s⟩ s t ∧ rd HHIF.turn 0 t = (k + 1) % 16 ∧ rd HIF_RING_W4.head k t = (rd HIF_RING_W4.head k s + 1) % 2 ^ 32 ∧ cnt cnt_HIF_completions k t = (cnt cnt_HIF_completions k s + 1) % 2 ^ 64 ∧ rd HFRM.next 0 t = (rd HFRM.next 0 s + 1) % 2 ^ 32 ∧
        (rd FRM.live (rd HFRM.next 0 s) t = 0 ∨ getL LFRM.bytes (rd HFRM.next 0 s) t = injectBytes d))) ∧
    (∀ (c : Nat), ringServes k 1 s = true → bootReady s = true → n % 8 = 0 →
      rd HBUF.rx_used 0 s < (rd BUF_RX_CFG.rx_pool 0 s - rd BUF_RX_CFG.rx_early 0 s) * 1024 → portExists (f % 1024) s = true →
      (injectBytes d).length ≤ portMax (f % 1024) s → bitOf f 28 = true → sliceAsleep (servSlice (f % 1024) s) s = false →
      headPick (servSlice (f % 1024) s) false s ≠ 0 → Gives (.injectDma k n f d c) s (fun t => 
        getL LFRM.bytes (rd HFRM.next 0 s) t = injectBytes d ∧ rd FRM.port (rd HFRM.next 0 s) t = f % 1024 ∧ rd FRM.ended (rd HFRM.next 0 s) t = 1 ∧
        rd HHIF.dma k t = (rd HFRM.next 0 s + 1) % 2 ^ 33 ∧ rd HIF_RING_W4.head k t = rd HIF_RING_W4.head k s)) ∧
    (∀ (c : Nat), ringServes k 1 s = true → bootReady s = true → n % 8 = 0 →
      rd HBUF.rx_used 0 s < (rd BUF_RX_CFG.rx_pool 0 s - rd BUF_RX_CFG.rx_early 0 s) * 1024 → portExists (f % 1024) s = true →
      (injectBytes d).length ≤ portMax (f % 1024) s → bitOf f 28 = true → rd PWR_SLICE.state (servSlice (f % 1024) s) s = 2 →
      servSlice (f % 1024) s < 16 → Gives (.injectDma k n f d c) s (fun t => 
        rd PWR_SLICE.state (servSlice (f % 1024) s) t = 3 ∧ rd HIF_RING_W4.head k t = rd HIF_RING_W4.head k s ∧ rd HFRM.next 0 t = rd HFRM.next 0 s)) ∧
    (∀ (c : Nat), ringServes k 1 s = true → bootReady s = true → n % 8 ≠ 0 →
      Gives (.injectDma k n f d c) s (fun t => Emitted ⟨.hostWrite, k, w64 (ringDesc k s + 16) ++ completionBytes k 0 3 0 (f % 1024) (now s) s⟩ s t ∧ rd HHIF.turn 0 t = (k + 1) % 16 ∧ rd HIF_RING_W4.head k t = (rd HIF_RING_W4.head k s + 1) % 2 ^ 32 ∧ cnt cnt_HIF_completions k t = (cnt cnt_HIF_completions k s + 1) % 2 ^ 64 ∧ rd HFRM.next 0 t = rd HFRM.next 0 s)) ∧
    (∀ (r : Rec), ringServes k 2 s = true → s.recs.find? (fun r => r.ring = k) = some r → lenOk n len = true →
      poolUseCode 5 r.handle 0 r.bytes.length s = 0 →
      Gives (.recordDma k n len) s (fun t => Emitted ⟨.hostWrite, k, w64 n ++ r.bytes.take len⟩ s t ∧ Emitted ⟨.hostWrite, k, w64 (ringDesc k s + 16) ++ completionBytes k (min len r.bytes.length) (if len < r.bytes.length then 1 else 0) 0 0 (now s) s⟩ s t ∧
        rd HHIF.turn 0 t = (k + 1) % 16 ∧ rd HIF_RING_W4.head k t = (rd HIF_RING_W4.head k s + 1) % 2 ^ 32 ∧ cnt cnt_HIF_completions k t = (cnt cnt_HIF_completions k s + 1) % 2 ^ 64 ∧ t.recs = s.recs.erase r ∧ cnt cnt_TEL_export_records 0 t = (cnt cnt_TEL_export_records 0 s + 1) % 2 ^ 64)) ∧
    (∀ (r : Rec), ringServes k 2 s = true → s.recs.find? (fun r => r.ring = k) = some r → lenOk n len = true →
      poolUseCode 5 r.handle 0 r.bytes.length s ≠ 0 → Gives (.recordDma k n len) s (fun t => t.recs = s.recs.erase r ∧
        rd HIF_RING_W4.head k t = rd HIF_RING_W4.head k s ∧ t.out = s.out ∧ rd POOL_ERR_LOG.requester 0 t = 5 ∧
        cnt cnt_POOL_use_reject 0 t = (cnt cnt_POOL_use_reject 0 s + 1) % 2 ^ 64)) ∧
    (∀ (r : EvtRec), ringServes k 3 s = true → evtFind (rd HTEL.rptr k s) s = some r → s.evtRing.head? = some r → lenOk n len = true →
      Gives (.recordDma k n len) s (fun t => Emitted ⟨.hostWrite, k, w64 n ++ (wordsBytes r.words).take len⟩ s t ∧ rd HHIF.turn 0 t = (k + 1) % 16 ∧ rd HIF_RING_W4.head k t = (rd HIF_RING_W4.head k s + 1) % 2 ^ 32 ∧ cnt cnt_HIF_completions k t = (cnt cnt_HIF_completions k s + 1) % 2 ^ 64 ∧
        rd HTEL.rptr k t = (rd HTEL.rptr k s + 1) % 2 ^ 32 ∧ t.evtRing = s.evtRing)) ∧
    (k < 16 → rd HHIF.flush k s ≠ 0 →
      Gives (.dmaFlushDone k) s (fun t => rd HIF_RING_W6.ev_done k t = 1 ∧ rd HHIF.flush k t = rd HHIF.flush k s - 1 ∧ Silent s t ∧
        Frame [(HIF_RING_W6.ev_done, k), (HHIF.flush, k)] [] [] s t)) ∧
    (∀ (w : Bool), k < 16 → ringRuns k s = true →
      Gives (.dmaError k w) s (fun t => rd HIF_RING_W5.state k t = 2 ∧ rd HIF_RING_W6.ev_halt k t = 1 ∧ rd HIF_RING_W4.head k t = rd HIF_RING_W4.head k s ∧
        Raised 0x0C04 [k, rd HIF_RING_W4.head k s] s t ∧ (w = true → Emitted ⟨.hostWrite, k, w64 (ringDesc k s + 16) ++ completionBytes k 0 4 0 0 (now s) s⟩ s t) ∧
        Frame [(HIF_RING_W5.state, k), (HIF_RING_W6.ev_halt, k)] [] [] s t))

/-- ARP_REQUEST, NEIGHBOUR_SOLICITATION, ECHO_REQUEST, MGMT_OTHER_FRAME, MGMT_LINK_CHANGE, SMBUS_SET_ADDRESS, SMBUS_WRITE, SMBUS_READ, SMBUS_SCL_TIMEOUT, I2C_STUCK and I2C_RECOVERY_RETRY (R479, R480, R484, R486, R489). -/
def Obligations.ManagementPorts : Prop :=
  ∀ (m n x y id seq : Nat) (b : Bool) (d : List Nat) (s : State), s.telFifo.length < 900 →
    (m < 2 → mgmtPort m s = true → (poolAlloc (24 + m) 2 s).1 ≠ 0xFFFFFFFF → rd HIF_MGMT_W3.ipv4 m s = n → n ≠ 0 →
      Gives (.arpRequest m n x y) s (fun t => t.out = s.out ++ [⟨.mgmtFrame, m, [0x0806, mgmtMac m s, n, x, y]⟩] ∧ cnt cnt_HIF_mgmt_rx 0 t = (cnt cnt_HIF_mgmt_rx 0 s + 1) % 2 ^ 64 ∧ cnt cnt_HIF_mgmt_tx 0 t = (cnt cnt_HIF_mgmt_tx 0 s + 1) % 2 ^ 64)) ∧
    (m < 2 → mgmtPort m s = true → (poolAlloc (24 + m) 2 s).1 ≠ 0xFFFFFFFF → (rd HIF_MGMT_W3.ipv4 m s ≠ n ∨ n = 0) →
      Gives (.arpRequest m n x y) s (fun t => t.out = s.out ∧ cnt cnt_HIF_mgmt_rx 0 t = (cnt cnt_HIF_mgmt_rx 0 s + 1) % 2 ^ 64 ∧ cnt cnt_HIF_mgmt_other 0 t = (cnt cnt_HIF_mgmt_other 0 s + 1) % 2 ^ 64)) ∧
    (m < 2 → mgmtPort m s = true → (poolAlloc (24 + m) 2 s).1 = 0xFFFFFFFF →
      Gives (.arpRequest m n x y) s (fun t => t.out = s.out ∧ cnt cnt_HIF_mgmt_no_buf 0 t = (cnt cnt_HIF_mgmt_no_buf 0 s + 1) % 2 ^ 64)) ∧
    (mgmtPort m s = false → Gives (.arpRequest m n x y) s (fun t => Silent s t ∧ Frame [] [] [] s t)) ∧
    (m < 2 → mgmtPort m s = true → (poolAlloc (24 + m) 2 s).1 ≠ 0xFFFFFFFF → mgmtV6 m s = n → n ≠ 0 →
      Gives (.neighbourSolicitation m n x y) s (fun t => t.out = s.out ++ [⟨.mgmtFrame, m, [0x86DD, 136, mgmtMac m s, n, x, y]⟩] ∧ cnt cnt_HIF_mgmt_rx 0 t = (cnt cnt_HIF_mgmt_rx 0 s + 1) % 2 ^ 64 ∧ cnt cnt_HIF_mgmt_tx 0 t = (cnt cnt_HIF_mgmt_tx 0 s + 1) % 2 ^ 64)) ∧
    (m < 2 → mgmtPort m s = true → (poolAlloc (24 + m) 2 s).1 ≠ 0xFFFFFFFF → (mgmtV6 m s ≠ n ∨ n = 0) →
      Gives (.neighbourSolicitation m n x y) s (fun t => t.out = s.out ∧ cnt cnt_HIF_mgmt_rx 0 t = (cnt cnt_HIF_mgmt_rx 0 s + 1) % 2 ^ 64 ∧ cnt cnt_HIF_mgmt_other 0 t = (cnt cnt_HIF_mgmt_other 0 s + 1) % 2 ^ 64)) ∧
    (m < 2 → mgmtPort m s = true → (poolAlloc (24 + m) 2 s).1 ≠ 0xFFFFFFFF → (if b = true then mgmtV6 m s else rd HIF_MGMT_W3.ipv4 m s) = n →
      n ≠ 0 →
      Gives (.echoRequest m b n x id seq d) s (fun t => t.out = s.out ++ [⟨.mgmtFrame, m, [if b = true then 129 else 0, n, x, id, seq] ++ d⟩] ∧ cnt cnt_HIF_mgmt_rx 0 t = (cnt cnt_HIF_mgmt_rx 0 s + 1) % 2 ^ 64 ∧ cnt cnt_HIF_mgmt_tx 0 t = (cnt cnt_HIF_mgmt_tx 0 s + 1) % 2 ^ 64)) ∧
    (m < 2 → mgmtPort m s = true → (poolAlloc (24 + m) 2 s).1 ≠ 0xFFFFFFFF →
      ((if b = true then mgmtV6 m s else rd HIF_MGMT_W3.ipv4 m s) ≠ n ∨ n = 0) →
      Gives (.echoRequest m b n x id seq d) s (fun t => t.out = s.out ∧ cnt cnt_HIF_mgmt_rx 0 t = (cnt cnt_HIF_mgmt_rx 0 s + 1) % 2 ^ 64 ∧ cnt cnt_HIF_mgmt_other 0 t = (cnt cnt_HIF_mgmt_other 0 s + 1) % 2 ^ 64)) ∧
    (m < 2 → mgmtPort m s = true → (poolAlloc (24 + m) 2 s).1 ≠ 0xFFFFFFFF →
      Gives (.mgmtOtherFrame m) s (fun t => t.out = s.out ∧ cnt cnt_HIF_mgmt_rx 0 t = (cnt cnt_HIF_mgmt_rx 0 s + 1) % 2 ^ 64 ∧ cnt cnt_HIF_mgmt_other 0 t = (cnt cnt_HIF_mgmt_other 0 s + 1) % 2 ^ 64)) ∧
    (m < 2 → rdBit HIF_STATUS.mgmt_up 0 m s ≠ b →
      Gives (.mgmtLinkChange m b) s (fun t => rdBit HIF_STATUS.mgmt_up 0 m t = b ∧ rdBit HIF_STATUS.mgmt_up 0 (1 - m) t = rdBit HIF_STATUS.mgmt_up 0 (1 - m) s ∧
        (if m = 0 then rd HIF_EVT.ev_mgmt0 0 t = 1 else rd HIF_EVT.ev_mgmt1 0 t = 1) ∧ Raised 0x0C02 [m, b2n b] s t)) ∧
    (m < 2 → rdBit HIF_STATUS.mgmt_up 0 m s = b → Gives (.mgmtLinkChange m b) s (fun t => Silent s t ∧ Frame [] [] [] s t)) ∧
    ((n = 1 ∨ (n = 0 ∧ rd HIF_BUS_CFG.pec_req 0 s = 0)) →
      Gives (.smbusSetAddress 4 n x) s (fun t => rd HHIF.smb 0 t = x % 2 ^ 32 ∧ Silent s t ∧ Frame [(HHIF.smb, 0)] [] [] s t)) ∧
    ((n = 2 ∨ (n = 0 ∧ rd HIF_BUS_CFG.pec_req 0 s = 1)) →
      Gives (.smbusSetAddress 4 n x) s (fun t => Silent s t ∧ cnt cnt_HIF_smb_err 0 t = (cnt cnt_HIF_smb_err 0 s + 1) % 2 ^ 64 ∧
        Frame [] [] [(cnt_HIF_smb_err, 0)] s t)) ∧
    ((n = 2 ∨ (n = 0 ∧ rd HIF_BUS_CFG.pec_req 0 s = 1)) →
      Gives (.smbusWrite 4 n x) s (fun t => Silent s t ∧ cnt cnt_HIF_smb_err 0 t = (cnt cnt_HIF_smb_err 0 s + 1) % 2 ^ 64 ∧
        Frame [] [] [(cnt_HIF_smb_err, 0)] s t)) ∧
    (Accepted ⟨.smbus, 0⟩ rCFG_STAGE_MASK 0 0xFFFFFFFF x s → x < 2 ^ 32 → rd HHIF.smb 0 s = regAddr rCFG_STAGE_MASK 0 →
      (n = 1 ∨ (n = 0 ∧ rd HIF_BUS_CFG.pec_req 0 s = 0)) → Gives (.smbusWrite 4 n x) s (fun t => rd CFG_STAGE_MASK.mask 0 t = x ∧
        rd HHIF.smb 0 t = regAddr rCFG_STAGE_MASK 0 + 4 ∧ Silent s t ∧ Frame ([(CFG_STAGE_MASK.mask, 0), (HHIF.smb, 0), (HAUD.tail, 0)] ++ logFlds)
          ((LAUD.cap, rd HAUD.tail 0 s) :: logLists) [] s t)) ∧
    (rd ACC_PATH_ROLE.smbus_role 0 s = 0 → rd CFG_BOOT_STATUS.state 0 s ≠ 2 → rd HHIF.smb 0 s = regAddr rCFG_STAGE_MASK 0 → n = 1 →
      Gives (.smbusWrite 4 n x) s (fun t => rd CFG_STAGE_MASK.mask 0 t = rd CFG_STAGE_MASK.mask 0 s ∧
        cnt cnt_ACC_denied 0 t = (cnt cnt_ACC_denied 0 s + 1) % 2 ^ 64 ∧ ErrorLogged (regAddr rCFG_STAGE_MASK 0) 3 true s t)) ∧
    (Gives .smbusRead s (fun t => Emitted ⟨.smbus, 0, 4 :: leBytes 4 (busRead ⟨.smbus, 0⟩ (rd HHIF.smb 0 s) s).1⟩ s t ∧ rd HHIF.smb 0 t = (rd HHIF.smb 0 s + 4) % 2 ^ 32)) ∧
    (rd HHIF.smb 0 s = regAddr rCFG_STAGE_MASK 0 →
      Gives .smbusRead s (fun t => t.out = s.out ++ [⟨.smbus, 0, 4 :: leBytes 4 (rd CFG_STAGE_MASK.mask 0 s)⟩] ∧ Frame [(HHIF.smb, 0)] [] [] s t)) ∧
    (Gives .smbusSclTimeout s (fun t => rd HHIF.smb 0 t = 0 ∧ Silent s t ∧ Frame [(HHIF.smb, 0)] [] [] s t)) ∧
    (m < 8 → rdBit HIF_STATUS.i2c_stuck 0 m s = false →
      Gives (.i2cStuck m b) s (fun t => Emitted ⟨.i2c, m, [9]⟩ s t ∧ cnt cnt_HIF_i2c_err 0 t = (cnt cnt_HIF_i2c_err 0 s + 1) % 2 ^ 64 ∧
        rdBit HIF_STATUS.i2c_stuck 0 m t = b ∧ (b = true → rd HIF_EVT.ev_i2c 0 t = 1 ∧ Raised 0x0C03 [m] s t) ∧ (b = false → t.telFifo = s.telFifo))) ∧
    (m < 8 → rdBit HIF_STATUS.i2c_stuck 0 m s = true →
      Gives (.i2cRecoveryRetry m b) s (fun t => Emitted ⟨.i2c, m, [9]⟩ s t ∧ rdBit HIF_STATUS.i2c_stuck 0 m t = b ∧ t.telFifo = s.telFifo))

/-- REG_READ, REG_WRITE, TABLE_CMD, ADMIT, RELEASE, QUERY, SERVICE_PARAM, MODULE_RW, CLOSE in band and MGMT_HELD_REQUEST (R480 to R483, R487). Tags are uninterpreted (log entry 2); the layouts of payloads the spec does not give are the model's (log entry 45). -/
def Obligations.ManagementMessages : Prop :=
  ∀ (m : MgmtMsg) (ans : ModAnswer) (n k : Nat) (s : State), s.telFifo.length < 900 →
    (Heard m s → InSession m s → m.payload.length = 8 → wordAt m.payload 1 = n → 1 ≤ n → n ≤ 256 →
      Gives (.regRead (keyed 0x10 m s)) s (fun t => Answered m 0x10 0 (readWords (msgAccess m) n (wordAt m.payload 0) [] (atRequest m s)).1 s t)) ∧
    (Heard m s → InSession m s → m.payload.length = 8 → wordAt m.payload 1 = 1 → wordAt m.payload 0 = regAddr rCFG_STAGE_MASK 0 →
      Gives (.regRead (keyed 0x10 m s)) s (fun t => Answered m 0x10 0 (leBytes 4 (rd CFG_STAGE_MASK.mask 0 s)) s t)) ∧
    (Heard m s → InSession m s → m.payload.length ≠ 8 →
      Gives (.regRead (keyed 0x10 m s)) s (fun t => Answered m 0x10 1 [] s t ∧ cnt cnt_HIF_mgmt_bad 0 t = (cnt cnt_HIF_mgmt_bad 0 s + 1) % 2 ^ 64)) ∧
    (Heard m s → InSession m s → m.payload.length = 12 * n → 1 ≤ n → n ≤ 64 →
      getL LACC.key (m.sess - 1) (writeWords (msgAccess m) m.payload n 0 (0, 0) (atRequest m s)).2 = getL LACC.key (m.sess - 1) s →
      Gives (.regWrite (keyed 0x11 m s)) s (fun t => 
        Answered m 0x11 0 (leBytes 4 (writeWords (msgAccess m) m.payload n 0 (0, 0) (atRequest m s)).1.1 ++ leBytes 4 ((writeWords (msgAccess m) m.payload n 0 (0, 0) (atRequest m s)).1.2 - 1)) s t)) ∧
    (Heard m s → InSession m s → m.payload = leBytes 4 (regAddr rCFG_STAGE_MASK 0) ++ leBytes 4 0xFFFFFFFF ++ leBytes 4 n → n < 2 ^ 32 →
      Accepted (msgAccess m) rCFG_STAGE_MASK 0 0xFFFFFFFF n s →
      Gives (.regWrite (keyed 0x11 m s)) s (fun t => rd CFG_STAGE_MASK.mask 0 t = n ∧
        Answered m 0x11 0 (leBytes 4 0 ++ leBytes 4 0) s t)) ∧
    (Heard m s → InSession m s → m.payload = leBytes 4 (regAddr rCFG_STAGE_MASK 0) ++ leBytes 4 0xFFFFFFFF ++ leBytes 4 n → n < 2 ^ 32 →
      rd ACC_SESSION.role (m.sess - 1) s = 0 →
      Gives (.regWrite (keyed 0x11 m s)) s (fun t => rd CFG_STAGE_MASK.mask 0 t = rd CFG_STAGE_MASK.mask 0 s ∧
        cnt cnt_ACC_denied 0 t = (cnt cnt_ACC_denied 0 s + 1) % 2 ^ 64 ∧ Answered m 0x11 0 (leBytes 4 1 ++ leBytes 4 0) s t)) ∧
    (Heard m s → InSession m s → m.payload.length = 40 → m.payload.getD 0 0 = k → k < 6 → m.payload.getD 1 0 = n → 1 ≤ n → n ≤ 7 →
      leNat ((m.payload.drop 2).take 2) < 4 →
      roleOk (msgAccess m) rTBL_CMD k 0xFFFFFFFF (n + 16 * wordAt m.payload 1 + 2 ^ 25 * leNat ((m.payload.drop 2).take 2)) s = true →
      auditRoom false s = true → Gives (.tableCmd (keyed 0x12 m s)) s (fun t => 
        Answered m 0x12 0 (leBytes 4 (wordOf rTBL_STATUS k t) ++ (List.range 8).flatMap (fun i => leBytes 4 (rd TBL_DATA.data (k * 8 + i) t))) s t ∧ rd TBL_STATUS.busy k t = 0)) ∧
    (Heard m s → InSession m s → m.payload.length = 40 → m.payload.getD 0 0 = k → k < 6 → m.payload.getD 1 0 = n → 1 ≤ n → n ≤ 7 →
      leNat ((m.payload.drop 2).take 2) < 4 →
      roleOk (msgAccess m) rTBL_CMD k 0xFFFFFFFF (n + 16 * wordAt m.payload 1 + 2 ^ 25 * leNat ((m.payload.drop 2).take 2)) s = false →
      Gives (.tableCmd (keyed 0x12 m s)) s (fun t => 
        Answered m 0x12 2 [] s t ∧ cnt cnt_ACC_denied 0 t = (cnt cnt_ACC_denied 0 s + 1) % 2 ^ 64 ∧ t.tbl = s.tbl)) ∧
    (∀ (j : Job) (u : State), Heard m s → InSession m s → getL LADM.held 0 s = [] → 32 ≤ m.payload.length →
      m.payload.length = 32 + 8 * part ADM_REQ_CLASS.hop_count (wordAt m.payload 1) → wordAt m.payload 0 = n → n < 65536 →
      rd ACC_SESSION.role (m.sess - 1) s ∈ [1, 2] →
      j = ⟨1, rd ACC_SESSION.role (m.sess - 1) s, [1, (msgPath m.path).getD 0, m.port, m.sess, m.ctr, m.rid, 0x13], 0, ⟨0, 0, 0, 0, 0, 0, 0⟩, wordsReq ((List.range (m.payload.length / 4)).map (wordAt m.payload))⟩ →
      u = atJob j (atRequest m s) → reqSleepers j (atRequest m s) = [] → admPre j (jobHops j u) u = none → (admHops j u).1 = none →
      (admHops j u).2.1.hop = j.req.hops.length → admLate j.req (admHops j u).2.1 = false →
      Gives (.admitReq (keyed 0x13 m s)) s (fun t => strState n t = 2 ∧ cnt cnt_ADM_admit 0 t = (cnt cnt_ADM_admit 0 s + 1) % 2 ^ 64 ∧
        Answered m 0x13 0 (leBytes 4 0 ++ leBytes 4 0 ++ leBytes 4 (strStat n t)) s t)) ∧
    (Heard m s → InSession m s → 32 ≤ m.payload.length → m.payload.length = 32 + 8 * part ADM_REQ_CLASS.hop_count (wordAt m.payload 1) →
      wordAt m.payload 0 = n → n < 65536 → rd ACC_SESSION.role (m.sess - 1) s ∉ [1, 2] →
      Gives (.admitReq (keyed 0x13 m s)) s (fun t => strState n t = strState n s ∧ cnt cnt_ACC_denied 0 t = (cnt cnt_ACC_denied 0 s + 1) % 2 ^ 64 ∧ Answered m 0x13 2 [] s t)) ∧
    (Heard m s → InSession m s → m.payload = leBytes 4 n → n < 65536 → rd ACC_SESSION.role (m.sess - 1) s ∈ [1, 2] →
      getL LADM.held 0 s = [] → strState n s = 2 → admHeld (rd ACC_SESSION.role (m.sess - 1) s) (streamPorts n s) s = false →
      Gives (.releaseReq (keyed 0x14 m s)) s (fun t => strState n t = 3 ∧
        Answered m 0x14 0 (leBytes 4 0 ++ leBytes 4 0 ++ leBytes 4 (strStat n t)) s t ∧ ∀ h ∈ hopKeys n s, running HOP.span h t = true)) ∧
    (Heard m s → InSession m s → getL LADM.held 0 s = [] → m.payload = leBytes 4 n → n < 65536 →
      rd ACC_SESSION.role (m.sess - 1) s ∈ [1, 2] → admHeld 0 [] s = false →
      Gives (.queryReq (keyed 0x15 m s)) s (fun t => strState n t = strState n s ∧ Answered m 0x15 0 (leBytes 4 (if strState n s = 0 then 0x10 else 0) ++ leBytes 4 (if strState n s = 0 then 31 else 0) ++ leBytes 4 (strStat n s)) s t)) ∧
    (Heard m s → InSession m s → m.payload = leBytes 4 n → n < 65536 → rd ACC_SESSION.role (m.sess - 1) s ∉ [1, 2] →
      Gives (.queryReq (keyed 0x15 m s)) s (fun t => strState n t = strState n s ∧ cnt cnt_ACC_denied 0 t = (cnt cnt_ACC_denied 0 s + 1) % 2 ^ 64 ∧ Answered m 0x15 2 [] s t)) ∧
    (Heard m s → InSession m s → m.payload = leBytes 4 n → n < 65536 → rd ACC_SESSION.role (m.sess - 1) s ∉ [1, 2] →
      Gives (.releaseReq (keyed 0x14 m s)) s (fun t => strState n t = strState n s ∧ cnt cnt_ACC_denied 0 t = (cnt cnt_ACC_denied 0 s + 1) % 2 ^ 64 ∧ Answered m 0x14 2 [] s t)) ∧
    (Heard m s → InSession m s → m.payload.length = 8 → leNat (m.payload.take 2) = 0xD04 → wordAt m.payload 1 = n →
      rd ACC_SESSION.role (m.sess - 1) s = 2 → auditRoom false s = true →
      Gives (.serviceParam (keyed 0x16 m s)) s (fun t => Answered m 0x16 0 [] s t ∧
        (10 ≤ part ACC_SESSION_CFG.idle_timeout n → rd ACC_SESSION_CFG.idle_timeout 0 t = part ACC_SESSION_CFG.idle_timeout n) ∧
        (1 ≤ part ACC_SESSION_CFG.lock_limit n → rd ACC_SESSION_CFG.lock_limit 0 t = part ACC_SESSION_CFG.lock_limit n))) ∧
    (Heard m s → InSession m s → paramKnown (leNat (m.payload.take 2)) = true → 4 ≤ m.payload.length →
      paramOk (leNat (m.payload.take 2)) (m.payload.drop 4) = true → rd ACC_SESSION.role (m.sess - 1) s ≠ 2 →
      Gives (.serviceParam (keyed 0x16 m s)) s (fun t => Answered m 0x16 2 [] s t ∧ cnt cnt_ACC_denied 0 t = (cnt cnt_ACC_denied 0 s + 1) % 2 ^ 64)) ∧
    (Heard m s → InSession m s → m.payload.length = 6 → m.payload.getD 0 0 = k → k < 128 → m.payload.getD 4 0 = 0 → m.payload.getD 5 0 = n →
      1 ≤ n → n ≤ 128 → ans.ok = true → rdBit HIF_STATUS.i2c_stuck 0 (rd PRT_OCT_MODULE_MAP.i2c_master k s) s = false →
      Gives (.moduleRw (keyed 0x17 m s) ans) s (fun t => 
        Answered m 0x17 0 (ans.bytes.take n) s t ∧ Emitted ⟨.i2c, rd PRT_OCT_MODULE_MAP.i2c_master k s, m.payload⟩ s t)) ∧
    (Heard m s → InSession m s → m.payload.length = 6 → m.payload.getD 0 0 = k → k < 128 → m.payload.getD 4 0 = 0 → m.payload.getD 5 0 = n →
      1 ≤ n → n ≤ 128 → ans.ok = false → Gives (.moduleRw (keyed 0x17 m s) ans) s (fun t => 
        Answered m 0x17 0 [] s t ∧ cnt cnt_HIF_i2c_err 0 t = (cnt cnt_HIF_i2c_err 0 s + 1) % 2 ^ 64)) ∧
    (mgmtServes s = true → engStopped s = true → getL LHIF.mq 0 s = [] → m.path = .mgmt0 → mgmtPort 0 s = true → addressed m 2 s = true →
      (poolAlloc 24 2 s).1 = k → k ≠ 0xFFFFFFFF → (parts (getL LHIF.held 0 s)).length < 1024 →
      Gives (.regRead m) s (fun t => getL LHIF.held 0 t = getL LHIF.held 0 s ++ [(packMsg 0x10 k [] m).length] ++ packMsg 0x10 k [] m ∧ t.out = s.out ∧ cnt cnt_HIF_mgmt_rx 0 t = (cnt cnt_HIF_mgmt_rx 0 s + 1) % 2 ^ 64)) ∧
    (mgmtServes s = true → engStopped s = false → getL LHIF.mq 0 s = [] → m.path = .mgmt0 → headerOk m = true → InSession m s →
      m.payload = [] → poolUseCode 24 k 0 32 s = 0 →
      getL LHIF.held 0 s = (packMsg 6 k [] (keyed 6 m s)).length :: packMsg 6 k [] (keyed 6 m s) →
      Gives (.mgmtHeldRequest ans) s (fun t => getL LHIF.held 0 t = [] ∧
        getL LACC.key (m.sess - 1) t = [] ∧ Answered m 6 0 [] s t)) ∧
    (∀ (d : List Nat), Waits 6 d (keyed 6 m s) s → InSession m s → m.payload = [] →
      Gives (.close (keyed 6 m s)) s (fun t => getL LHIF.held 0 t = [] ∧ getL LACC.key (m.sess - 1) t = [] ∧ cnt cnt_HIF_mgmt_tx 0 t = (cnt cnt_HIF_mgmt_tx 0 s + 1) % 2 ^ 64)) ∧
    (engStopped s = false → getL LHIF.mq 0 s = [] → m.path = .inband → getL LHIF.held 0 s = [] →
      Gives (.regRead m) s (fun t => Silent s t ∧ Frame [] [] [] s t))

/-- EVENT_RECORD_WRITE, COUNTER_EXPORT, HISTOGRAM_EXPORT and DATAGRAM_TIMEOUT (R497 to R501, R504). -/
def Obligations.EventsAndExports : Prop :=
  ∀ (n k : Nat) (c : Capture) (l : List Capture) (s : State), s.telFifo.length < 900 →
    (s.telFifo = c :: l → folsorWrites s = true → (∀ e ∈ List.range 4, rdBit TEL_DEST_W0.types e 3 s = false) →
      Gives (.eventRecordWrite n) s (fun t => t.evtRing = (if 8192 < s.evtRing.length + 1 then (s.evtRing ++ [EvtRec.mk (rd HTEL.next_seq 0 s) (evtWords (b2n c.gap + 2 * b2n (decide (rd HTEL.lost 0 s ≠ 0))) c.code (rd HTEL.next_seq 0 s) (if c.gap = true then c.stamp else c.stamp + min n (lagMost (evtGroup c.code c.payload) s)) c.payload)]).tail else s.evtRing ++ [EvtRec.mk (rd HTEL.next_seq 0 s) (evtWords (b2n c.gap + 2 * b2n (decide (rd HTEL.lost 0 s ≠ 0))) c.code (rd HTEL.next_seq 0 s) (if c.gap = true then c.stamp else c.stamp + min n (lagMost (evtGroup c.code c.payload) s)) c.payload)]) ∧ rd HTEL.next_seq 0 t = (rd HTEL.next_seq 0 s + 1) % 2 ^ 32 ∧
        cnt cnt_TEL_evt_records 0 t = (cnt cnt_TEL_evt_records 0 s + 1) % 2 ^ 64 ∧ t.out = s.out ∧ (rd HTEL.lost 0 s = 0 → t.telFifo = l) ∧ (rd HTEL.lost 0 s ≠ 0 → Raised 0x0B01 [rd HTEL.lost 0 s] s t))) ∧
    (s.telFifo = c :: l → folsorWrites s = true → (∀ e ∈ List.range 4, rdBit TEL_DEST_W0.types e 3 s = decide (e = 0)) →
      rd TEL_DEST_W0.kind 0 s = 1 → rd TEL_DEST_W0.ring 0 s = k → rd HIF_RING_W2.kind k s = 2 → ringRuns k s = true →
      rd HHIF.used k s < ringPosted k s → (poolAlloc 5 2 s).1 ≠ 0xFFFFFFFF →
      Gives (.eventRecordWrite n) s (fun t => t.evtRing = (if 8192 < s.evtRing.length + 1 then (s.evtRing ++ [EvtRec.mk (rd HTEL.next_seq 0 s) (evtWords (b2n c.gap + 2 * b2n (decide (rd HTEL.lost 0 s ≠ 0))) c.code (rd HTEL.next_seq 0 s) (if c.gap = true then c.stamp else c.stamp + min n (lagMost (evtGroup c.code c.payload) s)) c.payload)]).tail else s.evtRing ++ [EvtRec.mk (rd HTEL.next_seq 0 s) (evtWords (b2n c.gap + 2 * b2n (decide (rd HTEL.lost 0 s ≠ 0))) c.code (rd HTEL.next_seq 0 s) (if c.gap = true then c.stamp else c.stamp + min n (lagMost (evtGroup c.code c.payload) s)) c.payload)]) ∧ rd HHIF.used k t = (rd HHIF.used k s + 1) % 2 ^ 16 ∧
        t.recs = s.recs ++ [Rec.mk k (poolAlloc 5 2 s).1 (wordsBytes (evtWords (b2n c.gap + 2 * b2n (decide (rd HTEL.lost 0 s ≠ 0))) c.code (rd HTEL.next_seq 0 s) (if c.gap = true then c.stamp else c.stamp + min n (lagMost (evtGroup c.code c.payload) s)) c.payload))])) ∧
    ((folsorWrites s = false ∨ s.telFifo = []) → Gives (.eventRecordWrite n) s (fun t => Silent s t ∧ Frame [] [] [] s t)) ∧
    (rd TEL_EXPORT_CFG.cnt_period 0 s = 0 → Gives .counterExport s (fun t => Silent s t ∧ Frame [] [] [] s t)) ∧
    (rd TEL_EXPORT_CFG.cnt_period 0 s ≠ 0 → rd TEL_EXPORT_CFG.cnt_sets 0 s = 0 →
      Gives .counterExport s (fun t => Due HTEL.cntt 0 0 t ∧ Silent s t)) ∧
    (rd TEL_EXPORT_CFG.cnt_period 0 s ≠ 0 → rd TEL_EXPORT_CFG.cnt_sets 0 s = 128 →
      (∀ e ∈ List.range 4, rdBit TEL_DEST_W0.types e 1 s = decide (e = 0)) → rd TEL_DEST_W0.kind 0 s = 1 →
      ringRuns (rd TEL_DEST_W0.ring 0 s) s = false → Gives .counterExport s (fun t => Due HTEL.cntt 0 0 t ∧
        cnt cnt_TEL_export_no_desc 0 t = (cnt cnt_TEL_export_no_desc 0 s + 32) % 2 ^ 64 ∧ t.recs = s.recs ∧ t.out = s.out)) ∧
    (rd TEL_EXPORT_CFG.hist_period 0 s ≠ 0 → (touched SCH_WATCH.enable s).filter (fun w => rdB SCH_WATCH.enable w s) = [n] →
      (∀ e ∈ List.range 4, rdBit TEL_DEST_W0.types e 2 s = decide (e = 0)) → rd TEL_DEST_W0.kind 0 s = 1 → rd TEL_DEST_W0.ring 0 s = k →
      rd HIF_RING_W2.kind k s = 2 → ringRuns k s = true → rd HHIF.used k s < ringPosted k s → (poolAlloc 5 2 s).1 ≠ 0xFFFFFFFF →
      Gives .histogramExport s (fun t => Due HTEL.hist 0 0 t ∧ rd HHIF.used k t = (rd HHIF.used k s + 1) % 2 ^ 16 ∧
        t.recs = s.recs ++ [⟨k, (poolAlloc 5 2 s).1, [3, rd SCH_WATCH.scale n s] ++ leBytes 2 n ++ leBytes 4 (rd SCH_WATCH.kind n s + 4 * rd SCH_WATCH.index n s) ++ leBytes 8 (now t) ++
          (List.range 32).flatMap (fun b => leBytes 8 (cnt cnt_SCH_bins (n * 32 + b) s))⟩])) ∧
    (rd TEL_EXPORT_CFG.hist_period 0 s = 0 → Gives .histogramExport s (fun t => Silent s t ∧ Frame [] [] [] s t)) ∧
    (rd HTEL.dg_timer n s ≠ 0 → rd HTEL.dg_count n s ≠ 0 →
      Gives (.datagramTimeout n) s (fun t => rd HTEL.dg_timer n t = 0 ∧ rd HTEL.dg_count n t = 0 ∧ getL LTEL.dg n t = [] ∧ getL LTEL.dg_h n t = [] ∧
        Emitted ⟨.udp, rd TEL_DEST_W0.kind n s - 2, [rd TEL_DEST_W0.ipv6 n s] ++ (List.range 4).map (fun w => rd TEL_DEST_ADDR.addr (n * 4 + w) s) ++
          [rd TEL_DEST_W1.udp_port n s, rd TEL_DEST_W6.dst_mac_lo n s, rd TEL_DEST_W7.dst_mac_hi n s] ++ dgHeader n s ++ getL LTEL.dg n s⟩ s t ∧
        cnt cnt_TEL_export_records 0 t = (cnt cnt_TEL_export_records 0 s + rd HTEL.dg_count n s) % 2 ^ 64)) ∧
    (rd HTEL.dg_timer n s = 0 → Gives (.datagramTimeout n) s (fun t => Silent s t ∧ Frame [] [] [] s t))
end

