-- ==== Sys2Proof/Laws/Exec.lean ====
section
/-!
SUPPORT. What each command answers, one lemma for each: the next state is its own effect, settled.
-/

namespace Sys2Proof.Machine

theorem exec_registerWrite (a : Access) (addr value : Nat) (s : State) : exec (.registerWrite a addr value) s = .next (settle s (addrWrite a addr 0xFFFFFFFF value s)) := rfl

theorem exec_narrowAccess (a : Access) (addr : Nat) (write : Bool) (s : State) : exec (.narrowAccess a addr write) s = .next (settle s (if write then coreWrite a addr 0xFFFFFFFF 0 (accErr a addr 1 true) s else coreRead a addr (fun s => (0, accErr a addr 1 false s)) s)) := rfl

theorem exec_unmappedAccess (a : Access) (addr : Nat) (write : Bool) (s : State) : exec (.unmappedAccess a addr write) s = .next (settle s (if !aligned addr || locate addr s ≠ .none_ then s else if write then coreWrite a addr 0xFFFFFFFF 0 (accErr a addr 2 true) s else coreRead a addr (fun s => (0, accErr a addr 2 false s)) s)) := rfl

theorem exec_rcRead (a : Access) (addr : Nat) (s : State) : exec (.rcRead a addr) s = .next (settle s (coreRead a addr (busRead a addr) s)) := rfl

theorem exec_snapshot (a : Access) (blk sl : Nat) (s : State) : exec (.snapshot a blk sl) s = .next (settle s (regWrite a (snapReg blk) (if blk = 16 then sl else 0) 1 s)) := rfl

theorem exec_snapAll (a : Access) (s : State) : exec (.snapAll a) s = .next (settle s (regWrite a rTEL_SNAP_ALL 0 1 s)) := rfl

theorem exec_broadcastWrite (a : Access) (off value : Nat) (s : State) : exec (.broadcastWrite a off value) s = .next (settle s (addrWrite a (0x20000000 + off % 0x1000000) 0xFFFFFFFF value s)) := rfl

theorem exec_stWriteStage (a : Access) (addr mask value : Nat) (s : State) : exec (.stWriteStage a addr mask value) s = .next (settle s (addrWrite a addr mask value s)) := rfl

theorem exec_pairedFieldWrite (a : Access) (pair inst : Nat) (hi : Bool) (v : Nat) (s : State) : exec (.pairedFieldWrite a pair inst hi v) s = .next (settle s (fldWrite a (pairFld pair inst hi).1 (pairFld pair inst hi).2.1 (pairFld pair inst hi).2.2 v s)) := rfl

theorem exec_admReqAdmit (a : Access) (n : Nat) (s : State) : exec (.admReqAdmit a n) s = .next (settle s (regWrite a rADM_REQ_CMD 0 (admWord 1 n) s)) := rfl

theorem exec_admReqRelease (a : Access) (n : Nat) (s : State) : exec (.admReqRelease a n) s = .next (settle s (regWrite a rADM_REQ_CMD 0 (admWord 2 n) s)) := rfl

theorem exec_admReqQuery (a : Access) (n : Nat) (s : State) : exec (.admReqQuery a n) s = .next (settle s (regWrite a rADM_REQ_CMD 0 (admWord 3 n) s)) := rfl

theorem exec_admReqAbort (a : Access) (n : Nat) (s : State) : exec (.admReqAbort a n) s = .next (settle s (regWrite a rADM_REQ_CMD 0 (admWord 4 n) s)) := rfl

theorem exec_hopReserve (p : Nat) (c : Carried) (r : StreamReq) (s : State) : exec (.hopReserve p c r) s = .next (settle s (fromPeer p (hopReserve p c r) s)) := rfl

theorem exec_hopCommit (p n : Nat) (s : State) : exec (.hopCommit p n) s = .next (settle s (fromPeer p (hopCommit p n) s)) := rfl

theorem exec_hopRelease (p n code hop : Nat) (s : State) : exec (.hopRelease p n code hop) s = .next (settle s (fromPeer p (hopRelease p n code hop) s)) := rfl

theorem exec_hopCommitWaitExpiry (n : Nat) (s : State) : exec (.hopCommitWaitExpiry n) s = .next (settle s (hopWaitExpiry n s)) := rfl

theorem exec_tentativeTimeout (n : Nat) (s : State) : exec (.tentativeTimeout n) s = .next (settle s (tentativeTimeout n s)) := rfl

theorem exec_admEngineResume (s : State) : exec (.admEngineResume) s = .next (settle s (admResume s)) := rfl

theorem exec_drainSpanEnd (n i : Nat) (s : State) : exec (.drainSpanEnd n i) s = .next (settle s (drainEnd n i s)) := rfl

theorem exec_bundleMemberRelease (p : Nat) (s : State) : exec (.bundleMemberRelease p) s = .next (settle s (memberRelease p s)) := rfl

theorem exec_adminUpSet (a : Access) (p : Nat) (s : State) : exec (.adminUpSet a p) s = .next (settle s (fldWrite a rPRT_PORT_CFG PRT_PORT_CFG.admin_up p 1 s)) := rfl

theorem exec_adminUpClear (a : Access) (p : Nat) (s : State) : exec (.adminUpClear a p) s = .next (settle s (fldWrite a rPRT_PORT_CFG PRT_PORT_CFG.admin_up p 0 s)) := rfl

theorem exec_autonegPageRx (p ability : Nat) (has : Bool) (s : State) : exec (.autonegPageRx p ability has) s = .next (settle s (anPage p ability has s)) := rfl

theorem exec_linkTrainingDone (x : Trained) (s : State) : exec (.linkTrainingDone x) s = .next (settle s (trainingDone x.port x.loss s)) := rfl

theorem exec_alignmentDone (p : Nat) (s : State) : exec (.alignmentDone p) s = .next (settle s (alignmentDone p s)) := rfl

theorem exec_upDebounceExpiry (p : Nat) (s : State) : exec (.upDebounceExpiry p) s = .next (settle s (expire HPRT.updeb p (linkUp p) s)) := rfl

theorem exec_bringupStepFail (p : Nat) (s : State) : exec (.bringupStepFail p) s = .next (settle s (stepFail p s)) := rfl

theorem exec_bringupRetry (p : Nat) (s : State) : exec (.bringupRetry p) s = .next (settle s (expire HPRT.retry p (bringStart p) s)) := rfl

theorem exec_adaptationStep (l loss ser : Nat) (s : State) : exec (.adaptationStep l loss ser) s = .next (settle s (adaptStep l loss ser s)) := rfl

theorem exec_adaptRevertCheck (l after : Nat) (s : State) : exec (.adaptRevertCheck l after) s = .next (settle s (adaptCheck l after s)) := rfl

theorem exec_capabilityFrameTx (p : Nat) (s : State) : exec (.capabilityFrameTx p) s = .next (settle s (capDue p s)) := rfl

theorem exec_capabilityFrameRx (p dev pport tagv caps group fixed : Nat) (s : State) : exec (.capabilityFrameRx p dev pport tagv caps group fixed) s = .next (settle s (capRx p dev pport tagv caps group fixed s)) := rfl

theorem exec_peerLost (p : Nat) (s : State) : exec (.peerLost p) s = .next (settle s (peerLost p s)) := rfl

theorem exec_linkLocalFrameRx (p len : Nat) (s : State) : exec (.linkLocalFrameRx p len) s = .next (settle s (macRx p len (inc cnt_PRT_rx_ctrl p) s)) := rfl

theorem exec_badControlFrameRx (p len : Nat) (s : State) : exec (.badControlFrameRx p len) s = .next (settle s (macRx p len (inc cnt_PRT_rx_ctrl_bad p) s)) := rfl

theorem exec_macControlFrameRx (p len : Nat) (s : State) : exec (.macControlFrameRx p len) s = .next (settle s (macRx p len (inc cnt_PRT_rx_mac_ctrl p) s)) := rfl

theorem exec_quietReq (p : Nat) (s : State) : exec (.quietReq p) s = .next (settle s (quietReq p s)) := rfl

theorem exec_quietAck (p : Nat) (s : State) : exec (.quietAck p) s = .next (settle s (quietAck p s)) := rfl

theorem exec_quietNak (p reason : Nat) (s : State) : exec (.quietNak p reason) s = .next (settle s (quietNak p reason s)) := rfl

theorem exec_quietHold (p us : Nat) (s : State) : exec (.quietHold p us) s = .next (settle s (quietHold p us s)) := rfl

theorem exec_holdEnd (p : Nat) (s : State) : exec (.holdEnd p) s = .next (settle s (holdEndRx p s)) := rfl

theorem exec_unknownOrderedSet (p type : Nat) (s : State) : exec (.unknownOrderedSet p type) s = .next (settle s (if portHears p s && undefinedSet type then osTake p type 0 (inc cnt_PRT_rx_os_unknown p) s else s)) := rfl

theorem exec_quietIdleExpiry (p : Nat) (s : State) : exec (.quietIdleExpiry p) s = .next (settle s (quietIdle p s)) := rfl

theorem exec_quietAnswerTimeout (p : Nat) (s : State) : exec (.quietAnswerTimeout p) s = .next (settle s (expire HPRT.reqd p (quietRefused p) s)) := rfl

theorem exec_quietEntry (p : Nat) (s : State) : exec (.quietEntry p) s = .next (settle s (quietEntry p s)) := rfl

theorem exec_signalDetectEnergy (p : Nat) (s : State) : exec (.signalDetectEnergy p) s = .next (settle s (signalEnergy p s)) := rfl

theorem exec_wakeAligned (p : Nat) (s : State) : exec (.wakeAligned p) s = .next (settle s (wakeAligned p s)) := rfl

theorem exec_wakeTimeout (p : Nat) (s : State) : exec (.wakeTimeout p) s = .next (settle s (expire HPRT.wake p (linkDown p 1) s)) := rfl

theorem exec_quietHoldExpiry (p : Nat) (s : State) : exec (.quietHoldExpiry p) s = .next (settle s (expire HPRT.hold p (holdOver p) s)) := rfl

theorem exec_linkFault (p k : Nat) (present : Bool) (s : State) : exec (.linkFault p k present) s = .next (settle s (linkFault p k present s)) := rfl

theorem exec_downDebounceExpiry (p : Nat) (s : State) : exec (.downDebounceExpiry p) s = .next (settle s (expire HPRT.debounce p (fun s => linkDown p (rd HPRT.first p s) s) s)) := rfl

theorem exec_flapHoldRelease (a : Access) (p : Nat) (s : State) : exec (.flapHoldRelease a p) s = .next (settle s (fldWrite a rPRT_PORT_STATUS PRT_PORT_STATUS.flap_hold p 1 s)) := rfl

theorem exec_degradeWindow (p errs uncorr : Nat) (s : State) : exec (.degradeWindow p errs uncorr) s = .next (settle s (degradeWindow p errs uncorr s)) := rfl

theorem exec_modulePoll (o : Nat) (d : ModData) (s : State) : exec (.modulePoll o d) s = .next (settle s (modulePoll o d s)) := rfl

theorem exec_moduleMonitorPoll (o state : Nat) (s : State) : exec (.moduleMonitorPoll o state) s = .next (settle s (moduleMonitor o state s)) := rfl

theorem exec_moduleReset (a : Access) (o : Nat) (s : State) : exec (.moduleReset a o) s = .next (settle s (fldWrite a rPRT_OCT_MODULE_CTRL PRT_OCT_MODULE_CTRL.mod_reset o 1 s)) := rfl

theorem exec_moduleResetPulseEnd (o : Nat) (d : ModData) (s : State) : exec (.moduleResetPulseEnd o d) s = .next (settle s (modulePulseEnd o d s)) := rfl

theorem exec_frameFirstByte (port : Nat) (bytes : List Nat) (cell : Nat) (s : State) : exec (.frameFirstByte port bytes cell) s = .next (settle s (macFirst port bytes cell s)) := rfl

theorem exec_frameLastByte (port : Nat) (rest : List Nat) (cell : Nat) (s : State) : exec (.frameLastByte port rest cell) s = .next (settle s (stepped (macLast port rest cell) s)) := rfl

theorem exec_erroredClose (port : Nat) (fault : Bool) (s : State) : exec (.erroredClose port fault) s = .next (settle s (rxClose port fault s)) := rfl

theorem exec_headWordWrite (f : Nat) (corrected : Bool) (s : State) : exec (.headWordWrite f corrected) s = .next (settle s (headWrite f corrected s)) := rfl

theorem exec_dispatch (sl : Nat) (s : State) : exec (.dispatch sl) s = .next (settle s (dispatch sl s)) := rfl

theorem exec_engineResult (sl e epoch sp q corr : Nat) (us : List Nat) (s : State) : exec (.engineResult sl e epoch sp q corr us) s = .next (settle s (lateSlice sl (engineResult sl e epoch sp q corr us) s)) := rfl

theorem exec_resultRelease (sl sp : Nat) (s : State) : exec (.resultRelease sl sp) s = .next (settle s (lateSlice sl (resultRelease sl sp) s)) := rfl

theorem exec_reseqSkip (sl sp : Nat) (s : State) : exec (.reseqSkip sl sp) s = .next (settle s (reseqSkip sl sp s)) := rfl

theorem exec_headBufferEccError (f w : Nat) (s : State) : exec (.headBufferEccError f w) s = .next (settle s (headEcc f w s)) := rfl

theorem exec_heartbeat (sl : Nat) (bad : List Nat) (s : State) : exec (.heartbeat sl bad) s = .next (settle s (heartbeat sl bad s)) := rfl

theorem exec_engineWatchdog (sl e : Nat) (s : State) : exec (.engineWatchdog sl e) s = .next (settle s (engWatchdog sl e s)) := rfl

theorem exec_engineMemoryError (sl e : Nat) (parity : Bool) (s : State) : exec (.engineMemoryError sl e parity) s = .next (settle s (engMemory sl e parity s)) := rfl

theorem exec_engineUnfence (a : Access) (sl mask : Nat) (s : State) : exec (.engineUnfence a sl mask) s = .next (settle s (regWrite a rSLC_ENG_CTRL sl (fieldWord SLC_ENG_CTRL.unfence mask) s)) := rfl

theorem exec_engineReturnTestDone (sl e : Nat) (ok : Bool) (s : State) : exec (.engineReturnTestDone sl e ok) s = .next (settle s (engTested sl e ok s)) := rfl

theorem exec_schedulerSelect (p : Nat) (s : State) : exec (.schedulerSelect p) s = .next (settle s (schedSelect p s)) := rfl

theorem exec_frameTxStart (p : Nat) (errs : List MemErr) (s : State) : exec (.frameTxStart p errs) s = .next (settle s (txStart p errs s)) := rfl

theorem exec_frameTxEnd (p : Nat) (errs : List MemErr) (s : State) : exec (.frameTxEnd p errs) s = .next (settle s (txEnd p errs s)) := rfl

theorem exec_wheelPip (s : State) : exec (.wheelPip) s = .next (settle s (wheelPip s)) := rfl

theorem exec_gateEntryStart (p : Nat) (s : State) : exec (.gateEntryStart p) s = .next (settle s (gateEntry p s)) := rfl

theorem exec_gateWindowClose (p q : Nat) (s : State) : exec (.gateWindowClose p q) s = .next (settle s (windowClose p q s)) := rfl

theorem exec_gclSwitch (p : Nat) (s : State) : exec (.gclSwitch p) s = .next (settle s (gclSwitch p s)) := rfl

theorem exec_policerSweep (s : State) : exec (.policerSweep) s = .next (settle s (polSweep s)) := rfl

theorem exec_policerEnable (a : Access) (k : Nat) (s : State) : exec (.policerEnable a k) s = .next (settle s (fldWrite a rSCH_POL_W4 SCH_POL_W4.enable k 1 s)) := rfl

theorem exec_queueSample (s : State) : exec (.queueSample) s = .next (settle s (queueSample s)) := rfl

theorem exec_qClear (a : Access) (s : State) : exec (.qClear a) s = .next (settle s (regWrite a rSCH_Q_CLEAR 0 1 s)) := rfl

theorem exec_watchEntryWrite (a : Access) (k value : Nat) (s : State) : exec (.watchEntryWrite a k value) s = .next (settle s (regWrite a rSCH_WATCH k value s)) := rfl

theorem exec_multicastReplication (x : Replicated) (s : State) : exec (.multicastReplication x) s = .next (settle s (mcServe x.copies x.errs s)) := rfl

theorem exec_cellQuarantine (c : Nat) (pass : Bool) (s : State) : exec (.cellQuarantine c pass) s = .next (settle s (cellTest c pass s)) := rfl

theorem exec_harvestSweep (s : State) : exec (.harvestSweep) s = .next (settle s (harvestStart s)) := rfl

theorem exec_harvestSweepEnd (s : State) : exec (.harvestSweepEnd) s = .next (settle s (harvestEnd s)) := rfl

theorem exec_staleCheck (p : Nat) (s : State) : exec (.staleCheck p) s = .next (settle s (staleCheck p s)) := rfl

theorem exec_linkHoldExpiry (p : Nat) (s : State) : exec (.linkHoldExpiry p) s = .next (settle s (linkHoldExpiry p s)) := rfl

theorem exec_tableRead (a : Access) (t index : Nat) (us : List Nat) (s : State) : exec (.tableRead a t index us) s = .next (settle s (regWrite a rTBL_CMD t (tblWord 1 index true false) (upsets us s))) := rfl

theorem exec_tableWrite (a : Access) (t index : Nat) (s : State) : exec (.tableWrite a t index) s = .next (settle s (regWrite a rTBL_CMD t (tblWord 2 index true false) s)) := rfl

theorem exec_tableInsert (a : Access) (t index : Nat) (s : State) : exec (.tableInsert a t index) s = .next (settle s (regWrite a rTBL_CMD t (tblWord 3 index false false) s)) := rfl

theorem exec_tableDelete (a : Access) (t index : Nat) (byIndex : Bool) (s : State) : exec (.tableDelete a t index byIndex) s = .next (settle s (regWrite a rTBL_CMD t (tblWord 4 index byIndex false) s)) := rfl

theorem exec_tableUpdateData (a : Access) (t index : Nat) (byIndex : Bool) (s : State) : exec (.tableUpdateData a t index byIndex) s = .next (settle s (regWrite a rTBL_CMD t (tblWord 5 index byIndex false) s)) := rfl

theorem exec_tableSearch (a : Access) (t : Nat) (longest : Bool) (us : List Nat) (s : State) : exec (.tableSearch a t longest us) s = .next (settle s (regWrite a rTBL_CMD t (tblWord 6 0 false longest) (upsets us s))) := rfl

theorem exec_tableMove (a : Access) (t index : Nat) (s : State) : exec (.tableMove a t index) s = .next (settle s (regWrite a rTBL_CMD t (tblWord 7 index true false) s)) := rfl

theorem exec_retireFree (t i : Nat) (s : State) : exec (.retireFree t i) s = .next (settle s (retireFree t i s)) := rfl

theorem exec_ageTick (s : State) : exec (.ageTick) s = .next (settle s (ageTick s)) := rfl

theorem exec_tickMsWrite (a : Access) (ms : Nat) (s : State) : exec (.tickMsWrite a ms) s = .next (settle s (fldWrite a rTBL_AGE_CFG TBL_AGE_CFG.tick_ms 0 ms s)) := rfl

theorem exec_ageingScan (us : List Nat) (s : State) : exec (.ageingScan us) s = .next (settle s (scanBucket (upsets us s))) := rfl

theorem exec_learnRequest (s : State) : exec (.learnRequest) s = .next (settle s (learnNext s)) := rfl

theorem exec_tableScrub (us : List Nat) (s : State) : exec (.tableScrub us) s = .next (settle s (tblScrub (upsets us s))) := rfl

theorem exec_ruleWrite (a : Access) (sl index : Nat) (s : State) : exec (.ruleWrite a sl index) s = .next (settle s (regWrite a rSLC_RULE_CMD sl (ruleWord 1 index) s)) := rfl

theorem exec_ruleRead (a : Access) (sl index : Nat) (s : State) : exec (.ruleRead a sl index) s = .next (settle s (regWrite a rSLC_RULE_CMD sl (ruleWord 2 index) s)) := rfl

theorem exec_ruleInvalidate (a : Access) (sl index : Nat) (s : State) : exec (.ruleInvalidate a sl index) s = .next (settle s (regWrite a rSLC_RULE_CMD sl (ruleWord 3 index) s)) := rfl

theorem exec_ruleMove (a : Access) (sl index : Nat) (s : State) : exec (.ruleMove a sl index) s = .next (settle s (regWrite a rSLC_RULE_CMD sl (ruleWord 4 index) s)) := rfl

theorem exec_ruleClearHits (a : Access) (sl index : Nat) (s : State) : exec (.ruleClearHits a sl index) s = .next (settle s (regWrite a rSLC_RULE_CMD sl (ruleWord 5 index) s)) := rfl

theorem exec_ruleScrub (sl : Nat) (bad : List Nat) (s : State) : exec (.ruleScrub sl bad) s = .next (settle s (ruleScrub sl (forEach bad (fun i => wr HRULE.bad (sl * 65536 + i % 65536) 1) s))) := rfl

theorem exec_tableCommandDone (t : Nat) (s : State) : exec (.tableCommandDone t) s = .next (settle s (tblDone t s)) := rfl

theorem exec_ruleCommandDone (sl : Nat) (s : State) : exec (.ruleCommandDone sl) s = .next (settle s (ruleDone sl s)) := rfl

theorem exec_pgReportTimer (s : State) : exec (.pgReportTimer) s = .next (settle s (if rdB HRED.gap 0 s || rdB HRED.restart 0 s then s else pgTimer s)) := rfl

theorem exec_report (p group origin seq watts draw slack state stretch cap : Nat) (bad : Bool) (s : State) : exec (.report p group origin seq watts draw slack state stretch cap bad) s = .next (settle s (pgReport p group origin seq watts draw slack state stretch cap bad s)) := rfl

theorem exec_transfer (p group origin seq target tid : Nat) (x : PgAmount) (bad : Bool) (s : State) : exec (.transfer p group origin seq target tid x bad) s = .next (settle s (pgTransfer p group origin seq target tid x.watts x.state bad s)) := rfl

theorem exec_ack (p group origin seq target tid : Nat) (x : PgAmount) (bad : Bool) (s : State) : exec (.ack p group origin seq target tid x bad) s = .next (settle s (pgAck p group origin seq target tid x.watts x.state bad s)) := rfl

theorem exec_pgMemberTimeout (x : Nat) (s : State) : exec (.pgMemberTimeout x) s = .next (settle s (pgGone x s)) := rfl

theorem exec_transferResend (tid : Nat) (s : State) : exec (.transferResend tid) s = .next (settle s (pgResend tid s)) := rfl

theorem exec_pgTransferLost (tid : Nat) (s : State) : exec (.pgTransferLost tid) s = .next (settle s (pgLost tid s)) := rfl

theorem exec_pgJoinListenEnd (s : State) : exec (.pgJoinListenEnd) s = .next (settle s (pgListenEnd s)) := rfl

theorem exec_claim (a : Access) (s : State) : exec (.claim a) s = .next (settle s (fldWrite a rPWR_PG_CTRL PWR_PG_CTRL.claim 0 1 s)) := rfl

theorem exec_rsqTimeout (c : Nat) (s : State) : exec (.rsqTimeout c) s = .next (settle s (ctxTick c s)) := rfl

theorem exec_roundBoundary (r : Nat) (s : State) : exec (.roundBoundary r) s = .next (settle s (if !rdB FAB_ROUND_W0.enable r s then s else csRound r (rndBoundary r s))) := rfl

theorem exec_roundMark (p payload : Nat) (s : State) : exec (.roundMark p payload) s = .next (settle s (osTake p 0x20 payload (roundMark p payload) s)) := rfl

theorem exec_timePllLock (s : State) : exec (.timePllLock) s = .next (settle s (timePllLock s)) := rfl

theorem exec_timeRefclkLoss (s : State) : exec (.timeRefclkLoss) s = .next (settle s (refclkLoss s)) := rfl

theorem exec_timeRefclkRestore (s : State) : exec (.timeRefclkRestore) s = .next (settle s (refclkRestore s)) := rfl

theorem exec_tbLatch (a : Access) (b : Nat) (s : State) : exec (.tbLatch a b) s = .next (settle s (regWrite a rTIM_TB_W11 b 1 s)) := rfl

theorem exec_latchAll (a : Access) (s : State) : exec (.latchAll a) s = .next (settle s (fldWrite a rTIM_CTRL TIM_CTRL.latch_all 0 1 s)) := rfl

theorem exec_tbStep (a : Access) (b : Nat) (s : State) : exec (.tbStep a b) s = .next (settle s (csNote (regWrite a rTIM_TB_W11 b 2 s))) := rfl

theorem exec_tbSet (a : Access) (b : Nat) (s : State) : exec (.tbSet a b) s = .next (settle s (csNote (regWrite a rTIM_TB_W11 b 3 s))) := rfl

theorem exec_pdelayInterval (p : Nat) (s : State) : exec (.pdelayInterval p) s = .next (settle s (ptpDo (pdelayInterval p) s)) := rfl

theorem exec_pdelayReq (p seq src : Nat) (bad : Bool) (s : State) : exec (.pdelayReq p seq src bad) s = .next (settle s (pdelayReq p seq src bad s)) := rfl

theorem exec_pdelayResp (p seq req t2 : Nat) (corr : Int) (form : RespForm) (s : State) : exec (.pdelayResp p seq req t2 corr form) s = .next (settle s (pdelayResp p seq req t2 corr (form = .twoStep) (form = .bad) s)) := rfl

theorem exec_pdelayRespFollowUp (p seq req t3 : Nat) (corr : Int) (bad : Bool) (s : State) : exec (.pdelayRespFollowUp p seq req t3 corr bad) s = .next (settle s (pdelayFollow p seq req t3 corr bad s)) := rfl

theorem exec_pdelayTimeout (p : Nat) (s : State) : exec (.pdelayTimeout p) s = .next (settle s (pdelayTimeout p s)) := rfl

theorem exec_extDelay (p payload : Nat) (s : State) : exec (.extDelay p payload) s = .next (settle s (extDelay p payload s)) := rfl

theorem exec_extReq (p : Nat) (s : State) : exec (.extReq p) s = .next (settle s (if portHears p s then osTake p 0x11 0 (extSend p) s else s)) := rfl

theorem exec_extDelayPeriodic (p : Nat) (s : State) : exec (.extDelayPeriodic p) s = .next (settle s (extPeriodic p s)) := rfl

theorem exec_extReqRetry (p : Nat) (s : State) : exec (.extReqRetry p) s = .next (settle s (extReqRetry p s)) := rfl

theorem exec_sync (p dom seq origin : Nat) (corr : Int) (two bad : Bool) (s : State) : exec (.sync p dom seq origin corr two bad) s = .next (settle s (stepped (syncRx p dom seq origin corr two bad) s)) := rfl

theorem exec_followUp (p dom seq origin : Nat) (corr : Int) (bad : Bool) (s : State) : exec (.followUp p dom seq origin corr bad) s = .next (settle s (stepped (followUpRx p dom seq origin corr bad) s)) := rfl

theorem exec_delayReq (p dom seq src : Nat) (corr : Int) (bad : Bool) (s : State) : exec (.delayReq p dom seq src corr bad) s = .next (settle s (delayReqRx p dom seq src corr bad s)) := rfl

theorem exec_delayResp (p dom seq req t4 : Nat) (corr : Int) (bad : Bool) (s : State) : exec (.delayResp p dom seq req t4 corr bad) s = .next (settle s (delayRespRx p dom seq req t4 corr bad s)) := rfl

theorem exec_announce (p dom src : Nat) (set utc path : List Nat) (bad : Bool) (s : State) : exec (.announce p dom src set utc path bad) s = .next (settle s (announceRx p dom src set utc path bad s)) := rfl

theorem exec_signaling (p dom ipd isync iann : Nat) (bad : Bool) (s : State) : exec (.signaling p dom ipd isync iann bad) s = .next (settle s (signalingRx p dom ipd isync iann bad s)) := rfl

theorem exec_ptpManagementRx (p dom : Nat) (s : State) : exec (.ptpManagementRx p dom) s = .next (settle s (ptpMgmtRx p dom s)) := rfl

theorem exec_syncInterval (p b : Nat) (s : State) : exec (.syncInterval p b) s = .next (settle s (ptpDo (syncInterval p b) s)) := rfl

theorem exec_announceInterval (p b : Nat) (s : State) : exec (.announceInterval p b) s = .next (settle s (ptpDo (announceInterval p b) s)) := rfl

theorem exec_syncTimeout (b : Nat) (s : State) : exec (.syncTimeout b) s = .next (settle s (if rdB HRED.gap 0 s || rdB HRED.restart 0 s then s else syncTimeout b s)) := rfl

theorem exec_announceTimeout (p b : Nat) (s : State) : exec (.announceTimeout p b) s = .next (settle s (ptpDo (announceTimeout p b) s)) := rfl

theorem exec_hsRevert (p : Nat) (s : State) : exec (.hsRevert p) s = .next (settle s (hsRevert p s)) := rfl

theorem exec_toutPulse (n : Nat) (s : State) : exec (.toutPulse n) s = .next (settle s (toutPulse n s)) := rfl

theorem exec_toutAdopt (a : Access) (n value : Nat) (s : State) : exec (.toutAdopt a n value) s = .next (settle s (regWrite a rTIM_TOUT_W0 n value s)) := rfl

theorem exec_tinEdge (n : Nat) (rising : Bool) (s : State) : exec (.tinEdge n rising) s = .next (settle s (stepped (tinEdge n rising) s)) := rfl

theorem exec_tinPop (a : Access) (n : Nat) (s : State) : exec (.tinPop a n) s = .next (settle s (regWrite a rTIM_TIN_W3 n 1 s)) := rfl

theorem exec_delayReqInterval (p b : Nat) (s : State) : exec (.delayReqInterval p b) s = .next (settle s (ptpDo (delayReqInterval p b) s)) := rfl

theorem exec_governorTick (s : State) : exec (.governorTick) s = .next (settle s (govTick s)) := rfl

theorem exec_demandUpdate (s : State) : exec (.demandUpdate) s = .next (settle s (demandUpdate s)) := rfl

theorem exec_voltageSettled (s : State) : exec (.voltageSettled) s = .next (settle s (voltSettled s)) := rfl

theorem exec_upStepVoltageTimeout (s : State) : exec (.upStepVoltageTimeout) s = .next (settle s (upTimeout s)) := rfl

theorem exec_clockSlewDone (s : State) : exec (.clockSlewDone) s = .next (settle s (slewDone s)) := rfl

theorem exec_droopCrossing (k below : Nat) (s : State) : exec (.droopCrossing k below) s = .next (settle s (droopCross k below s)) := rfl

theorem exec_droopClear (k below : Nat) (s : State) : exec (.droopClear k below) s = .next (settle s (droopBack k below s)) := rfl

theorem exec_stretchDutyEval (s : State) : exec (.stretchDutyEval) s = .next (settle s (dutyEval s)) := rfl

theorem exec_droopStateUpdate (s : State) : exec (.droopStateUpdate) s = .next (settle s (droopUpdate s)) := rfl

theorem exec_vrAlertAssert (s : State) : exec (.vrAlertAssert) s = .next (settle s (vrAssert s)) := rfl

theorem exec_vrAlertDeassert (s : State) : exec (.vrAlertDeassert) s = .next (settle s (vrDeassert s)) := rfl

theorem exec_alertHoldExpiry (s : State) : exec (.alertHoldExpiry) s = .next (settle s (alertEnd s)) := rfl

theorem exec_thermalSensorRead (rs : List Int) (s : State) : exec (.thermalSensorRead rs) s = .next (settle s (thermRead rs s)) := rfl

theorem exec_thermStateUpdate (s : State) : exec (.thermStateUpdate) s = .next (settle s (thermUpdate s)) := rfl

theorem exec_thermtrip (k : Nat) (t : Int) (s : State) : exec (.thermtrip k t) s = .next (settle s (thermComparator k t s)) := rfl

theorem exec_voltageSensorRead (rs : List Nat) (s : State) : exec (.voltageSensorRead rs) s = .next (settle s (voltRead rs s)) := rfl

theorem exec_regulatorPoll (xs : List VrRead) (s : State) : exec (.regulatorPoll xs) s = .next (settle s (vrPolls xs s)) := rfl

theorem exec_trimPeriod (margin : Nat) (s : State) : exec (.trimPeriod margin) s = .next (settle s (trimPeriod margin s)) := rfl

theorem exec_trimValidation (s : State) : exec (.trimValidation) s = .next (settle s (trimValidate s)) := rfl

theorem exec_sliceAutumnEntry (sl : Nat) (s : State) : exec (.sliceAutumnEntry sl) s = .next (settle s (autumnEntry sl s)) := rfl

theorem exec_sliceAutumnWake (sl : Nat) (s : State) : exec (.sliceAutumnWake sl) s = .next (settle s (autumnWake sl s)) := rfl

theorem exec_sliceWinterEntry (sl : Nat) (s : State) : exec (.sliceWinterEntry sl) s = .next (settle s (winterEntry sl s)) := rfl

theorem exec_thawStart (sl : Nat) (s : State) : exec (.thawStart sl) s = .next (settle s (thawStart sl s)) := rfl

theorem exec_thawComplete (sl : Nat) (bad : List Nat) (s : State) : exec (.thawComplete sl bad) s = .next (settle s (thawComplete sl bad s)) := rfl

theorem exec_thawTimeout (sl : Nat) (s : State) : exec (.thawTimeout sl) s = .next (settle s (thawTimeout sl s)) := rfl

theorem exec_complexSleep (winter : Bool) (edgeOf : Option Nat) (s : State) : exec (.complexSleep winter edgeOf) s = .next (settle s (cxSleep winter edgeOf s)) := rfl

theorem exec_complexWake (s : State) : exec (.complexWake) s = .next (settle s (cxWake s)) := rfl

theorem exec_pllUnlock (dom : Nat) (back : Bool) (s : State) : exec (.pllUnlock dom back) s = .next (settle s (pllLock dom back s)) := rfl

theorem exec_lockstepMismatch (core kind addr : Nat) (s : State) : exec (.lockstepMismatch core kind addr) s = .next (settle s (mismatch core kind addr s)) := rfl

theorem exec_checkpoint (s : State) : exec (.checkpoint) s = .next (settle s (checkpoint s)) := rfl

theorem exec_diagnosisDone (bistA bistB : Bool) (s : State) : exec (.diagnosisDone bistA bistB) s = .next (settle s (heldLeave (diagnosis bistA bistB s))) := rfl

theorem exec_resyncDone (s : State) : exec (.resyncDone) s = .next (settle s (heldLeave (resyncDone s))) := rfl

theorem exec_rejoin (a : Access) (s : State) : exec (.rejoin a) s = .next (settle s (fldWrite a rRED_CX_CMD RED_CX_CMD.rejoin 0 1 s)) := rfl

theorem exec_rejoinCopyDone (s : State) : exec (.rejoinCopyDone) s = .next (settle s (rejoinDone s)) := rfl

theorem exec_serviceWatchdog (s : State) : exec (.serviceWatchdog) s = .next (settle s (svcWatchdog reclaimCores sessRestart s)) := rfl

theorem exec_warmRestartDone (s : State) : exec (.warmRestartDone) s = .next (settle s (warmDone s)) := rfl

theorem exec_retry (a : Access) (s : State) : exec (.retry a) s = .next (settle s (fldWrite a rRED_CX_CMD RED_CX_CMD.retry 0 1 s)) := rfl

theorem exec_sliceControlMemoryError (sl : Nat) (s : State) : exec (.sliceControlMemoryError sl) s = .next (settle s (sliceMemory sl s)) := rfl

theorem exec_sliceWatchdog (sl : Nat) (s : State) : exec (.sliceWatchdog sl) s = .next (settle s (sliceWatchdog sl s)) := rfl

theorem exec_takeoverForward (ns : Nat) (s : State) : exec (.takeoverForward ns) s = .next (settle s (takeoverForward ns s)) := rfl

theorem exec_takeoverFailure (step : Nat) (s : State) : exec (.takeoverFailure step) s = .next (settle s (takeoverFailure step s)) := rfl

theorem exec_forceFail (a : Access) (sl : Nat) (force : Bool) (s : State) : exec (.forceFail a sl force) s = .next (settle s (regWrite a rRED_SLICE_CMD 0 (sliceWord sl 1 force) s)) := rfl

theorem exec_handBack (a : Access) (sl : Nat) (force : Bool) (s : State) : exec (.handBack a sl force) s = .next (settle s (regWrite a rRED_SLICE_CMD 0 (sliceWord sl 2 force) s)) := rfl

theorem exec_handBackDone (ok : Bool) (ns : Nat) (s : State) : exec (.handBackDone ok ns) s = .next (settle s (handBackDone ok ns s)) := rfl

theorem exec_updateStart (a : Access) (s : State) : exec (.updateStart a) s = .next (settle s (fldWrite a rRED_UPDATE_CTRL RED_UPDATE_CTRL.start 0 1 s)) := rfl

theorem exec_updateStaged (img again : List Nat) (s : State) : exec (.updateStaged img again) s = .next (settle s (updStaged img again s)) := rfl

theorem exec_updateSwap (a : Access) (s : State) : exec (.updateSwap a) s = .next (settle s (csNote (fldWrite a rRED_UPDATE_CTRL RED_UPDATE_CTRL.swap 0 1 s))) := rfl

theorem exec_swapDone (s : State) : exec (.swapDone) s = .next (settle s (heldLeave (swapDone s))) := rfl

theorem exec_updateCopyDone (s : State) : exec (.updateCopyDone) s = .next (settle s (updCopyDone s)) := rfl

theorem exec_updateAbort (a : Access) (s : State) : exec (.updateAbort a) s = .next (settle s (fldWrite a rRED_UPDATE_CTRL RED_UPDATE_CTRL.abort 0 1 s)) := rfl

theorem exec_complexSramEccError (c : Nat) (corrected : Bool) (s : State) : exec (.complexSramEccError c corrected) s = .next (settle s (heldLeave (cxSramError c corrected s))) := rfl

theorem exec_sourceEdge (n : Nat) (s : State) : exec (.sourceEdge n) s = .next (settle s (if edgeStands n s then edge n (pushL LINT.seen 0 n s) else s)) := rfl

theorem exec_holdoffExpiry (g : Nat) (s : State) : exec (.holdoffExpiry g) s = .next (settle s (expire HINT.timer g (fun s => deliver g (wr INTC_GRP.running g 0 s)) s)) := rfl

theorem exec_interruptAck (c : Nat) (s : State) : exec (.interruptAck c) s = .next (settle s (coreAck c s)) := rfl

theorem exec_handlerEnd (c n : Nat) (s : State) : exec (.handlerEnd c n) s = .next (settle s (coreEnd c n s)) := rfl

theorem exec_pmrWrite (c v : Nat) (s : State) : exec (.pmrWrite c v) s = .next (settle s (corePmr c v s)) := rfl

theorem exec_swSet (a : Access) (n : Nat) (s : State) : exec (.swSet a n) s = .next (settle s (regWrite a rINTC_SW_SET 0 (fieldWord INTC_SW_SET.index n + fieldWord INTC_SW_SET.set 1) s)) := rfl

theorem exec_hpendClear (a : Access) (g mask : Nat) (s : State) : exec (.hpendClear a g mask) s = .next (settle s (regWrite a rINTC_HPEND g mask s)) := rfl

theorem exec_msixLinkReady (speed width : Nat) (s : State) : exec (.msixLinkReady speed width) s = .next (settle s (linkReady speed width s)) := rfl

theorem exec_msixUnmask (g : Nat) (s : State) : exec (.msixUnmask g) s = .next (settle s (msixUnmask g s)) := rfl

theorem exec_allocSize (a : Access) (i : Nat) (s : State) : exec (.allocSize a i) s = .next (settle s (coreRead a (regAddr rPOOL_ALLOC_SIZE i) (allocRead a rPOOL_ALLOC_SIZE i) s)) := rfl

theorem exec_allocPool (a : Access) (p : Nat) (s : State) : exec (.allocPool a p) s = .next (settle s (coreRead a (regAddr rPOOL_ALLOC_POOL p) (allocRead a rPOOL_ALLOC_POOL p) s)) := rfl

theorem exec_poolFree (a : Access) (h : Nat) (s : State) : exec (.poolFree a h) s = .next (settle s (regWrite a rPOOL_FREE 0 h s)) := rfl

theorem exec_poolGive (a : Access) (h target : Nat) (s : State) : exec (.poolGive a h target) s = .next (settle s (regWrite a rPOOL_GIVE 0 (fieldWord POOL_GIVE.handle h + fieldWord POOL_GIVE.target target) s)) := rfl

theorem exec_poolReclaim (a : Access) (r pools : Nat) (s : State) : exec (.poolReclaim a r pools) s = .next (settle s (regWrite a rPOOL_RECLAIM 0 (fieldWord POOL_RECLAIM.requester r + fieldWord POOL_RECLAIM.pools pools) s)) := rfl

theorem exec_poolBufferAccess (core : Bool) (r h off len err : Nat) (s : State) : exec (.poolBufferAccess core r h off len err) s = .next (settle s (poolUse core r h off len err s)) := rfl

theorem exec_poolMetaError (p i : Nat) (corrected : Bool) (s : State) : exec (.poolMetaError p i corrected) s = .next (settle s (if corrected then inc cnt_TEL_svc_ecc_corr 0 s else poolRetire p i s)) := rfl

theorem exec_pwrGoodRise (x : PowerUp) (s : State) : exec (.pwrGoodRise x) s = .next (settle s (pwrGoodRise x s)) := rfl

theorem exec_bootVoltageRetry (answers : List Nat) (arrived : Bool) (s : State) : exec (.bootVoltageRetry answers arrived) s = .next (settle s (bootVoltRetry answers arrived s)) := rfl

theorem exec_bootImageReadDone (img : Option (List Nat)) (s : State) : exec (.bootImageReadDone img) s = .next (settle s (imageRead img s)) := rfl

theorem exec_bootReady (ms : Nat) (s : State) : exec (.bootReady ms) s = .next (settle s (bootDone ms s)) := rfl

theorem exec_streamReqRetry (k : Nat) (s : State) : exec (.streamReqRetry k) s = .next (settle s (reqRetry k s)) := rfl

theorem exec_flashBurstStall (addr : Nat) (s : State) : exec (.flashBurstStall addr) s = .next (settle s (burstStall addr s)) := rfl

theorem exec_flashBurstReissue (s : State) : exec (.flashBurstReissue) s = .next (settle s (flashReissue s)) := rfl

theorem exec_flashLateEdge (n : Nat) (s : State) : exec (.flashLateEdge n) s = .next (settle s (flashLate n s)) := rfl

theorem exec_reboot (a : Access) (s : State) : exec (.reboot a) s = .next (settle s (fldWrite a rCFG_BOOT_STATUS CFG_BOOT_STATUS.reboot 0 1 s)) := rfl

theorem exec_bootSelectWrite (a : Access) (slot : Nat) (s : State) : exec (.bootSelectWrite a slot) s = .next (settle s (regWrite a rCFG_BOOT_SEL 0 (fieldWord CFG_BOOT_SEL.slot slot + fieldWord CFG_BOOT_SEL.write 1) s)) := rfl

theorem exec_bootSelectDone (s : State) : exec (.bootSelectDone) s = .next (settle s (selDone s)) := rfl

theorem exec_bootSelectFail (s : State) : exec (.bootSelectFail) s = .next (settle s (selFail s)) := rfl

theorem exec_pwrGoodFall (s : State) : exec (.pwrGoodFall) s = .next (settle s (pwrGoodFall s)) := rfl

theorem exec_brownOut (rail : Nat) (s : State) : exec (.brownOut rail) s = .next (settle s (brownOut rail s)) := rfl

theorem exec_aonPowerOn (s : State) : exec (.aonPowerOn) s = .next (settle s (aonPowerOn s)) := rfl

theorem exec_csOpen (a : Access) (k : Nat) (s : State) : exec (.csOpen a k) s = .next (settle s (regWrite a rCFG_CS_W0 k 1 s)) := rfl

theorem exec_csArm (a : Access) (k : Nat) (s : State) : exec (.csArm a k) s = .next (settle s (regWrite a rCFG_CS_W0 k 2 s)) := rfl

theorem exec_csDisarm (a : Access) (k : Nat) (s : State) : exec (.csDisarm a k) s = .next (settle s (regWrite a rCFG_CS_W0 k 3 s)) := rfl

theorem exec_csClear (a : Access) (k : Nat) (s : State) : exec (.csClear a k) s = .next (settle s (regWrite a rCFG_CS_W0 k 4 s)) := rfl

theorem exec_stageData (a : Access) (data : Nat) (s : State) : exec (.stageData a data) s = .next (settle s (regWrite a rCFG_STAGE_DATA 0 data s)) := rfl

theorem exec_csTimeTrigger (k : Nat) (s : State) : exec (.csTimeTrigger k) s = .next (settle s (csTimer k s)) := rfl

theorem exec_csCommitPoint (k : Nat) (s : State) : exec (.csCommitPoint k) s = .next (settle s (csNote (csPoint k s))) := rfl

theorem exec_flashRead (a : Access) (s : State) : exec (.flashRead a) s = .next (settle s (regWrite a rCFG_FLASH_CMD 0 1 s)) := rfl

theorem exec_flashProgram (a : Access) (s : State) : exec (.flashProgram a) s = .next (settle s (regWrite a rCFG_FLASH_CMD 0 2 s)) := rfl

theorem exec_flashErase4k (a : Access) (s : State) : exec (.flashErase4k a) s = .next (settle s (regWrite a rCFG_FLASH_CMD 0 3 s)) := rfl

theorem exec_flashErase64k (a : Access) (s : State) : exec (.flashErase64k a) s = .next (settle s (regWrite a rCFG_FLASH_CMD 0 4 s)) := rfl

theorem exec_flashCommandDone (res : Nat) (bytes : List Nat) (s : State) : exec (.flashCommandDone res bytes) s = .next (settle s (flashDone res bytes s)) := rfl

theorem exec_hello (m : MgmtMsg) (s : State) : exec (.hello m) s = .next (settle s (mgmtRequest 1 m ⟨true, []⟩ s)) := rfl

theorem exec_proof (m : MgmtMsg) (s : State) : exec (.proof m) s = .next (settle s (mgmtRequest 3 m ⟨true, []⟩ s)) := rfl

theorem exec_close (m : MgmtMsg) (s : State) : exec (.close m) s = .next (settle s (mgmtRequest 6 m ⟨true, []⟩ s)) := rfl

theorem exec_sessionIdleTimeout (i : Nat) (s : State) : exec (.sessionIdleTimeout i) s = .next (settle s (sessIdleOut i s)) := rfl

theorem exec_credentialLockEnd (cred : Nat) (s : State) : exec (.credentialLockEnd cred) s = .next (settle s (lockEnd cred s)) := rfl

theorem exec_makerGrant (a : Access) (minutes : Nat) (s : State) : exec (.makerGrant a minutes) s = .next (settle s (regWrite a rACC_MAKER_GRANT 0 (fieldWord ACC_MAKER_GRANT.minutes minutes + fieldWord ACC_MAKER_GRANT.grant 1) s)) := rfl

theorem exec_makerRevoke (a : Access) (s : State) : exec (.makerRevoke a) s = .next (settle s (fldWrite a rACC_MAKER_GRANT ACC_MAKER_GRANT.revoke 0 1 s)) := rfl

theorem exec_makerGrantExpiry (s : State) : exec (.makerGrantExpiry) s = .next (settle s (grantExpiry s)) := rfl

theorem exec_programInstallerSlot (a : Access) (s : State) : exec (.programInstallerSlot a) s = .next (settle s (regWrite a rACC_FUSE_CMD 0 (fieldWord ACC_FUSE_CMD.op 1) s)) := rfl

theorem exec_programMakerFuse (a : Access) (addr : Nat) (s : State) : exec (.programMakerFuse a addr) s = .next (settle s (regWrite a rACC_FUSE_CMD 0 (fieldWord ACC_FUSE_CMD.op 2 + fieldWord ACC_FUSE_CMD.fuse_addr addr) s)) := rfl

theorem exec_auditRecordWrite (lag bad : Nat) (s : State) : exec (.auditRecordWrite lag bad) s = .next (settle s (auditWrite lag bad s)) := rfl

theorem exec_idcode (s : State) : exec (.idcode) s = .next (settle s (tapIdcode s)) := rfl

theorem exec_tapRegRead (addr : Nat) (s : State) : exec (.tapRegRead addr) s = .next (settle s (tapRead addr s)) := rfl

theorem exec_traceRead (s : State) : exec (.traceRead) s = .next (settle s (tapTrace s)) := rfl

theorem exec_bypass (s : State) : exec (.bypass) s = .next (settle s (tapSelect 0xFF s)) := rfl

theorem exec_extest (cells : List Nat) (s : State) : exec (.extest cells) s = .next (settle s (tapBoundary 0 1 cells s)) := rfl

theorem exec_samplePreload (cells : List Nat) (s : State) : exec (.samplePreload cells) s = .next (settle s (tapBoundary 2 0 cells s)) := rfl

theorem exec_extestPulse (cells : List Nat) (s : State) : exec (.extestPulse cells) s = .next (settle s (tapBoundary 3 1 cells s)) := rfl

theorem exec_extestTrain (cells : List Nat) (s : State) : exec (.extestTrain cells) s = .next (settle s (tapBoundary 4 1 cells s)) := rfl

theorem exec_highz (s : State) : exec (.highz) s = .next (settle s (tapBoundary 5 2 [] s)) := rfl

theorem exec_clamp (s : State) : exec (.clamp) s = .next (settle s (tapBoundary 6 1 [] s)) := rfl

theorem exec_pciePerstAssert (s : State) : exec (.pciePerstAssert) s = .next (settle s (perstAssert s)) := rfl

theorem exec_flr (s : State) : exec (.flr) s = .next (settle s (flReset s)) := rfl

theorem exec_hotReset (s : State) : exec (.hotReset) s = .next (settle s (hotReset s)) := rfl

theorem exec_ringTailWrite (a : Access) (k tail : Nat) (s : State) : exec (.ringTailWrite a k tail) s = .next (settle s (regWrite a rHIF_RING_W3 k tail s)) := rfl

theorem exec_ringEnable (a : Access) (k : Nat) (s : State) : exec (.ringEnable a k) s = .next (settle s (fldWrite a rHIF_RING_W2 HIF_RING_W2.enable k 1 s)) := rfl

theorem exec_ringDisable (a : Access) (k : Nat) (s : State) : exec (.ringDisable a k) s = .next (settle s (fldWrite a rHIF_RING_W2 HIF_RING_W2.enable k 0 s)) := rfl

theorem exec_puntDma (k addr : Nat) (x : PuntRead) (s : State) : exec (.puntDma k addr x) s = .next (settle s (puntDma k addr x.len x.errs s)) := rfl

theorem exec_injectDma (k addr word : Nat) (data : List Nat) (cell : Nat) (s : State) : exec (.injectDma k addr word data cell) s = .next (settle s (injectDma k addr word data cell s)) := rfl

theorem exec_recordDma (k addr len : Nat) (s : State) : exec (.recordDma k addr len) s = .next (settle s (recordDma k addr len s)) := rfl

theorem exec_dmaFlushDone (k : Nat) (s : State) : exec (.dmaFlushDone k) s = .next (settle s (dmaFlushDone k s)) := rfl

theorem exec_dmaError (k : Nat) (canWrite : Bool) (s : State) : exec (.dmaError k canWrite) s = .next (settle s (dmaError k canWrite s)) := rfl

theorem exec_pcieLinkDown (s : State) : exec (.pcieLinkDown) s = .next (settle s (linkLost s)) := rfl

theorem exec_pcieAerError (s : State) : exec (.pcieAerError) s = .next (settle s (aerError s)) := rfl

theorem exec_pciePerstDeassert (s : State) : exec (.pciePerstDeassert) s = .next (settle s (perstDeassert s)) := rfl

theorem exec_aspmLinkEntry (l : Nat) (s : State) : exec (.aspmLinkEntry l) s = .next (settle s (aspmEntry l s)) := rfl

theorem exec_dStateChange (hot msixEn pmeEn : Bool) (s : State) : exec (.dStateChange hot msixEn pmeEn) s = .next (settle s (dState hot msixEn pmeEn s)) := rfl

theorem exec_arpRequest (m target mac ip : Nat) (s : State) : exec (.arpRequest m target mac ip) s = .next (settle s (arpRequest m target mac ip s)) := rfl

theorem exec_neighbourSolicitation (m target mac ip : Nat) (s : State) : exec (.neighbourSolicitation m target mac ip) s = .next (settle s (neighbourSol m target mac ip s)) := rfl

theorem exec_echoRequest (m : Nat) (v6 : Bool) (dst src id seq : Nat) (data : List Nat) (s : State) : exec (.echoRequest m v6 dst src id seq data) s = .next (settle s (echoRequest m v6 dst src id seq data s)) := rfl

theorem exec_mgmtOtherFrame (m : Nat) (s : State) : exec (.mgmtOtherFrame m) s = .next (settle s (otherFrame m s)) := rfl

theorem exec_mgmtLinkChange (m : Nat) (up : Bool) (s : State) : exec (.mgmtLinkChange m up) s = .next (settle s (mgmtLink m up s)) := rfl

theorem exec_regRead (m : MgmtMsg) (s : State) : exec (.regRead m) s = .next (settle s (mgmtRequest 0x10 m ⟨true, []⟩ s)) := rfl

theorem exec_regWrite (m : MgmtMsg) (s : State) : exec (.regWrite m) s = .next (settle s (mgmtRequest 0x11 m ⟨true, []⟩ s)) := rfl

theorem exec_tableCmd (m : MgmtMsg) (s : State) : exec (.tableCmd m) s = .next (settle s (mgmtRequest 0x12 m ⟨true, []⟩ s)) := rfl

theorem exec_admitReq (m : MgmtMsg) (s : State) : exec (.admitReq m) s = .next (settle s (mgmtRequest 0x13 m ⟨true, []⟩ s)) := rfl

theorem exec_releaseReq (m : MgmtMsg) (s : State) : exec (.releaseReq m) s = .next (settle s (mgmtRequest 0x14 m ⟨true, []⟩ s)) := rfl

theorem exec_queryReq (m : MgmtMsg) (s : State) : exec (.queryReq m) s = .next (settle s (mgmtRequest 0x15 m ⟨true, []⟩ s)) := rfl

theorem exec_serviceParam (m : MgmtMsg) (s : State) : exec (.serviceParam m) s = .next (settle s (mgmtRequest 0x16 m ⟨true, []⟩ s)) := rfl

theorem exec_moduleRw (m : MgmtMsg) (ans : ModAnswer) (s : State) : exec (.moduleRw m ans) s = .next (settle s (mgmtRequest 0x17 m ans s)) := rfl

theorem exec_mgmtHeldRequest (ans : ModAnswer) (s : State) : exec (.mgmtHeldRequest ans) s = .next (settle s (heldRequest ans s)) := rfl

theorem exec_smbusSetAddress (count pec addr : Nat) (s : State) : exec (.smbusSetAddress count pec addr) s = .next (settle s (smbSetAddress count pec addr s)) := rfl

theorem exec_smbusWrite (count pec value : Nat) (s : State) : exec (.smbusWrite count pec value) s = .next (settle s (smbWriteWord count pec value s)) := rfl

theorem exec_smbusRead (s : State) : exec (.smbusRead) s = .next (settle s (smbRead s)) := rfl

theorem exec_smbusSclTimeout (s : State) : exec (.smbusSclTimeout) s = .next (settle s (smbTimeout s)) := rfl

theorem exec_i2cStuck (bus : Nat) (still : Bool) (s : State) : exec (.i2cStuck bus still) s = .next (settle s (i2cStuck bus still s)) := rfl

theorem exec_i2cRecoveryRetry (bus : Nat) (still : Bool) (s : State) : exec (.i2cRecoveryRetry bus still) s = .next (settle s (i2cRetry bus still s)) := rfl

theorem exec_eventRecordWrite (lag : Nat) (s : State) : exec (.eventRecordWrite lag) s = .next (settle s (takeCapture lag s)) := rfl

theorem exec_counterExport (s : State) : exec (.counterExport) s = .next (settle s (counterExport s)) := rfl

theorem exec_histogramExport (s : State) : exec (.histogramExport) s = .next (settle s (histogramExport s)) := rfl

theorem exec_datagramTimeout (d : Nat) (s : State) : exec (.datagramTimeout d) s = .next (settle s (expire HTEL.dg_timer d (dgSend d) s)) := rfl

end Sys2Proof.Machine
end

