-- ==== Sys2Proof/Laws/Store.lean ====
section
/-!
SUPPORT. What the operations of a finite map do: a read after a write of the same key, a read after a write of another, and that every
operation keeps the canonical form (keys strictly rising, no entry equal to what an absent key reads as).
-/

namespace Sys2Proof.Machine

variable {α : Type}

/-! ### Reading -/

theorem mdel_cons (k' : Key) (v : α) (m : Map α) (k : Key) :
    mdel ((k', v) :: m) k = if k' = k then mdel m k else (k', v) :: mdel m k := by
  by_cases h : k' = k <;> simp [mdel, h]

theorem mget_mdel_same (m : Map α) (k : Key) : mget (mdel m k) k = none := by
  induction m with
  | nil => rfl
  | cons e m ih =>
    obtain ⟨k', v⟩ := e
    rw [mdel_cons]
    split <;> simp_all [mget]

theorem mget_mdel_other (m : Map α) {k k' : Key} (h : k' ≠ k) : mget (mdel m k') k = mget m k := by
  induction m with
  | nil => rfl
  | cons e m ih =>
    obtain ⟨k'', v⟩ := e
    rw [mdel_cons]
    split
    · rename_i h1
      simp [mget, h1, h, ih]
    · simp [mget, ih]

theorem mget_minsert_same (k : Key) (v : α) (m : Map α) (h : mget m k = none) : mget (minsert k v m) k = some v := by
  induction m with
  | nil => simp [minsert, mget]
  | cons e m ih =>
    obtain ⟨k', v'⟩ := e
    have hk : k' ≠ k := by
      intro hk
      simp [mget, hk] at h
    have ht : mget m k = none := by simpa [mget, hk] using h
    unfold minsert
    split
    · simp [mget]
    · simp [mget, hk, ih ht]

theorem mget_minsert_other (k k' : Key) (v : α) (m : Map α) (h : k ≠ k') : mget (minsert k v m) k' = mget m k' := by
  induction m with
  | nil => simp [minsert, mget, h]
  | cons e m ih =>
    obtain ⟨k'', v'⟩ := e
    unfold minsert
    split
    · simp [mget, h]
    · simp [mget, ih]

theorem mget_mput_same (m : Map α) (k : Key) (v : α) : mget (mput m k v) k = some v :=
  mget_minsert_same k v _ (mget_mdel_same m k)

theorem mget_mput_other (m : Map α) {k k' : Key} (v : α) (h : k ≠ k') : mget (mput m k v) k' = mget m k' := by
  rw [mput, mget_minsert_other k k' v _ h, mget_mdel_other m h]

theorem mgetD_mputD_same [DecidableEq α] (m : Map α) (k : Key) (v d : α) : mgetD (mputD m k v d) k d = v := by
  unfold mputD mgetD
  split
  · simp_all [mget_mdel_same]
  · simp [mget_mput_same]

theorem mgetD_mputD_other [DecidableEq α] (m : Map α) {k k' : Key} (v d e : α) (h : k ≠ k') :
    mgetD (mputD m k v d) k' e = mgetD m k' e := by
  unfold mputD mgetD
  split
  · rw [mget_mdel_other m h]
  · rw [mget_mput_other m v h]

/-! ### Canonical form -/

/-- Every key of a map lies above `k`. -/
def above (k : Key) (m : Map α) : Prop := ∀ e ∈ m, keyLt k e.1 = true

theorem keyLt_trans {a b c : Key} (h : keyLt a b = true) (h' : keyLt b c = true) : keyLt a c = true := by
  simp only [keyLt, Bool.or_eq_true, Bool.and_eq_true, decide_eq_true_eq, beq_iff_eq] at *
  omega

theorem keyLt_connex {a b : Key} (h : keyLt a b = false) (hne : b ≠ a) : keyLt b a = true := by
  obtain ⟨a1, a2⟩ := a
  obtain ⟨b1, b2⟩ := b
  simp only [keyLt, Bool.or_eq_false_iff, Bool.and_eq_false_iff, Bool.or_eq_true, Bool.and_eq_true, decide_eq_true_eq,
    decide_eq_false_iff_not, beq_iff_eq, beq_eq_false_iff_ne, ne_eq, Prod.mk.injEq, not_and] at *
  omega

/-- A map is in rising order exactly when its tail is and its first key lies below every later one. -/
theorem mwf_cons (k : Key) (v : α) (m : Map α) : mwf ((k, v) :: m) = true ↔ above k m ∧ mwf m = true := by
  induction m generalizing k v with
  | nil => simp [mwf, above]
  | cons e m ih =>
    obtain ⟨k', v'⟩ := e
    simp only [mwf, Bool.and_eq_true]
    constructor
    · rintro ⟨hk, hm⟩
      refine ⟨?_, hm⟩
      intro e he
      rcases List.mem_cons.1 he with rfl | he
      · exact hk
      · exact keyLt_trans hk (((ih k' v').1 hm).1 e he)
    · rintro ⟨ha, hm⟩
      exact ⟨ha (k', v') (by simp), hm⟩

theorem mem_mdel (m : Map α) (k : Key) (e : Key × α) (h : e ∈ mdel m k) : e ∈ m := (List.mem_filter.1 h).1

theorem mdel_mwf (m : Map α) (k : Key) (h : mwf m = true) : mwf (mdel m k) = true := by
  induction m with
  | nil => rfl
  | cons e m ih =>
    obtain ⟨k', v⟩ := e
    have hm := (mwf_cons k' v m).1 h
    rw [mdel_cons]
    split
    · exact ih hm.2
    · exact (mwf_cons k' v _).2 ⟨fun e he => hm.1 e (mem_mdel m k e he), ih hm.2⟩

theorem mem_minsert (k : Key) (v : α) (m : Map α) (e : Key × α) (h : e ∈ minsert k v m) : e = (k, v) ∨ e ∈ m := by
  induction m with
  | nil => simpa [minsert] using h
  | cons e' m ih =>
    obtain ⟨k', v'⟩ := e'
    unfold minsert at h
    split at h
    · simpa using h
    · rcases List.mem_cons.1 h with rfl | h
      · simp
      · rcases ih h with h | h <;> simp [h]

theorem minsert_mwf (k : Key) (v : α) (m : Map α) (h : mwf m = true) (hk : mget m k = none) :
    mwf (minsert k v m) = true := by
  induction m with
  | nil => rfl
  | cons e m ih =>
    obtain ⟨k', v'⟩ := e
    have hne : k' ≠ k := by
      intro hk'
      simp [mget, hk'] at hk
    have ht : mget m k = none := by simpa [mget, hne] using hk
    have hm := (mwf_cons k' v' m).1 h
    unfold minsert
    split
    · rename_i hlt
      refine (mwf_cons k v _).2 ⟨?_, h⟩
      intro e he
      rcases List.mem_cons.1 he with rfl | he
      · exact hlt
      · exact keyLt_trans hlt (hm.1 e he)
    · rename_i hlt
      refine (mwf_cons k' v' _).2 ⟨?_, ih hm.2 ht⟩
      intro e he
      rcases mem_minsert k v m e he with rfl | he
      · exact keyLt_connex (by simpa using hlt) hne
      · exact hm.1 e he

theorem mput_mwf (m : Map α) (k : Key) (v : α) (h : mwf m = true) : mwf (mput m k v) = true :=
  minsert_mwf k v _ (mdel_mwf m k h) (mget_mdel_same m k)

/-- Every write of a map keeps its keys strictly rising. -/
theorem mputD_mwf [DecidableEq α] (m : Map α) (k : Key) (v d : α) (h : mwf m = true) : mwf (mputD m k v d) = true := by
  unfold mputD
  split
  · exact mdel_mwf m k h
  · exact mput_mwf m k v h

/-- A write of what an absent key reads as leaves no entry for the key. -/
theorem mputD_default [DecidableEq α] (m : Map α) (k : Key) (d : α) : mget (mputD m k d d) k = none := by
  simp [mputD, mget_mdel_same]

end Sys2Proof.Machine
end

