-- ==== Sys2Proof/Laws/State.lean ====
section
/-!
SUPPORT. One lemma for each part of State and each of its updates: what a write of a field, a list or a counter changes and that it
changes nothing else; and what `settle`, which ends every command, leaves as the command's own effect made it.
-/

namespace Sys2Proof.Machine

/-! ### What each update leaves as it was -/

@[simp] theorem wr_cnts (f : Fld) (i v : Nat) (s : State) : (wr f i v s).cnts = s.cnts := rfl
@[simp] theorem wr_snaps (f : Fld) (i v : Nat) (s : State) : (wr f i v s).snaps = s.snaps := rfl
@[simp] theorem wr_lists (f : Fld) (i v : Nat) (s : State) : (wr f i v s).lists = s.lists := rfl
@[simp] theorem wr_tbl (f : Fld) (i v : Nat) (s : State) : (wr f i v s).tbl = s.tbl := rfl
@[simp] theorem wr_telFifo (f : Fld) (i v : Nat) (s : State) : (wr f i v s).telFifo = s.telFifo := rfl
@[simp] theorem wr_evtRing (f : Fld) (i v : Nat) (s : State) : (wr f i v s).evtRing = s.evtRing := rfl
@[simp] theorem wr_recs (f : Fld) (i v : Nat) (s : State) : (wr f i v s).recs = s.recs := rfl
@[simp] theorem wr_pins (f : Fld) (i v : Nat) (s : State) : (wr f i v s).pins = s.pins := rfl
@[simp] theorem wr_out (f : Fld) (i v : Nat) (s : State) : (wr f i v s).out = s.out := rfl
@[simp] theorem wr_fresh (f : Fld) (i v : Nat) (s : State) : (wr f i v s).fresh = s.fresh := rfl
@[simp] theorem wr_cyc (f : Fld) (i v : Nat) (s : State) : (wr f i v s).cyc = s.cyc := rfl
@[simp] theorem wr_pending (f : Fld) (i v : Nat) (s : State) : (wr f i v s).pending = s.pending := rfl

@[simp] theorem resetF_cnts (f : Fld) (i : Nat) (s : State) : (resetF f i s).cnts = s.cnts := rfl
@[simp] theorem resetF_snaps (f : Fld) (i : Nat) (s : State) : (resetF f i s).snaps = s.snaps := rfl
@[simp] theorem resetF_lists (f : Fld) (i : Nat) (s : State) : (resetF f i s).lists = s.lists := rfl
@[simp] theorem resetF_tbl (f : Fld) (i : Nat) (s : State) : (resetF f i s).tbl = s.tbl := rfl
@[simp] theorem resetF_telFifo (f : Fld) (i : Nat) (s : State) : (resetF f i s).telFifo = s.telFifo := rfl
@[simp] theorem resetF_evtRing (f : Fld) (i : Nat) (s : State) : (resetF f i s).evtRing = s.evtRing := rfl
@[simp] theorem resetF_recs (f : Fld) (i : Nat) (s : State) : (resetF f i s).recs = s.recs := rfl
@[simp] theorem resetF_pins (f : Fld) (i : Nat) (s : State) : (resetF f i s).pins = s.pins := rfl
@[simp] theorem resetF_out (f : Fld) (i : Nat) (s : State) : (resetF f i s).out = s.out := rfl
@[simp] theorem resetF_fresh (f : Fld) (i : Nat) (s : State) : (resetF f i s).fresh = s.fresh := rfl
@[simp] theorem resetF_cyc (f : Fld) (i : Nat) (s : State) : (resetF f i s).cyc = s.cyc := rfl
@[simp] theorem resetF_pending (f : Fld) (i : Nat) (s : State) : (resetF f i s).pending = s.pending := rfl

@[simp] theorem setL_regs (l : Lst) (i : Nat) (v : List Nat) (s : State) : (setL l i v s).regs = s.regs := rfl
@[simp] theorem setL_cnts (l : Lst) (i : Nat) (v : List Nat) (s : State) : (setL l i v s).cnts = s.cnts := rfl
@[simp] theorem setL_snaps (l : Lst) (i : Nat) (v : List Nat) (s : State) : (setL l i v s).snaps = s.snaps := rfl
@[simp] theorem setL_tbl (l : Lst) (i : Nat) (v : List Nat) (s : State) : (setL l i v s).tbl = s.tbl := rfl
@[simp] theorem setL_telFifo (l : Lst) (i : Nat) (v : List Nat) (s : State) : (setL l i v s).telFifo = s.telFifo := rfl
@[simp] theorem setL_evtRing (l : Lst) (i : Nat) (v : List Nat) (s : State) : (setL l i v s).evtRing = s.evtRing := rfl
@[simp] theorem setL_recs (l : Lst) (i : Nat) (v : List Nat) (s : State) : (setL l i v s).recs = s.recs := rfl
@[simp] theorem setL_pins (l : Lst) (i : Nat) (v : List Nat) (s : State) : (setL l i v s).pins = s.pins := rfl
@[simp] theorem setL_out (l : Lst) (i : Nat) (v : List Nat) (s : State) : (setL l i v s).out = s.out := rfl
@[simp] theorem setL_fresh (l : Lst) (i : Nat) (v : List Nat) (s : State) : (setL l i v s).fresh = s.fresh := rfl
@[simp] theorem setL_cyc (l : Lst) (i : Nat) (v : List Nat) (s : State) : (setL l i v s).cyc = s.cyc := rfl
@[simp] theorem setL_pending (l : Lst) (i : Nat) (v : List Nat) (s : State) : (setL l i v s).pending = s.pending := rfl

@[simp] theorem incBy_regs (c : Cnt) (i n : Nat) (s : State) : (incBy c i n s).regs = s.regs := rfl
@[simp] theorem incBy_snaps (c : Cnt) (i n : Nat) (s : State) : (incBy c i n s).snaps = s.snaps := rfl
@[simp] theorem incBy_lists (c : Cnt) (i n : Nat) (s : State) : (incBy c i n s).lists = s.lists := rfl
@[simp] theorem incBy_tbl (c : Cnt) (i n : Nat) (s : State) : (incBy c i n s).tbl = s.tbl := rfl
@[simp] theorem incBy_telFifo (c : Cnt) (i n : Nat) (s : State) : (incBy c i n s).telFifo = s.telFifo := rfl
@[simp] theorem incBy_evtRing (c : Cnt) (i n : Nat) (s : State) : (incBy c i n s).evtRing = s.evtRing := rfl
@[simp] theorem incBy_recs (c : Cnt) (i n : Nat) (s : State) : (incBy c i n s).recs = s.recs := rfl
@[simp] theorem incBy_pins (c : Cnt) (i n : Nat) (s : State) : (incBy c i n s).pins = s.pins := rfl
@[simp] theorem incBy_out (c : Cnt) (i n : Nat) (s : State) : (incBy c i n s).out = s.out := rfl
@[simp] theorem incBy_fresh (c : Cnt) (i n : Nat) (s : State) : (incBy c i n s).fresh = s.fresh := rfl
@[simp] theorem incBy_cyc (c : Cnt) (i n : Nat) (s : State) : (incBy c i n s).cyc = s.cyc := rfl
@[simp] theorem incBy_pending (c : Cnt) (i n : Nat) (s : State) : (incBy c i n s).pending = s.pending := rfl

@[simp] theorem clrCnt_regs (c : Cnt) (i : Nat) (s : State) : (clrCnt c i s).regs = s.regs := rfl
@[simp] theorem clrCnt_snaps (c : Cnt) (i : Nat) (s : State) : (clrCnt c i s).snaps = s.snaps := rfl
@[simp] theorem clrCnt_lists (c : Cnt) (i : Nat) (s : State) : (clrCnt c i s).lists = s.lists := rfl
@[simp] theorem clrCnt_tbl (c : Cnt) (i : Nat) (s : State) : (clrCnt c i s).tbl = s.tbl := rfl
@[simp] theorem clrCnt_telFifo (c : Cnt) (i : Nat) (s : State) : (clrCnt c i s).telFifo = s.telFifo := rfl
@[simp] theorem clrCnt_evtRing (c : Cnt) (i : Nat) (s : State) : (clrCnt c i s).evtRing = s.evtRing := rfl
@[simp] theorem clrCnt_recs (c : Cnt) (i : Nat) (s : State) : (clrCnt c i s).recs = s.recs := rfl
@[simp] theorem clrCnt_pins (c : Cnt) (i : Nat) (s : State) : (clrCnt c i s).pins = s.pins := rfl
@[simp] theorem clrCnt_out (c : Cnt) (i : Nat) (s : State) : (clrCnt c i s).out = s.out := rfl
@[simp] theorem clrCnt_fresh (c : Cnt) (i : Nat) (s : State) : (clrCnt c i s).fresh = s.fresh := rfl
@[simp] theorem clrCnt_cyc (c : Cnt) (i : Nat) (s : State) : (clrCnt c i s).cyc = s.cyc := rfl
@[simp] theorem clrCnt_pending (c : Cnt) (i : Nat) (s : State) : (clrCnt c i s).pending = s.pending := rfl

@[simp] theorem snapWhere_regs (p : Key → Bool) (s : State) : (snapWhere p s).regs = s.regs := rfl
@[simp] theorem snapWhere_cnts (p : Key → Bool) (s : State) : (snapWhere p s).cnts = s.cnts := rfl
@[simp] theorem snapWhere_lists (p : Key → Bool) (s : State) : (snapWhere p s).lists = s.lists := rfl
@[simp] theorem snapWhere_tbl (p : Key → Bool) (s : State) : (snapWhere p s).tbl = s.tbl := rfl
@[simp] theorem snapWhere_telFifo (p : Key → Bool) (s : State) : (snapWhere p s).telFifo = s.telFifo := rfl
@[simp] theorem snapWhere_evtRing (p : Key → Bool) (s : State) : (snapWhere p s).evtRing = s.evtRing := rfl
@[simp] theorem snapWhere_recs (p : Key → Bool) (s : State) : (snapWhere p s).recs = s.recs := rfl
@[simp] theorem snapWhere_pins (p : Key → Bool) (s : State) : (snapWhere p s).pins = s.pins := rfl
@[simp] theorem snapWhere_out (p : Key → Bool) (s : State) : (snapWhere p s).out = s.out := rfl
@[simp] theorem snapWhere_fresh (p : Key → Bool) (s : State) : (snapWhere p s).fresh = s.fresh := rfl
@[simp] theorem snapWhere_cyc (p : Key → Bool) (s : State) : (snapWhere p s).cyc = s.cyc := rfl
@[simp] theorem snapWhere_pending (p : Key → Bool) (s : State) : (snapWhere p s).pending = s.pending := rfl

@[simp] theorem emit_regs (k : OutKind) (a : Nat) (args : List Nat) (s : State) : (emit k a args s).regs = s.regs := rfl
@[simp] theorem emit_cnts (k : OutKind) (a : Nat) (args : List Nat) (s : State) : (emit k a args s).cnts = s.cnts := rfl
@[simp] theorem emit_snaps (k : OutKind) (a : Nat) (args : List Nat) (s : State) : (emit k a args s).snaps = s.snaps := rfl
@[simp] theorem emit_lists (k : OutKind) (a : Nat) (args : List Nat) (s : State) : (emit k a args s).lists = s.lists := rfl
@[simp] theorem emit_tbl (k : OutKind) (a : Nat) (args : List Nat) (s : State) : (emit k a args s).tbl = s.tbl := rfl
@[simp] theorem emit_telFifo (k : OutKind) (a : Nat) (args : List Nat) (s : State) : (emit k a args s).telFifo = s.telFifo := rfl
@[simp] theorem emit_evtRing (k : OutKind) (a : Nat) (args : List Nat) (s : State) : (emit k a args s).evtRing = s.evtRing := rfl
@[simp] theorem emit_recs (k : OutKind) (a : Nat) (args : List Nat) (s : State) : (emit k a args s).recs = s.recs := rfl
@[simp] theorem emit_pins (k : OutKind) (a : Nat) (args : List Nat) (s : State) : (emit k a args s).pins = s.pins := rfl
@[simp] theorem emit_fresh (k : OutKind) (a : Nat) (args : List Nat) (s : State) : (emit k a args s).fresh = s.fresh := rfl
@[simp] theorem emit_cyc (k : OutKind) (a : Nat) (args : List Nat) (s : State) : (emit k a args s).cyc = s.cyc := rfl
@[simp] theorem emit_pending (k : OutKind) (a : Nat) (args : List Nat) (s : State) : (emit k a args s).pending = s.pending := rfl

@[simp] theorem drawFree_regs (w : Nat) (s : State) : ((drawFree w s).2).regs = s.regs := rfl
@[simp] theorem drawFree_cnts (w : Nat) (s : State) : ((drawFree w s).2).cnts = s.cnts := rfl
@[simp] theorem drawFree_snaps (w : Nat) (s : State) : ((drawFree w s).2).snaps = s.snaps := rfl
@[simp] theorem drawFree_lists (w : Nat) (s : State) : ((drawFree w s).2).lists = s.lists := rfl
@[simp] theorem drawFree_tbl (w : Nat) (s : State) : ((drawFree w s).2).tbl = s.tbl := rfl
@[simp] theorem drawFree_telFifo (w : Nat) (s : State) : ((drawFree w s).2).telFifo = s.telFifo := rfl
@[simp] theorem drawFree_evtRing (w : Nat) (s : State) : ((drawFree w s).2).evtRing = s.evtRing := rfl
@[simp] theorem drawFree_recs (w : Nat) (s : State) : ((drawFree w s).2).recs = s.recs := rfl
@[simp] theorem drawFree_pins (w : Nat) (s : State) : ((drawFree w s).2).pins = s.pins := rfl
@[simp] theorem drawFree_out (w : Nat) (s : State) : ((drawFree w s).2).out = s.out := rfl
@[simp] theorem drawFree_cyc (w : Nat) (s : State) : ((drawFree w s).2).cyc = s.cyc := rfl
@[simp] theorem drawFree_pending (w : Nat) (s : State) : ((drawFree w s).2).pending = s.pending := rfl

@[simp] theorem pinsDrive_regs (s : State) : (pinsDrive s).regs = s.regs := rfl
@[simp] theorem pinsDrive_cnts (s : State) : (pinsDrive s).cnts = s.cnts := rfl
@[simp] theorem pinsDrive_snaps (s : State) : (pinsDrive s).snaps = s.snaps := rfl
@[simp] theorem pinsDrive_lists (s : State) : (pinsDrive s).lists = s.lists := rfl
@[simp] theorem pinsDrive_tbl (s : State) : (pinsDrive s).tbl = s.tbl := rfl
@[simp] theorem pinsDrive_telFifo (s : State) : (pinsDrive s).telFifo = s.telFifo := rfl
@[simp] theorem pinsDrive_evtRing (s : State) : (pinsDrive s).evtRing = s.evtRing := rfl
@[simp] theorem pinsDrive_recs (s : State) : (pinsDrive s).recs = s.recs := rfl
@[simp] theorem pinsDrive_out (s : State) : (pinsDrive s).out = s.out := rfl
@[simp] theorem pinsDrive_fresh (s : State) : (pinsDrive s).fresh = s.fresh := rfl
@[simp] theorem pinsDrive_cyc (s : State) : (pinsDrive s).cyc = s.cyc := rfl
@[simp] theorem pinsDrive_pending (s : State) : (pinsDrive s).pending = s.pending := rfl

/-! ### Reading through an update of another part -/

@[simp] theorem cnt_wr (g : Cnt) (j : Nat) (f : Fld) (i v : Nat) (s : State) : cnt g j (wr f i v s) = cnt g j s := rfl
@[simp] theorem getL_wr (g : Lst) (j : Nat) (f : Fld) (i v : Nat) (s : State) : getL g j (wr f i v s) = getL g j s := rfl
@[simp] theorem snapOf_wr (g : Cnt) (j : Nat) (f : Fld) (i v : Nat) (s : State) : snapOf g j (wr f i v s) = snapOf g j s := rfl

@[simp] theorem cnt_resetF (g : Cnt) (j : Nat) (f : Fld) (i : Nat) (s : State) : cnt g j (resetF f i s) = cnt g j s := rfl
@[simp] theorem getL_resetF (g : Lst) (j : Nat) (f : Fld) (i : Nat) (s : State) : getL g j (resetF f i s) = getL g j s := rfl
@[simp] theorem snapOf_resetF (g : Cnt) (j : Nat) (f : Fld) (i : Nat) (s : State) : snapOf g j (resetF f i s) = snapOf g j s := rfl

@[simp] theorem rd_setL (g : Fld) (j : Nat) (l : Lst) (i : Nat) (v : List Nat) (s : State) : rd g j (setL l i v s) = rd g j s := rfl
@[simp] theorem cnt_setL (g : Cnt) (j : Nat) (l : Lst) (i : Nat) (v : List Nat) (s : State) : cnt g j (setL l i v s) = cnt g j s := rfl
@[simp] theorem snapOf_setL (g : Cnt) (j : Nat) (l : Lst) (i : Nat) (v : List Nat) (s : State) : snapOf g j (setL l i v s) = snapOf g j s := rfl
@[simp] theorem touched_setL (g : Fld) (l : Lst) (i : Nat) (v : List Nat) (s : State) : touched g (setL l i v s) = touched g s := rfl

@[simp] theorem rd_incBy (g : Fld) (j : Nat) (c : Cnt) (i n : Nat) (s : State) : rd g j (incBy c i n s) = rd g j s := rfl
@[simp] theorem getL_incBy (g : Lst) (j : Nat) (c : Cnt) (i n : Nat) (s : State) : getL g j (incBy c i n s) = getL g j s := rfl
@[simp] theorem snapOf_incBy (g : Cnt) (j : Nat) (c : Cnt) (i n : Nat) (s : State) : snapOf g j (incBy c i n s) = snapOf g j s := rfl
@[simp] theorem touched_incBy (g : Fld) (c : Cnt) (i n : Nat) (s : State) : touched g (incBy c i n s) = touched g s := rfl

@[simp] theorem rd_clrCnt (g : Fld) (j : Nat) (c : Cnt) (i : Nat) (s : State) : rd g j (clrCnt c i s) = rd g j s := rfl
@[simp] theorem getL_clrCnt (g : Lst) (j : Nat) (c : Cnt) (i : Nat) (s : State) : getL g j (clrCnt c i s) = getL g j s := rfl
@[simp] theorem snapOf_clrCnt (g : Cnt) (j : Nat) (c : Cnt) (i : Nat) (s : State) : snapOf g j (clrCnt c i s) = snapOf g j s := rfl
@[simp] theorem touched_clrCnt (g : Fld) (c : Cnt) (i : Nat) (s : State) : touched g (clrCnt c i s) = touched g s := rfl

@[simp] theorem rd_snapWhere (g : Fld) (j : Nat) (p : Key → Bool) (s : State) : rd g j (snapWhere p s) = rd g j s := rfl
@[simp] theorem cnt_snapWhere (g : Cnt) (j : Nat) (p : Key → Bool) (s : State) : cnt g j (snapWhere p s) = cnt g j s := rfl
@[simp] theorem getL_snapWhere (g : Lst) (j : Nat) (p : Key → Bool) (s : State) : getL g j (snapWhere p s) = getL g j s := rfl
@[simp] theorem touched_snapWhere (g : Fld) (p : Key → Bool) (s : State) : touched g (snapWhere p s) = touched g s := rfl

@[simp] theorem rd_emit (g : Fld) (j : Nat) (k : OutKind) (a : Nat) (args : List Nat) (s : State) : rd g j (emit k a args s) = rd g j s := rfl
@[simp] theorem cnt_emit (g : Cnt) (j : Nat) (k : OutKind) (a : Nat) (args : List Nat) (s : State) : cnt g j (emit k a args s) = cnt g j s := rfl
@[simp] theorem getL_emit (g : Lst) (j : Nat) (k : OutKind) (a : Nat) (args : List Nat) (s : State) : getL g j (emit k a args s) = getL g j s := rfl
@[simp] theorem snapOf_emit (g : Cnt) (j : Nat) (k : OutKind) (a : Nat) (args : List Nat) (s : State) : snapOf g j (emit k a args s) = snapOf g j s := rfl
@[simp] theorem touched_emit (g : Fld) (k : OutKind) (a : Nat) (args : List Nat) (s : State) : touched g (emit k a args s) = touched g s := rfl

@[simp] theorem rd_drawFree (g : Fld) (j : Nat) (w : Nat) (s : State) : rd g j ((drawFree w s).2) = rd g j s := rfl
@[simp] theorem cnt_drawFree (g : Cnt) (j : Nat) (w : Nat) (s : State) : cnt g j ((drawFree w s).2) = cnt g j s := rfl
@[simp] theorem getL_drawFree (g : Lst) (j : Nat) (w : Nat) (s : State) : getL g j ((drawFree w s).2) = getL g j s := rfl
@[simp] theorem snapOf_drawFree (g : Cnt) (j : Nat) (w : Nat) (s : State) : snapOf g j ((drawFree w s).2) = snapOf g j s := rfl
@[simp] theorem touched_drawFree (g : Fld) (w : Nat) (s : State) : touched g ((drawFree w s).2) = touched g s := rfl

@[simp] theorem rd_pinsDrive (g : Fld) (j : Nat) (s : State) : rd g j (pinsDrive s) = rd g j s := rfl
@[simp] theorem cnt_pinsDrive (g : Cnt) (j : Nat) (s : State) : cnt g j (pinsDrive s) = cnt g j s := rfl
@[simp] theorem getL_pinsDrive (g : Lst) (j : Nat) (s : State) : getL g j (pinsDrive s) = getL g j s := rfl
@[simp] theorem snapOf_pinsDrive (g : Cnt) (j : Nat) (s : State) : snapOf g j (pinsDrive s) = snapOf g j s := rfl
@[simp] theorem touched_pinsDrive (g : Fld) (s : State) : touched g (pinsDrive s) = touched g s := rfl

/-! ### Reading what was written -/

@[simp] theorem rd_wr_same (f : Fld) (i v : Nat) (s : State) : rd f i (wr f i v s) = v % 2 ^ f.width := by
  simp [rd, wr, mgetD_mputD_same]

/-- A write of a field leaves every other field as it was. -/
theorem rd_wr_other {f g : Fld} (h : g.id ≠ f.id) (i j v : Nat) (s : State) : rd g j (wr f i v s) = rd g j s := by
  unfold rd wr
  exact mgetD_mputD_other _ _ _ _ (by simp [Ne.symm h])

/-- A write of one instance of a field leaves its other instances as they were. -/
theorem rd_wr_inst {i j : Nat} (h : j ≠ i) (f : Fld) (v : Nat) (s : State) : rd f j (wr f i v s) = rd f j s := by
  unfold rd wr
  exact mgetD_mputD_other _ _ _ _ (by simp [Ne.symm h])

theorem key_apart {a b i j : Nat} (h : a ≠ b ∨ j ≠ i) : (b, i) ≠ (a, j) := by
  intro e
  simp only [Prod.mk.injEq] at e
  rcases h with h | h
  · exact h e.1.symm
  · exact h e.2.symm

theorem rd_wr_apart {f g : Fld} {i j : Nat} (h : g.id ≠ f.id ∨ j ≠ i) (v : Nat) (t : State) : rd g j (wr f i v t) = rd g j t :=
  mgetD_mputD_other _ _ _ _ (key_apart h)

theorem getL_setL_apart {l k : Lst} {i j : Nat} (h : k.id ≠ l.id ∨ j ≠ i) (v : List Nat) (t : State) : getL k j (setL l i v t) = getL k j t :=
  mgetD_mputD_other _ _ _ _ (key_apart h)

theorem cnt_incBy_apart {c d : Cnt} {i j : Nat} (h : d.id ≠ c.id ∨ j ≠ i) (n : Nat) (t : State) : cnt d j (incBy c i n t) = cnt d j t :=
  mgetD_mputD_other _ _ _ _ (key_apart h)

@[simp] theorem rd_resetF_same (f : Fld) (i : Nat) (s : State) : rd f i (resetF f i s) = f.rst.value i := by
  simp [rd, resetF, mgetD, mget_mdel_same]

theorem rd_resetF_other {f g : Fld} (h : g.id ≠ f.id) (i j : Nat) (s : State) : rd g j (resetF f i s) = rd g j s := by
  simp only [rd, resetF, mgetD]
  rw [mget_mdel_other _ (by simp [Ne.symm h])]

@[simp] theorem getL_setL_same (l : Lst) (i : Nat) (v : List Nat) (s : State) : getL l i (setL l i v s) = v := by
  simp [getL, setL, mgetD_mputD_same]

theorem getL_setL_other {l l' : Lst} (h : l'.id ≠ l.id) (i j : Nat) (v : List Nat) (s : State) :
    getL l' j (setL l i v s) = getL l' j s := by
  unfold getL setL
  exact mgetD_mputD_other _ _ _ _ (by simp [Ne.symm h])

theorem getL_setL_inst {i j : Nat} (h : j ≠ i) (l : Lst) (v : List Nat) (s : State) :
    getL l j (setL l i v s) = getL l j s := by
  unfold getL setL
  exact mgetD_mputD_other _ _ _ _ (by simp [Ne.symm h])

@[simp] theorem cnt_incBy_same (c : Cnt) (i n : Nat) (s : State) : cnt c i (incBy c i n s) = (cnt c i s + n) % 2 ^ 64 := by
  unfold incBy
  simp only [cnt, mgetD_mputD_same]

theorem cnt_incBy_other {c d : Cnt} (h : d.id ≠ c.id) (i j n : Nat) (s : State) : cnt d j (incBy c i n s) = cnt d j s := by
  unfold cnt incBy
  exact mgetD_mputD_other _ _ _ _ (by simp [Ne.symm h])

theorem cnt_incBy_inst {i j : Nat} (h : j ≠ i) (c : Cnt) (n : Nat) (s : State) : cnt c j (incBy c i n s) = cnt c j s := by
  unfold cnt incBy
  exact mgetD_mputD_other _ _ _ _ (by simp [Ne.symm h])

@[simp] theorem cnt_clrCnt_same (c : Cnt) (i : Nat) (s : State) : cnt c i (clrCnt c i s) = 0 := by
  simp [cnt, clrCnt, mgetD, mget_mdel_same]

@[simp] theorem emit_out (k : OutKind) (a : Nat) (args : List Nat) (s : State) : (emit k a args s).out = s.out ++ [⟨k, a, args⟩] := rfl

@[simp] theorem drawFree_fresh (w : Nat) (s : State) : (drawFree w s).2.fresh = s.fresh + 1 := rfl

/-! ### Shorthand -/

theorem rdB_eq (f : Fld) (i : Nat) (s : State) : rdB f i s = (rd f i s != 0) := rfl
theorem wrB_eq (f : Fld) (i : Nat) (b : Bool) (s : State) : wrB f i b s = wr f i (b2n b) s := rfl
theorem addF_eq (f : Fld) (i n : Nat) (s : State) : addF f i n s = wr f i (rd f i s + n) s := rfl
theorem inc_eq (c : Cnt) (i : Nat) (s : State) : inc c i s = incBy c i 1 s := rfl
theorem pushL_eq (l : Lst) (i v : Nat) (s : State) : pushL l i v s = setL l i (getL l i s ++ [v]) s := rfl
theorem disarm_eq (f : Fld) (i : Nat) (s : State) : disarm f i s = wr f i 0 s := rfl
theorem arm_eq (f : Fld) (i d : Nat) (s : State) : arm f i d s = wr f i (now s + d + 1) s := rfl
@[simp] theorem b2n_true : b2n true = 1 := rfl
@[simp] theorem b2n_false : b2n false = 0 := rfl
@[simp] theorem forEach_nil {α : Type} (f : α → State → State) (s : State) : forEach [] f s = s := rfl
@[simp] theorem forEach_cons {α : Type} (a : α) (l : List α) (f : α → State → State) (s : State) :
    forEach (a :: l) f s = forEach l f (f a s) := rfl

/-- The reading of a field written with a value that fits it. -/
theorem rd_wr_fits (f : Fld) (i v : Nat) (s : State) (h : v < 2 ^ f.width) : rd f i (wr f i v s) = v := by
  rw [rd_wr_same, Nat.mod_eq_of_lt h]

/-- A timer that is running expires: time passes to its deadline, it stops, and its effect follows. -/
theorem expire_running (f : Fld) (i : Nat) (k : State → State) (s : State) (h : rd f i s ≠ 0) :
    expire f i k s = k (disarm f i (passTo (rd f i s - 1) s)) := by
  simp [expire, h]

/-- A timer that does not run cannot expire. -/
theorem expire_stopped (f : Fld) (i : Nat) (k : State → State) (s : State) (h : rd f i s = 0) : expire f i k s = s := by
  simp [expire, h]

/-! ### Events (R496) -/

theorem raise_room (code : Nat) (p : List Nat) (s : State) (h : s.telFifo.length < 1024) :
    raise code p s = { s with telFifo := insCapture ⟨s.cyc, code, p, now s, rdB HRED.gap 0 s || rdB HRED.restart 0 s⟩ s.telFifo } := by
  simp [raise, h]

theorem raise_full (code : Nat) (p : List Nat) (s : State) (h : 1024 ≤ s.telFifo.length) :
    raise code p s = addF HTEL.lost 0 1 (inc cnt_TEL_evt_lost 0 s) := by
  simp [raise, Nat.not_lt.2 h]

theorem rd_raise {f : Fld} (h : f.id ≠ HTEL.lost.id) (i code : Nat) (p : List Nat) (s : State) :
    rd f i (raise code p s) = rd f i s := by
  unfold raise
  split
  · rfl
  · rw [addF_eq, rd_wr_other h, inc_eq, rd_incBy]

theorem cnt_raise {c : Cnt} (h : c.id ≠ cnt_TEL_evt_lost.id) (i code : Nat) (p : List Nat) (s : State) :
    cnt c i (raise code p s) = cnt c i s := by
  unfold raise
  split
  · rfl
  · rw [addF_eq, cnt_wr, inc_eq, cnt_incBy_other h]

@[simp] theorem getL_raise (l : Lst) (i code : Nat) (p : List Nat) (s : State) : getL l i (raise code p s) = getL l i s := by
  unfold raise
  split <;> rfl

theorem mem_insCapture (c d : Capture) (l : List Capture) : d ∈ insCapture c l ↔ d = c ∨ d ∈ l := by
  induction l with
  | nil => simp [insCapture]
  | cons e l ih =>
    unfold insCapture
    split
    · simp
    · simp [ih, or_left_comm]

theorem length_insCapture (c : Capture) (l : List Capture) : (insCapture c l).length = l.length + 1 := by
  induction l with
  | nil => rfl
  | cons e l ih =>
    unfold insCapture
    split <;> simp [ih]

@[simp] theorem raise_snaps (code : Nat) (p : List Nat) (s : State) : (raise code p s).snaps = s.snaps := by
  unfold raise
  split <;> rfl

@[simp] theorem raise_tbl (code : Nat) (p : List Nat) (s : State) : (raise code p s).tbl = s.tbl := by
  unfold raise
  split <;> rfl

@[simp] theorem raise_evtRing (code : Nat) (p : List Nat) (s : State) : (raise code p s).evtRing = s.evtRing := by
  unfold raise
  split <;> rfl

@[simp] theorem raise_recs (code : Nat) (p : List Nat) (s : State) : (raise code p s).recs = s.recs := by
  unfold raise
  split <;> rfl

@[simp] theorem raise_pins (code : Nat) (p : List Nat) (s : State) : (raise code p s).pins = s.pins := by
  unfold raise
  split <;> rfl

@[simp] theorem raise_out (code : Nat) (p : List Nat) (s : State) : (raise code p s).out = s.out := by
  unfold raise
  split <;> rfl

@[simp] theorem raise_fresh (code : Nat) (p : List Nat) (s : State) : (raise code p s).fresh = s.fresh := by
  unfold raise
  split <;> rfl

@[simp] theorem raise_cyc (code : Nat) (p : List Nat) (s : State) : (raise code p s).cyc = s.cyc := by
  unfold raise
  split <;> rfl

@[simp] theorem raise_pending (code : Nat) (p : List Nat) (s : State) : (raise code p s).pending = s.pending := by
  unfold raise
  split <;> rfl

/-! ### The end of a command -/

theorem settle_eq (s t : State) : settle s t = { pinsDrive (linesFall (alarmShow t)) with pending := s.pending, cyc := s.cyc + 1 } := by
  delta settle
  rfl

@[simp] theorem settle_pending (s t : State) : (settle s t).pending = s.pending := by
  rw [settle_eq]

@[simp] theorem settle_cyc (s t : State) : (settle s t).cyc = s.cyc + 1 := by
  rw [settle_eq]

@[simp] theorem settle_cnts (s t : State) : (settle s t).cnts = t.cnts := by
  rw [settle_eq]
  simp only [pinsDrive, linesFall, alarmShow, alarmNote, wrB_eq, setL_cnts, wr_cnts]

@[simp] theorem settle_snaps (s t : State) : (settle s t).snaps = t.snaps := by
  rw [settle_eq]
  simp only [pinsDrive, linesFall, alarmShow, alarmNote, wrB_eq, setL_snaps, wr_snaps]

@[simp] theorem settle_tbl (s t : State) : (settle s t).tbl = t.tbl := by
  rw [settle_eq]
  simp only [pinsDrive, linesFall, alarmShow, alarmNote, wrB_eq, setL_tbl, wr_tbl]

@[simp] theorem settle_telFifo (s t : State) : (settle s t).telFifo = t.telFifo := by
  rw [settle_eq]
  simp only [pinsDrive, linesFall, alarmShow, alarmNote, wrB_eq, setL_telFifo, wr_telFifo]

@[simp] theorem settle_evtRing (s t : State) : (settle s t).evtRing = t.evtRing := by
  rw [settle_eq]
  simp only [pinsDrive, linesFall, alarmShow, alarmNote, wrB_eq, setL_evtRing, wr_evtRing]

@[simp] theorem settle_recs (s t : State) : (settle s t).recs = t.recs := by
  rw [settle_eq]
  simp only [pinsDrive, linesFall, alarmShow, alarmNote, wrB_eq, setL_recs, wr_recs]

@[simp] theorem settle_out (s t : State) : (settle s t).out = t.out := by
  rw [settle_eq]
  simp only [pinsDrive, linesFall, alarmShow, alarmNote, wrB_eq, setL_out, wr_out]

@[simp] theorem settle_fresh (s t : State) : (settle s t).fresh = t.fresh := by
  rw [settle_eq]
  simp only [pinsDrive, linesFall, alarmShow, alarmNote, wrB_eq, setL_fresh, wr_fresh]

@[simp] theorem cnt_settle (c : Cnt) (i : Nat) (s t : State) : cnt c i (settle s t) = cnt c i t := by
  simp only [cnt, settle_cnts]

@[simp] theorem snapOf_settle (c : Cnt) (i : Nat) (s t : State) : snapOf c i (settle s t) = snapOf c i t := by
  simp only [snapOf, settle_snaps]

theorem settle_regs (s t : State) : (settle s t).regs = (alarmShow t).regs := by
  rw [settle_eq]
  simp only [pinsDrive, linesFall, setL_regs]

theorem settle_pins (s t : State) : (settle s t).pins = (pinsDrive (linesFall (alarmShow t))).pins := by
  rw [settle_eq]

theorem settle_lists (s t : State) : (settle s t).lists = (linesFall (alarmShow t)).lists := by
  rw [settle_eq]
  simp only [pinsDrive]

/-- A command's end leaves every register field as its effect made it but the alarm bits that follow their conditions. -/
theorem rd_settle {f : Fld} (h1 : f.id ≠ RED_ALARM.hold.id) (h2 : f.id ≠ RED_ALARM.simplex.id) (h3 : f.id ≠ GLB_STATUS.alarm.id)
    (i : Nat) (s t : State) : rd f i (settle s t) = rd f i t := by
  have h : rd f i (settle s t) = rd f i (alarmShow t) := by simp only [rd, settle_regs]
  simp only [h, alarmShow, alarmNote, wrB_eq, rd_wr_other h1, rd_wr_other h2, rd_wr_other h3]

/-- A command's end leaves every list as its effect made it but that of the source lines taken as edges. -/
theorem getL_settle {l : Lst} (h : l.id ≠ LINT.seen.id) (i : Nat) (s t : State) : getL l i (settle s t) = getL l i t := by
  have h' : getL l i (settle s t) = getL l i (linesFall (alarmShow t)) := by simp only [getL, settle_lists]
  rw [h', linesFall, getL_setL_other h]
  simp only [alarmShow, alarmNote, wrB_eq, getL_wr]

end Sys2Proof.Machine
end

