-- ==== Sys2Proof/Laws/Write.lean ====
section
/-!
SUPPORT. What an accepted register write does: for a command register, exactly its command and the audit capture; and what the capture
leaves as it was.
-/

namespace Sys2Proof.Machine

/-! ### The audit capture changes the audit FIFO only (R454, R456) -/

theorem rd_auditPut {f : Fld} (h : f.id ≠ HAUD.tail.id) (i : Nat) (res : Bool) (kind result addr aux : Nat) (hs : Nat × Nat) (w : Who)
    (s : State) : rd f i (auditPut res kind result addr aux hs w s) = rd f i s := by
  unfold auditPut
  split
  · rfl
  · simp only [rd_wr_other h, rd_setL]

theorem getL_auditPut {l : Lst} (h : l.id ≠ LAUD.cap.id) (i : Nat) (res : Bool) (kind result addr aux : Nat) (hs : Nat × Nat) (w : Who)
    (s : State) : getL l i (auditPut res kind result addr aux hs w s) = getL l i s := by
  unfold auditPut
  split
  · rfl
  · simp only [getL_wr, getL_setL_other h]

theorem rd_auditPut_apart {f : Fld} {i : Nat} (h : f.id ≠ HAUD.tail.id ∨ i ≠ 0) (res : Bool) (kind result addr aux : Nat) (hs : Nat × Nat)
    (w : Who) (s : State) : rd f i (auditPut res kind result addr aux hs w s) = rd f i s := by
  unfold auditPut
  split
  · rfl
  · simp only [rd_wr_apart h, rd_setL]

theorem getL_auditPut_apart {l : Lst} {i : Nat} {s : State} (h : l.id ≠ LAUD.cap.id ∨ i ≠ rd HAUD.tail 0 s) (res : Bool)
    (kind result addr aux : Nat) (hs : Nat × Nat) (w : Who) : getL l i (auditPut res kind result addr aux hs w s) = getL l i s := by
  unfold auditPut
  split
  · rfl
  · simp only [getL_wr, getL_setL_apart h]

@[simp] theorem auditPut_cnts (res : Bool) (kind result addr aux : Nat) (hs : Nat × Nat) (w : Who) (s : State) :
    (auditPut res kind result addr aux hs w s).cnts = s.cnts := by
  unfold auditPut
  split <;> rfl

@[simp] theorem auditPut_snaps (res : Bool) (kind result addr aux : Nat) (hs : Nat × Nat) (w : Who) (s : State) :
    (auditPut res kind result addr aux hs w s).snaps = s.snaps := by
  unfold auditPut
  split <;> rfl

@[simp] theorem auditPut_tbl (res : Bool) (kind result addr aux : Nat) (hs : Nat × Nat) (w : Who) (s : State) :
    (auditPut res kind result addr aux hs w s).tbl = s.tbl := by
  unfold auditPut
  split <;> rfl

@[simp] theorem auditPut_telFifo (res : Bool) (kind result addr aux : Nat) (hs : Nat × Nat) (w : Who) (s : State) :
    (auditPut res kind result addr aux hs w s).telFifo = s.telFifo := by
  unfold auditPut
  split <;> rfl

@[simp] theorem auditPut_evtRing (res : Bool) (kind result addr aux : Nat) (hs : Nat × Nat) (w : Who) (s : State) :
    (auditPut res kind result addr aux hs w s).evtRing = s.evtRing := by
  unfold auditPut
  split <;> rfl

@[simp] theorem auditPut_recs (res : Bool) (kind result addr aux : Nat) (hs : Nat × Nat) (w : Who) (s : State) :
    (auditPut res kind result addr aux hs w s).recs = s.recs := by
  unfold auditPut
  split <;> rfl

@[simp] theorem auditPut_pins (res : Bool) (kind result addr aux : Nat) (hs : Nat × Nat) (w : Who) (s : State) :
    (auditPut res kind result addr aux hs w s).pins = s.pins := by
  unfold auditPut
  split <;> rfl

@[simp] theorem auditPut_out (res : Bool) (kind result addr aux : Nat) (hs : Nat × Nat) (w : Who) (s : State) :
    (auditPut res kind result addr aux hs w s).out = s.out := by
  unfold auditPut
  split <;> rfl

@[simp] theorem auditPut_fresh (res : Bool) (kind result addr aux : Nat) (hs : Nat × Nat) (w : Who) (s : State) :
    (auditPut res kind result addr aux hs w s).fresh = s.fresh := by
  unfold auditPut
  split <;> rfl

@[simp] theorem auditPut_cyc (res : Bool) (kind result addr aux : Nat) (hs : Nat × Nat) (w : Who) (s : State) :
    (auditPut res kind result addr aux hs w s).cyc = s.cyc := by
  unfold auditPut
  split <;> rfl

@[simp] theorem auditPut_pending (res : Bool) (kind result addr aux : Nat) (hs : Nat × Nat) (w : Who) (s : State) :
    (auditPut res kind result addr aux hs w s).pending = s.pending := by
  unfold auditPut
  split <;> rfl

theorem rd_auditWritten {f : Fld} (h : f.id ≠ HAUD.tail.id) (j : Nat) (a : Access) (addr : Nat) (r : Reg) (i mask v : Nat) (s0 s : State) :
    rd f j (auditWritten a addr r i mask v s0 s) = rd f j s := by
  simp only [auditWritten, apply_ite (rd f j), rd_auditPut h, ite_self]

theorem rd_auditWritten_apart {f : Fld} {j : Nat} (h : f.id ≠ HAUD.tail.id ∨ j ≠ 0) (a : Access) (addr : Nat) (r : Reg)
    (i mask v : Nat) (s0 s : State) : rd f j (auditWritten a addr r i mask v s0 s) = rd f j s := by
  simp only [auditWritten, apply_ite (rd f j), rd_auditPut_apart h, ite_self]

theorem getL_auditWritten_apart {l : Lst} {j : Nat} {s : State} (h : l.id ≠ LAUD.cap.id ∨ j ≠ rd HAUD.tail 0 s) (a : Access) (addr : Nat)
    (r : Reg) (i mask v : Nat) (s0 : State) : getL l j (auditWritten a addr r i mask v s0 s) = getL l j s := by
  simp only [auditWritten, apply_ite (getL l j), getL_auditPut_apart h, ite_self]

theorem getL_auditWritten {l : Lst} (h : l.id ≠ LAUD.cap.id) (j : Nat) (a : Access) (addr : Nat) (r : Reg) (i mask v : Nat) (s0 s : State) :
    getL l j (auditWritten a addr r i mask v s0 s) = getL l j s := by
  simp only [auditWritten, apply_ite (getL l j), getL_auditPut h, ite_self]

@[simp] theorem auditWritten_cnts (a : Access) (addr : Nat) (r : Reg) (i mask v : Nat) (s0 s : State) :
    (auditWritten a addr r i mask v s0 s).cnts = s.cnts := by
  simp only [auditWritten, apply_ite State.cnts, auditPut_cnts, ite_self]

@[simp] theorem auditWritten_snaps (a : Access) (addr : Nat) (r : Reg) (i mask v : Nat) (s0 s : State) :
    (auditWritten a addr r i mask v s0 s).snaps = s.snaps := by
  simp only [auditWritten, apply_ite State.snaps, auditPut_snaps, ite_self]

@[simp] theorem auditWritten_tbl (a : Access) (addr : Nat) (r : Reg) (i mask v : Nat) (s0 s : State) :
    (auditWritten a addr r i mask v s0 s).tbl = s.tbl := by
  simp only [auditWritten, apply_ite State.tbl, auditPut_tbl, ite_self]

@[simp] theorem auditWritten_telFifo (a : Access) (addr : Nat) (r : Reg) (i mask v : Nat) (s0 s : State) :
    (auditWritten a addr r i mask v s0 s).telFifo = s.telFifo := by
  simp only [auditWritten, apply_ite State.telFifo, auditPut_telFifo, ite_self]

@[simp] theorem auditWritten_evtRing (a : Access) (addr : Nat) (r : Reg) (i mask v : Nat) (s0 s : State) :
    (auditWritten a addr r i mask v s0 s).evtRing = s.evtRing := by
  simp only [auditWritten, apply_ite State.evtRing, auditPut_evtRing, ite_self]

@[simp] theorem auditWritten_recs (a : Access) (addr : Nat) (r : Reg) (i mask v : Nat) (s0 s : State) :
    (auditWritten a addr r i mask v s0 s).recs = s.recs := by
  simp only [auditWritten, apply_ite State.recs, auditPut_recs, ite_self]

@[simp] theorem auditWritten_pins (a : Access) (addr : Nat) (r : Reg) (i mask v : Nat) (s0 s : State) :
    (auditWritten a addr r i mask v s0 s).pins = s.pins := by
  simp only [auditWritten, apply_ite State.pins, auditPut_pins, ite_self]

@[simp] theorem auditWritten_out (a : Access) (addr : Nat) (r : Reg) (i mask v : Nat) (s0 s : State) :
    (auditWritten a addr r i mask v s0 s).out = s.out := by
  simp only [auditWritten, apply_ite State.out, auditPut_out, ite_self]

@[simp] theorem auditWritten_fresh (a : Access) (addr : Nat) (r : Reg) (i mask v : Nat) (s0 s : State) :
    (auditWritten a addr r i mask v s0 s).fresh = s.fresh := by
  simp only [auditWritten, apply_ite State.fresh, auditPut_fresh, ite_self]

@[simp] theorem auditWritten_cyc (a : Access) (addr : Nat) (r : Reg) (i mask v : Nat) (s0 s : State) :
    (auditWritten a addr r i mask v s0 s).cyc = s.cyc := by
  simp only [auditWritten, apply_ite State.cyc, auditPut_cyc, ite_self]

@[simp] theorem auditWritten_pending (a : Access) (addr : Nat) (r : Reg) (i mask v : Nat) (s0 s : State) :
    (auditWritten a addr r i mask v s0 s).pending = s.pending := by
  simp only [auditWritten, apply_ite State.pending, auditPut_pending, ite_self]

@[simp] theorem cnt_auditWritten (c : Cnt) (j : Nat) (a : Access) (addr : Nat) (r : Reg) (i mask v : Nat) (s0 s : State) :
    cnt c j (auditWritten a addr r i mask v s0 s) = cnt c j s := by
  simp only [cnt, auditWritten_cnts]

@[simp] theorem snapOf_auditWritten (c : Cnt) (j : Nat) (a : Access) (addr : Nat) (r : Reg) (i mask v : Nat) (s0 s : State) :
    snapOf c j (auditWritten a addr r i mask v s0 s) = snapOf c j s := by
  simp only [snapOf, auditWritten_snaps]

/-! ### Accepted writes -/

/-- A direct access by a path other than a core's is made as it comes. -/
theorem coreWrite_outside {a : Access} {s : State} (h : Direct a s) (hc : a.path ≠ .core) (addr mask value : Nat) (k : State → State) :
    coreWrite a addr mask value k s = k s := by
  obtain ⟨-, h, -⟩ := h
  by_cases hp : a.path = .pcie
  · simp [coreWrite, hp, h hp]
  · simp [coreWrite, hc, hp]

/-- A core's direct write is made after it enters the log of what was sent, in lockstep (R350). -/
theorem coreWrite_core {a : Access} {s : State} (h : Direct a s) (hc : a.path = .core) (addr mask value : Nat) (k : State → State) :
    coreWrite a addr mask value k s =
      k (if rd RED_CX_STATUS.mode 0 s = 0 then setL LCX.sent 0 (getL LCX.sent 0 s ++ [a.who, addr, mask, value]) s else s) := by
  obtain ⟨-, -, h⟩ := h
  simp [coreWrite, hc, rdB, h hc]

/-- An accepted write, no part of which is ignored, reaches its targets, stages its ST bits, and is captured. -/
theorem writeReg_accepted {a : Access} {r : Reg} {i mask value : Nat} {s : State} (h : Accepted a r i mask value s)
    (hr : r.id ≠ rCFG_STAGE_DATA.id) (ht : (winTargets (regAddr r i) r i s).any (fun j => targetErr a r mask value j s) = false) :
    writeReg reboot a (regAddr r i) r i mask value s =
      auditWritten a (regAddr r i) r i mask (value &&& mask) s (writeSt a (regAddr r i) r mask value
        (forEach (winTargets (regAddr r i) r i s) (writeTarget reboot a r mask value) s)) := by
  obtain ⟨-, h1, h2, h3, h4, h5⟩ := h
  have h6 : (decide (a.path ≠ .core) && audited r mask && !auditRoom (decide (r.id = rRED_CX_CMD.id)) s) = false := by
    rcases h4 with h | h | h <;> simp [h]
  simp only [writeReg, h1, h2, h3, h5, h6, hr, ht, Bool.not_true, Bool.false_eq_true, if_false]

theorem word_and (v : Nat) : v % 2 ^ 32 &&& 0xFFFFFFFF = v % 2 ^ 32 := by
  rw [show (0xFFFFFFFF : Nat) = 2 ^ 32 - 1 from rfl, Nat.and_two_pow_sub_one_eq_mod, Nat.mod_mod]

/-- A write of a register that is not a slice's reaches one target, live. -/
theorem writeTarget_live {a : Access} {r : Reg} (hs : sliceReg r = false) (hr : r.id ≠ rSLC_RULE_CMD.id) (mask value i : Nat)
    (s : State) : writeTarget reboot a r mask value i s = storeLive reboot a r mask value i s := by
  simp [writeTarget, hs, hr]

theorem winTargets_one {r : Reg} (hs : sliceReg r = false) (addr i : Nat) (s : State) : winTargets addr r i s = [i] := by
  simp [winTargets, hs]

/-- An accepted write of ADM_REQ_CMD is its command, captured. -/
theorem writeReg_ADM_REQ_CMD {a : Access} {i w : Nat} {s : State} (hm : w &&& 0xFFFFFFFF = w) (h : Accepted a rADM_REQ_CMD i 0xFFFFFFFF w s) :
    writeReg reboot a (regAddr rADM_REQ_CMD i) rADM_REQ_CMD i 0xFFFFFFFF w s =
      auditWritten a (regAddr rADM_REQ_CMD i) rADM_REQ_CMD i 0xFFFFFFFF w s (woAct reboot a rADM_REQ_CMD i w s) := by
  have l1 : ∀ j t, lockedFlds rADM_REQ_CMD j t = [] := by simp +decide [lockedFlds]
  have a1 : ∀ s0 j t, after s0 rADM_REQ_CMD j t = t := fun _ _ _ => rfl
  have c1 : ∀ j w t, clearW1c rADM_REQ_CMD j w t = t := fun _ _ _ => rfl
  have p1 : ∀ j, pairOf rADM_REQ_CMD j = none := fun _ => rfl
  have q1 : ∀ j m w t, polWritten rADM_REQ_CMD j m w t = t := fun _ _ _ _ => rfl
  have m1 : maskOf (fun f => f.acc = .st) rADM_REQ_CMD = 0 := rfl
  have s1 : sliceReg rADM_REQ_CMD = false := rfl
  have f1 : ∀ v, rADM_REQ_CMD.fields.any (fun f => decide (f.acc = .st) && changes f rADM_REQ_CMD i 0xFFFFFFFF v s) = false := fun _ => rfl
  have g1 : decide (rADM_REQ_CMD.id = rSLC_RULE_CMD.id) = false := rfl
  have k1 : ∀ v t, (redAsks rADM_REQ_CMD v t).any not = false := fun _ _ => rfl
  have te : targetErr a rADM_REQ_CMD 0xFFFFFFFF w i s = false := by
    simp [targetErr, lockHit, l1, f1, g1, s1, k1, hm]
  rw [writeReg_accepted h (by decide) (by rw [winTargets_one s1]; simpa using te), winTargets_one s1, forEach_cons, forEach_nil,
    writeTarget_live s1 (by decide), hm]
  simp only [writeSt, m1, Nat.and_zero, if_true, storeLive, a1, c1, p1, q1, hm]
  rfl

/-- An accepted write of TEL_SNAP_ALL is its command, captured. -/
theorem writeReg_TEL_SNAP_ALL {a : Access} {i w : Nat} {s : State} (hm : w &&& 0xFFFFFFFF = w) (h : Accepted a rTEL_SNAP_ALL i 0xFFFFFFFF w s) :
    writeReg reboot a (regAddr rTEL_SNAP_ALL i) rTEL_SNAP_ALL i 0xFFFFFFFF w s =
      auditWritten a (regAddr rTEL_SNAP_ALL i) rTEL_SNAP_ALL i 0xFFFFFFFF w s (woAct reboot a rTEL_SNAP_ALL i w s) := by
  have l1 : ∀ j t, lockedFlds rTEL_SNAP_ALL j t = [] := by simp +decide [lockedFlds]
  have a1 : ∀ s0 j t, after s0 rTEL_SNAP_ALL j t = t := fun _ _ _ => rfl
  have c1 : ∀ j w t, clearW1c rTEL_SNAP_ALL j w t = t := fun _ _ _ => rfl
  have p1 : ∀ j, pairOf rTEL_SNAP_ALL j = none := fun _ => rfl
  have q1 : ∀ j m w t, polWritten rTEL_SNAP_ALL j m w t = t := fun _ _ _ _ => rfl
  have m1 : maskOf (fun f => f.acc = .st) rTEL_SNAP_ALL = 0 := rfl
  have s1 : sliceReg rTEL_SNAP_ALL = false := rfl
  have f1 : ∀ v, rTEL_SNAP_ALL.fields.any (fun f => decide (f.acc = .st) && changes f rTEL_SNAP_ALL i 0xFFFFFFFF v s) = false := fun _ => rfl
  have g1 : decide (rTEL_SNAP_ALL.id = rSLC_RULE_CMD.id) = false := rfl
  have k1 : ∀ v t, (redAsks rTEL_SNAP_ALL v t).any not = false := fun _ _ => rfl
  have te : targetErr a rTEL_SNAP_ALL 0xFFFFFFFF w i s = false := by
    simp [targetErr, lockHit, l1, f1, g1, s1, k1, hm]
  rw [writeReg_accepted h (by decide) (by rw [winTargets_one s1]; simpa using te), winTargets_one s1, forEach_cons, forEach_nil,
    writeTarget_live s1 (by decide), hm]
  simp only [writeSt, m1, Nat.and_zero, if_true, storeLive, a1, c1, p1, q1, hm]
  rfl

/-- An accepted write of SCH_Q_CLEAR is its command, captured. -/
theorem writeReg_SCH_Q_CLEAR {a : Access} {i w : Nat} {s : State} (hm : w &&& 0xFFFFFFFF = w) (h : Accepted a rSCH_Q_CLEAR i 0xFFFFFFFF w s) :
    writeReg reboot a (regAddr rSCH_Q_CLEAR i) rSCH_Q_CLEAR i 0xFFFFFFFF w s =
      auditWritten a (regAddr rSCH_Q_CLEAR i) rSCH_Q_CLEAR i 0xFFFFFFFF w s (woAct reboot a rSCH_Q_CLEAR i w s) := by
  have l1 : ∀ j t, lockedFlds rSCH_Q_CLEAR j t = [] := by simp +decide [lockedFlds]
  have a1 : ∀ s0 j t, after s0 rSCH_Q_CLEAR j t = t := fun _ _ _ => rfl
  have c1 : ∀ j w t, clearW1c rSCH_Q_CLEAR j w t = t := fun _ _ _ => rfl
  have p1 : ∀ j, pairOf rSCH_Q_CLEAR j = none := fun _ => rfl
  have q1 : ∀ j m w t, polWritten rSCH_Q_CLEAR j m w t = t := fun _ _ _ _ => rfl
  have m1 : maskOf (fun f => f.acc = .st) rSCH_Q_CLEAR = 0 := rfl
  have s1 : sliceReg rSCH_Q_CLEAR = false := rfl
  have f1 : ∀ v, rSCH_Q_CLEAR.fields.any (fun f => decide (f.acc = .st) && changes f rSCH_Q_CLEAR i 0xFFFFFFFF v s) = false := fun _ => rfl
  have g1 : decide (rSCH_Q_CLEAR.id = rSLC_RULE_CMD.id) = false := rfl
  have k1 : ∀ v t, (redAsks rSCH_Q_CLEAR v t).any not = false := fun _ _ => rfl
  have te : targetErr a rSCH_Q_CLEAR 0xFFFFFFFF w i s = false := by
    simp [targetErr, lockHit, l1, f1, g1, s1, k1, hm]
  rw [writeReg_accepted h (by decide) (by rw [winTargets_one s1]; simpa using te), winTargets_one s1, forEach_cons, forEach_nil,
    writeTarget_live s1 (by decide), hm]
  simp only [writeSt, m1, Nat.and_zero, if_true, storeLive, a1, c1, p1, q1, hm]
  rfl

/-- An accepted write of TBL_CMD is its command, captured. -/
theorem writeReg_TBL_CMD {a : Access} {i w : Nat} {s : State} (hm : w &&& 0xFFFFFFFF = w) (h : Accepted a rTBL_CMD i 0xFFFFFFFF w s) :
    writeReg reboot a (regAddr rTBL_CMD i) rTBL_CMD i 0xFFFFFFFF w s =
      auditWritten a (regAddr rTBL_CMD i) rTBL_CMD i 0xFFFFFFFF w s (woAct reboot a rTBL_CMD i w s) := by
  have l1 : ∀ j t, lockedFlds rTBL_CMD j t = [] := by simp +decide [lockedFlds]
  have a1 : ∀ s0 j t, after s0 rTBL_CMD j t = t := fun _ _ _ => rfl
  have c1 : ∀ j w t, clearW1c rTBL_CMD j w t = t := fun _ _ _ => rfl
  have p1 : ∀ j, pairOf rTBL_CMD j = none := fun _ => rfl
  have q1 : ∀ j m w t, polWritten rTBL_CMD j m w t = t := fun _ _ _ _ => rfl
  have m1 : maskOf (fun f => f.acc = .st) rTBL_CMD = 0 := rfl
  have s1 : sliceReg rTBL_CMD = false := rfl
  have f1 : ∀ v, rTBL_CMD.fields.any (fun f => decide (f.acc = .st) && changes f rTBL_CMD i 0xFFFFFFFF v s) = false := fun _ => rfl
  have g1 : decide (rTBL_CMD.id = rSLC_RULE_CMD.id) = false := rfl
  have k1 : ∀ v t, (redAsks rTBL_CMD v t).any not = false := fun _ _ => rfl
  have te : targetErr a rTBL_CMD 0xFFFFFFFF w i s = false := by
    simp [targetErr, lockHit, l1, f1, g1, s1, k1, hm]
  rw [writeReg_accepted h (by decide) (by rw [winTargets_one s1]; simpa using te), winTargets_one s1, forEach_cons, forEach_nil,
    writeTarget_live s1 (by decide), hm]
  simp only [writeSt, m1, Nat.and_zero, if_true, storeLive, a1, c1, p1, q1, hm]
  rfl

/-- An accepted write of TIM_TB_W11 is its command, captured. -/
theorem writeReg_TIM_TB_W11 {a : Access} {i w : Nat} {s : State} (hm : w &&& 0xFFFFFFFF = w) (h : Accepted a rTIM_TB_W11 i 0xFFFFFFFF w s) :
    writeReg reboot a (regAddr rTIM_TB_W11 i) rTIM_TB_W11 i 0xFFFFFFFF w s =
      auditWritten a (regAddr rTIM_TB_W11 i) rTIM_TB_W11 i 0xFFFFFFFF w s (woAct reboot a rTIM_TB_W11 i w s) := by
  have l1 : ∀ j t, lockedFlds rTIM_TB_W11 j t = [] := by simp +decide [lockedFlds]
  have a1 : ∀ s0 j t, after s0 rTIM_TB_W11 j t = t := fun _ _ _ => rfl
  have c1 : ∀ j w t, clearW1c rTIM_TB_W11 j w t = t := fun _ _ _ => rfl
  have p1 : ∀ j, pairOf rTIM_TB_W11 j = none := fun _ => rfl
  have q1 : ∀ j m w t, polWritten rTIM_TB_W11 j m w t = t := fun _ _ _ _ => rfl
  have m1 : maskOf (fun f => f.acc = .st) rTIM_TB_W11 = 0 := rfl
  have s1 : sliceReg rTIM_TB_W11 = false := rfl
  have f1 : ∀ v, rTIM_TB_W11.fields.any (fun f => decide (f.acc = .st) && changes f rTIM_TB_W11 i 0xFFFFFFFF v s) = false := fun _ => rfl
  have g1 : decide (rTIM_TB_W11.id = rSLC_RULE_CMD.id) = false := rfl
  have k1 : ∀ v t, (redAsks rTIM_TB_W11 v t).any not = false := fun _ _ => rfl
  have te : targetErr a rTIM_TB_W11 0xFFFFFFFF w i s = false := by
    simp [targetErr, lockHit, l1, f1, g1, s1, k1, hm]
  rw [writeReg_accepted h (by decide) (by rw [winTargets_one s1]; simpa using te), winTargets_one s1, forEach_cons, forEach_nil,
    writeTarget_live s1 (by decide), hm]
  simp only [writeSt, m1, Nat.and_zero, if_true, storeLive, a1, c1, p1, q1, hm]
  rfl

/-- An accepted write of TIM_TIN_W3 is its command, captured. -/
theorem writeReg_TIM_TIN_W3 {a : Access} {i w : Nat} {s : State} (hm : w &&& 0xFFFFFFFF = w) (h : Accepted a rTIM_TIN_W3 i 0xFFFFFFFF w s) :
    writeReg reboot a (regAddr rTIM_TIN_W3 i) rTIM_TIN_W3 i 0xFFFFFFFF w s =
      auditWritten a (regAddr rTIM_TIN_W3 i) rTIM_TIN_W3 i 0xFFFFFFFF w s (woAct reboot a rTIM_TIN_W3 i w s) := by
  have l1 : ∀ j t, lockedFlds rTIM_TIN_W3 j t = [] := by simp +decide [lockedFlds]
  have a1 : ∀ s0 j t, after s0 rTIM_TIN_W3 j t = t := fun _ _ _ => rfl
  have c1 : ∀ j w t, clearW1c rTIM_TIN_W3 j w t = t := fun _ _ _ => rfl
  have p1 : ∀ j, pairOf rTIM_TIN_W3 j = none := fun _ => rfl
  have q1 : ∀ j m w t, polWritten rTIM_TIN_W3 j m w t = t := fun _ _ _ _ => rfl
  have m1 : maskOf (fun f => f.acc = .st) rTIM_TIN_W3 = 0 := rfl
  have s1 : sliceReg rTIM_TIN_W3 = false := rfl
  have f1 : ∀ v, rTIM_TIN_W3.fields.any (fun f => decide (f.acc = .st) && changes f rTIM_TIN_W3 i 0xFFFFFFFF v s) = false := fun _ => rfl
  have g1 : decide (rTIM_TIN_W3.id = rSLC_RULE_CMD.id) = false := rfl
  have k1 : ∀ v t, (redAsks rTIM_TIN_W3 v t).any not = false := fun _ _ => rfl
  have te : targetErr a rTIM_TIN_W3 0xFFFFFFFF w i s = false := by
    simp [targetErr, lockHit, l1, f1, g1, s1, k1, hm]
  rw [writeReg_accepted h (by decide) (by rw [winTargets_one s1]; simpa using te), winTargets_one s1, forEach_cons, forEach_nil,
    writeTarget_live s1 (by decide), hm]
  simp only [writeSt, m1, Nat.and_zero, if_true, storeLive, a1, c1, p1, q1, hm]
  rfl

/-- An accepted write of RED_CX_CMD, no part of it turned away, is its command, captured. -/
theorem writeReg_RED_CX_CMD {a : Access} {i w : Nat} {s : State} (hm : w &&& 0xFFFFFFFF = w) (h : Accepted a rRED_CX_CMD i 0xFFFFFFFF w s)
    (k1 : (redAsks rRED_CX_CMD w s).any not = false) :
    writeReg reboot a (regAddr rRED_CX_CMD i) rRED_CX_CMD i 0xFFFFFFFF w s =
      auditWritten a (regAddr rRED_CX_CMD i) rRED_CX_CMD i 0xFFFFFFFF w s (woAct reboot a rRED_CX_CMD i w s) := by
  have l1 : ∀ j t, lockedFlds rRED_CX_CMD j t = [] := by simp +decide [lockedFlds]
  have a1 : ∀ s0 j t, after s0 rRED_CX_CMD j t = t := fun _ _ _ => rfl
  have c1 : ∀ j w t, clearW1c rRED_CX_CMD j w t = t := fun _ _ _ => rfl
  have p1 : ∀ j, pairOf rRED_CX_CMD j = none := fun _ => rfl
  have q1 : ∀ j m w t, polWritten rRED_CX_CMD j m w t = t := fun _ _ _ _ => rfl
  have m1 : maskOf (fun f => f.acc = .st) rRED_CX_CMD = 0 := rfl
  have s1 : sliceReg rRED_CX_CMD = false := rfl
  have f1 : ∀ v, rRED_CX_CMD.fields.any (fun f => decide (f.acc = .st) && changes f rRED_CX_CMD i 0xFFFFFFFF v s) = false := fun _ => rfl
  have g1 : decide (rRED_CX_CMD.id = rSLC_RULE_CMD.id) = false := rfl
  have te : targetErr a rRED_CX_CMD 0xFFFFFFFF w i s = false := by
    simp [targetErr, lockHit, l1, f1, g1, s1, k1, hm]
  rw [writeReg_accepted h (by decide) (by rw [winTargets_one s1]; simpa using te), winTargets_one s1, forEach_cons, forEach_nil,
    writeTarget_live s1 (by decide), hm]
  simp only [writeSt, m1, Nat.and_zero, if_true, storeLive, a1, c1, p1, q1, hm]
  rfl

/-- An accepted write of RED_SLICE_CMD is its command, captured. -/
theorem writeReg_RED_SLICE_CMD {a : Access} {i w : Nat} {s : State} (hm : w &&& 0xFFFFFFFF = w) (h : Accepted a rRED_SLICE_CMD i 0xFFFFFFFF w s) :
    writeReg reboot a (regAddr rRED_SLICE_CMD i) rRED_SLICE_CMD i 0xFFFFFFFF w s =
      auditWritten a (regAddr rRED_SLICE_CMD i) rRED_SLICE_CMD i 0xFFFFFFFF w s (woAct reboot a rRED_SLICE_CMD i w s) := by
  have l1 : ∀ j t, lockedFlds rRED_SLICE_CMD j t = [] := by simp +decide [lockedFlds]
  have a1 : ∀ s0 j t, after s0 rRED_SLICE_CMD j t = t := fun _ _ _ => rfl
  have c1 : ∀ j w t, clearW1c rRED_SLICE_CMD j w t = t := fun _ _ _ => rfl
  have p1 : ∀ j, pairOf rRED_SLICE_CMD j = none := fun _ => rfl
  have q1 : ∀ j m w t, polWritten rRED_SLICE_CMD j m w t = t := fun _ _ _ _ => rfl
  have m1 : maskOf (fun f => f.acc = .st) rRED_SLICE_CMD = 0 := rfl
  have s1 : sliceReg rRED_SLICE_CMD = false := rfl
  have f1 : ∀ v, rRED_SLICE_CMD.fields.any (fun f => decide (f.acc = .st) && changes f rRED_SLICE_CMD i 0xFFFFFFFF v s) = false := fun _ => rfl
  have g1 : decide (rRED_SLICE_CMD.id = rSLC_RULE_CMD.id) = false := rfl
  have k1 : ∀ v t, (redAsks rRED_SLICE_CMD v t).any not = false := fun _ _ => rfl
  have te : targetErr a rRED_SLICE_CMD 0xFFFFFFFF w i s = false := by
    simp [targetErr, lockHit, l1, f1, g1, s1, k1, hm]
  rw [writeReg_accepted h (by decide) (by rw [winTargets_one s1]; simpa using te), winTargets_one s1, forEach_cons, forEach_nil,
    writeTarget_live s1 (by decide), hm]
  simp only [writeSt, m1, Nat.and_zero, if_true, storeLive, a1, c1, p1, q1, hm]
  rfl

/-- An accepted write of RED_UPDATE_CTRL, no part of it turned away, is its command, captured. -/
theorem writeReg_RED_UPDATE_CTRL {a : Access} {i w : Nat} {s : State} (hm : w &&& 0xFFFFFFFF = w) (h : Accepted a rRED_UPDATE_CTRL i 0xFFFFFFFF w s)
    (k1 : (redAsks rRED_UPDATE_CTRL w s).any not = false) :
    writeReg reboot a (regAddr rRED_UPDATE_CTRL i) rRED_UPDATE_CTRL i 0xFFFFFFFF w s =
      auditWritten a (regAddr rRED_UPDATE_CTRL i) rRED_UPDATE_CTRL i 0xFFFFFFFF w s (woAct reboot a rRED_UPDATE_CTRL i w s) := by
  have l1 : ∀ j t, lockedFlds rRED_UPDATE_CTRL j t = [] := by simp +decide [lockedFlds]
  have a1 : ∀ s0 j t, after s0 rRED_UPDATE_CTRL j t = t := fun _ _ _ => rfl
  have c1 : ∀ j w t, clearW1c rRED_UPDATE_CTRL j w t = t := fun _ _ _ => rfl
  have p1 : ∀ j, pairOf rRED_UPDATE_CTRL j = none := fun _ => rfl
  have q1 : ∀ j m w t, polWritten rRED_UPDATE_CTRL j m w t = t := fun _ _ _ _ => rfl
  have m1 : maskOf (fun f => f.acc = .st) rRED_UPDATE_CTRL = 0 := rfl
  have s1 : sliceReg rRED_UPDATE_CTRL = false := rfl
  have f1 : ∀ v, rRED_UPDATE_CTRL.fields.any (fun f => decide (f.acc = .st) && changes f rRED_UPDATE_CTRL i 0xFFFFFFFF v s) = false := fun _ => rfl
  have g1 : decide (rRED_UPDATE_CTRL.id = rSLC_RULE_CMD.id) = false := rfl
  have te : targetErr a rRED_UPDATE_CTRL 0xFFFFFFFF w i s = false := by
    simp [targetErr, lockHit, l1, f1, g1, s1, k1, hm]
  rw [writeReg_accepted h (by decide) (by rw [winTargets_one s1]; simpa using te), winTargets_one s1, forEach_cons, forEach_nil,
    writeTarget_live s1 (by decide), hm]
  simp only [writeSt, m1, Nat.and_zero, if_true, storeLive, a1, c1, p1, q1, hm]
  rfl

/-- An accepted write of INTC_SW_SET is its command, captured. -/
theorem writeReg_INTC_SW_SET {a : Access} {i w : Nat} {s : State} (hm : w &&& 0xFFFFFFFF = w) (h : Accepted a rINTC_SW_SET i 0xFFFFFFFF w s) :
    writeReg reboot a (regAddr rINTC_SW_SET i) rINTC_SW_SET i 0xFFFFFFFF w s =
      auditWritten a (regAddr rINTC_SW_SET i) rINTC_SW_SET i 0xFFFFFFFF w s (woAct reboot a rINTC_SW_SET i w s) := by
  have l1 : ∀ j t, lockedFlds rINTC_SW_SET j t = [] := by simp +decide [lockedFlds]
  have a1 : ∀ s0 j t, after s0 rINTC_SW_SET j t = t := fun _ _ _ => rfl
  have c1 : ∀ j w t, clearW1c rINTC_SW_SET j w t = t := fun _ _ _ => rfl
  have p1 : ∀ j, pairOf rINTC_SW_SET j = none := fun _ => rfl
  have q1 : ∀ j m w t, polWritten rINTC_SW_SET j m w t = t := fun _ _ _ _ => rfl
  have m1 : maskOf (fun f => f.acc = .st) rINTC_SW_SET = 0 := rfl
  have s1 : sliceReg rINTC_SW_SET = false := rfl
  have f1 : ∀ v, rINTC_SW_SET.fields.any (fun f => decide (f.acc = .st) && changes f rINTC_SW_SET i 0xFFFFFFFF v s) = false := fun _ => rfl
  have g1 : decide (rINTC_SW_SET.id = rSLC_RULE_CMD.id) = false := rfl
  have k1 : ∀ v t, (redAsks rINTC_SW_SET v t).any not = false := fun _ _ => rfl
  have te : targetErr a rINTC_SW_SET 0xFFFFFFFF w i s = false := by
    simp [targetErr, lockHit, l1, f1, g1, s1, k1, hm]
  rw [writeReg_accepted h (by decide) (by rw [winTargets_one s1]; simpa using te), winTargets_one s1, forEach_cons, forEach_nil,
    writeTarget_live s1 (by decide), hm]
  simp only [writeSt, m1, Nat.and_zero, if_true, storeLive, a1, c1, p1, q1, hm]
  rfl

/-- An accepted write of POOL_RECLAIM is its command, captured. -/
theorem writeReg_POOL_RECLAIM {a : Access} {i w : Nat} {s : State} (hm : w &&& 0xFFFFFFFF = w) (h : Accepted a rPOOL_RECLAIM i 0xFFFFFFFF w s) :
    writeReg reboot a (regAddr rPOOL_RECLAIM i) rPOOL_RECLAIM i 0xFFFFFFFF w s =
      auditWritten a (regAddr rPOOL_RECLAIM i) rPOOL_RECLAIM i 0xFFFFFFFF w s (woAct reboot a rPOOL_RECLAIM i w s) := by
  have l1 : ∀ j t, lockedFlds rPOOL_RECLAIM j t = [] := by simp +decide [lockedFlds]
  have a1 : ∀ s0 j t, after s0 rPOOL_RECLAIM j t = t := fun _ _ _ => rfl
  have c1 : ∀ j w t, clearW1c rPOOL_RECLAIM j w t = t := fun _ _ _ => rfl
  have p1 : ∀ j, pairOf rPOOL_RECLAIM j = none := fun _ => rfl
  have q1 : ∀ j m w t, polWritten rPOOL_RECLAIM j m w t = t := fun _ _ _ _ => rfl
  have m1 : maskOf (fun f => f.acc = .st) rPOOL_RECLAIM = 0 := rfl
  have s1 : sliceReg rPOOL_RECLAIM = false := rfl
  have f1 : ∀ v, rPOOL_RECLAIM.fields.any (fun f => decide (f.acc = .st) && changes f rPOOL_RECLAIM i 0xFFFFFFFF v s) = false := fun _ => rfl
  have g1 : decide (rPOOL_RECLAIM.id = rSLC_RULE_CMD.id) = false := rfl
  have k1 : ∀ v t, (redAsks rPOOL_RECLAIM v t).any not = false := fun _ _ => rfl
  have te : targetErr a rPOOL_RECLAIM 0xFFFFFFFF w i s = false := by
    simp [targetErr, lockHit, l1, f1, g1, s1, k1, hm]
  rw [writeReg_accepted h (by decide) (by rw [winTargets_one s1]; simpa using te), winTargets_one s1, forEach_cons, forEach_nil,
    writeTarget_live s1 (by decide), hm]
  simp only [writeSt, m1, Nat.and_zero, if_true, storeLive, a1, c1, p1, q1, hm]
  rfl

/-- An accepted write of POOL_FREE is its command, captured. -/
theorem writeReg_POOL_FREE {a : Access} {i w : Nat} {s : State} (hm : w &&& 0xFFFFFFFF = w) (h : Accepted a rPOOL_FREE i 0xFFFFFFFF w s) :
    writeReg reboot a (regAddr rPOOL_FREE i) rPOOL_FREE i 0xFFFFFFFF w s =
      auditWritten a (regAddr rPOOL_FREE i) rPOOL_FREE i 0xFFFFFFFF w s (woAct reboot a rPOOL_FREE i w s) := by
  have l1 : ∀ j t, lockedFlds rPOOL_FREE j t = [] := by simp +decide [lockedFlds]
  have a1 : ∀ s0 j t, after s0 rPOOL_FREE j t = t := fun _ _ _ => rfl
  have c1 : ∀ j w t, clearW1c rPOOL_FREE j w t = t := fun _ _ _ => rfl
  have p1 : ∀ j, pairOf rPOOL_FREE j = none := fun _ => rfl
  have q1 : ∀ j m w t, polWritten rPOOL_FREE j m w t = t := fun _ _ _ _ => rfl
  have m1 : maskOf (fun f => f.acc = .st) rPOOL_FREE = 0 := rfl
  have s1 : sliceReg rPOOL_FREE = false := rfl
  have f1 : ∀ v, rPOOL_FREE.fields.any (fun f => decide (f.acc = .st) && changes f rPOOL_FREE i 0xFFFFFFFF v s) = false := fun _ => rfl
  have g1 : decide (rPOOL_FREE.id = rSLC_RULE_CMD.id) = false := rfl
  have k1 : ∀ v t, (redAsks rPOOL_FREE v t).any not = false := fun _ _ => rfl
  have te : targetErr a rPOOL_FREE 0xFFFFFFFF w i s = false := by
    simp [targetErr, lockHit, l1, f1, g1, s1, k1, hm]
  rw [writeReg_accepted h (by decide) (by rw [winTargets_one s1]; simpa using te), winTargets_one s1, forEach_cons, forEach_nil,
    writeTarget_live s1 (by decide), hm]
  simp only [writeSt, m1, Nat.and_zero, if_true, storeLive, a1, c1, p1, q1, hm]
  rfl

/-- An accepted write of POOL_GIVE is its command, captured. -/
theorem writeReg_POOL_GIVE {a : Access} {i w : Nat} {s : State} (hm : w &&& 0xFFFFFFFF = w) (h : Accepted a rPOOL_GIVE i 0xFFFFFFFF w s) :
    writeReg reboot a (regAddr rPOOL_GIVE i) rPOOL_GIVE i 0xFFFFFFFF w s =
      auditWritten a (regAddr rPOOL_GIVE i) rPOOL_GIVE i 0xFFFFFFFF w s (woAct reboot a rPOOL_GIVE i w s) := by
  have l1 : ∀ j t, lockedFlds rPOOL_GIVE j t = [] := by simp +decide [lockedFlds]
  have a1 : ∀ s0 j t, after s0 rPOOL_GIVE j t = t := fun _ _ _ => rfl
  have c1 : ∀ j w t, clearW1c rPOOL_GIVE j w t = t := fun _ _ _ => rfl
  have p1 : ∀ j, pairOf rPOOL_GIVE j = none := fun _ => rfl
  have q1 : ∀ j m w t, polWritten rPOOL_GIVE j m w t = t := fun _ _ _ _ => rfl
  have m1 : maskOf (fun f => f.acc = .st) rPOOL_GIVE = 0 := rfl
  have s1 : sliceReg rPOOL_GIVE = false := rfl
  have f1 : ∀ v, rPOOL_GIVE.fields.any (fun f => decide (f.acc = .st) && changes f rPOOL_GIVE i 0xFFFFFFFF v s) = false := fun _ => rfl
  have g1 : decide (rPOOL_GIVE.id = rSLC_RULE_CMD.id) = false := rfl
  have k1 : ∀ v t, (redAsks rPOOL_GIVE v t).any not = false := fun _ _ => rfl
  have te : targetErr a rPOOL_GIVE 0xFFFFFFFF w i s = false := by
    simp [targetErr, lockHit, l1, f1, g1, s1, k1, hm]
  rw [writeReg_accepted h (by decide) (by rw [winTargets_one s1]; simpa using te), winTargets_one s1, forEach_cons, forEach_nil,
    writeTarget_live s1 (by decide), hm]
  simp only [writeSt, m1, Nat.and_zero, if_true, storeLive, a1, c1, p1, q1, hm]
  rfl

/-- An accepted write of CFG_BOOT_STATUS is its command, captured. -/
theorem writeReg_CFG_BOOT_STATUS {a : Access} {i w : Nat} {s : State} (hm : w &&& 0xFFFFFFFF = w) (h : Accepted a rCFG_BOOT_STATUS i 0xFFFFFFFF w s) :
    writeReg reboot a (regAddr rCFG_BOOT_STATUS i) rCFG_BOOT_STATUS i 0xFFFFFFFF w s =
      auditWritten a (regAddr rCFG_BOOT_STATUS i) rCFG_BOOT_STATUS i 0xFFFFFFFF w s (woAct reboot a rCFG_BOOT_STATUS i w s) := by
  have l1 : ∀ j t, lockedFlds rCFG_BOOT_STATUS j t = [] := by simp +decide [lockedFlds]
  have a1 : ∀ s0 j t, after s0 rCFG_BOOT_STATUS j t = t := fun _ _ _ => rfl
  have c1 : ∀ j w t, clearW1c rCFG_BOOT_STATUS j w t = t := fun _ _ _ => rfl
  have p1 : ∀ j, pairOf rCFG_BOOT_STATUS j = none := fun _ => rfl
  have q1 : ∀ j m w t, polWritten rCFG_BOOT_STATUS j m w t = t := fun _ _ _ _ => rfl
  have m1 : maskOf (fun f => f.acc = .st) rCFG_BOOT_STATUS = 0 := rfl
  have s1 : sliceReg rCFG_BOOT_STATUS = false := rfl
  have f1 : ∀ v, rCFG_BOOT_STATUS.fields.any (fun f => decide (f.acc = .st) && changes f rCFG_BOOT_STATUS i 0xFFFFFFFF v s) = false := fun _ => rfl
  have g1 : decide (rCFG_BOOT_STATUS.id = rSLC_RULE_CMD.id) = false := rfl
  have k1 : ∀ v t, (redAsks rCFG_BOOT_STATUS v t).any not = false := fun _ _ => rfl
  have te : targetErr a rCFG_BOOT_STATUS 0xFFFFFFFF w i s = false := by
    simp [targetErr, lockHit, l1, f1, g1, s1, k1, hm]
  rw [writeReg_accepted h (by decide) (by rw [winTargets_one s1]; simpa using te), winTargets_one s1, forEach_cons, forEach_nil,
    writeTarget_live s1 (by decide), hm]
  simp only [writeSt, m1, Nat.and_zero, if_true, storeLive, a1, c1, p1, q1, hm]
  rfl

/-- An accepted write of CFG_BOOT_SEL is its command, captured. -/
theorem writeReg_CFG_BOOT_SEL {a : Access} {i w : Nat} {s : State} (hm : w &&& 0xFFFFFFFF = w) (h : Accepted a rCFG_BOOT_SEL i 0xFFFFFFFF w s) :
    writeReg reboot a (regAddr rCFG_BOOT_SEL i) rCFG_BOOT_SEL i 0xFFFFFFFF w s =
      auditWritten a (regAddr rCFG_BOOT_SEL i) rCFG_BOOT_SEL i 0xFFFFFFFF w s (woAct reboot a rCFG_BOOT_SEL i w s) := by
  have l1 : ∀ j t, lockedFlds rCFG_BOOT_SEL j t = [] := by simp +decide [lockedFlds]
  have a1 : ∀ s0 j t, after s0 rCFG_BOOT_SEL j t = t := fun _ _ _ => rfl
  have c1 : ∀ j w t, clearW1c rCFG_BOOT_SEL j w t = t := fun _ _ _ => rfl
  have p1 : ∀ j, pairOf rCFG_BOOT_SEL j = none := fun _ => rfl
  have q1 : ∀ j m w t, polWritten rCFG_BOOT_SEL j m w t = t := fun _ _ _ _ => rfl
  have m1 : maskOf (fun f => f.acc = .st) rCFG_BOOT_SEL = 0 := rfl
  have s1 : sliceReg rCFG_BOOT_SEL = false := rfl
  have f1 : ∀ v, rCFG_BOOT_SEL.fields.any (fun f => decide (f.acc = .st) && changes f rCFG_BOOT_SEL i 0xFFFFFFFF v s) = false := fun _ => rfl
  have g1 : decide (rCFG_BOOT_SEL.id = rSLC_RULE_CMD.id) = false := rfl
  have k1 : ∀ v t, (redAsks rCFG_BOOT_SEL v t).any not = false := fun _ _ => rfl
  have te : targetErr a rCFG_BOOT_SEL 0xFFFFFFFF w i s = false := by
    simp [targetErr, lockHit, l1, f1, g1, s1, k1, hm]
  rw [writeReg_accepted h (by decide) (by rw [winTargets_one s1]; simpa using te), winTargets_one s1, forEach_cons, forEach_nil,
    writeTarget_live s1 (by decide), hm]
  simp only [writeSt, m1, Nat.and_zero, if_true, storeLive, a1, c1, p1, q1, hm]
  rfl

/-- An accepted write of CFG_CS_W0 is its command, captured. -/
theorem writeReg_CFG_CS_W0 {a : Access} {i w : Nat} {s : State} (hm : w &&& 0xFFFFFFFF = w) (h : Accepted a rCFG_CS_W0 i 0xFFFFFFFF w s) :
    writeReg reboot a (regAddr rCFG_CS_W0 i) rCFG_CS_W0 i 0xFFFFFFFF w s =
      auditWritten a (regAddr rCFG_CS_W0 i) rCFG_CS_W0 i 0xFFFFFFFF w s (woAct reboot a rCFG_CS_W0 i w s) := by
  have l1 : ∀ j t, lockedFlds rCFG_CS_W0 j t = [] := by simp +decide [lockedFlds]
  have a1 : ∀ s0 j t, after s0 rCFG_CS_W0 j t = t := fun _ _ _ => rfl
  have c1 : ∀ j w t, clearW1c rCFG_CS_W0 j w t = t := fun _ _ _ => rfl
  have p1 : ∀ j, pairOf rCFG_CS_W0 j = none := fun _ => rfl
  have q1 : ∀ j m w t, polWritten rCFG_CS_W0 j m w t = t := fun _ _ _ _ => rfl
  have m1 : maskOf (fun f => f.acc = .st) rCFG_CS_W0 = 0 := rfl
  have s1 : sliceReg rCFG_CS_W0 = false := rfl
  have f1 : ∀ v, rCFG_CS_W0.fields.any (fun f => decide (f.acc = .st) && changes f rCFG_CS_W0 i 0xFFFFFFFF v s) = false := fun _ => rfl
  have g1 : decide (rCFG_CS_W0.id = rSLC_RULE_CMD.id) = false := rfl
  have k1 : ∀ v t, (redAsks rCFG_CS_W0 v t).any not = false := fun _ _ => rfl
  have te : targetErr a rCFG_CS_W0 0xFFFFFFFF w i s = false := by
    simp [targetErr, lockHit, l1, f1, g1, s1, k1, hm]
  rw [writeReg_accepted h (by decide) (by rw [winTargets_one s1]; simpa using te), winTargets_one s1, forEach_cons, forEach_nil,
    writeTarget_live s1 (by decide), hm]
  simp only [writeSt, m1, Nat.and_zero, if_true, storeLive, a1, c1, p1, q1, hm]
  rfl

/-- An accepted write of CFG_FLASH_CMD is its command, captured. -/
theorem writeReg_CFG_FLASH_CMD {a : Access} {i w : Nat} {s : State} (hm : w &&& 0xFFFFFFFF = w) (h : Accepted a rCFG_FLASH_CMD i 0xFFFFFFFF w s) :
    writeReg reboot a (regAddr rCFG_FLASH_CMD i) rCFG_FLASH_CMD i 0xFFFFFFFF w s =
      auditWritten a (regAddr rCFG_FLASH_CMD i) rCFG_FLASH_CMD i 0xFFFFFFFF w s (woAct reboot a rCFG_FLASH_CMD i w s) := by
  have l1 : ∀ j t, lockedFlds rCFG_FLASH_CMD j t = [] := by simp +decide [lockedFlds]
  have a1 : ∀ s0 j t, after s0 rCFG_FLASH_CMD j t = t := fun _ _ _ => rfl
  have c1 : ∀ j w t, clearW1c rCFG_FLASH_CMD j w t = t := fun _ _ _ => rfl
  have p1 : ∀ j, pairOf rCFG_FLASH_CMD j = none := fun _ => rfl
  have q1 : ∀ j m w t, polWritten rCFG_FLASH_CMD j m w t = t := fun _ _ _ _ => rfl
  have m1 : maskOf (fun f => f.acc = .st) rCFG_FLASH_CMD = 0 := rfl
  have s1 : sliceReg rCFG_FLASH_CMD = false := rfl
  have f1 : ∀ v, rCFG_FLASH_CMD.fields.any (fun f => decide (f.acc = .st) && changes f rCFG_FLASH_CMD i 0xFFFFFFFF v s) = false := fun _ => rfl
  have g1 : decide (rCFG_FLASH_CMD.id = rSLC_RULE_CMD.id) = false := rfl
  have k1 : ∀ v t, (redAsks rCFG_FLASH_CMD v t).any not = false := fun _ _ => rfl
  have te : targetErr a rCFG_FLASH_CMD 0xFFFFFFFF w i s = false := by
    simp [targetErr, lockHit, l1, f1, g1, s1, k1, hm]
  rw [writeReg_accepted h (by decide) (by rw [winTargets_one s1]; simpa using te), winTargets_one s1, forEach_cons, forEach_nil,
    writeTarget_live s1 (by decide), hm]
  simp only [writeSt, m1, Nat.and_zero, if_true, storeLive, a1, c1, p1, q1, hm]
  rfl

/-- An accepted write of ACC_FUSE_CMD is its command, captured. -/
theorem writeReg_ACC_FUSE_CMD {a : Access} {i w : Nat} {s : State} (hm : w &&& 0xFFFFFFFF = w) (h : Accepted a rACC_FUSE_CMD i 0xFFFFFFFF w s) :
    writeReg reboot a (regAddr rACC_FUSE_CMD i) rACC_FUSE_CMD i 0xFFFFFFFF w s =
      auditWritten a (regAddr rACC_FUSE_CMD i) rACC_FUSE_CMD i 0xFFFFFFFF w s (woAct reboot a rACC_FUSE_CMD i w s) := by
  have l1 : ∀ j t, lockedFlds rACC_FUSE_CMD j t = [] := by simp +decide [lockedFlds]
  have a1 : ∀ s0 j t, after s0 rACC_FUSE_CMD j t = t := fun _ _ _ => rfl
  have c1 : ∀ j w t, clearW1c rACC_FUSE_CMD j w t = t := fun _ _ _ => rfl
  have p1 : ∀ j, pairOf rACC_FUSE_CMD j = none := fun _ => rfl
  have q1 : ∀ j m w t, polWritten rACC_FUSE_CMD j m w t = t := fun _ _ _ _ => rfl
  have m1 : maskOf (fun f => f.acc = .st) rACC_FUSE_CMD = 0 := rfl
  have s1 : sliceReg rACC_FUSE_CMD = false := rfl
  have f1 : ∀ v, rACC_FUSE_CMD.fields.any (fun f => decide (f.acc = .st) && changes f rACC_FUSE_CMD i 0xFFFFFFFF v s) = false := fun _ => rfl
  have g1 : decide (rACC_FUSE_CMD.id = rSLC_RULE_CMD.id) = false := rfl
  have k1 : ∀ v t, (redAsks rACC_FUSE_CMD v t).any not = false := fun _ _ => rfl
  have te : targetErr a rACC_FUSE_CMD 0xFFFFFFFF w i s = false := by
    simp [targetErr, lockHit, l1, f1, g1, s1, k1, hm]
  rw [writeReg_accepted h (by decide) (by rw [winTargets_one s1]; simpa using te), winTargets_one s1, forEach_cons, forEach_nil,
    writeTarget_live s1 (by decide), hm]
  simp only [writeSt, m1, Nat.and_zero, if_true, storeLive, a1, c1, p1, q1, hm]
  rfl

/-- An accepted write of ACC_FUSE_DATA is its command, captured. -/
theorem writeReg_ACC_FUSE_DATA {a : Access} {i w : Nat} {s : State} (hm : w &&& 0xFFFFFFFF = w) (h : Accepted a rACC_FUSE_DATA i 0xFFFFFFFF w s) :
    writeReg reboot a (regAddr rACC_FUSE_DATA i) rACC_FUSE_DATA i 0xFFFFFFFF w s =
      auditWritten a (regAddr rACC_FUSE_DATA i) rACC_FUSE_DATA i 0xFFFFFFFF w s (woAct reboot a rACC_FUSE_DATA i w s) := by
  have l1 : ∀ j t, lockedFlds rACC_FUSE_DATA j t = [] := by simp +decide [lockedFlds]
  have a1 : ∀ s0 j t, after s0 rACC_FUSE_DATA j t = t := fun _ _ _ => rfl
  have c1 : ∀ j w t, clearW1c rACC_FUSE_DATA j w t = t := fun _ _ _ => rfl
  have p1 : ∀ j, pairOf rACC_FUSE_DATA j = none := fun _ => rfl
  have q1 : ∀ j m w t, polWritten rACC_FUSE_DATA j m w t = t := fun _ _ _ _ => rfl
  have m1 : maskOf (fun f => f.acc = .st) rACC_FUSE_DATA = 0 := rfl
  have s1 : sliceReg rACC_FUSE_DATA = false := rfl
  have f1 : ∀ v, rACC_FUSE_DATA.fields.any (fun f => decide (f.acc = .st) && changes f rACC_FUSE_DATA i 0xFFFFFFFF v s) = false := fun _ => rfl
  have g1 : decide (rACC_FUSE_DATA.id = rSLC_RULE_CMD.id) = false := rfl
  have k1 : ∀ v t, (redAsks rACC_FUSE_DATA v t).any not = false := fun _ _ => rfl
  have te : targetErr a rACC_FUSE_DATA 0xFFFFFFFF w i s = false := by
    simp [targetErr, lockHit, l1, f1, g1, s1, k1, hm]
  rw [writeReg_accepted h (by decide) (by rw [winTargets_one s1]; simpa using te), winTargets_one s1, forEach_cons, forEach_nil,
    writeTarget_live s1 (by decide), hm]
  simp only [writeSt, m1, Nat.and_zero, if_true, storeLive, a1, c1, p1, q1, hm]
  rfl

/-- An accepted write of ADM_SNAPSHOT is its command, captured. -/
theorem writeReg_ADM_SNAPSHOT {a : Access} {i w : Nat} {s : State} (hm : w &&& 0xFFFFFFFF = w) (h : Accepted a rADM_SNAPSHOT i 0xFFFFFFFF w s) :
    writeReg reboot a (regAddr rADM_SNAPSHOT i) rADM_SNAPSHOT i 0xFFFFFFFF w s =
      auditWritten a (regAddr rADM_SNAPSHOT i) rADM_SNAPSHOT i 0xFFFFFFFF w s (woAct reboot a rADM_SNAPSHOT i w s) := by
  have l1 : ∀ j t, lockedFlds rADM_SNAPSHOT j t = [] := by simp +decide [lockedFlds]
  have a1 : ∀ s0 j t, after s0 rADM_SNAPSHOT j t = t := fun _ _ _ => rfl
  have c1 : ∀ j w t, clearW1c rADM_SNAPSHOT j w t = t := fun _ _ _ => rfl
  have p1 : ∀ j, pairOf rADM_SNAPSHOT j = none := fun _ => rfl
  have q1 : ∀ j m w t, polWritten rADM_SNAPSHOT j m w t = t := fun _ _ _ _ => rfl
  have m1 : maskOf (fun f => f.acc = .st) rADM_SNAPSHOT = 0 := rfl
  have s1 : sliceReg rADM_SNAPSHOT = false := rfl
  have f1 : ∀ v, rADM_SNAPSHOT.fields.any (fun f => decide (f.acc = .st) && changes f rADM_SNAPSHOT i 0xFFFFFFFF v s) = false := fun _ => rfl
  have g1 : decide (rADM_SNAPSHOT.id = rSLC_RULE_CMD.id) = false := rfl
  have k1 : ∀ v t, (redAsks rADM_SNAPSHOT v t).any not = false := fun _ _ => rfl
  have te : targetErr a rADM_SNAPSHOT 0xFFFFFFFF w i s = false := by
    simp [targetErr, lockHit, l1, f1, g1, s1, k1, hm]
  rw [writeReg_accepted h (by decide) (by rw [winTargets_one s1]; simpa using te), winTargets_one s1, forEach_cons, forEach_nil,
    writeTarget_live s1 (by decide), hm]
  simp only [writeSt, m1, Nat.and_zero, if_true, storeLive, a1, c1, p1, q1, hm]
  rfl

/-- An accepted write of PRT_SNAPSHOT is its command, captured. -/
theorem writeReg_PRT_SNAPSHOT {a : Access} {i w : Nat} {s : State} (hm : w &&& 0xFFFFFFFF = w) (h : Accepted a rPRT_SNAPSHOT i 0xFFFFFFFF w s) :
    writeReg reboot a (regAddr rPRT_SNAPSHOT i) rPRT_SNAPSHOT i 0xFFFFFFFF w s =
      auditWritten a (regAddr rPRT_SNAPSHOT i) rPRT_SNAPSHOT i 0xFFFFFFFF w s (woAct reboot a rPRT_SNAPSHOT i w s) := by
  have l1 : ∀ j t, lockedFlds rPRT_SNAPSHOT j t = [] := by simp +decide [lockedFlds]
  have a1 : ∀ s0 j t, after s0 rPRT_SNAPSHOT j t = t := fun _ _ _ => rfl
  have c1 : ∀ j w t, clearW1c rPRT_SNAPSHOT j w t = t := fun _ _ _ => rfl
  have p1 : ∀ j, pairOf rPRT_SNAPSHOT j = none := fun _ => rfl
  have q1 : ∀ j m w t, polWritten rPRT_SNAPSHOT j m w t = t := fun _ _ _ _ => rfl
  have m1 : maskOf (fun f => f.acc = .st) rPRT_SNAPSHOT = 0 := rfl
  have s1 : sliceReg rPRT_SNAPSHOT = false := rfl
  have f1 : ∀ v, rPRT_SNAPSHOT.fields.any (fun f => decide (f.acc = .st) && changes f rPRT_SNAPSHOT i 0xFFFFFFFF v s) = false := fun _ => rfl
  have g1 : decide (rPRT_SNAPSHOT.id = rSLC_RULE_CMD.id) = false := rfl
  have k1 : ∀ v t, (redAsks rPRT_SNAPSHOT v t).any not = false := fun _ _ => rfl
  have te : targetErr a rPRT_SNAPSHOT 0xFFFFFFFF w i s = false := by
    simp [targetErr, lockHit, l1, f1, g1, s1, k1, hm]
  rw [writeReg_accepted h (by decide) (by rw [winTargets_one s1]; simpa using te), winTargets_one s1, forEach_cons, forEach_nil,
    writeTarget_live s1 (by decide), hm]
  simp only [writeSt, m1, Nat.and_zero, if_true, storeLive, a1, c1, p1, q1, hm]
  rfl

/-- An accepted write of TBL_SNAPSHOT is its command, captured. -/
theorem writeReg_TBL_SNAPSHOT {a : Access} {i w : Nat} {s : State} (hm : w &&& 0xFFFFFFFF = w) (h : Accepted a rTBL_SNAPSHOT i 0xFFFFFFFF w s) :
    writeReg reboot a (regAddr rTBL_SNAPSHOT i) rTBL_SNAPSHOT i 0xFFFFFFFF w s =
      auditWritten a (regAddr rTBL_SNAPSHOT i) rTBL_SNAPSHOT i 0xFFFFFFFF w s (woAct reboot a rTBL_SNAPSHOT i w s) := by
  have l1 : ∀ j t, lockedFlds rTBL_SNAPSHOT j t = [] := by simp +decide [lockedFlds]
  have a1 : ∀ s0 j t, after s0 rTBL_SNAPSHOT j t = t := fun _ _ _ => rfl
  have c1 : ∀ j w t, clearW1c rTBL_SNAPSHOT j w t = t := fun _ _ _ => rfl
  have p1 : ∀ j, pairOf rTBL_SNAPSHOT j = none := fun _ => rfl
  have q1 : ∀ j m w t, polWritten rTBL_SNAPSHOT j m w t = t := fun _ _ _ _ => rfl
  have m1 : maskOf (fun f => f.acc = .st) rTBL_SNAPSHOT = 0 := rfl
  have s1 : sliceReg rTBL_SNAPSHOT = false := rfl
  have f1 : ∀ v, rTBL_SNAPSHOT.fields.any (fun f => decide (f.acc = .st) && changes f rTBL_SNAPSHOT i 0xFFFFFFFF v s) = false := fun _ => rfl
  have g1 : decide (rTBL_SNAPSHOT.id = rSLC_RULE_CMD.id) = false := rfl
  have k1 : ∀ v t, (redAsks rTBL_SNAPSHOT v t).any not = false := fun _ _ => rfl
  have te : targetErr a rTBL_SNAPSHOT 0xFFFFFFFF w i s = false := by
    simp [targetErr, lockHit, l1, f1, g1, s1, k1, hm]
  rw [writeReg_accepted h (by decide) (by rw [winTargets_one s1]; simpa using te), winTargets_one s1, forEach_cons, forEach_nil,
    writeTarget_live s1 (by decide), hm]
  simp only [writeSt, m1, Nat.and_zero, if_true, storeLive, a1, c1, p1, q1, hm]
  rfl

/-- An accepted write of BUF_SNAPSHOT is its command, captured. -/
theorem writeReg_BUF_SNAPSHOT {a : Access} {i w : Nat} {s : State} (hm : w &&& 0xFFFFFFFF = w) (h : Accepted a rBUF_SNAPSHOT i 0xFFFFFFFF w s) :
    writeReg reboot a (regAddr rBUF_SNAPSHOT i) rBUF_SNAPSHOT i 0xFFFFFFFF w s =
      auditWritten a (regAddr rBUF_SNAPSHOT i) rBUF_SNAPSHOT i 0xFFFFFFFF w s (woAct reboot a rBUF_SNAPSHOT i w s) := by
  have l1 : ∀ j t, lockedFlds rBUF_SNAPSHOT j t = [] := by simp +decide [lockedFlds]
  have a1 : ∀ s0 j t, after s0 rBUF_SNAPSHOT j t = t := fun _ _ _ => rfl
  have c1 : ∀ j w t, clearW1c rBUF_SNAPSHOT j w t = t := fun _ _ _ => rfl
  have p1 : ∀ j, pairOf rBUF_SNAPSHOT j = none := fun _ => rfl
  have q1 : ∀ j m w t, polWritten rBUF_SNAPSHOT j m w t = t := fun _ _ _ _ => rfl
  have m1 : maskOf (fun f => f.acc = .st) rBUF_SNAPSHOT = 0 := rfl
  have s1 : sliceReg rBUF_SNAPSHOT = false := rfl
  have f1 : ∀ v, rBUF_SNAPSHOT.fields.any (fun f => decide (f.acc = .st) && changes f rBUF_SNAPSHOT i 0xFFFFFFFF v s) = false := fun _ => rfl
  have g1 : decide (rBUF_SNAPSHOT.id = rSLC_RULE_CMD.id) = false := rfl
  have k1 : ∀ v t, (redAsks rBUF_SNAPSHOT v t).any not = false := fun _ _ => rfl
  have te : targetErr a rBUF_SNAPSHOT 0xFFFFFFFF w i s = false := by
    simp [targetErr, lockHit, l1, f1, g1, s1, k1, hm]
  rw [writeReg_accepted h (by decide) (by rw [winTargets_one s1]; simpa using te), winTargets_one s1, forEach_cons, forEach_nil,
    writeTarget_live s1 (by decide), hm]
  simp only [writeSt, m1, Nat.and_zero, if_true, storeLive, a1, c1, p1, q1, hm]
  rfl

/-- An accepted write of SCH_SNAPSHOT is its command, captured. -/
theorem writeReg_SCH_SNAPSHOT {a : Access} {i w : Nat} {s : State} (hm : w &&& 0xFFFFFFFF = w) (h : Accepted a rSCH_SNAPSHOT i 0xFFFFFFFF w s) :
    writeReg reboot a (regAddr rSCH_SNAPSHOT i) rSCH_SNAPSHOT i 0xFFFFFFFF w s =
      auditWritten a (regAddr rSCH_SNAPSHOT i) rSCH_SNAPSHOT i 0xFFFFFFFF w s (woAct reboot a rSCH_SNAPSHOT i w s) := by
  have l1 : ∀ j t, lockedFlds rSCH_SNAPSHOT j t = [] := by simp +decide [lockedFlds]
  have a1 : ∀ s0 j t, after s0 rSCH_SNAPSHOT j t = t := fun _ _ _ => rfl
  have c1 : ∀ j w t, clearW1c rSCH_SNAPSHOT j w t = t := fun _ _ _ => rfl
  have p1 : ∀ j, pairOf rSCH_SNAPSHOT j = none := fun _ => rfl
  have q1 : ∀ j m w t, polWritten rSCH_SNAPSHOT j m w t = t := fun _ _ _ _ => rfl
  have m1 : maskOf (fun f => f.acc = .st) rSCH_SNAPSHOT = 0 := rfl
  have s1 : sliceReg rSCH_SNAPSHOT = false := rfl
  have f1 : ∀ v, rSCH_SNAPSHOT.fields.any (fun f => decide (f.acc = .st) && changes f rSCH_SNAPSHOT i 0xFFFFFFFF v s) = false := fun _ => rfl
  have g1 : decide (rSCH_SNAPSHOT.id = rSLC_RULE_CMD.id) = false := rfl
  have k1 : ∀ v t, (redAsks rSCH_SNAPSHOT v t).any not = false := fun _ _ => rfl
  have te : targetErr a rSCH_SNAPSHOT 0xFFFFFFFF w i s = false := by
    simp [targetErr, lockHit, l1, f1, g1, s1, k1, hm]
  rw [writeReg_accepted h (by decide) (by rw [winTargets_one s1]; simpa using te), winTargets_one s1, forEach_cons, forEach_nil,
    writeTarget_live s1 (by decide), hm]
  simp only [writeSt, m1, Nat.and_zero, if_true, storeLive, a1, c1, p1, q1, hm]
  rfl

/-- An accepted write of FAB_SNAPSHOT is its command, captured. -/
theorem writeReg_FAB_SNAPSHOT {a : Access} {i w : Nat} {s : State} (hm : w &&& 0xFFFFFFFF = w) (h : Accepted a rFAB_SNAPSHOT i 0xFFFFFFFF w s) :
    writeReg reboot a (regAddr rFAB_SNAPSHOT i) rFAB_SNAPSHOT i 0xFFFFFFFF w s =
      auditWritten a (regAddr rFAB_SNAPSHOT i) rFAB_SNAPSHOT i 0xFFFFFFFF w s (woAct reboot a rFAB_SNAPSHOT i w s) := by
  have l1 : ∀ j t, lockedFlds rFAB_SNAPSHOT j t = [] := by simp +decide [lockedFlds]
  have a1 : ∀ s0 j t, after s0 rFAB_SNAPSHOT j t = t := fun _ _ _ => rfl
  have c1 : ∀ j w t, clearW1c rFAB_SNAPSHOT j w t = t := fun _ _ _ => rfl
  have p1 : ∀ j, pairOf rFAB_SNAPSHOT j = none := fun _ => rfl
  have q1 : ∀ j m w t, polWritten rFAB_SNAPSHOT j m w t = t := fun _ _ _ _ => rfl
  have m1 : maskOf (fun f => f.acc = .st) rFAB_SNAPSHOT = 0 := rfl
  have s1 : sliceReg rFAB_SNAPSHOT = false := rfl
  have f1 : ∀ v, rFAB_SNAPSHOT.fields.any (fun f => decide (f.acc = .st) && changes f rFAB_SNAPSHOT i 0xFFFFFFFF v s) = false := fun _ => rfl
  have g1 : decide (rFAB_SNAPSHOT.id = rSLC_RULE_CMD.id) = false := rfl
  have k1 : ∀ v t, (redAsks rFAB_SNAPSHOT v t).any not = false := fun _ _ => rfl
  have te : targetErr a rFAB_SNAPSHOT 0xFFFFFFFF w i s = false := by
    simp [targetErr, lockHit, l1, f1, g1, s1, k1, hm]
  rw [writeReg_accepted h (by decide) (by rw [winTargets_one s1]; simpa using te), winTargets_one s1, forEach_cons, forEach_nil,
    writeTarget_live s1 (by decide), hm]
  simp only [writeSt, m1, Nat.and_zero, if_true, storeLive, a1, c1, p1, q1, hm]
  rfl

/-- An accepted write of TIM_SNAPSHOT is its command, captured. -/
theorem writeReg_TIM_SNAPSHOT {a : Access} {i w : Nat} {s : State} (hm : w &&& 0xFFFFFFFF = w) (h : Accepted a rTIM_SNAPSHOT i 0xFFFFFFFF w s) :
    writeReg reboot a (regAddr rTIM_SNAPSHOT i) rTIM_SNAPSHOT i 0xFFFFFFFF w s =
      auditWritten a (regAddr rTIM_SNAPSHOT i) rTIM_SNAPSHOT i 0xFFFFFFFF w s (woAct reboot a rTIM_SNAPSHOT i w s) := by
  have l1 : ∀ j t, lockedFlds rTIM_SNAPSHOT j t = [] := by simp +decide [lockedFlds]
  have a1 : ∀ s0 j t, after s0 rTIM_SNAPSHOT j t = t := fun _ _ _ => rfl
  have c1 : ∀ j w t, clearW1c rTIM_SNAPSHOT j w t = t := fun _ _ _ => rfl
  have p1 : ∀ j, pairOf rTIM_SNAPSHOT j = none := fun _ => rfl
  have q1 : ∀ j m w t, polWritten rTIM_SNAPSHOT j m w t = t := fun _ _ _ _ => rfl
  have m1 : maskOf (fun f => f.acc = .st) rTIM_SNAPSHOT = 0 := rfl
  have s1 : sliceReg rTIM_SNAPSHOT = false := rfl
  have f1 : ∀ v, rTIM_SNAPSHOT.fields.any (fun f => decide (f.acc = .st) && changes f rTIM_SNAPSHOT i 0xFFFFFFFF v s) = false := fun _ => rfl
  have g1 : decide (rTIM_SNAPSHOT.id = rSLC_RULE_CMD.id) = false := rfl
  have k1 : ∀ v t, (redAsks rTIM_SNAPSHOT v t).any not = false := fun _ _ => rfl
  have te : targetErr a rTIM_SNAPSHOT 0xFFFFFFFF w i s = false := by
    simp [targetErr, lockHit, l1, f1, g1, s1, k1, hm]
  rw [writeReg_accepted h (by decide) (by rw [winTargets_one s1]; simpa using te), winTargets_one s1, forEach_cons, forEach_nil,
    writeTarget_live s1 (by decide), hm]
  simp only [writeSt, m1, Nat.and_zero, if_true, storeLive, a1, c1, p1, q1, hm]
  rfl

/-- An accepted write of PWR_SNAPSHOT is its command, captured. -/
theorem writeReg_PWR_SNAPSHOT {a : Access} {i w : Nat} {s : State} (hm : w &&& 0xFFFFFFFF = w) (h : Accepted a rPWR_SNAPSHOT i 0xFFFFFFFF w s) :
    writeReg reboot a (regAddr rPWR_SNAPSHOT i) rPWR_SNAPSHOT i 0xFFFFFFFF w s =
      auditWritten a (regAddr rPWR_SNAPSHOT i) rPWR_SNAPSHOT i 0xFFFFFFFF w s (woAct reboot a rPWR_SNAPSHOT i w s) := by
  have l1 : ∀ j t, lockedFlds rPWR_SNAPSHOT j t = [] := by simp +decide [lockedFlds]
  have a1 : ∀ s0 j t, after s0 rPWR_SNAPSHOT j t = t := fun _ _ _ => rfl
  have c1 : ∀ j w t, clearW1c rPWR_SNAPSHOT j w t = t := fun _ _ _ => rfl
  have p1 : ∀ j, pairOf rPWR_SNAPSHOT j = none := fun _ => rfl
  have q1 : ∀ j m w t, polWritten rPWR_SNAPSHOT j m w t = t := fun _ _ _ _ => rfl
  have m1 : maskOf (fun f => f.acc = .st) rPWR_SNAPSHOT = 0 := rfl
  have s1 : sliceReg rPWR_SNAPSHOT = false := rfl
  have f1 : ∀ v, rPWR_SNAPSHOT.fields.any (fun f => decide (f.acc = .st) && changes f rPWR_SNAPSHOT i 0xFFFFFFFF v s) = false := fun _ => rfl
  have g1 : decide (rPWR_SNAPSHOT.id = rSLC_RULE_CMD.id) = false := rfl
  have k1 : ∀ v t, (redAsks rPWR_SNAPSHOT v t).any not = false := fun _ _ => rfl
  have te : targetErr a rPWR_SNAPSHOT 0xFFFFFFFF w i s = false := by
    simp [targetErr, lockHit, l1, f1, g1, s1, k1, hm]
  rw [writeReg_accepted h (by decide) (by rw [winTargets_one s1]; simpa using te), winTargets_one s1, forEach_cons, forEach_nil,
    writeTarget_live s1 (by decide), hm]
  simp only [writeSt, m1, Nat.and_zero, if_true, storeLive, a1, c1, p1, q1, hm]
  rfl

/-- An accepted write of RED_SNAPSHOT is its command, captured. -/
theorem writeReg_RED_SNAPSHOT {a : Access} {i w : Nat} {s : State} (hm : w &&& 0xFFFFFFFF = w) (h : Accepted a rRED_SNAPSHOT i 0xFFFFFFFF w s) :
    writeReg reboot a (regAddr rRED_SNAPSHOT i) rRED_SNAPSHOT i 0xFFFFFFFF w s =
      auditWritten a (regAddr rRED_SNAPSHOT i) rRED_SNAPSHOT i 0xFFFFFFFF w s (woAct reboot a rRED_SNAPSHOT i w s) := by
  have l1 : ∀ j t, lockedFlds rRED_SNAPSHOT j t = [] := by simp +decide [lockedFlds]
  have a1 : ∀ s0 j t, after s0 rRED_SNAPSHOT j t = t := fun _ _ _ => rfl
  have c1 : ∀ j w t, clearW1c rRED_SNAPSHOT j w t = t := fun _ _ _ => rfl
  have p1 : ∀ j, pairOf rRED_SNAPSHOT j = none := fun _ => rfl
  have q1 : ∀ j m w t, polWritten rRED_SNAPSHOT j m w t = t := fun _ _ _ _ => rfl
  have m1 : maskOf (fun f => f.acc = .st) rRED_SNAPSHOT = 0 := rfl
  have s1 : sliceReg rRED_SNAPSHOT = false := rfl
  have f1 : ∀ v, rRED_SNAPSHOT.fields.any (fun f => decide (f.acc = .st) && changes f rRED_SNAPSHOT i 0xFFFFFFFF v s) = false := fun _ => rfl
  have g1 : decide (rRED_SNAPSHOT.id = rSLC_RULE_CMD.id) = false := rfl
  have k1 : ∀ v t, (redAsks rRED_SNAPSHOT v t).any not = false := fun _ _ => rfl
  have te : targetErr a rRED_SNAPSHOT 0xFFFFFFFF w i s = false := by
    simp [targetErr, lockHit, l1, f1, g1, s1, k1, hm]
  rw [writeReg_accepted h (by decide) (by rw [winTargets_one s1]; simpa using te), winTargets_one s1, forEach_cons, forEach_nil,
    writeTarget_live s1 (by decide), hm]
  simp only [writeSt, m1, Nat.and_zero, if_true, storeLive, a1, c1, p1, q1, hm]
  rfl

/-- An accepted write of INTC_SNAPSHOT is its command, captured. -/
theorem writeReg_INTC_SNAPSHOT {a : Access} {i w : Nat} {s : State} (hm : w &&& 0xFFFFFFFF = w) (h : Accepted a rINTC_SNAPSHOT i 0xFFFFFFFF w s) :
    writeReg reboot a (regAddr rINTC_SNAPSHOT i) rINTC_SNAPSHOT i 0xFFFFFFFF w s =
      auditWritten a (regAddr rINTC_SNAPSHOT i) rINTC_SNAPSHOT i 0xFFFFFFFF w s (woAct reboot a rINTC_SNAPSHOT i w s) := by
  have l1 : ∀ j t, lockedFlds rINTC_SNAPSHOT j t = [] := by simp +decide [lockedFlds]
  have a1 : ∀ s0 j t, after s0 rINTC_SNAPSHOT j t = t := fun _ _ _ => rfl
  have c1 : ∀ j w t, clearW1c rINTC_SNAPSHOT j w t = t := fun _ _ _ => rfl
  have p1 : ∀ j, pairOf rINTC_SNAPSHOT j = none := fun _ => rfl
  have q1 : ∀ j m w t, polWritten rINTC_SNAPSHOT j m w t = t := fun _ _ _ _ => rfl
  have m1 : maskOf (fun f => f.acc = .st) rINTC_SNAPSHOT = 0 := rfl
  have s1 : sliceReg rINTC_SNAPSHOT = false := rfl
  have f1 : ∀ v, rINTC_SNAPSHOT.fields.any (fun f => decide (f.acc = .st) && changes f rINTC_SNAPSHOT i 0xFFFFFFFF v s) = false := fun _ => rfl
  have g1 : decide (rINTC_SNAPSHOT.id = rSLC_RULE_CMD.id) = false := rfl
  have k1 : ∀ v t, (redAsks rINTC_SNAPSHOT v t).any not = false := fun _ _ => rfl
  have te : targetErr a rINTC_SNAPSHOT 0xFFFFFFFF w i s = false := by
    simp [targetErr, lockHit, l1, f1, g1, s1, k1, hm]
  rw [writeReg_accepted h (by decide) (by rw [winTargets_one s1]; simpa using te), winTargets_one s1, forEach_cons, forEach_nil,
    writeTarget_live s1 (by decide), hm]
  simp only [writeSt, m1, Nat.and_zero, if_true, storeLive, a1, c1, p1, q1, hm]
  rfl

/-- An accepted write of POOL_SNAPSHOT is its command, captured. -/
theorem writeReg_POOL_SNAPSHOT {a : Access} {i w : Nat} {s : State} (hm : w &&& 0xFFFFFFFF = w) (h : Accepted a rPOOL_SNAPSHOT i 0xFFFFFFFF w s) :
    writeReg reboot a (regAddr rPOOL_SNAPSHOT i) rPOOL_SNAPSHOT i 0xFFFFFFFF w s =
      auditWritten a (regAddr rPOOL_SNAPSHOT i) rPOOL_SNAPSHOT i 0xFFFFFFFF w s (woAct reboot a rPOOL_SNAPSHOT i w s) := by
  have l1 : ∀ j t, lockedFlds rPOOL_SNAPSHOT j t = [] := by simp +decide [lockedFlds]
  have a1 : ∀ s0 j t, after s0 rPOOL_SNAPSHOT j t = t := fun _ _ _ => rfl
  have c1 : ∀ j w t, clearW1c rPOOL_SNAPSHOT j w t = t := fun _ _ _ => rfl
  have p1 : ∀ j, pairOf rPOOL_SNAPSHOT j = none := fun _ => rfl
  have q1 : ∀ j m w t, polWritten rPOOL_SNAPSHOT j m w t = t := fun _ _ _ _ => rfl
  have m1 : maskOf (fun f => f.acc = .st) rPOOL_SNAPSHOT = 0 := rfl
  have s1 : sliceReg rPOOL_SNAPSHOT = false := rfl
  have f1 : ∀ v, rPOOL_SNAPSHOT.fields.any (fun f => decide (f.acc = .st) && changes f rPOOL_SNAPSHOT i 0xFFFFFFFF v s) = false := fun _ => rfl
  have g1 : decide (rPOOL_SNAPSHOT.id = rSLC_RULE_CMD.id) = false := rfl
  have k1 : ∀ v t, (redAsks rPOOL_SNAPSHOT v t).any not = false := fun _ _ => rfl
  have te : targetErr a rPOOL_SNAPSHOT 0xFFFFFFFF w i s = false := by
    simp [targetErr, lockHit, l1, f1, g1, s1, k1, hm]
  rw [writeReg_accepted h (by decide) (by rw [winTargets_one s1]; simpa using te), winTargets_one s1, forEach_cons, forEach_nil,
    writeTarget_live s1 (by decide), hm]
  simp only [writeSt, m1, Nat.and_zero, if_true, storeLive, a1, c1, p1, q1, hm]
  rfl

/-- An accepted write of CFG_SNAPSHOT is its command, captured. -/
theorem writeReg_CFG_SNAPSHOT {a : Access} {i w : Nat} {s : State} (hm : w &&& 0xFFFFFFFF = w) (h : Accepted a rCFG_SNAPSHOT i 0xFFFFFFFF w s) :
    writeReg reboot a (regAddr rCFG_SNAPSHOT i) rCFG_SNAPSHOT i 0xFFFFFFFF w s =
      auditWritten a (regAddr rCFG_SNAPSHOT i) rCFG_SNAPSHOT i 0xFFFFFFFF w s (woAct reboot a rCFG_SNAPSHOT i w s) := by
  have l1 : ∀ j t, lockedFlds rCFG_SNAPSHOT j t = [] := by simp +decide [lockedFlds]
  have a1 : ∀ s0 j t, after s0 rCFG_SNAPSHOT j t = t := fun _ _ _ => rfl
  have c1 : ∀ j w t, clearW1c rCFG_SNAPSHOT j w t = t := fun _ _ _ => rfl
  have p1 : ∀ j, pairOf rCFG_SNAPSHOT j = none := fun _ => rfl
  have q1 : ∀ j m w t, polWritten rCFG_SNAPSHOT j m w t = t := fun _ _ _ _ => rfl
  have m1 : maskOf (fun f => f.acc = .st) rCFG_SNAPSHOT = 0 := rfl
  have s1 : sliceReg rCFG_SNAPSHOT = false := rfl
  have f1 : ∀ v, rCFG_SNAPSHOT.fields.any (fun f => decide (f.acc = .st) && changes f rCFG_SNAPSHOT i 0xFFFFFFFF v s) = false := fun _ => rfl
  have g1 : decide (rCFG_SNAPSHOT.id = rSLC_RULE_CMD.id) = false := rfl
  have k1 : ∀ v t, (redAsks rCFG_SNAPSHOT v t).any not = false := fun _ _ => rfl
  have te : targetErr a rCFG_SNAPSHOT 0xFFFFFFFF w i s = false := by
    simp [targetErr, lockHit, l1, f1, g1, s1, k1, hm]
  rw [writeReg_accepted h (by decide) (by rw [winTargets_one s1]; simpa using te), winTargets_one s1, forEach_cons, forEach_nil,
    writeTarget_live s1 (by decide), hm]
  simp only [writeSt, m1, Nat.and_zero, if_true, storeLive, a1, c1, p1, q1, hm]
  rfl

/-- An accepted write of ACC_SNAPSHOT is its command, captured. -/
theorem writeReg_ACC_SNAPSHOT {a : Access} {i w : Nat} {s : State} (hm : w &&& 0xFFFFFFFF = w) (h : Accepted a rACC_SNAPSHOT i 0xFFFFFFFF w s) :
    writeReg reboot a (regAddr rACC_SNAPSHOT i) rACC_SNAPSHOT i 0xFFFFFFFF w s =
      auditWritten a (regAddr rACC_SNAPSHOT i) rACC_SNAPSHOT i 0xFFFFFFFF w s (woAct reboot a rACC_SNAPSHOT i w s) := by
  have l1 : ∀ j t, lockedFlds rACC_SNAPSHOT j t = [] := by simp +decide [lockedFlds]
  have a1 : ∀ s0 j t, after s0 rACC_SNAPSHOT j t = t := fun _ _ _ => rfl
  have c1 : ∀ j w t, clearW1c rACC_SNAPSHOT j w t = t := fun _ _ _ => rfl
  have p1 : ∀ j, pairOf rACC_SNAPSHOT j = none := fun _ => rfl
  have q1 : ∀ j m w t, polWritten rACC_SNAPSHOT j m w t = t := fun _ _ _ _ => rfl
  have m1 : maskOf (fun f => f.acc = .st) rACC_SNAPSHOT = 0 := rfl
  have s1 : sliceReg rACC_SNAPSHOT = false := rfl
  have f1 : ∀ v, rACC_SNAPSHOT.fields.any (fun f => decide (f.acc = .st) && changes f rACC_SNAPSHOT i 0xFFFFFFFF v s) = false := fun _ => rfl
  have g1 : decide (rACC_SNAPSHOT.id = rSLC_RULE_CMD.id) = false := rfl
  have k1 : ∀ v t, (redAsks rACC_SNAPSHOT v t).any not = false := fun _ _ => rfl
  have te : targetErr a rACC_SNAPSHOT 0xFFFFFFFF w i s = false := by
    simp [targetErr, lockHit, l1, f1, g1, s1, k1, hm]
  rw [writeReg_accepted h (by decide) (by rw [winTargets_one s1]; simpa using te), winTargets_one s1, forEach_cons, forEach_nil,
    writeTarget_live s1 (by decide), hm]
  simp only [writeSt, m1, Nat.and_zero, if_true, storeLive, a1, c1, p1, q1, hm]
  rfl

/-- An accepted write of HIF_SNAPSHOT is its command, captured. -/
theorem writeReg_HIF_SNAPSHOT {a : Access} {i w : Nat} {s : State} (hm : w &&& 0xFFFFFFFF = w) (h : Accepted a rHIF_SNAPSHOT i 0xFFFFFFFF w s) :
    writeReg reboot a (regAddr rHIF_SNAPSHOT i) rHIF_SNAPSHOT i 0xFFFFFFFF w s =
      auditWritten a (regAddr rHIF_SNAPSHOT i) rHIF_SNAPSHOT i 0xFFFFFFFF w s (woAct reboot a rHIF_SNAPSHOT i w s) := by
  have l1 : ∀ j t, lockedFlds rHIF_SNAPSHOT j t = [] := by simp +decide [lockedFlds]
  have a1 : ∀ s0 j t, after s0 rHIF_SNAPSHOT j t = t := fun _ _ _ => rfl
  have c1 : ∀ j w t, clearW1c rHIF_SNAPSHOT j w t = t := fun _ _ _ => rfl
  have p1 : ∀ j, pairOf rHIF_SNAPSHOT j = none := fun _ => rfl
  have q1 : ∀ j m w t, polWritten rHIF_SNAPSHOT j m w t = t := fun _ _ _ _ => rfl
  have m1 : maskOf (fun f => f.acc = .st) rHIF_SNAPSHOT = 0 := rfl
  have s1 : sliceReg rHIF_SNAPSHOT = false := rfl
  have f1 : ∀ v, rHIF_SNAPSHOT.fields.any (fun f => decide (f.acc = .st) && changes f rHIF_SNAPSHOT i 0xFFFFFFFF v s) = false := fun _ => rfl
  have g1 : decide (rHIF_SNAPSHOT.id = rSLC_RULE_CMD.id) = false := rfl
  have k1 : ∀ v t, (redAsks rHIF_SNAPSHOT v t).any not = false := fun _ _ => rfl
  have te : targetErr a rHIF_SNAPSHOT 0xFFFFFFFF w i s = false := by
    simp [targetErr, lockHit, l1, f1, g1, s1, k1, hm]
  rw [writeReg_accepted h (by decide) (by rw [winTargets_one s1]; simpa using te), winTargets_one s1, forEach_cons, forEach_nil,
    writeTarget_live s1 (by decide), hm]
  simp only [writeSt, m1, Nat.and_zero, if_true, storeLive, a1, c1, p1, q1, hm]
  rfl

/-- An accepted write of TEL_SNAPSHOT is its command, captured. -/
theorem writeReg_TEL_SNAPSHOT {a : Access} {i w : Nat} {s : State} (hm : w &&& 0xFFFFFFFF = w) (h : Accepted a rTEL_SNAPSHOT i 0xFFFFFFFF w s) :
    writeReg reboot a (regAddr rTEL_SNAPSHOT i) rTEL_SNAPSHOT i 0xFFFFFFFF w s =
      auditWritten a (regAddr rTEL_SNAPSHOT i) rTEL_SNAPSHOT i 0xFFFFFFFF w s (woAct reboot a rTEL_SNAPSHOT i w s) := by
  have l1 : ∀ j t, lockedFlds rTEL_SNAPSHOT j t = [] := by simp +decide [lockedFlds]
  have a1 : ∀ s0 j t, after s0 rTEL_SNAPSHOT j t = t := fun _ _ _ => rfl
  have c1 : ∀ j w t, clearW1c rTEL_SNAPSHOT j w t = t := fun _ _ _ => rfl
  have p1 : ∀ j, pairOf rTEL_SNAPSHOT j = none := fun _ => rfl
  have q1 : ∀ j m w t, polWritten rTEL_SNAPSHOT j m w t = t := fun _ _ _ _ => rfl
  have m1 : maskOf (fun f => f.acc = .st) rTEL_SNAPSHOT = 0 := rfl
  have s1 : sliceReg rTEL_SNAPSHOT = false := rfl
  have f1 : ∀ v, rTEL_SNAPSHOT.fields.any (fun f => decide (f.acc = .st) && changes f rTEL_SNAPSHOT i 0xFFFFFFFF v s) = false := fun _ => rfl
  have g1 : decide (rTEL_SNAPSHOT.id = rSLC_RULE_CMD.id) = false := rfl
  have k1 : ∀ v t, (redAsks rTEL_SNAPSHOT v t).any not = false := fun _ _ => rfl
  have te : targetErr a rTEL_SNAPSHOT 0xFFFFFFFF w i s = false := by
    simp [targetErr, lockHit, l1, f1, g1, s1, k1, hm]
  rw [writeReg_accepted h (by decide) (by rw [winTargets_one s1]; simpa using te), winTargets_one s1, forEach_cons, forEach_nil,
    writeTarget_live s1 (by decide), hm]
  simp only [writeSt, m1, Nat.and_zero, if_true, storeLive, a1, c1, p1, q1, hm]
  rfl

/-- An accepted write of GLB_SNAPSHOT is its command, captured. -/
theorem writeReg_GLB_SNAPSHOT {a : Access} {i w : Nat} {s : State} (hm : w &&& 0xFFFFFFFF = w) (h : Accepted a rGLB_SNAPSHOT i 0xFFFFFFFF w s) :
    writeReg reboot a (regAddr rGLB_SNAPSHOT i) rGLB_SNAPSHOT i 0xFFFFFFFF w s =
      auditWritten a (regAddr rGLB_SNAPSHOT i) rGLB_SNAPSHOT i 0xFFFFFFFF w s (woAct reboot a rGLB_SNAPSHOT i w s) := by
  have l1 : ∀ j t, lockedFlds rGLB_SNAPSHOT j t = [] := by simp +decide [lockedFlds]
  have a1 : ∀ s0 j t, after s0 rGLB_SNAPSHOT j t = t := fun _ _ _ => rfl
  have c1 : ∀ j w t, clearW1c rGLB_SNAPSHOT j w t = t := fun _ _ _ => rfl
  have p1 : ∀ j, pairOf rGLB_SNAPSHOT j = none := fun _ => rfl
  have q1 : ∀ j m w t, polWritten rGLB_SNAPSHOT j m w t = t := fun _ _ _ _ => rfl
  have m1 : maskOf (fun f => f.acc = .st) rGLB_SNAPSHOT = 0 := rfl
  have s1 : sliceReg rGLB_SNAPSHOT = false := rfl
  have f1 : ∀ v, rGLB_SNAPSHOT.fields.any (fun f => decide (f.acc = .st) && changes f rGLB_SNAPSHOT i 0xFFFFFFFF v s) = false := fun _ => rfl
  have g1 : decide (rGLB_SNAPSHOT.id = rSLC_RULE_CMD.id) = false := rfl
  have k1 : ∀ v t, (redAsks rGLB_SNAPSHOT v t).any not = false := fun _ _ => rfl
  have te : targetErr a rGLB_SNAPSHOT 0xFFFFFFFF w i s = false := by
    simp [targetErr, lockHit, l1, f1, g1, s1, k1, hm]
  rw [writeReg_accepted h (by decide) (by rw [winTargets_one s1]; simpa using te), winTargets_one s1, forEach_cons, forEach_nil,
    writeTarget_live s1 (by decide), hm]
  simp only [writeSt, m1, Nat.and_zero, if_true, storeLive, a1, c1, p1, q1, hm]
  rfl

/-- An accepted write of a slice's snapshot register, in the slice's own window, copies that slice's counters (R15). -/
theorem writeReg_SLC_SNAPSHOT {a : Access} {sl : Nat} {s : State} (h : Accepted a rSLC_SNAPSHOT sl 0xFFFFFFFF 1 s)
    (hs : sl < 16) (hw : rd PWR_SLICE.state sl s ≠ 1) (hby : by16 sl s = false) :
    writeReg reboot a (regAddr rSLC_SNAPSHOT sl) rSLC_SNAPSHOT sl 0xFFFFFFFF 1 s =
      auditWritten a (regAddr rSLC_SNAPSHOT sl) rSLC_SNAPSHOT sl 0xFFFFFFFF (1 &&& 0xFFFFFFFF) s (snapSlice sl s) := by
  have l1 : ∀ j t, lockedFlds rSLC_SNAPSHOT j t = [] := by simp +decide [lockedFlds]
  have c1 : ∀ j w t, clearW1c rSLC_SNAPSHOT j w t = t := fun _ _ _ => rfl
  have a1 : ∀ s0 j t, after s0 rSLC_SNAPSHOT j t = t := fun _ _ _ => rfl
  have p1 : ∀ j, pairOf rSLC_SNAPSHOT j = none := fun _ => rfl
  have q1 : ∀ j m w t, polWritten rSLC_SNAPSHOT j m w t = t := fun _ _ _ _ => rfl
  have m1 : maskOf (fun f => f.acc = .st) rSLC_SNAPSHOT = 0 := rfl
  have f1 : ∀ v, rSLC_SNAPSHOT.fields.any (fun f => decide (f.acc = .st) && changes f rSLC_SNAPSHOT sl 0xFFFFFFFF v s) = false := fun _ => rfl
  have g1 : decide (rSLC_SNAPSHOT.id = rSLC_RULE_CMD.id) = false := rfl
  have k1 : ∀ v t, (redAsks rSLC_SNAPSHOT v t).any not = false := fun _ _ => rfl
  have so : sliceOf rSLC_SNAPSHOT sl = sl := by simp [sliceOf, slicePer, rSLC_SNAPSHOT]
  have hsr : sliceReg rSLC_SNAPSHOT = true := rfl
  have wt : winTargets (regAddr rSLC_SNAPSHOT sl) rSLC_SNAPSHOT sl s = [sl] := by
    have h2 : ¬ (0x20000000 ≤ regAddr rSLC_SNAPSHOT sl) := by
      have : regAddr rSLC_SNAPSHOT sl = 0x10000004 + sl * 0x1000000 := by simp [regAddr, rSLC_SNAPSHOT, encIdx]
      omega
    simp [winTargets, hsr, h2, so, hby]
  have te : targetErr a rSLC_SNAPSHOT 0xFFFFFFFF 1 sl s = false := by
    simp [targetErr, lockHit, l1, f1, g1, k1]
  have st : ∀ w, w &&& 0xFFFFFFFF = w →
      storeLive reboot a rSLC_SNAPSHOT 0xFFFFFFFF w sl s = woAct reboot a rSLC_SNAPSHOT sl w s := by
    intro w hm
    simp only [storeLive, c1, a1, p1, q1, hm]
    rfl
  have aw : autumnWake sl s = s := by simp [autumnWake, hw]
  have wtg : writeTarget reboot a rSLC_SNAPSHOT 0xFFFFFFFF 1 sl s = snapSlice sl s := by
    have hne : rSLC_SNAPSHOT.id ≠ rSLC_RULE_CMD.id := by decide
    simp only [writeTarget, hne, ne_eq, not_true_eq_false, decide_false, Bool.and_false, Bool.false_and, Bool.false_eq_true, if_false, hsr, so,
      aw, if_true, st 1 (by decide)]
    rfl
  rw [writeReg_accepted h (by decide) (by rw [wt]; simpa using te), wt, forEach_cons, forEach_nil, wtg, writeSt, m1]
  simp only [Nat.and_zero, if_true]

end Sys2Proof.Machine
end

