-- ==== Sys2Proof/Laws/Frame.lean ====
section
/-!
SUPPORT. Frames: each update keeps every field, list and counter it does not name, so a command keeps what none of its updates names.
-/

namespace Sys2Proof.Machine

variable {fs : List (Fld × Nat)} {ls : List (Lst × Nat)} {cs : List (Cnt × Nat)} {s t : State}

/-! ### Register fields -/

theorem fieldsKept_refl : FieldsKept fs s s := fun _ _ _ _ => rfl

theorem fieldsKept_wr {f : Fld} {i : Nat} (hf : (f, i) ∈ fs) (v : Nat) (h : FieldsKept fs s t) : FieldsKept fs s (wr f i v t) := by
  intro g j ha hg
  rw [rd_wr_apart (hg _ hf)]
  exact h g j ha hg

theorem fieldsKept_resetF {f : Fld} {i : Nat} (hf : (f, i) ∈ fs) (h : FieldsKept fs s t) : FieldsKept fs s (resetF f i t) := by
  intro g j ha hg
  rw [← h g j ha hg]
  unfold rd resetF
  simp only [mgetD]
  rw [mget_mdel_other _ (key_apart (hg _ hf))]

theorem fieldsKept_raise (hf : (HTEL.lost, 0) ∈ fs) (code : Nat) (p : List Nat) (h : FieldsKept fs s t) : FieldsKept fs s (raise code p t) := by
  unfold raise
  split
  · exact h
  · exact fieldsKept_wr hf _ h

theorem fieldsKept_raise_room (hr : t.telFifo.length < 1024) (code : Nat) (p : List Nat) (h : FieldsKept fs s t) :
    FieldsKept fs s (raise code p t) := by
  rw [raise_room code p t hr]
  exact h

theorem fieldsKept_auditWritten (hf : (HAUD.tail, 0) ∈ fs) (a : Access) (addr : Nat) (r : Reg) (i mask v : Nat) (s0 : State)
    (h : FieldsKept fs s t) : FieldsKept fs s (auditWritten a addr r i mask v s0 t) := by
  intro g j ha hg
  rw [rd_auditWritten_apart (hg _ hf)]
  exact h g j ha hg

theorem fieldsKept_settle (s0 : State) (h : FieldsKept fs s t) : FieldsKept fs s (settle s0 t) := by
  intro g j ha hg
  rw [rd_settle (ha _ (by simp)) (ha _ (by simp)) (ha _ (by simp))]
  exact h g j ha hg

theorem fieldsKept_forEach {α : Type} {l : List α} {k : α → State → State}
    (hk : ∀ a ∈ l, ∀ u, FieldsKept fs s u → FieldsKept fs s (k a u)) (h : FieldsKept fs s t) : FieldsKept fs s (forEach l k t) := by
  induction l generalizing t with
  | nil => exact h
  | cons a l ih =>
    rw [forEach_cons]
    exact ih (fun b hb => hk b (List.mem_cons_of_mem _ hb)) (hk a List.mem_cons_self t h)

theorem fieldsKept_setL (l : Lst) (i : Nat) (v : List Nat) (h : FieldsKept fs s t) : FieldsKept fs s (setL l i v t) := h

theorem fieldsKept_incBy (c : Cnt) (i n : Nat) (h : FieldsKept fs s t) : FieldsKept fs s (incBy c i n t) := h

theorem fieldsKept_clrCnt (c : Cnt) (i : Nat) (h : FieldsKept fs s t) : FieldsKept fs s (clrCnt c i t) := h

theorem fieldsKept_emit (k : OutKind) (a : Nat) (args : List Nat) (h : FieldsKept fs s t) : FieldsKept fs s (emit k a args t) := h

theorem fieldsKept_snapWhere (p : Key → Bool) (h : FieldsKept fs s t) : FieldsKept fs s (snapWhere p t) := h

theorem fieldsKept_drawFree (w : Nat) (h : FieldsKept fs s t) : FieldsKept fs s ((drawFree w t).2) := h

/-! ### Lists -/

theorem listsKept_refl : ListsKept ls s s := fun _ _ _ _ => rfl

theorem listsKept_setL {l : Lst} {i : Nat} (hl : (l, i) ∈ ls) (v : List Nat) (h : ListsKept ls s t) : ListsKept ls s (setL l i v t) := by
  intro k j ha hk
  rw [getL_setL_apart (hk _ hl)]
  exact h k j ha hk

theorem listsKept_raise (code : Nat) (p : List Nat) (h : ListsKept ls s t) : ListsKept ls s (raise code p t) := by
  intro k j ha hk
  rw [getL_raise]
  exact h k j ha hk

theorem listsKept_auditWritten (a : Access) (addr : Nat) (r : Reg) (i mask v : Nat) (s0 : State)
    (hl : (LAUD.cap, rd HAUD.tail 0 t) ∈ ls) (h : ListsKept ls s t) : ListsKept ls s (auditWritten a addr r i mask v s0 t) := by
  intro k j ha hk
  rw [getL_auditWritten_apart (hk _ hl)]
  exact h k j ha hk

theorem listsKept_settle (s0 : State) (h : ListsKept ls s t) : ListsKept ls s (settle s0 t) := by
  intro k j ha hk
  rw [getL_settle ha]
  exact h k j ha hk

theorem listsKept_forEach {α : Type} {l : List α} {k : α → State → State}
    (hk : ∀ a ∈ l, ∀ u, ListsKept ls s u → ListsKept ls s (k a u)) (h : ListsKept ls s t) : ListsKept ls s (forEach l k t) := by
  induction l generalizing t with
  | nil => exact h
  | cons a l ih =>
    rw [forEach_cons]
    exact ih (fun b hb => hk b (List.mem_cons_of_mem _ hb)) (hk a List.mem_cons_self t h)

theorem listsKept_wr (f : Fld) (i v : Nat) (h : ListsKept ls s t) : ListsKept ls s (wr f i v t) := h

theorem listsKept_resetF (f : Fld) (i : Nat) (h : ListsKept ls s t) : ListsKept ls s (resetF f i t) := h

theorem listsKept_incBy (c : Cnt) (i n : Nat) (h : ListsKept ls s t) : ListsKept ls s (incBy c i n t) := h

theorem listsKept_clrCnt (c : Cnt) (i : Nat) (h : ListsKept ls s t) : ListsKept ls s (clrCnt c i t) := h

theorem listsKept_emit (k : OutKind) (a : Nat) (args : List Nat) (h : ListsKept ls s t) : ListsKept ls s (emit k a args t) := h

theorem listsKept_snapWhere (p : Key → Bool) (h : ListsKept ls s t) : ListsKept ls s (snapWhere p t) := h

theorem listsKept_drawFree (w : Nat) (h : ListsKept ls s t) : ListsKept ls s ((drawFree w t).2) := h

/-! ### Counters -/

theorem countsKept_refl : CountsKept cs s s := fun _ _ _ => rfl

theorem countsKept_incBy {c : Cnt} {i : Nat} (hc : (c, i) ∈ cs) (n : Nat) (h : CountsKept cs s t) : CountsKept cs s (incBy c i n t) := by
  intro d j hd
  rw [cnt_incBy_apart (hd _ hc)]
  exact h d j hd

theorem countsKept_raise (hc : (cnt_TEL_evt_lost, 0) ∈ cs) (code : Nat) (p : List Nat) (h : CountsKept cs s t) :
    CountsKept cs s (raise code p t) := by
  unfold raise
  split
  · exact h
  · exact countsKept_incBy hc 1 h

theorem countsKept_raise_room (hr : t.telFifo.length < 1024) (code : Nat) (p : List Nat) (h : CountsKept cs s t) :
    CountsKept cs s (raise code p t) := by
  rw [raise_room code p t hr]
  exact h

theorem countsKept_auditWritten (a : Access) (addr : Nat) (r : Reg) (i mask v : Nat) (s0 : State)
    (h : CountsKept cs s t) : CountsKept cs s (auditWritten a addr r i mask v s0 t) := by
  intro d j hd
  rw [cnt_auditWritten]
  exact h d j hd

theorem countsKept_settle (s0 : State) (h : CountsKept cs s t) : CountsKept cs s (settle s0 t) := by
  intro d j hd
  rw [cnt_settle]
  exact h d j hd

theorem countsKept_forEach {α : Type} {l : List α} {k : α → State → State}
    (hk : ∀ a ∈ l, ∀ u, CountsKept cs s u → CountsKept cs s (k a u)) (h : CountsKept cs s t) : CountsKept cs s (forEach l k t) := by
  induction l generalizing t with
  | nil => exact h
  | cons a l ih =>
    rw [forEach_cons]
    exact ih (fun b hb => hk b (List.mem_cons_of_mem _ hb)) (hk a List.mem_cons_self t h)

theorem countsKept_wr (f : Fld) (i v : Nat) (h : CountsKept cs s t) : CountsKept cs s (wr f i v t) := h

theorem countsKept_resetF (f : Fld) (i : Nat) (h : CountsKept cs s t) : CountsKept cs s (resetF f i t) := h

theorem countsKept_setL (l : Lst) (i : Nat) (v : List Nat) (h : CountsKept cs s t) : CountsKept cs s (setL l i v t) := h

theorem countsKept_emit (k : OutKind) (a : Nat) (args : List Nat) (h : CountsKept cs s t) : CountsKept cs s (emit k a args t) := h

theorem countsKept_snapWhere (p : Key → Bool) (h : CountsKept cs s t) : CountsKept cs s (snapWhere p t) := h

theorem countsKept_drawFree (w : Nat) (h : CountsKept cs s t) : CountsKept cs s ((drawFree w t).2) := h

/-! ### The other stores -/

theorem storesKept_wr (f : Fld) (i v : Nat) (h : StoresKept s t) : StoresKept s (wr f i v t) := h

theorem storesKept_resetF (f : Fld) (i : Nat) (h : StoresKept s t) : StoresKept s (resetF f i t) := h

theorem storesKept_setL (l : Lst) (i : Nat) (v : List Nat) (h : StoresKept s t) : StoresKept s (setL l i v t) := h

theorem storesKept_incBy (c : Cnt) (i n : Nat) (h : StoresKept s t) : StoresKept s (incBy c i n t) := h

theorem storesKept_clrCnt (c : Cnt) (i : Nat) (h : StoresKept s t) : StoresKept s (clrCnt c i t) := h

theorem storesKept_emit (k : OutKind) (a : Nat) (args : List Nat) (h : StoresKept s t) : StoresKept s (emit k a args t) := h

theorem storesKept_drawFree (w : Nat) (h : StoresKept s t) : StoresKept s ((drawFree w t).2) := h

theorem storesKept_refl : StoresKept s s := ⟨rfl, rfl, rfl, rfl, rfl⟩

theorem storesKept_raise (code : Nat) (p : List Nat) (h : StoresKept s t) : StoresKept s (raise code p t) := by
  simpa [StoresKept] using h

theorem storesKept_auditWritten (a : Access) (addr : Nat) (r : Reg) (i mask v : Nat) (s0 : State) (h : StoresKept s t) :
    StoresKept s (auditWritten a addr r i mask v s0 t) := by
  simpa [StoresKept] using h

theorem storesKept_settle (h : StoresKept s t) : StoresKept s (settle s t) := by
  simp only [StoresKept, settle_tbl, settle_evtRing, settle_recs, settle_snaps, settle_pending] at h ⊢
  exact ⟨h.1, h.2.1, h.2.2.1, h.2.2.2.1, trivial⟩

theorem storesKept_forEach {α : Type} {l : List α} {k : α → State → State}
    (hk : ∀ a ∈ l, ∀ u, StoresKept s u → StoresKept s (k a u)) (h : StoresKept s t) : StoresKept s (forEach l k t) := by
  induction l generalizing t with
  | nil => exact h
  | cons a l ih =>
    rw [forEach_cons]
    exact ih (fun b hb => hk b (List.mem_cons_of_mem _ hb)) (hk a List.mem_cons_self t h)

/-! ### What a command gives -/

/-- A command that answers a settled state has the properties of that state. -/
theorem gives_of {c : Instr} {u : State} {P : State → Prop} (h : exec c s = .next (settle s u)) (hp : ∀ t, t = settle s u → P t) :
    Gives c s P := ⟨_, h, hp _ rfl⟩

/-! ### What a command raises -/

/-- A capture that finds room is in the FIFO, with its code and payload. -/
theorem raised_raise (code : Nat) (p : List Nat) (u : State) (hc : u.cyc = s.cyc) (h : u.telFifo.length < 1024) :
    Raised code p s (raise code p u) := by
  rw [raise_room code p u h]
  exact ⟨_, (mem_insCapture _ _ _).2 (Or.inl rfl), hc, rfl, rfl⟩

/-- A capture stays in the FIFO when another is made. -/
theorem raised_raise_keep {code : Nat} {p : List Nat} (code' : Nat) (p' : List Nat) (h : Raised code p s t) :
    Raised code p s (raise code' p' t) := by
  obtain ⟨c, hc, h⟩ := h
  unfold raise
  split
  · exact ⟨c, (mem_insCapture _ _ _).2 (Or.inr hc), h⟩
  · exact ⟨c, hc, h⟩

theorem silent_refl : Silent s s := ⟨rfl, rfl⟩

theorem raised_settle {code : Nat} {p : List Nat} (s0 : State) (h : Raised code p s t) : Raised code p s (settle s0 t) := by
  simpa [Raised] using h

end Sys2Proof.Machine
end

