-- ==== Sys2Proof/Laws/Snap.lean ====
section
/-!
SUPPORT. What a snapshot copies, and what the change sets' watch does while none is armed.
-/

namespace Sys2Proof.Machine

theorem mget_filter_in {α : Type} (p : Key → Bool) (m : Map α) (k : Key) (h : p k = true) :
    mget (m.filter (fun e => p e.1)) k = mget m k := by
  induction m with
  | nil => rfl
  | cons e m ih =>
    obtain ⟨k', v⟩ := e
    by_cases hp : p k' = true
    · simp [hp, mget, ih]
    · have hk : k' ≠ k := fun hk => hp (hk ▸ h)
      simp [hp, mget, ih, hk]

theorem mget_filter_out {α : Type} (p : Key → Bool) (m : Map α) (k : Key) (h : p k = false) :
    mget (m.filter (fun e => p e.1)) k = none := by
  induction m with
  | nil => rfl
  | cons e m ih =>
    obtain ⟨k', v⟩ := e
    by_cases hp : p k' = true
    · have hk : k' ≠ k := fun hk => by simp [hk, h] at hp
      simp [hp, mget, ih, hk]
    · simp [hp, ih]

theorem mget_overlay {α : Type} (m keep : Map α) (k : Key) :
    mget (m.foldr (fun e n => mput n e.1 e.2) keep) k = (mget m k).or (mget keep k) := by
  induction m with
  | nil => rfl
  | cons e m ih =>
    obtain ⟨k', v⟩ := e
    simp only [List.foldr_cons, mget]
    split
    · rename_i h
      subst h
      simp [mget_mput_same]
    · rename_i h
      rw [mget_mput_other _ _ h, ih]

/-- A snapshot copies the live value of every counter in its set, and keeps the other copies (R15). -/
theorem snapOf_snapWhere (p : Key → Bool) (c : Cnt) (i : Nat) (s : State) :
    snapOf c i (snapWhere p s) = if p (c.id, i) = true then cnt c i s else snapOf c i s := by
  have h : (snapWhere p s).snaps = (s.cnts.filter (fun e => p e.1)).foldr (fun e m => mput m e.1 e.2)
      (s.snaps.filter (fun e => (fun k => !p k) e.1)) := rfl
  unfold snapOf mgetD
  rw [h, mget_overlay]
  split
  · rename_i hp
    rw [mget_filter_in p _ _ hp, mget_filter_out (fun k => !p k) _ _ (by simp [hp])]
    simp [cnt, mgetD]
  · rename_i hp
    have hp' : p (c.id, i) = false := by simpa using hp
    rw [mget_filter_out p _ _ hp', mget_filter_in (fun k => !p k) _ _ (by simp [hp'])]
    simp

theorem snapOf_snapBlock (cs : List Cnt) (c : Cnt) (i : Nat) (s : State) :
    snapOf c i (snapBlock cs s) = if cs.any (fun d => d.id == c.id) then cnt c i s else snapOf c i s :=
  snapOf_snapWhere _ c i s

/-- While no change set is armed, the watch for their times changes nothing (R436). -/
theorem csNote_unarmed {s : State} (h : ∀ k ∈ [0, 1, 2, 3], rd CFG_CS_W4.state k s ≠ 2) : csNote s = s := by
  have key : ∀ trig p, csArmed trig p s = [] := by
    intro trig p
    simp only [csArmed]
    apply List.filter_eq_nil_iff.2
    intro k hk
    simp [h k hk]
  simp [csNote, key]

end Sys2Proof.Machine
end

