-- ==== Sys2Proof/Laws/Step.lean ====
section
/-!
SUPPORT. What every command and every step is: an effect of its own, and then the end that all commands share.
-/

namespace Sys2Proof.Machine

theorem finish_next (k : State → State) (s : State) : ∃ u, finish k s = .next (settle s u) := ⟨k s, by rw [finish]⟩

theorem tick_eq (s : State) : tick s = settle s (traceNote (txReads (prbsNote (reqNote (csNote (sliceNote (gatesNote (pass 1 s)))))))) := by rw [tick]

/-- Every command is an effect of its own, finished. -/
theorem exec_finish (c : Instr) : ∃ k, ∀ s, exec c s = finish k s := by
  cases c <;> exact ⟨_, fun _ => rfl⟩

/-- Every command is an effect of its own followed by `settle`. -/
theorem exec_settle (c : Instr) (s : State) : ∃ u, exec c s = .next (settle s u) := by
  obtain ⟨k, hk⟩ := exec_finish c
  rw [hk]
  exact finish_next k s

/-- Every step ends in a settled state. -/
theorem step_settle {s t : State} (h : step s = .next t) : ∃ u v, t = settle u v := by
  unfold step at h
  split at h
  · injection h with h
    exact ⟨s, _, by rw [← h, tick_eq]⟩
  · rename_i c rest _
    obtain ⟨u, hu⟩ := exec_settle c { s with pending := rest }
    rw [hu] at h
    injection h with h
    exact ⟨_, u, h.symm⟩

/-- Levels and conditions read the register fields only. -/
theorem alarmLow_regs {s t : State} (h : s.regs = t.regs) : alarmLow s = alarmLow t := by
  simp only [alarmLow, rdB, rd, h]

end Sys2Proof.Machine
end

