-- ==== Sys2Proof/Laws/Time.lean ====
section
/-!
SUPPORT. The passing of time moves the time bases on and changes nothing else.
-/

namespace Sys2Proof.Machine

variable {fs : List (Fld × Nat)} {ls : List (Lst × Nat)} {cs : List (Cnt × Nat)} {s t : State}

theorem tbPass_eq (n b : Nat) (s : State) : ∃ x y : Nat, tbPass n b s = wr TBC.count b y (wr TBC.slew b x s) := ⟨_, _, rfl⟩

theorem pass_eq (n : Nat) (s : State) :
    pass n s = if rdB TBC.pll_locked 0 s then
      tbPass n 7 (tbPass n 6 (tbPass n 5 (tbPass n 4 (tbPass n 3 (tbPass n 2 (tbPass n 1 (tbPass n 0 s))))))) else s := rfl

/-- What no time base changes, the passing of time keeps. -/
theorem pass_keeps {α : Type} (g : State → α) (h : ∀ (f : Fld) (b v : Nat) (u : State), f = TBC.count ∨ f = TBC.slew → b < 8 → g (wr f b v u) = g u)
    (n : Nat) (s : State) : g (pass n s) = g s := by
  have key : ∀ b u, b < 8 → g (tbPass n b u) = g u := by
    intro b u hb
    obtain ⟨x, y, e⟩ := tbPass_eq n b u
    rw [e, h _ _ _ _ (Or.inl rfl) hb, h _ _ _ _ (Or.inr rfl) hb]
  rw [pass_eq]
  split
  · rw [key _ _ (by omega), key _ _ (by omega), key _ _ (by omega), key _ _ (by omega), key _ _ (by omega), key _ _ (by omega),
      key _ _ (by omega), key _ _ (by omega)]
  · rfl

theorem passTo_keeps {α : Type} (g : State → α) (h : ∀ (f : Fld) (b v : Nat) (u : State), f = TBC.count ∨ f = TBC.slew → b < 8 → g (wr f b v u) = g u)
    (n : Nat) (s : State) : g (passTo n s) = g s := by
  unfold passTo
  split
  · exact pass_keeps g h _ _
  · rfl

theorem passTb_keeps {α : Type} (g : State → α) (h : ∀ (f : Fld) (b v : Nat) (u : State), f = TBC.count ∨ f = TBC.slew → b < 8 → g (wr f b v u) = g u)
    (b n : Nat) (s : State) : g (passTb b n s) = g s := by
  unfold passTb
  split
  · exact pass_keeps g h _ _
  · rfl

theorem rd_pass {f : Fld} (h1 : f.id ≠ TBC.count.id) (h2 : f.id ≠ TBC.slew.id) (i : Nat) (n : Nat) (s : State) : rd f i (pass n s) = rd f i s :=
  pass_keeps (rd f i) (fun g b v u hg _ => by rcases hg with rfl | rfl <;> exact rd_wr_other (by assumption) _ _ _ _) _ s

@[simp] theorem pass_lists (n : Nat) (s : State) : (pass n s).lists = s.lists := pass_keeps State.lists (fun _ _ _ _ _ _ => rfl) _ s
@[simp] theorem pass_cnts (n : Nat) (s : State) : (pass n s).cnts = s.cnts := pass_keeps State.cnts (fun _ _ _ _ _ _ => rfl) _ s
@[simp] theorem pass_snaps (n : Nat) (s : State) : (pass n s).snaps = s.snaps := pass_keeps State.snaps (fun _ _ _ _ _ _ => rfl) _ s
@[simp] theorem pass_tbl (n : Nat) (s : State) : (pass n s).tbl = s.tbl := pass_keeps State.tbl (fun _ _ _ _ _ _ => rfl) _ s
@[simp] theorem pass_telFifo (n : Nat) (s : State) : (pass n s).telFifo = s.telFifo := pass_keeps State.telFifo (fun _ _ _ _ _ _ => rfl) _ s
@[simp] theorem pass_evtRing (n : Nat) (s : State) : (pass n s).evtRing = s.evtRing := pass_keeps State.evtRing (fun _ _ _ _ _ _ => rfl) _ s
@[simp] theorem pass_recs (n : Nat) (s : State) : (pass n s).recs = s.recs := pass_keeps State.recs (fun _ _ _ _ _ _ => rfl) _ s
@[simp] theorem pass_pins (n : Nat) (s : State) : (pass n s).pins = s.pins := pass_keeps State.pins (fun _ _ _ _ _ _ => rfl) _ s
@[simp] theorem pass_out (n : Nat) (s : State) : (pass n s).out = s.out := pass_keeps State.out (fun _ _ _ _ _ _ => rfl) _ s
@[simp] theorem pass_fresh (n : Nat) (s : State) : (pass n s).fresh = s.fresh := pass_keeps State.fresh (fun _ _ _ _ _ _ => rfl) _ s
@[simp] theorem pass_cyc (n : Nat) (s : State) : (pass n s).cyc = s.cyc := pass_keeps State.cyc (fun _ _ _ _ _ _ => rfl) _ s
@[simp] theorem pass_pending (n : Nat) (s : State) : (pass n s).pending = s.pending := pass_keeps State.pending (fun _ _ _ _ _ _ => rfl) _ s
@[simp] theorem getL_pass (l : Lst) (i : Nat) (n : Nat) (s : State) : getL l i (pass n s) = getL l i s := by simp only [getL, pass_lists]
@[simp] theorem cnt_pass (c : Cnt) (i : Nat) (n : Nat) (s : State) : cnt c i (pass n s) = cnt c i s := by simp only [cnt, pass_cnts]

theorem fieldsKept_pass (n : Nat) (ht : ∀ e ∈ timeFlds, e ∈ fs) (h : FieldsKept fs s t) : FieldsKept fs s (pass n t) := by
  intro f i ha hf
  rw [← h f i ha hf]
  refine pass_keeps (rd f i) (fun g b v u hg hb => rd_wr_apart ?_ v u) _ t
  refine hf (g, b) (ht _ ?_)
  rcases hg with rfl | rfl <;> simp [timeFlds, hb]

theorem listsKept_pass (n : Nat) (h : ListsKept ls s t) : ListsKept ls s (pass n t) := by
  intro l i ha hl
  rw [getL_pass]
  exact h l i ha hl

theorem countsKept_pass (n : Nat) (h : CountsKept cs s t) : CountsKept cs s (pass n t) := by
  intro c i hc
  rw [cnt_pass]
  exact h c i hc

theorem storesKept_pass (n : Nat) (h : StoresKept s t) : StoresKept s (pass n t) := by
  simpa [StoresKept] using h

theorem rd_passTo {f : Fld} (h1 : f.id ≠ TBC.count.id) (h2 : f.id ≠ TBC.slew.id) (i : Nat) (n : Nat) (s : State) : rd f i (passTo n s) = rd f i s :=
  passTo_keeps (rd f i) (fun g b v u hg _ => by rcases hg with rfl | rfl <;> exact rd_wr_other (by assumption) _ _ _ _) _ s

@[simp] theorem passTo_lists (n : Nat) (s : State) : (passTo n s).lists = s.lists := passTo_keeps State.lists (fun _ _ _ _ _ _ => rfl) _ s
@[simp] theorem passTo_cnts (n : Nat) (s : State) : (passTo n s).cnts = s.cnts := passTo_keeps State.cnts (fun _ _ _ _ _ _ => rfl) _ s
@[simp] theorem passTo_snaps (n : Nat) (s : State) : (passTo n s).snaps = s.snaps := passTo_keeps State.snaps (fun _ _ _ _ _ _ => rfl) _ s
@[simp] theorem passTo_tbl (n : Nat) (s : State) : (passTo n s).tbl = s.tbl := passTo_keeps State.tbl (fun _ _ _ _ _ _ => rfl) _ s
@[simp] theorem passTo_telFifo (n : Nat) (s : State) : (passTo n s).telFifo = s.telFifo := passTo_keeps State.telFifo (fun _ _ _ _ _ _ => rfl) _ s
@[simp] theorem passTo_evtRing (n : Nat) (s : State) : (passTo n s).evtRing = s.evtRing := passTo_keeps State.evtRing (fun _ _ _ _ _ _ => rfl) _ s
@[simp] theorem passTo_recs (n : Nat) (s : State) : (passTo n s).recs = s.recs := passTo_keeps State.recs (fun _ _ _ _ _ _ => rfl) _ s
@[simp] theorem passTo_pins (n : Nat) (s : State) : (passTo n s).pins = s.pins := passTo_keeps State.pins (fun _ _ _ _ _ _ => rfl) _ s
@[simp] theorem passTo_out (n : Nat) (s : State) : (passTo n s).out = s.out := passTo_keeps State.out (fun _ _ _ _ _ _ => rfl) _ s
@[simp] theorem passTo_fresh (n : Nat) (s : State) : (passTo n s).fresh = s.fresh := passTo_keeps State.fresh (fun _ _ _ _ _ _ => rfl) _ s
@[simp] theorem passTo_cyc (n : Nat) (s : State) : (passTo n s).cyc = s.cyc := passTo_keeps State.cyc (fun _ _ _ _ _ _ => rfl) _ s
@[simp] theorem passTo_pending (n : Nat) (s : State) : (passTo n s).pending = s.pending := passTo_keeps State.pending (fun _ _ _ _ _ _ => rfl) _ s
@[simp] theorem getL_passTo (l : Lst) (i : Nat) (n : Nat) (s : State) : getL l i (passTo n s) = getL l i s := by simp only [getL, passTo_lists]
@[simp] theorem cnt_passTo (c : Cnt) (i : Nat) (n : Nat) (s : State) : cnt c i (passTo n s) = cnt c i s := by simp only [cnt, passTo_cnts]

theorem fieldsKept_passTo (n : Nat) (ht : ∀ e ∈ timeFlds, e ∈ fs) (h : FieldsKept fs s t) : FieldsKept fs s (passTo n t) := by
  intro f i ha hf
  rw [← h f i ha hf]
  refine passTo_keeps (rd f i) (fun g b v u hg hb => rd_wr_apart ?_ v u) _ t
  refine hf (g, b) (ht _ ?_)
  rcases hg with rfl | rfl <;> simp [timeFlds, hb]

theorem listsKept_passTo (n : Nat) (h : ListsKept ls s t) : ListsKept ls s (passTo n t) := by
  intro l i ha hl
  rw [getL_passTo]
  exact h l i ha hl

theorem countsKept_passTo (n : Nat) (h : CountsKept cs s t) : CountsKept cs s (passTo n t) := by
  intro c i hc
  rw [cnt_passTo]
  exact h c i hc

theorem storesKept_passTo (n : Nat) (h : StoresKept s t) : StoresKept s (passTo n t) := by
  simpa [StoresKept] using h

theorem rd_passTb {f : Fld} (h1 : f.id ≠ TBC.count.id) (h2 : f.id ≠ TBC.slew.id) (i : Nat) (b n : Nat) (s : State) : rd f i (passTb b n s) = rd f i s :=
  passTb_keeps (rd f i) (fun g b v u hg _ => by rcases hg with rfl | rfl <;> exact rd_wr_other (by assumption) _ _ _ _) _ _ s

@[simp] theorem passTb_lists (b n : Nat) (s : State) : (passTb b n s).lists = s.lists := passTb_keeps State.lists (fun _ _ _ _ _ _ => rfl) _ _ s
@[simp] theorem passTb_cnts (b n : Nat) (s : State) : (passTb b n s).cnts = s.cnts := passTb_keeps State.cnts (fun _ _ _ _ _ _ => rfl) _ _ s
@[simp] theorem passTb_snaps (b n : Nat) (s : State) : (passTb b n s).snaps = s.snaps := passTb_keeps State.snaps (fun _ _ _ _ _ _ => rfl) _ _ s
@[simp] theorem passTb_tbl (b n : Nat) (s : State) : (passTb b n s).tbl = s.tbl := passTb_keeps State.tbl (fun _ _ _ _ _ _ => rfl) _ _ s
@[simp] theorem passTb_telFifo (b n : Nat) (s : State) : (passTb b n s).telFifo = s.telFifo := passTb_keeps State.telFifo (fun _ _ _ _ _ _ => rfl) _ _ s
@[simp] theorem passTb_evtRing (b n : Nat) (s : State) : (passTb b n s).evtRing = s.evtRing := passTb_keeps State.evtRing (fun _ _ _ _ _ _ => rfl) _ _ s
@[simp] theorem passTb_recs (b n : Nat) (s : State) : (passTb b n s).recs = s.recs := passTb_keeps State.recs (fun _ _ _ _ _ _ => rfl) _ _ s
@[simp] theorem passTb_pins (b n : Nat) (s : State) : (passTb b n s).pins = s.pins := passTb_keeps State.pins (fun _ _ _ _ _ _ => rfl) _ _ s
@[simp] theorem passTb_out (b n : Nat) (s : State) : (passTb b n s).out = s.out := passTb_keeps State.out (fun _ _ _ _ _ _ => rfl) _ _ s
@[simp] theorem passTb_fresh (b n : Nat) (s : State) : (passTb b n s).fresh = s.fresh := passTb_keeps State.fresh (fun _ _ _ _ _ _ => rfl) _ _ s
@[simp] theorem passTb_cyc (b n : Nat) (s : State) : (passTb b n s).cyc = s.cyc := passTb_keeps State.cyc (fun _ _ _ _ _ _ => rfl) _ _ s
@[simp] theorem passTb_pending (b n : Nat) (s : State) : (passTb b n s).pending = s.pending := passTb_keeps State.pending (fun _ _ _ _ _ _ => rfl) _ _ s
@[simp] theorem getL_passTb (l : Lst) (i : Nat) (b n : Nat) (s : State) : getL l i (passTb b n s) = getL l i s := by simp only [getL, passTb_lists]
@[simp] theorem cnt_passTb (c : Cnt) (i : Nat) (b n : Nat) (s : State) : cnt c i (passTb b n s) = cnt c i s := by simp only [cnt, passTb_cnts]

theorem fieldsKept_passTb (b n : Nat) (ht : ∀ e ∈ timeFlds, e ∈ fs) (h : FieldsKept fs s t) : FieldsKept fs s (passTb b n t) := by
  intro f i ha hf
  rw [← h f i ha hf]
  refine passTb_keeps (rd f i) (fun g b v u hg hb => rd_wr_apart ?_ v u) _ _ t
  refine hf (g, b) (ht _ ?_)
  rcases hg with rfl | rfl <;> simp [timeFlds, hb]

theorem listsKept_passTb (b n : Nat) (h : ListsKept ls s t) : ListsKept ls s (passTb b n t) := by
  intro l i ha hl
  rw [getL_passTb]
  exact h l i ha hl

theorem countsKept_passTb (b n : Nat) (h : CountsKept cs s t) : CountsKept cs s (passTb b n t) := by
  intro c i hc
  rw [cnt_passTb]
  exact h c i hc

theorem storesKept_passTb (b n : Nat) (h : StoresKept s t) : StoresKept s (passTb b n t) := by
  simpa [StoresKept] using h

end Sys2Proof.Machine
end

