-- ==== Sys2Proof/WellFormed.lean ====
section
/-!
DEFINITION. Well-formed commands: what a sender can give. Every operand lies in the range the thing it names has in the spec: a port of
1,024, a slice of 17, an octet of 128, a byte of 256, a session slot of 8.
-/

namespace Sys2Proof

/-- Are these bytes? -/
def octets (l : List Nat) : Bool := l.all (· < 256)

/-- An upset: a code of a slot, entry or node, or 2^26 times one more than the key of a prefix of the prefix store (R152, R169). -/
def upsetOk (u : Nat) : Bool := u < 2 ^ 26 || (u % 2 ^ 26 = 0 && u < 2 ^ 176)

/-- An access comes by a path that takes commands, and a core is one of C0 to C3. -/
def Access.ok (a : Access) : Bool :=
  match a.path with
  | .pcie => true
  | .smbus => true
  | .mgmt0 => a.who < 8
  | .mgmt1 => a.who < 8
  | .inband => a.who < 8
  | .core => a.who < 4
  | .image => false
  | .tap => false
  | .export_ => false
  | .ring => false
  | .bar2 => false

/-- What reads and writes at an address: a path that takes commands, or BAR2 (R468). -/
def Access.addrOk (a : Access) : Bool := a.ok || (a.path = .bar2 && a.who = 0)

/-- Who allocates, frees and gives buffers by an access: a path that takes commands, or a HIF ring (R402). -/
def Access.poolOk (a : Access) : Bool := a.ok || (a.path = .ring && a.who < 16)

/-- A management message comes by a management port or in band, with fields of their widths (R481). -/
def MgmtMsg.ok (m : MgmtMsg) : Bool :=
  (m.path = .mgmt0 || m.path = .mgmt1 || m.path = .inband) && m.port < 1024 && m.dst < 2 ^ 128 && m.udp < 65536 && m.magic < 65536 && m.ver < 256 && m.sess < 65536
    && m.ctr < 2 ^ 64 && m.rid < 2 ^ 32 && m.len < 65536 && m.status < 256 && m.tag < 2 ^ 128 && octets m.payload

/-- What a module can show (R77). -/
def ModData.ok (d : ModData) : Bool := d.rev < 256 && d.state < 16 && d.class_ < 16 && octets d.flags

/-- A request's fields have their widths (R19, R47). -/
def StreamReq.ok (r : StreamReq) : Bool :=
  r.stream < 65536 && r.class_ < 4 && r.frer < 4 && r.maxf < 65536 && r.minf < 65536 && r.tb < 8 && r.gq < 4 && r.hops.length ≤ 32
    && r.hops.all (fun h => h.dev < 4096 && h.ing < 1024 && h.eg < 1024 && h.queue < 8)

/-- What the device can find at PWR_GOOD (R509, R511). -/
def PowerUp.ok (x : PowerUp) : Bool := x.smbAddr < 8 && x.answers.all (· < 128) && octets x.sel0 && octets x.sel1

/-- Buffers of a pool (R399). -/
def poolMost (p : Nat) : Nat := [32768, 8192, 2048, 256].getD p 0

/-- Is a command well formed? -/
def wellFormed : Instr → Bool
  | .registerWrite a addr value => a.addrOk && addr < 2 ^ 32 && value < 2 ^ 32
  | .narrowAccess a addr _ => a.ok && addr < 2 ^ 32
  | .unmappedAccess a addr _ => a.ok && addr < 2 ^ 32
  | .rcRead a addr => a.addrOk && addr < 2 ^ 32
  | .snapshot a blk sl => a.ok && blk < 17 && sl < 17
  | .snapAll a => a.ok
  | .broadcastWrite a off value => a.ok && off < 2 ^ 24 && value < 2 ^ 32
  | .stWriteStage a addr mask value => a.addrOk && addr < 2 ^ 32 && mask < 2 ^ 32 && value < 2 ^ 32
  | .pairedFieldWrite a pair inst _ v => a.ok && pair < 4 && inst < 1024 && v < 2 ^ 32
  | .admReqAdmit a n => a.ok && n < 65536
  | .admReqRelease a n => a.ok && n < 65536
  | .admReqQuery a n => a.ok && n < 65536
  | .admReqAbort a n => a.ok && n < 65536
  | .hopReserve p _ r => p < 1024 && r.ok
  | .hopCommit p n => p < 1024 && n < 65536
  | .hopRelease p n code hop => p < 1024 && n < 65536 && code < 32 && hop < 32
  | .hopCommitWaitExpiry n => n < 65536
  | .tentativeTimeout n => n < 65536
  | .admEngineResume => true
  | .drainSpanEnd n i => n < 65536 && i < 32
  | .bundleMemberRelease p => p < 1024
  | .adminUpSet a p => a.ok && p < 1024
  | .adminUpClear a p => a.ok && p < 1024
  | .autonegPageRx p _ _ => p < 1024
  | .linkTrainingDone x => x.port < 1024 && octets x.loss
  | .alignmentDone p => p < 1024
  | .upDebounceExpiry p => p < 1024
  | .bringupStepFail p => p < 1024
  | .bringupRetry p => p < 1024
  | .adaptationStep l _ _ => l < 1024
  | .adaptRevertCheck l _ => l < 1024
  | .capabilityFrameTx p => p < 1024
  | .capabilityFrameRx p dev pport tagv caps group fixed => p < 1024 && dev < 4096 && pport < 1024 && tagv < 256 && caps < 65536 && group < 256 && fixed < 2 ^ 32
  | .peerLost p => p < 1024
  | .linkLocalFrameRx p _ => p < 1024
  | .badControlFrameRx p _ => p < 1024
  | .macControlFrameRx p _ => p < 1024
  | .quietReq p => p < 1024
  | .quietAck p => p < 1024
  | .quietNak p reason => p < 1024 && 1 ≤ reason && reason ≤ 5
  | .quietHold p us => p < 1024 && 1 ≤ us && us < 65536
  | .holdEnd p => p < 1024
  | .unknownOrderedSet p type => p < 1024 && type < 256
  | .quietIdleExpiry p => p < 1024
  | .quietAnswerTimeout p => p < 1024
  | .quietEntry p => p < 1024
  | .signalDetectEnergy p => p < 1024
  | .wakeAligned p => p < 1024
  | .wakeTimeout p => p < 1024
  | .quietHoldExpiry p => p < 1024
  | .linkFault p k _ => p < 1024 && ((1 ≤ k && k ≤ 5 || k = 7))
  | .downDebounceExpiry p => p < 1024
  | .flapHoldRelease a p => a.ok && p < 1024
  | .degradeWindow p _ _ => p < 1024
  | .modulePoll o d => o < 128 && d.ok
  | .moduleMonitorPoll o state => o < 128 && state < 16
  | .moduleReset a o => a.ok && o < 128
  | .moduleResetPulseEnd o d => o < 128 && d.ok
  | .frameFirstByte port bytes cell => port < 1024 && octets bytes && cell < 1048576
  | .frameLastByte port rest cell => port < 1024 && octets rest && cell < 1048576
  | .erroredClose port _ => port < 1024
  | .headWordWrite _ _ => true
  | .dispatch sl => sl < 17
  | .engineResult sl e epoch sp q _ us => sl < 17 && e < 8 && epoch < 256 && sp < 64 && q < 2 ^ 16 && us.all upsetOk
  | .resultRelease sl sp => sl < 17 && sp < 64
  | .reseqSkip sl sp => sl < 17 && sp < 64
  | .headBufferEccError _ w => w < 8
  | .heartbeat sl bad => sl < 17 && bad.all (· < 8)
  | .engineWatchdog sl e => sl < 17 && e < 8
  | .engineMemoryError sl e _ => sl < 17 && e < 8
  | .engineUnfence a sl mask => a.ok && sl < 17 && mask < 256
  | .engineReturnTestDone sl e _ => sl < 17 && e < 8
  | .schedulerSelect p => p < 1024
  | .frameTxStart p _ => p < 1024
  | .frameTxEnd p _ => p < 1024
  | .wheelPip => true
  | .gateEntryStart p => p < 1024
  | .gateWindowClose p q => p < 1024 && q < 4
  | .gclSwitch p => p < 1024
  | .policerSweep => true
  | .policerEnable a k => a.ok && k < 65536
  | .queueSample => true
  | .qClear a => a.ok
  | .watchEntryWrite a k value => a.ok && k < 4096 && value < 2 ^ 32
  | .multicastReplication x => x.copies ≤ 4
  | .cellQuarantine c _ => c < 1048576
  | .harvestSweep => true
  | .harvestSweepEnd => true
  | .staleCheck p => p < 1024
  | .linkHoldExpiry p => p < 1024
  | .tableRead a t index us => a.ok && t < 6 && index < 2 ^ 21 && us.all upsetOk
  | .tableWrite a t index => a.ok && t < 6 && index < 2 ^ 21
  | .tableInsert a t index => a.ok && t < 6 && index < 2 ^ 21
  | .tableDelete a t index _ => a.ok && t < 6 && index < 2 ^ 21
  | .tableUpdateData a t index _ => a.ok && t < 6 && index < 2 ^ 21
  | .tableSearch a t _ us => a.ok && t < 6 && us.all upsetOk
  | .tableMove a t index => a.ok && t < 6 && index < 2 ^ 21
  | .retireFree t i => (t = 2 || t = 3) && i < 262144
  | .ageTick => true
  | .tickMsWrite a ms => a.ok && ms < 65536
  | .ageingScan us => us.all upsetOk
  | .learnRequest => true
  | .tableScrub us => us.all upsetOk
  | .ruleWrite a sl index => a.ok && sl < 17 && index < 65536
  | .ruleRead a sl index => a.ok && sl < 17 && index < 65536
  | .ruleInvalidate a sl index => a.ok && sl < 17 && index < 65536
  | .ruleMove a sl index => a.ok && sl < 17 && index < 65536
  | .ruleClearHits a sl index => a.ok && sl < 17 && index < 65536
  | .ruleScrub sl bad => sl < 17 && bad.all (· < 65536)
  | .pgReportTimer => true
  | .report p _ _ _ _ _ _ _ _ _ _ => p < 1024
  | .transfer p _ _ _ _ _ _ _ => p < 1024
  | .ack p _ _ _ _ _ _ _ => p < 1024
  | .pgMemberTimeout x => x < 4096
  | .transferResend tid => tid < 65536
  | .pgTransferLost tid => tid < 65536
  | .pgJoinListenEnd => true
  | .claim a => a.ok
  | .rsqTimeout c => c < 16384
  | .roundBoundary r => r < 16
  | .roundMark p payload => p < 1024 && payload < 65536
  | .timePllLock => true
  | .timeRefclkLoss => true
  | .timeRefclkRestore => true
  | .tbLatch a b => a.ok && b < 8
  | .latchAll a => a.ok
  | .tbStep a b => a.ok && b < 8
  | .tbSet a b => a.ok && b < 8
  | .pdelayInterval p => p < 1024
  | .pdelayReq p _ _ _ => p < 1024
  | .pdelayResp p _ _ _ _ _ => p < 1024
  | .pdelayRespFollowUp p _ _ _ _ _ => p < 1024
  | .pdelayTimeout p => p < 1024
  | .extDelay p payload => p < 1024 && payload < 65536
  | .extReq p => p < 1024
  | .extDelayPeriodic p => p < 1024
  | .extReqRetry p => p < 1024
  | .sync p dom _ _ _ _ _ => p < 1024 && dom < 128
  | .followUp p dom _ _ _ _ => p < 1024 && dom < 128
  | .delayReq p dom _ _ _ _ => p < 1024 && dom < 128
  | .delayResp p dom _ _ _ _ _ => p < 1024 && dom < 128
  | .announce p dom _ _ _ _ _ => p < 1024 && dom < 128
  | .signaling p dom _ _ _ _ => p < 1024 && dom < 128
  | .ptpManagementRx p dom => p < 1024 && dom < 128
  | .syncInterval p b => p < 1024 && b < 8
  | .announceInterval p b => p < 1024 && b < 8
  | .syncTimeout b => b < 8
  | .announceTimeout p b => p < 1024 && b < 8
  | .hsRevert p => p < 8
  | .toutPulse n => n < 16
  | .toutAdopt a n value => a.ok && n < 16 && value < 2 ^ 32
  | .tinEdge n _ => n < 8
  | .tinPop a n => a.ok && n < 8
  | .governorTick => true
  | .demandUpdate => true
  | .voltageSettled => true
  | .upStepVoltageTimeout => true
  | .clockSlewDone => true
  | .droopCrossing k _ => k < 64
  | .droopClear k _ => k < 64
  | .stretchDutyEval => true
  | .droopStateUpdate => true
  | .vrAlertAssert => true
  | .vrAlertDeassert => true
  | .alertHoldExpiry => true
  | .thermalSensorRead _ => true
  | .thermStateUpdate => true
  | .thermtrip k _ => k < 32
  | .voltageSensorRead rs => rs.all (· < 2048)
  | .regulatorPoll xs => xs.all (fun x => x.vr < 16)
  | .trimPeriod _ => true
  | .trimValidation => true
  | .sliceAutumnEntry sl => sl < 17
  | .sliceAutumnWake sl => sl < 17
  | .sliceWinterEntry sl => sl < 17
  | .thawStart sl => sl < 17
  | .thawComplete sl bad => sl < 17 && bad.all (· < 8)
  | .thawTimeout sl => sl < 17
  | .complexSleep _ edgeOf => edgeOf.all (· < 1024)
  | .complexWake => true
  | .pllUnlock dom _ => dom < 128
  | .lockstepMismatch core kind addr => core < 4 && kind < 8 && addr < 2 ^ 32
  | .checkpoint => true
  | .diagnosisDone _ _ => true
  | .resyncDone => true
  | .rejoin a => a.ok
  | .rejoinCopyDone => true
  | .serviceWatchdog => true
  | .warmRestartDone => true
  | .retry a => a.ok
  | .sliceControlMemoryError sl => sl < 17
  | .sliceWatchdog sl => sl < 17
  | .takeoverForward _ => true
  | .takeoverFailure step => 1 ≤ step && step ≤ 4
  | .forceFail a sl _ => a.ok && sl < 17
  | .handBack a sl _ => a.ok && sl < 17
  | .handBackDone _ _ => true
  | .updateStart a => a.ok
  | .updateStaged img again => octets img && octets again
  | .updateSwap a => a.ok
  | .swapDone => true
  | .updateCopyDone => true
  | .updateAbort a => a.ok
  | .sourceEdge n => n < 1024
  | .holdoffExpiry g => g < 64
  | .interruptAck c => c < 4
  | .handlerEnd c n => c < 4 && n < 1024
  | .pmrWrite c v => c < 4 && v < 32
  | .swSet a n => a.ok && n < 64
  | .hpendClear a g mask => a.ok && g < 64 && mask < 65536
  | .msixLinkReady _ _ => true
  | .msixUnmask g => g < 64
  | .allocSize a i => a.poolOk && i < 128
  | .allocPool a p => a.poolOk && p < 4
  | .poolFree a h => a.poolOk && h < 2 ^ 32
  | .poolGive a h target => a.poolOk && h < 2 ^ 27 && target < 32
  | .poolReclaim a r pools => a.ok && r < 32 && pools < 16
  | .poolBufferAccess _ r h off _ err => r < 32 && h < 2 ^ 32 && off < 2 ^ 32 && err < 3
  | .poolMetaError p i _ => p < 4 && i < poolMost p
  | .pwrGoodRise x => x.ok
  | .bootVoltageRetry answers _ => answers.all (· < 128)
  | .bootImageReadDone img => img.all octets
  | .bootReady _ => true
  | .streamReqRetry _ => true
  | .flashBurstStall addr => addr < 2 ^ 27
  | .flashBurstReissue => true
  | .flashLateEdge n => n < 65536
  | .reboot a => a.ok
  | .bootSelectWrite a slot => a.ok && slot < 2
  | .bootSelectDone => true
  | .bootSelectFail => true
  | .csOpen a k => a.ok && k < 4
  | .csArm a k => a.ok && k < 4
  | .csDisarm a k => a.ok && k < 4
  | .csClear a k => a.ok && k < 4
  | .stageData a data => a.ok && data < 2 ^ 32
  | .csTimeTrigger k => k < 4
  | .csCommitPoint k => k < 4
  | .flashRead a => a.ok
  | .flashProgram a => a.ok
  | .flashErase4k a => a.ok
  | .flashErase64k a => a.ok
  | .flashCommandDone res bytes => (res = 0 || res = 1 || res = 3) && octets bytes
  | .hello m => m.ok
  | .proof m => m.ok
  | .close m => m.ok
  | .sessionIdleTimeout i => i < 8
  | .credentialLockEnd cred => cred < 65536
  | .makerGrant a minutes => a.ok && minutes < 2048
  | .makerRevoke a => a.ok
  | .makerGrantExpiry => true
  | .programInstallerSlot a => a.ok
  | .programMakerFuse a addr => a.ok && addr < 1024
  | .auditRecordWrite _ _ => true
  | .idcode => true
  | .tapRegRead addr => addr < 2 ^ 32
  | .traceRead => true
  | .bypass => true
  | .extest cells => cells.all (· < 2)
  | .samplePreload cells => cells.all (· < 2)
  | .extestPulse cells => cells.all (· < 2)
  | .extestTrain cells => cells.all (· < 2)
  | .highz => true
  | .clamp => true
  | .pciePerstAssert => true
  | .flr => true
  | .hotReset => true
  | .ringTailWrite a k tail => a.ok && k < 16 && tail < 2 ^ 32
  | .ringEnable a k => a.ok && k < 16
  | .ringDisable a k => a.ok && k < 16
  | .puntDma k addr x => k < 16 && addr < 2 ^ 64 && x.len < 65536
  | .injectDma k addr word data cell => k < 16 && addr < 2 ^ 64 && word < 2 ^ 64 && octets data && cell < 1048576
  | .recordDma k addr len => k < 16 && addr < 2 ^ 64 && len < 65536
  | .dmaFlushDone k => k < 16
  | .dmaError k _ => k < 16
  | .arpRequest m _ _ _ => m < 2
  | .neighbourSolicitation m _ _ _ => m < 2
  | .echoRequest m _ _ _ _ _ data => m < 2 && octets data
  | .mgmtOtherFrame m => m < 2
  | .mgmtLinkChange m _ => m < 2
  | .regRead m => m.ok
  | .regWrite m => m.ok
  | .tableCmd m => m.ok
  | .admitReq m => m.ok
  | .releaseReq m => m.ok
  | .queryReq m => m.ok
  | .serviceParam m => m.ok
  | .moduleRw m ans => m.ok && octets ans.bytes
  | .mgmtHeldRequest ans => octets ans.bytes
  | .smbusSetAddress _ pec addr => pec < 3 && addr < 2 ^ 32
  | .smbusWrite _ pec value => pec < 3 && value < 2 ^ 32
  | .smbusRead => true
  | .smbusSclTimeout => true
  | .i2cStuck bus _ => bus < 8
  | .i2cRecoveryRetry bus _ => bus < 8
  | .eventRecordWrite _ => true
  | .counterExport => true
  | .histogramExport => true
  | .datagramTimeout d => d < 4
  | .pwrGoodFall => true
  | .brownOut rail => rail < 8
  | .aonPowerOn => true
  | .complexSramEccError c _ => c < 2
  | .pcieLinkDown => true
  | .pcieAerError => true
  | .pciePerstDeassert => true
  | .aspmLinkEntry l => 2 ≤ l && l ≤ 5
  | .dStateChange _ _ _ => true
  | .delayReqInterval p b => p < 1024 && b < 8
  | .tableCommandDone t => t < 6
  | .ruleCommandDone sl => sl < 17

end Sys2Proof
end

