-- ==== Sys2Proof/Tests/Slice0.lean ====
section
/-!
SUPPORT. Tests: a state and operands for the hypotheses of every clause of every statement that has some, an ill-formed command for each
check of WellFormed, and small steps whose results the spec states.
-/

namespace Sys2Proof.Tests

open Sys2Proof.Machine

set_option Elab.async false

/-- The state after a command. -/
def go (c : Instr) (s : State) : State := match exec c s with
  | .next t => t
  | _ => s

/-- The state of an outcome. -/
def nx (o : Host.Outcome State Fault Refusal) : State := match o with
  | .next t => t
  | _ => State.reset

def core0 : Access := ⟨.core, 0⟩
def pcie : Access := ⟨.pcie, 0⟩

/-- port `p` up -/
def up (p : Nat) (s : State) : State :=
  wr PRT_PORT_CFG.admin_up p 1 (wr PRT_PORT_STATUS.link_up p 1 (wr PRT_PORT_STATUS.state p 4 (wr BUF_PORT_STATUS.hold_state p 0 s)))

/-- a ready device -/
def base : State := State.reset |> wr CFG_BOOT_STATUS.state 0 1 |> wr HIF_STATUS.pcie_present 0 1

/-! witness helpers -/
/-- the set `k` is open to PCIe, which is an installer -/
def OPN : State := wr CFG_CS_W4.state 3 1 base |> wr CFG_PATH_CS.pcie 0 3 |> wr ACC_PATH_ROLE.pcie_role 0 2
/-- and the next word goes to that set through CFG_STAGE_DATA -/
def OPND : State := OPN |> wr CFG_STAGE_CS.cs 0 3 |> wr CFG_STAGE_ADDR.addr 0 0x1000000 |> wr CFG_STAGE_MASK.mask 0 7
/-- a state with the link of port `p` down and its administration up -/
def dn (p : Nat) (s : State) : State := wr PRT_PORT_CFG.admin_up p 1 s
/-- after some time of a locked time PLL -/
def run (n : Nat) (s : State) : State := pass n (wr TBC.pll_locked 0 1 s)
/-- a Zarlarix peer on port `p` -/
def zx (p : Nat) (s : State) : State := wr PRT_PORT_STATUS.peer_zx p 1 (wr HPRT.rec p 1 (wr PRT_PORT_PEER_CAP.peer_caps p 0x37 (wr HPRT.lost p 900 s)))
/-- a 64-byte frame with its FCS -/
def body64 : List Nat := [0, 1, 2, 3, 4, 5, 0, 9, 9, 9, 9, 9, 8, 0] ++ List.replicate 46 7
def frame64 : List Nat := body64 ++ [231, 86, 230, 29]
/-- ports 8 and 16 are up, and the frame goes from one to the other by a best-effort result -/
def F0 : State := run 1000 (up 8 (up 16 base))
def F1 : State := go (.frameFirstByte 8 (frame64.take 40) 0) F0
def F2 : State := go (.frameLastByte 8 (frame64.drop 40) 0) F1
def F3 : State := go (.dispatch 0) F2
def F4 : State := go (.engineResult 0 0 0 8 0 0 []) F3
def F4b : State := wr FRM.res 0 1 F4 |> wr FRM.eg 0 16 |> wr FRM.node 0 513 |> wr FRM.queue 0 3
def F5 : State := F4b |> wr SLC_PORT_SEQ.oldest 8 1 |> wr BUF_PORT_EG_CELLS.cells 16 1 |> wr BUF_PORT_IN_CELLS.cells 8 1 |> wr SCH_SUB_W7.backlog 512 1
  |> wr SCH_SVC_W5.backlog 64 1 |> wr FRM.stage 0 3 |> wr FRM.acct 0 2 |> wr FRM.refs 0 1 |> wr HDSC.next 0 1 |> wr DSC.live 0 1
  |> wr DSC.code 0 16392 |> wr DSC.eg 0 16 |> wr DSC.enq 0 1000 |> wr DSC.cut 0 1 |> wr DSC.depth 0 1 |> wr DSC.cells 0 1
  |> wr CELL.acct 0 2 |> setL LCELL.qs 0 [67141697] |> wr HBUF.shared 0 1 |> wr HBUF.q 16392 1 |> wr HBUF.inacc 64 1
  |> wr HPRT.idle0 16 1001 |> wr HBUF.rx_used 0 0 |> setL LBUF.q 16392 [0] |> incBy cnt_SLC_ct_frames 8 1
def F6 : State := F5 |> wr DSC.charged 0 84 |> wr DSC.buckets 0 51 |> wr BKT.last 33280 1000 |> wr BKT.last 98368 1000 |> wr HSCH.dfc 4098 1452
  |> wr HSCH.cptr 64 512 |> wr HSCH.cdef 512 1452 |> wr HSCH.sptr 16 64 |> wr HSCH.sdef 64 1452 |> wr HSCH.sel 16 1
  |> wr HSCH.selt 16 4294967296000
def F7 : State := F6 |> wr DSC.started 0 1 |> wr DSC.start 0 4294967296000 |> wr HSCH.fly 16 1 |> wr SCH_SUB_W7.backlog 512 0
  |> wr SCH_SVC_W5.backlog 64 0 |> wr HSCH.sel 16 0 |> incBy cnt_TEL_q_tx_frames 16392 1 |> incBy cnt_PRT_tx_frames 16 1
/-- the copy of F5 in gated queue 1 of port 16, its gate always open -/
def FG : State := setL LBUF.q 16392 [] F5 |> setL LBUF.q 261 [0] |> wr DSC.code 0 261 |> wr GATE.enable 16 1 |> wr GATE.len 16 1
  |> wr GATE.cycle 16 1000000 |> wr SCH_GCL.duration 32768 1000000 |> wr SCH_GCL.open_ 32768 2
/-- an L2 entry of MAC 5 in VLAN 1 behind port 8, in the data registers -/
def T0 : State := base |> wr TBL_DATA.data 0 (1 + 8 * 2 ^ 26) |> wr TBL_DATA.data 2 5 |> wr TBL_DATA.data 3 65536
def T1 : State := nx (execTableCommandDone 0 (go (.tableInsert core0 0 0) T0))
/-- ports 8 and 16 carry tags; the device listens in power group 7 -/
def PG : State := [8, 16].foldl (fun s p => wr PRT_PORT_STATUS.tag_active p 1 (wr PRT_PORT_PEER_CAP.peer_caps p 0x18 (wr FAB_PORT.peer_group p 7 (zx p s)))) F0
  |> wr FAB_PG_CFG.group_id 0 7 |> wr FAB_PG_CFG.pg_enable 0 1 |> wr PWR_PG_CFG.group_cap 0 4400 |> wr PWR_PG_CFG.pg_size 0 4
  |> wr PWR_CAP.power_limit 0 1200 |> pgJoin
/-- context 3 holds frame 0 of F2 as number `q`, next is one behind -/
def RQ (q : Nat) : State := setL LRSQ.slots 3 [q * 2 ^ 32] F4b |> wr FAB_RSQ.next 3 (q - 1) |> wr FAB_RSQ.held 3 1 |> wr RSQ.since 0 (now F4b + 1)
  |> wr FRM.stage 0 4 |> wr FRM.rport 0 16
/-- Round 3 marks its boundaries; its next is number 3 -/
def RN : State := PG |> wr FAB_ROUND_W0.enable 3 1 |> wr FAB_ROUND_W0.ev_en 3 1 |> wr FAB_ROUND_W0.mark_en 3 1 |> wr HRND.next 3 4
/-- instance 1 runs from PTP, port 8 its slave -/
def SL : State := F0 |> wr TIM_TB_W0.enable 1 1 |> wr TIM_TB_W0.source 1 1 |> wr TIM_PORT_W0.ptp_mask 8 1 |> setRole 8 1 2
/-- and is locked -/
def LK : State := gainLock 1 SL |> wr HTB.last 1 500 |> setL LTB.ann 1032 [128, 6, 33, 1, 128, 99, 0, 6488064, 37, 1, 400]
/-- a Pdelay_Req is out on port 8 since 1000 ns, its response here at 1100 ns; the responder had it at 900 ns -/
def PD : State := F0 |> wr HPD.wait 8 1 |> wr HPD.got 8 1 |> wr HPD.seq 8 7 |> wr HPD.t1 8 (1000 * 2 ^ 32) |> wr HPD.t4 8 (1125 * 2 ^ 32)
  |> wr HPD.t2 8 (900 * 2 ^ 32)
/-- the governor runs at P0 without a limiter -/
def GV : State := F0 |> wr PWR_STATUS.p_state 0 0 |> wr HPWR.run 0 1 |> wr HPWR.gov 0 1 |> wr HPWR.vcode 0 100
/-- with every voltage sensor at the set voltage -/
def GVV : State := (List.range 64).foldl (fun u k => wr PWR_VSENSE.last k 850 u) GV
/-- and regulator 15 of VDD_CORE has been read -/
def GV2 : State := GV |> wr PWR_VR.enable 15 1 |> wr PWR_VR.set_v 15 1 |> wr HVR.known 15 1 |> wr HVR.seen 15 1
/-- a gap after a first mismatch -/
def MM : State := go (.lockstepMismatch 1 2 5) F0
/-- an update in phase `p` -/
def UP (p : Nat) : State := wr RED_UPDATE_STATUS.phase 0 p (go (.updateStart core0) F0)
/-- SL16 takes over from slice 0 -/
def TKO : State := F0 |> wr SLC_STATUS.serving 0 0 |> wr SLC_STATUS.failed 0 1 |> wr HSLC.cause 0 4 |> wr RED_SPARE_STATUS.failed 0 1
  |> wr RED_SPARE_STATUS.spare_state 0 1 |> wr RED_SPARE_STATUS.serving_for 0 0 |> wr PWR_SLICE.state 16 3 |> wr PWR_SLICE.state 0 2
  |> (fun u => (List.range 4).foldl (fun v m => wr PRT_MACRO_STATUS.serving_slice m 16 v) u)
/-- that takeover has failed at step 4 -/
def TKF : State := TKO |> wr RED_SPARE_STATUS.spare_state 0 0 |> wr RED_SPARE_STATUS.serving_for 0 31 |> wr PWR_SLICE.state 16 2 |> wr RED_ALARM.spare_fail 0 1
/-- 32 sensors valid, the hottest at 118 °C -/
def HOT : State := (List.range 32).foldl (fun u k => wr PWR_TEMP.valid k 1 u) GV |> wr PWR_THERM_STATUS.valid_count 0 32 |> wr PWR_THERM_STATUS.tmax 0 472
/-- source `n`'s line has risen; core 3 alone may take it -/
def IV (n : Nat) : State := F0 |> wr SCH_EVT.ev_gcl_step 0 1 |> wr INTC_SRC.enable n 1 |> wr INTC_SRC.cores n 8 |> wr INTC_SRC.priority n 9
  |> wr INTC_CORE.in_service 3 1 |> wr INTC_CORE.pmr 3 0 |> wr INTC_CORE.threshold 3 0
/-- the host wants source `n` and can take its message -/
def HS (n : Nat) : State := IV n |> wr INTC_SRC.host n 1 |> wr HIF_STATUS.pcie_present 0 1 |> wr HIF_STATUS.link 0 1
  |> wr HIF_STATUS.msix_en 0 1 |> wr HINT.masked (n / 16) 0
/-- core 0 has allocated a buffer of pool 3 -/
def AL : State := go (.allocPool core0 3) F0
/-- stream 7 from port 8 to port 16 by admission -/
def ADMB : State := zx 8 (zx 16 F0) |> wr ADM_CTRL.adm_enable 0 1 |> wr FAB_CTRL.device_id 0 9 |> wr ADM_PORT_BUDGET.hop_budget 16 5000000
  |> wr BUF_PORT_RESERVE.reserve 16 100 |> tset 0 (28 * 65536) (1 + 4 * 4 + 2 ^ 24 * 7)
def ADRQ : StreamReq := ⟨7, 2, 0, 28 * 65536, 1518, 64, 100000, 3036, 5000000, 0, 0, 0, [⟨9, 8, 16, 513, 0⟩]⟩
/-- ADRQ with a second hop on this device, from port 16 to port `q` -/
def ADRQ2 (q : Nat) : StreamReq := { ADRQ with deadline := 20000000, hops := [⟨10, 3, 4, 0, 0⟩, ⟨9, 8, 16, 513, q % 2⟩] }
/-- ADRQ with hops on three devices, the second this one -/
def ADRQ3 : StreamReq := { ADRQ with deadline := 20000000, hops := [⟨10, 3, 4, 0, 0⟩, ⟨9, 8, 16, 513, 0⟩, ⟨11, 5, 6, 0, 0⟩] }
/-- the request registers hold a request for stream 7: 0 = a bad one, 1 = one hop, 2 = a second hop on another device, 3 = no budget,
4 = a deadline too short, 5 = two hops here -/
def ADMR (k : Nat) : State := ADMB |> wr ADM_REQ_CLASS.class_ 0 2 |> wr ADM_REQ_CLASS.hop_count 0 (if k = 2 || k = 5 then 2 else 1) |> wr ADM_REQ_IDENT.ident_ref 0 (28 * 65536)
  |> wr ADM_REQ_FRAME.max_frame 0 1518 |> wr ADM_REQ_FRAME.min_frame 0 64 |> wr ADM_REQ_RATE.rate 0 (if k = 0 then 7 else 100000)
  |> wr ADM_REQ_BURST.burst 0 3036 |> wr ADM_REQ_DEADLINE.deadline 0 (if k = 4 then 5 else 20000000) |> wr ADM_REQ_HOPA.device_id 0 9
  |> wr ADM_REQ_HOPA.ingress_port 0 8 |> wr ADM_REQ_HOPA.egress_port 0 16 |> wr ADM_REQ_HOPB.sub_node 0 513
  |> wr ADM_REQ_HOPA.device_id 1 (if k = 5 then 9 else 11) |> wr ADM_REQ_HOPA.ingress_port 1 16 |> wr ADM_REQ_HOPA.egress_port 1 8 |> wr ADM_REQ_HOPB.sub_node 1 257
  |> wr ADM_PORT_BUDGET.hop_budget 16 (if k = 3 then 0 else 5000000) |> wr ADM_PORT_BUDGET.hop_budget 8 5000000 |> wr BUF_PORT_RESERVE.reserve 8 100
/-- stream 7 waits for HOP_COMMIT -/
def ADMW (k : Nat) : State := go (.admReqAdmit core0 7) (ADMR k)
/-- stream 7 is admitted -/
def ADMC (k : Nat) : State := if k = 2 then go (.hopCommit 16 7) (ADMW 2) else ADMW k
/-- stream 7 waits for HOP_COMMIT in the middle of its path, from port 8 to port 16 -/
def ADMX : State := go (.hopReserve 8 ⟨1, 3036, 5000000, 0, 520000, 0, 0⟩ ADRQ3) ADMB
/-- the management port MGMT0 has an address and a buffer -/
def MF : State := F0 |> wr HIF_MGMT_W0.enable 0 1 |> wr HIF_MGMT_W3.ipv4 0 0xA000001 |> wr POOL_REQ_QR.quota 98 8
/-- session slot `i` is open with a role on it -/
def SES (i role : Nat) : State := MF |> setL LACC.key i [1, 2, 3] |> wr ACC_SESSION.role i role |> wr ACC_SESSION.cred i (if role = 3 then 0x200 else 5)
  |> wr ACC_SESSION.path i 2
/-- a message of session `q` on MGMT0 -/
def MSG (q : Nat) : MgmtMsg := ⟨.mgmt0, 8, false, 0xA000001, 23128, 0x5A4D, 1, q, 5, 77, 0, 0, 0, []⟩
def MSGP (q : Nat) (bs : List Nat) : MgmtMsg := { MSG q with payload := bs, len := bs.length }
def MSG0 (q : Nat) (bs : List Nat) : MgmtMsg := { MSGP q bs with path := .mgmt0 }
/-- the PCIe function is up, and ring `k` of a kind runs with three descriptors posted -/
def HO : State := F0 |> wr HIF_STATUS.pcie_present 0 1 |> wr HIF_STATUS.link 0 1
def RGK (k kind : Nat) : State := HO |> wr HIF_RING_W2.kind k kind |> wr HIF_RING_W2.enable k 1 |> ringEnable k |> wr HIF_RING_W3.tail k 3
/-- frame 0 of F2 stands alone in the punt queue of ring 3 -/
def PQ : State := setL LHIF.punt 3 [0] (wr HIF_RING_W5.queued 3 1 (wr FRM.refs 0 1 (wr FRM.reason 0 9 F2))) |> wr HIF_STATUS.pcie_present 0 1
  |> wr HIF_RING_W2.kind 3 0 |> wr HIF_RING_W2.enable 3 1 |> ringEnable 3 |> wr HIF_RING_W3.tail 3 3
/-- the CLOSE of session 8 is held -/
def HELD0 : State := SES 7 1 |> wr POOLM.allocated (poolKey 2 0) 1 |> wr POOLM.owner (poolKey 2 0) 24 |> wr POOLM.gen (poolKey 2 0) 1
def HELD : State := setL LHIF.held 0 ((packMsg 6 (poolHandle 2 0 1) [] (keyed 6 (MSG 8) HELD0)).length :: packMsg 6 (poolHandle 2 0 1) [] (keyed 6 (MSG 8) HELD0)) HELD0
/-- the CLOSE of session 8 in band, which a frame has brought -/
def MSGI : MgmtMsg := { MSG 8 with path := .inband }
def HDRI : List Nat := [0, 0, 1, 2, 3, 4, 5, 6, 10, 0, 0, 9, 10, 0, 0, 1, 90, 88, 90, 88]
def HELDI : State := setL LHIF.held 0 ((packMsg 6 0 HDRI (keyed 6 MSGI (SES 7 1))).length :: packMsg 6 0 HDRI (keyed 6 MSGI (SES 7 1))) (SES 7 1)
/-- a request payload of words, and of the words of the stream request ADRQ -/
def wds (l : List Nat) : List Nat := l.flatMap (leBytes 4)
def ADPAY : List Nat := wds [7, 2 + 1 * 256, 28 * 65536, 1518 + 64 * 65536, 100000, 3036, 5000000, 0, 9 + 8 * 4096 + 16 * 4194304, 513]
/-- the state of ADMB with session 8 open as an installer -/
def ADMS : State := ADMB |> setL LACC.key 7 [1, 2, 3] |> wr ACC_SESSION.role 7 2 |> wr HIF_MGMT_W0.enable 0 1 |> wr HIF_MGMT_W3.ipv4 0 0xA000001
  |> wr POOL_REQ_QR.quota 98 8
def ADMT : State := admTake ⟨1, 2, [2, 0], 0, ⟨0, 0, 0, 0, 0, 0, 0⟩, ADRQ⟩ ADMS
theorem keyed_held : keyed 6 (MSG 8) HELD = keyed 6 (MSG 8) HELD0 := by
  unfold keyed HELD
  rw [getL_setL_other (by decide)]

theorem keyed_heldi : keyed 6 MSGI HELDI = keyed 6 MSGI (SES 7 1) := by
  unfold keyed HELDI
  rw [getL_setL_other (by decide)]

theorem held_witness : HELD.telFifo.length < 900 ∧ mgmtServes HELD = true ∧ engStopped HELD = false ∧ getL LHIF.mq 0 HELD = [] ∧
    (MSG 8).path = .mgmt0 ∧ headerOk (MSG 8) = true ∧ (1 ≤ (MSG 8).sess ∧ (MSG 8).sess ≤ 8 ∧ getL LACC.key ((MSG 8).sess - 1) HELD ≠ [] ∧
      rd HACC.ctr ((MSG 8).sess - 1) HELD ≤ (MSG 8).ctr ∧ (getL LHIF.reply ((MSG 8).sess - 1) HELD).head? ≠ some ((MSG 8).rid + 1)) ∧
    (MSG 8).payload = [] ∧ poolUseCode 24 (poolHandle 2 0 1) 0 32 HELD = 0 ∧
    getL LHIF.held 0 HELD = (packMsg 6 (poolHandle 2 0 1) [] (keyed 6 (MSG 8) HELD)).length :: packMsg 6 (poolHandle 2 0 1) [] (keyed 6 (MSG 8) HELD) := by
  refine ⟨by decide +kernel, by decide +kernel, by decide +kernel, by decide +kernel, rfl, by decide +kernel, by decide +kernel, rfl,
    by decide +kernel, ?_⟩
  rw [keyed_held]
  exact getL_setL_same _ _ _ _

theorem heldi_witness : HELDI.telFifo.length < 900 ∧ (mgmtServes HELDI = true ∧ engStopped HELDI = false ∧ getL LHIF.mq 0 HELDI = [] ∧
      (keyed 6 MSGI HELDI).path = .inband ∧ headerOk (keyed 6 MSGI HELDI) = true ∧
      getL LHIF.held 0 HELDI = (packMsg 6 0 HDRI (keyed 6 MSGI HELDI)).length :: packMsg 6 0 HDRI (keyed 6 MSGI HELDI)) ∧
    (1 ≤ MSGI.sess ∧ MSGI.sess ≤ 8 ∧ getL LACC.key (MSGI.sess - 1) HELDI ≠ [] ∧ rd HACC.ctr (MSGI.sess - 1) HELDI ≤ MSGI.ctr ∧
      (getL LHIF.reply (MSGI.sess - 1) HELDI).head? ≠ some (MSGI.rid + 1)) ∧ MSGI.payload = [] := by
  refine ⟨by decide +kernel, ⟨by decide +kernel, by decide +kernel, by decide +kernel, rfl, rfl, ?_⟩, by decide +kernel, rfl⟩
  rw [keyed_heldi]
  exact getL_setL_same _ _ _ _

def CAR : Carried := ⟨1, 3036, 1000, 5000, 525000, 0, 0⟩
/-- data of an absent module, and what a device without an image finds at PWR_GOOD -/
def MD : ModData := ⟨false, false, false, 0, 0, 0, [], []⟩
def PU : PowerUp := ⟨true, false, true, 5, [0x47], true, [], []⟩
/-- The well-formed terms that the ill-formed ones below are changed from (registerWrite to policerSweep). -/
theorem test_well_formed_1 : ([
    .registerWrite ⟨.core, 0⟩ 0 0, .registerWrite ⟨.bar2, 0⟩ 0 0, .narrowAccess ⟨.core, 0⟩ 0 false, .unmappedAccess ⟨.core, 0⟩ 0 false, .rcRead ⟨.core, 0⟩ 0,
    .snapshot ⟨.core, 0⟩ 0 0, .snapAll ⟨.core, 0⟩, .broadcastWrite ⟨.core, 0⟩ 0 0, .stWriteStage ⟨.core, 0⟩ 0 0 0,
    .pairedFieldWrite ⟨.core, 0⟩ 0 0 false 0, .admReqAdmit ⟨.core, 0⟩ 0, .admReqRelease ⟨.core, 0⟩ 0, .admReqQuery ⟨.core, 0⟩ 0,
    .admReqAbort ⟨.core, 0⟩ 0, .hopReserve 0 CAR ADRQ, .hopCommit 0 0, .hopRelease 0 0 0 0, .hopCommitWaitExpiry 0, .tentativeTimeout 0,
    .admEngineResume, .drainSpanEnd 0 0, .bundleMemberRelease 0, .adminUpSet ⟨.core, 0⟩ 0, .adminUpClear ⟨.core, 0⟩ 0,
    .autonegPageRx 0 0 false, .linkTrainingDone ⟨0, []⟩, .alignmentDone 0, .upDebounceExpiry 0, .bringupStepFail 0, .bringupRetry 0,
    .adaptationStep 0 0 0, .adaptRevertCheck 0 0, .capabilityFrameTx 0, .capabilityFrameRx 0 0 0 0 0 0 0, .peerLost 0,
    .linkLocalFrameRx 0 0, .badControlFrameRx 0 0, .macControlFrameRx 0 0, .quietReq 0, .quietAck 0, .quietNak 0 1, .quietHold 0 1,
    .holdEnd 0, .unknownOrderedSet 0 0, .quietIdleExpiry 0, .quietAnswerTimeout 0, .quietEntry 0, .signalDetectEnergy 0, .wakeAligned 0,
    .wakeTimeout 0, .quietHoldExpiry 0, .linkFault 0 1 false, .downDebounceExpiry 0, .flapHoldRelease ⟨.core, 0⟩ 0, .degradeWindow 0 0 0,
    .modulePoll 0 MD, .moduleMonitorPoll 0 0, .moduleReset ⟨.core, 0⟩ 0, .moduleResetPulseEnd 0 MD, .frameFirstByte 0 [] 0,
    .frameLastByte 0 [] 0, .erroredClose 0 false, .headWordWrite 0 false, .dispatch 0, .engineResult 0 0 0 0 0 0 [], .resultRelease 0 0,
    .reseqSkip 0 0, .headBufferEccError 0 0, .heartbeat 0 [], .engineWatchdog 0 0, .engineMemoryError 0 0 false,
    .engineUnfence ⟨.core, 0⟩ 0 0, .engineReturnTestDone 0 0 false, .schedulerSelect 0, .frameTxStart 0 [], .frameTxEnd 0 [], .wheelPip,
    .gateEntryStart 0, .gateWindowClose 0 0, .gclSwitch 0, .policerSweep] : List Instr).all wellFormed = true := by decide

/-- The well-formed terms that the ill-formed ones below are changed from (policerEnable to droopClear). -/
theorem test_well_formed_2 : ([
    .policerEnable ⟨.core, 0⟩ 0, .queueSample, .qClear ⟨.core, 0⟩, .watchEntryWrite ⟨.core, 0⟩ 0 0, .multicastReplication ⟨0, []⟩,
    .cellQuarantine 0 false, .harvestSweep, .harvestSweepEnd, .staleCheck 0, .linkHoldExpiry 0, .tableRead ⟨.core, 0⟩ 0 0 [],
    .tableWrite ⟨.core, 0⟩ 0 0, .tableInsert ⟨.core, 0⟩ 0 0, .tableDelete ⟨.core, 0⟩ 0 0 false, .tableUpdateData ⟨.core, 0⟩ 0 0 false,
    .tableSearch ⟨.core, 0⟩ 0 false [], .tableMove ⟨.core, 0⟩ 0 0, .retireFree 2 0, .ageTick, .tickMsWrite ⟨.core, 0⟩ 0, .ageingScan [],
    .learnRequest, .tableScrub [], .ruleWrite ⟨.core, 0⟩ 0 0, .ruleRead ⟨.core, 0⟩ 0 0, .ruleInvalidate ⟨.core, 0⟩ 0 0,
    .ruleMove ⟨.core, 0⟩ 0 0, .ruleClearHits ⟨.core, 0⟩ 0 0, .ruleScrub 0 [], .pgReportTimer, .report 0 0 0 0 0 0 0 0 0 0 false,
    .transfer 0 0 0 0 0 0 ⟨0, 0⟩ false, .ack 0 0 0 0 0 0 ⟨0, 0⟩ false, .pgMemberTimeout 0, .transferResend 0, .pgTransferLost 0, .pgJoinListenEnd,
    .claim ⟨.core, 0⟩, .rsqTimeout 0, .roundBoundary 0, .roundMark 0 0, .timePllLock, .timeRefclkLoss, .timeRefclkRestore,
    .tbLatch ⟨.core, 0⟩ 0, .latchAll ⟨.core, 0⟩, .tbStep ⟨.core, 0⟩ 0, .tbSet ⟨.core, 0⟩ 0, .pdelayInterval 0, .pdelayReq 0 0 0 false,
    .pdelayResp 0 0 0 0 0 .oneStep, .pdelayRespFollowUp 0 0 0 0 0 false, .pdelayTimeout 0, .extDelay 0 0, .extReq 0, .extDelayPeriodic 0,
    .extReqRetry 0, .sync 0 0 0 0 0 false false, .followUp 0 0 0 0 0 false, .delayReq 0 0 0 0 0 false, .delayResp 0 0 0 0 0 0 false,
    .announce 0 0 0 [] [] [] false, .signaling 0 0 0 0 0 false, .ptpManagementRx 0 0, .syncInterval 0 0, .announceInterval 0 0,
    .syncTimeout 0, .announceTimeout 0 0, .hsRevert 0, .toutPulse 0, .toutAdopt ⟨.core, 0⟩ 0 0, .tinEdge 0 false, .tinPop ⟨.core, 0⟩ 0,
    .governorTick, .demandUpdate, .voltageSettled, .upStepVoltageTimeout, .clockSlewDone, .droopCrossing 0 0, .droopClear 0 0] : List Instr).all wellFormed = true := by decide

/-- The well-formed terms that the ill-formed ones below are changed from (stretchDutyEval to flashProgram). -/
theorem test_well_formed_3 : ([
    .stretchDutyEval, .droopStateUpdate, .vrAlertAssert, .vrAlertDeassert, .alertHoldExpiry, .thermalSensorRead [], .thermStateUpdate,
    .thermtrip 0 0, .voltageSensorRead [], .regulatorPoll [], .trimPeriod 0, .trimValidation, .sliceAutumnEntry 0, .sliceAutumnWake 0,
    .sliceWinterEntry 0, .thawStart 0, .thawComplete 0 [], .thawTimeout 0, .complexSleep false none, .complexWake, .pllUnlock 0 false,
    .lockstepMismatch 0 0 0, .checkpoint, .diagnosisDone false false, .resyncDone, .rejoin ⟨.core, 0⟩, .rejoinCopyDone, .serviceWatchdog,
    .warmRestartDone, .retry ⟨.core, 0⟩, .sliceControlMemoryError 0, .sliceWatchdog 0, .takeoverForward 0, .takeoverFailure 1,
    .forceFail ⟨.core, 0⟩ 0 false, .handBack ⟨.core, 0⟩ 0 false, .handBackDone false 0, .updateStart ⟨.core, 0⟩, .updateStaged [] [],
    .updateSwap ⟨.core, 0⟩, .swapDone, .updateCopyDone, .updateAbort ⟨.core, 0⟩, .sourceEdge 0, .holdoffExpiry 0, .interruptAck 0,
    .handlerEnd 0 0, .pmrWrite 0 0, .swSet ⟨.core, 0⟩ 0, .hpendClear ⟨.core, 0⟩ 0 0, .msixLinkReady 0 0, .msixUnmask 0,
    .allocSize ⟨.core, 0⟩ 0, .allocPool ⟨.core, 0⟩ 0, .poolFree ⟨.core, 0⟩ 0, .poolGive ⟨.core, 0⟩ 0 0, .poolReclaim ⟨.core, 0⟩ 0 0,
    .poolBufferAccess false 0 0 0 0 0, .poolMetaError 0 0 false, .pwrGoodRise PU, .bootVoltageRetry [] false, .bootImageReadDone none,
    .bootReady 0, .streamReqRetry 0, .flashBurstStall 0, .flashBurstReissue, .flashLateEdge 0, .reboot ⟨.core, 0⟩,
    .bootSelectWrite ⟨.core, 0⟩ 0, .bootSelectDone, .bootSelectFail, .csOpen ⟨.core, 0⟩ 0, .csArm ⟨.core, 0⟩ 0, .csDisarm ⟨.core, 0⟩ 0,
    .csClear ⟨.core, 0⟩ 0, .stageData ⟨.core, 0⟩ 0, .csTimeTrigger 0, .csCommitPoint 0, .flashRead ⟨.core, 0⟩, .flashProgram ⟨.core, 0⟩] : List Instr).all wellFormed = true := by decide

/-- The well-formed terms that the ill-formed ones below are changed from (flashErase4k to ruleCommandDone). -/
theorem test_well_formed_4 : ([
    .flashErase4k ⟨.core, 0⟩, .flashErase64k ⟨.core, 0⟩, .flashCommandDone 0 [], .hello (MSG 0), .proof (MSG 0), .close (MSG 0),
    .sessionIdleTimeout 0, .credentialLockEnd 0, .makerGrant ⟨.core, 0⟩ 0, .makerRevoke ⟨.core, 0⟩, .makerGrantExpiry,
    .programInstallerSlot ⟨.core, 0⟩, .programMakerFuse ⟨.core, 0⟩ 0, .auditRecordWrite 0 0, .idcode, .tapRegRead 0, .traceRead, .bypass,
    .extest [], .samplePreload [], .extestPulse [], .extestTrain [], .highz, .clamp, .pciePerstAssert, .flr, .hotReset,
    .ringTailWrite ⟨.core, 0⟩ 0 0, .ringEnable ⟨.core, 0⟩ 0, .ringDisable ⟨.core, 0⟩ 0, .puntDma 0 0 ⟨0, []⟩, .injectDma 0 0 0 [] 0,
    .recordDma 0 0 0, .dmaFlushDone 0, .dmaError 0 false, .arpRequest 0 0 0 0, .neighbourSolicitation 0 0 0 0,
    .echoRequest 0 false 0 0 0 0 [], .mgmtOtherFrame 0, .mgmtLinkChange 0 false, .regRead (MSG 0), .regWrite (MSG 0), .tableCmd (MSG 0),
    .admitReq (MSG 0), .releaseReq (MSG 0), .queryReq (MSG 0), .serviceParam (MSG 0), .moduleRw (MSG 0) ⟨true, []⟩,
    .mgmtHeldRequest ⟨true, []⟩, .smbusSetAddress 0 0 0, .smbusWrite 0 0 0, .smbusRead, .smbusSclTimeout, .i2cStuck 0 false,
    .i2cRecoveryRetry 0 false, .eventRecordWrite 0, .counterExport, .histogramExport, .datagramTimeout 0, .pwrGoodFall, .brownOut 0,
    .aonPowerOn, .complexSramEccError 0 false, .pcieLinkDown, .pcieAerError, .pciePerstDeassert, .aspmLinkEntry 2,
    .dStateChange false false false, .delayReqInterval 0 0, .tableCommandDone 0, .ruleCommandDone 0] : List Instr).all wellFormed = true := by decide

/-- One check broken in each (registerWrite to unknownOrderedSet). -/
theorem test_ill_formed_1 : ([
    .registerWrite ⟨.tap, 0⟩ 0 0, .registerWrite ⟨.bar2, 1⟩ 0 0, .registerWrite ⟨.core, 0⟩ 4294967296 0, .registerWrite ⟨.core, 0⟩ 0 4294967296,
    .narrowAccess ⟨.tap, 0⟩ 0 false, .narrowAccess ⟨.core, 0⟩ 4294967296 false, .unmappedAccess ⟨.tap, 0⟩ 0 false,
    .unmappedAccess ⟨.core, 0⟩ 4294967296 false, .rcRead ⟨.tap, 0⟩ 0, .rcRead ⟨.core, 0⟩ 4294967296, .snapshot ⟨.tap, 0⟩ 0 0,
    .snapshot ⟨.core, 0⟩ 17 0, .snapshot ⟨.core, 0⟩ 0 17, .snapAll ⟨.tap, 0⟩, .broadcastWrite ⟨.tap, 0⟩ 0 0,
    .broadcastWrite ⟨.core, 0⟩ 16777216 0, .broadcastWrite ⟨.core, 0⟩ 0 4294967296, .stWriteStage ⟨.tap, 0⟩ 0 0 0,
    .stWriteStage ⟨.core, 0⟩ 4294967296 0 0, .stWriteStage ⟨.core, 0⟩ 0 4294967296 0, .stWriteStage ⟨.core, 0⟩ 0 0 4294967296,
    .pairedFieldWrite ⟨.tap, 0⟩ 0 0 false 0, .pairedFieldWrite ⟨.core, 0⟩ 4 0 false 0, .pairedFieldWrite ⟨.core, 0⟩ 0 1024 false 0,
    .pairedFieldWrite ⟨.core, 0⟩ 0 0 false 4294967296, .admReqAdmit ⟨.tap, 0⟩ 0, .admReqAdmit ⟨.core, 0⟩ 65536, .admReqRelease ⟨.tap, 0⟩ 0,
    .admReqRelease ⟨.core, 0⟩ 65536, .admReqQuery ⟨.tap, 0⟩ 0, .admReqQuery ⟨.core, 0⟩ 65536, .admReqAbort ⟨.tap, 0⟩ 0,
    .admReqAbort ⟨.core, 0⟩ 65536, .hopReserve 1024 CAR ADRQ, .hopReserve 0 CAR ({ ADRQ with tb := 8 }), .hopCommit 1024 0,
    .hopCommit 0 65536, .hopRelease 1024 0 0 0, .hopRelease 0 65536 0 0, .hopRelease 0 0 32 0, .hopRelease 0 0 0 32,
    .hopCommitWaitExpiry 65536, .tentativeTimeout 65536, .drainSpanEnd 65536 0, .drainSpanEnd 0 32, .bundleMemberRelease 1024,
    .adminUpSet ⟨.tap, 0⟩ 0, .adminUpSet ⟨.core, 0⟩ 1024, .adminUpClear ⟨.tap, 0⟩ 0, .adminUpClear ⟨.core, 0⟩ 1024,
    .autonegPageRx 1024 0 false, .linkTrainingDone ⟨1024, []⟩, .linkTrainingDone ⟨0, [256]⟩, .alignmentDone 1024, .upDebounceExpiry 1024,
    .bringupStepFail 1024, .bringupRetry 1024, .adaptationStep 1024 0 0, .adaptRevertCheck 1024 0, .capabilityFrameTx 1024,
    .capabilityFrameRx 1024 0 0 0 0 0 0, .capabilityFrameRx 0 4096 0 0 0 0 0, .capabilityFrameRx 0 0 1024 0 0 0 0,
    .capabilityFrameRx 0 0 0 256 0 0 0, .capabilityFrameRx 0 0 0 0 65536 0 0, .capabilityFrameRx 0 0 0 0 0 256 0,
    .capabilityFrameRx 0 0 0 0 0 0 4294967296, .peerLost 1024, .linkLocalFrameRx 1024 0, .badControlFrameRx 1024 0,
    .macControlFrameRx 1024 0, .quietReq 1024, .quietAck 1024, .quietNak 1024 1, .quietNak 0 0, .quietNak 0 6, .quietHold 1024 1,
    .quietHold 0 0, .quietHold 0 65536, .holdEnd 1024, .unknownOrderedSet 1024 0] : List Instr).all (fun c => !wellFormed c) = true := by decide

/-- One check broken in each (unknownOrderedSet to tableInsert). -/
theorem test_ill_formed_2 : ([
    .unknownOrderedSet 0 256, .quietIdleExpiry 1024, .quietAnswerTimeout 1024, .quietEntry 1024, .signalDetectEnergy 1024,
    .wakeAligned 1024, .wakeTimeout 1024, .quietHoldExpiry 1024, .linkFault 1024 0 false, .linkFault 0 6 false, .linkFault 0 8 false,
    .linkFault 0 0 false, .downDebounceExpiry 1024, .flapHoldRelease ⟨.tap, 0⟩ 0, .flapHoldRelease ⟨.core, 0⟩ 1024, .degradeWindow 1024 0 0,
    .modulePoll 128 MD, .modulePoll 0 ({ MD with rev := 256 }), .moduleMonitorPoll 128 0, .moduleMonitorPoll 0 16, .moduleReset ⟨.tap, 0⟩ 0,
    .moduleReset ⟨.core, 0⟩ 128, .moduleResetPulseEnd 128 MD, .moduleResetPulseEnd 0 ({ MD with rev := 256 }), .frameFirstByte 1024 [] 0,
    .frameFirstByte 0 [256] 0, .frameFirstByte 0 [] 1048576, .frameLastByte 1024 [] 0, .frameLastByte 0 [256] 0,
    .frameLastByte 0 [] 1048576, .erroredClose 1024 false, .dispatch 17, .engineResult 17 0 0 0 0 0 [], .engineResult 0 8 0 0 0 0 [],
    .engineResult 0 0 256 0 0 0 [], .engineResult 0 0 0 64 0 0 [], .engineResult 0 0 0 0 65536 0 [], .engineResult 0 0 0 0 0 0 [67108865],
    .resultRelease 17 0, .resultRelease 0 64, .reseqSkip 17 0, .reseqSkip 0 64, .headBufferEccError 0 8, .heartbeat 17 [], .heartbeat 0 [8],
    .engineWatchdog 17 0, .engineWatchdog 0 8, .engineMemoryError 17 0 false, .engineMemoryError 0 8 false, .engineUnfence ⟨.tap, 0⟩ 0 0,
    .engineUnfence ⟨.core, 0⟩ 17 0, .engineUnfence ⟨.core, 0⟩ 0 256, .engineReturnTestDone 17 0 false, .engineReturnTestDone 0 8 false,
    .schedulerSelect 1024, .frameTxStart 1024 [], .frameTxEnd 1024 [], .gateEntryStart 1024, .gateWindowClose 1024 0, .gateWindowClose 0 4,
    .gclSwitch 1024, .policerEnable ⟨.tap, 0⟩ 0, .policerEnable ⟨.core, 0⟩ 65536, .qClear ⟨.tap, 0⟩, .watchEntryWrite ⟨.tap, 0⟩ 0 0,
    .watchEntryWrite ⟨.core, 0⟩ 4096 0, .watchEntryWrite ⟨.core, 0⟩ 0 4294967296, .multicastReplication ⟨5, []⟩, .cellQuarantine 1048576 false,
    .staleCheck 1024, .linkHoldExpiry 1024, .tableRead ⟨.tap, 0⟩ 0 0 [], .tableRead ⟨.core, 0⟩ 6 0 [], .tableRead ⟨.core, 0⟩ 0 2097152 [],
    .tableRead ⟨.core, 0⟩ 0 0 [67108865], .tableWrite ⟨.tap, 0⟩ 0 0, .tableWrite ⟨.core, 0⟩ 6 0, .tableWrite ⟨.core, 0⟩ 0 2097152,
    .tableInsert ⟨.tap, 0⟩ 0 0, .tableInsert ⟨.core, 0⟩ 6 0] : List Instr).all (fun c => !wellFormed c) = true := by decide

/-- One check broken in each (tableInsert to syncInterval). -/
theorem test_ill_formed_3 : ([
    .tableInsert ⟨.core, 0⟩ 0 2097152, .tableDelete ⟨.tap, 0⟩ 0 0 false, .tableDelete ⟨.core, 0⟩ 6 0 false,
    .tableDelete ⟨.core, 0⟩ 0 2097152 false, .tableUpdateData ⟨.tap, 0⟩ 0 0 false, .tableUpdateData ⟨.core, 0⟩ 6 0 false,
    .tableUpdateData ⟨.core, 0⟩ 0 2097152 false, .tableSearch ⟨.tap, 0⟩ 0 false [], .tableSearch ⟨.core, 0⟩ 6 false [],
    .tableSearch ⟨.core, 0⟩ 0 false [67108865], .tableMove ⟨.tap, 0⟩ 0 0, .tableMove ⟨.core, 0⟩ 6 0, .tableMove ⟨.core, 0⟩ 0 2097152,
    .retireFree 1 0, .retireFree 2 262144, .tickMsWrite ⟨.tap, 0⟩ 0, .tickMsWrite ⟨.core, 0⟩ 65536, .ageingScan [67108865],
    .tableScrub [67108865], .ruleWrite ⟨.tap, 0⟩ 0 0, .ruleWrite ⟨.core, 0⟩ 17 0, .ruleWrite ⟨.core, 0⟩ 0 65536, .ruleRead ⟨.tap, 0⟩ 0 0,
    .ruleRead ⟨.core, 0⟩ 17 0, .ruleRead ⟨.core, 0⟩ 0 65536, .ruleInvalidate ⟨.tap, 0⟩ 0 0, .ruleInvalidate ⟨.core, 0⟩ 17 0,
    .ruleInvalidate ⟨.core, 0⟩ 0 65536, .ruleMove ⟨.tap, 0⟩ 0 0, .ruleMove ⟨.core, 0⟩ 17 0, .ruleMove ⟨.core, 0⟩ 0 65536,
    .ruleClearHits ⟨.tap, 0⟩ 0 0, .ruleClearHits ⟨.core, 0⟩ 17 0, .ruleClearHits ⟨.core, 0⟩ 0 65536, .ruleScrub 17 [], .ruleScrub 0 [65536],
    .report 1024 0 0 0 0 0 0 0 0 0 false, .transfer 1024 0 0 0 0 0 ⟨0, 0⟩ false, .ack 1024 0 0 0 0 0 ⟨0, 0⟩ false, .pgMemberTimeout 4096,
    .transferResend 65536, .pgTransferLost 65536, .claim ⟨.tap, 0⟩, .rsqTimeout 16384, .roundBoundary 16, .roundMark 1024 0,
    .roundMark 0 65536, .tbLatch ⟨.tap, 0⟩ 0, .tbLatch ⟨.core, 0⟩ 8, .latchAll ⟨.tap, 0⟩, .tbStep ⟨.tap, 0⟩ 0, .tbStep ⟨.core, 0⟩ 8,
    .tbSet ⟨.tap, 0⟩ 0, .tbSet ⟨.core, 0⟩ 8, .pdelayInterval 1024, .pdelayReq 1024 0 0 false, .pdelayResp 1024 0 0 0 0 .oneStep,
    .pdelayRespFollowUp 1024 0 0 0 0 false, .pdelayTimeout 1024, .extDelay 1024 0, .extDelay 0 65536, .extReq 1024, .extDelayPeriodic 1024,
    .extReqRetry 1024, .sync 1024 0 0 0 0 false false, .sync 0 128 0 0 0 false false, .followUp 1024 0 0 0 0 false,
    .followUp 0 128 0 0 0 false, .delayReq 1024 0 0 0 0 false, .delayReq 0 128 0 0 0 false, .delayResp 1024 0 0 0 0 0 false,
    .delayResp 0 128 0 0 0 0 false, .announce 1024 0 0 [] [] [] false, .announce 0 128 0 [] [] [] false, .signaling 1024 0 0 0 0 false,
    .signaling 0 128 0 0 0 false, .ptpManagementRx 1024 0, .ptpManagementRx 0 128, .syncInterval 1024 0, .syncInterval 0 8] : List Instr).all (fun c => !wellFormed c) = true := by decide

/-- One check broken in each (announceInterval to flashBurstStall). -/
theorem test_ill_formed_4 : ([
    .announceInterval 1024 0, .announceInterval 0 8, .syncTimeout 8, .announceTimeout 1024 0, .announceTimeout 0 8, .hsRevert 8,
    .toutPulse 16, .toutAdopt ⟨.tap, 0⟩ 0 0, .toutAdopt ⟨.core, 0⟩ 16 0, .toutAdopt ⟨.core, 0⟩ 0 4294967296, .tinEdge 8 false,
    .tinPop ⟨.tap, 0⟩ 0, .tinPop ⟨.core, 0⟩ 8, .droopCrossing 64 0, .droopClear 64 0, .thermtrip 32 0, .voltageSensorRead [2048],
    .regulatorPoll [⟨16, true, 0, 0, 0, []⟩], .sliceAutumnEntry 17, .sliceAutumnWake 17, .sliceWinterEntry 17, .thawStart 17,
    .thawComplete 17 [], .thawComplete 0 [8], .thawTimeout 17, .complexSleep false (some 1024), .pllUnlock 128 false,
    .lockstepMismatch 4 0 0, .lockstepMismatch 0 8 0, .lockstepMismatch 0 0 4294967296, .rejoin ⟨.tap, 0⟩, .retry ⟨.tap, 0⟩,
    .sliceControlMemoryError 17, .sliceWatchdog 17, .takeoverFailure 0, .takeoverFailure 5, .forceFail ⟨.tap, 0⟩ 0 false,
    .forceFail ⟨.core, 0⟩ 17 false, .handBack ⟨.tap, 0⟩ 0 false, .handBack ⟨.core, 0⟩ 17 false, .updateStart ⟨.tap, 0⟩,
    .updateStaged [256] [], .updateStaged [] [256], .updateSwap ⟨.tap, 0⟩, .updateAbort ⟨.tap, 0⟩, .sourceEdge 1024, .holdoffExpiry 64,
    .interruptAck 4, .handlerEnd 4 0, .handlerEnd 0 1024, .pmrWrite 4 0, .pmrWrite 0 32, .swSet ⟨.tap, 0⟩ 0, .swSet ⟨.core, 0⟩ 64,
    .hpendClear ⟨.tap, 0⟩ 0 0, .hpendClear ⟨.core, 0⟩ 64 0, .hpendClear ⟨.core, 0⟩ 0 65536, .msixUnmask 64, .allocSize ⟨.tap, 0⟩ 0,
    .allocSize ⟨.core, 0⟩ 128, .allocPool ⟨.tap, 0⟩ 0, .allocPool ⟨.core, 0⟩ 4, .poolFree ⟨.tap, 0⟩ 0, .poolFree ⟨.core, 0⟩ 4294967296,
    .poolGive ⟨.tap, 0⟩ 0 0, .poolGive ⟨.core, 0⟩ 134217728 0, .poolGive ⟨.core, 0⟩ 0 32, .poolReclaim ⟨.tap, 0⟩ 0 0,
    .poolReclaim ⟨.core, 0⟩ 32 0, .poolReclaim ⟨.core, 0⟩ 0 16, .poolBufferAccess false 32 0 0 0 0,
    .poolBufferAccess false 0 4294967296 0 0 0, .poolBufferAccess false 0 0 4294967296 0 0, .poolBufferAccess false 0 0 0 0 3,
    .poolMetaError 4 0 false, .poolMetaError 0 32768 false, .pwrGoodRise ({ PU with smbAddr := 8 }), .bootVoltageRetry [128] false,
    .bootImageReadDone (some [256]), .flashBurstStall 134217728] : List Instr).all (fun c => !wellFormed c) = true := by decide

/-- One check broken in each (flashLateEdge to i2cRecoveryRetry). -/
theorem test_ill_formed_5 : ([
    .flashLateEdge 65536, .reboot ⟨.tap, 0⟩, .bootSelectWrite ⟨.tap, 0⟩ 0, .bootSelectWrite ⟨.core, 0⟩ 2, .csOpen ⟨.tap, 0⟩ 0,
    .csOpen ⟨.core, 0⟩ 4, .csArm ⟨.tap, 0⟩ 0, .csArm ⟨.core, 0⟩ 4, .csDisarm ⟨.tap, 0⟩ 0, .csDisarm ⟨.core, 0⟩ 4, .csClear ⟨.tap, 0⟩ 0,
    .csClear ⟨.core, 0⟩ 4, .stageData ⟨.tap, 0⟩ 0, .stageData ⟨.core, 0⟩ 4294967296, .csTimeTrigger 4, .csCommitPoint 4,
    .flashRead ⟨.tap, 0⟩, .flashProgram ⟨.tap, 0⟩, .flashErase4k ⟨.tap, 0⟩, .flashErase64k ⟨.tap, 0⟩, .flashCommandDone 2 [],
    .flashCommandDone 0 [256], .hello ({ MSG 0 with ver := 256 }), .proof ({ MSG 0 with ver := 256 }), .close ({ MSG 0 with ver := 256 }),
    .sessionIdleTimeout 8, .credentialLockEnd 65536, .makerGrant ⟨.tap, 0⟩ 0, .makerGrant ⟨.core, 0⟩ 2048, .makerRevoke ⟨.tap, 0⟩,
    .programInstallerSlot ⟨.tap, 0⟩, .programMakerFuse ⟨.tap, 0⟩ 0, .programMakerFuse ⟨.core, 0⟩ 1024, .tapRegRead 4294967296, .extest [2],
    .samplePreload [2], .extestPulse [2], .extestTrain [2], .ringTailWrite ⟨.tap, 0⟩ 0 0, .ringTailWrite ⟨.core, 0⟩ 16 0,
    .ringTailWrite ⟨.core, 0⟩ 0 4294967296, .ringEnable ⟨.tap, 0⟩ 0, .ringEnable ⟨.core, 0⟩ 16, .ringDisable ⟨.tap, 0⟩ 0,
    .ringDisable ⟨.core, 0⟩ 16, .puntDma 16 0 ⟨0, []⟩, .puntDma 0 18446744073709551616 ⟨0, []⟩, .puntDma 0 0 ⟨65536, []⟩, .injectDma 16 0 0 [] 0,
    .injectDma 0 18446744073709551616 0 [] 0, .injectDma 0 0 18446744073709551616 [] 0, .injectDma 0 0 0 [256] 0,
    .injectDma 0 0 0 [] 1048576, .recordDma 16 0 0, .recordDma 0 18446744073709551616 0, .recordDma 0 0 65536, .dmaFlushDone 16,
    .dmaError 16 false, .arpRequest 2 0 0 0, .neighbourSolicitation 2 0 0 0, .echoRequest 2 false 0 0 0 0 [],
    .echoRequest 0 false 0 0 0 0 [256], .mgmtOtherFrame 2, .mgmtLinkChange 2 false, .regRead ({ MSG 0 with ver := 256 }),
    .regWrite ({ MSG 0 with ver := 256 }), .tableCmd ({ MSG 0 with ver := 256 }), .admitReq ({ MSG 0 with ver := 256 }),
    .releaseReq ({ MSG 0 with ver := 256 }), .queryReq ({ MSG 0 with ver := 256 }), .serviceParam ({ MSG 0 with ver := 256 }),
    .moduleRw ({ MSG 0 with ver := 256 }) ⟨true, []⟩, .moduleRw (MSG 0) ⟨true, [256]⟩, .mgmtHeldRequest ⟨true, [256]⟩,
    .smbusSetAddress 0 3 0, .smbusSetAddress 0 0 4294967296, .smbusWrite 0 3 0, .smbusWrite 0 0 4294967296, .i2cStuck 8 false,
    .i2cRecoveryRetry 8 false] : List Instr).all (fun c => !wellFormed c) = true := by decide

/-- One check broken in each (datagramTimeout to ruleCommandDone). -/
theorem test_ill_formed_6 : ([
    .datagramTimeout 4, .brownOut 8, .complexSramEccError 2 false, .aspmLinkEntry 1, .aspmLinkEntry 6, .delayReqInterval 1024 0,
    .delayReqInterval 0 8, .tableCommandDone 6, .ruleCommandDone 17] : List Instr).all (fun c => !wellFormed c) = true := by decide

/-- What makes an access, a message, a request, a module's data and the finds at PWR_GOOD ill-formed. -/
theorem test_ill_formed_parts :
    ([⟨.mgmt0, 8⟩, ⟨.mgmt1, 8⟩, ⟨.inband, 8⟩, ⟨.core, 4⟩, ⟨.image, 0⟩, ⟨.tap, 0⟩, ⟨.export_, 0⟩, ⟨.ring, 0⟩, ⟨.bar2, 0⟩] : List Access).all (fun a => !a.ok) = true ∧
    ([{ MSG 0 with path := .pcie }, { MSG 0 with port := 1024 }, { MSG 0 with dst := 2 ^ 128 }, { MSG 0 with udp := 65536 }, { MSG 0 with magic := 65536 }, { MSG 0 with ver := 256 },
      { MSG 0 with sess := 65536 }, { MSG 0 with ctr := 2 ^ 64 }, { MSG 0 with rid := 2 ^ 32 }, { MSG 0 with len := 65536 },
      { MSG 0 with status := 256 }, { MSG 0 with tag := 2 ^ 128 }, { MSG 0 with payload := [256] }] : List MgmtMsg).all (fun m => !m.ok) = true ∧
    ([{ ADRQ with stream := 65536 }, { ADRQ with class_ := 4 }, { ADRQ with frer := 4 }, { ADRQ with maxf := 65536 },
      { ADRQ with minf := 65536 }, { ADRQ with tb := 8 }, { ADRQ with gq := 4 }, { ADRQ with hops := List.replicate 33 ⟨9, 8, 16, 513, 0⟩ },
      { ADRQ with hops := [⟨4096, 8, 16, 513, 0⟩] }, { ADRQ with hops := [⟨9, 1024, 16, 513, 0⟩] }, { ADRQ with hops := [⟨9, 8, 1024, 513, 0⟩] },
      { ADRQ with hops := [⟨9, 8, 16, 513, 8⟩] }] : List StreamReq).all (fun r => !r.ok) = true ∧
    ([{ MD with rev := 256 }, { MD with state := 16 }, { MD with class_ := 16 }, { MD with flags := [256] }] : List ModData).all (fun d => !d.ok) = true ∧
    ([{ PU with smbAddr := 8 }, { PU with answers := [128] }, { PU with sel0 := [256] }, { PU with sel1 := [256] }] : List PowerUp).all (fun x => !x.ok) = true := by
  decide

/-! ### Worked examples of the spec -/

/-- The example after R530 of 19_register_map.md: P0392's SLC_PORT_CFG lies at 0x16001080. -/
theorem test_slot_address : regAddr rSLC_PORT_CFG 392 = 0x16001080 ∧ locate 0x16001080 base = .reg rSLC_PORT_CFG 392 := by decide +kernel

/-- The example of 09_time_and_synchronisation.md: external delays of 1,200 and 1,050 ps here and 950 and 1,300 ps there give +250 ps. -/
theorem test_asymmetry : rdI TIM_PORT_W5.asym_used 512 (nx (execExtDelay 512 (32768 + 130) (nx (execExtDelay 512 95
    (zx 512 base |> wr TIM_PORT_W1.tx_ext 512 120 |> wr TIM_PORT_W1.rx_ext 512 105))))) = 250 := by decide +kernel

/-- The policer example of 07_scheduling_shaping_policing.md, with its buckets full: five frames 81.6 ns apart, the last two red. -/
def POL : State := base |> wr SCH_POL_W0.cir 4417 8000 |> wr SCH_POL_W1.cbs 4417 3000 |> wr SCH_POL_W3.pbs 4417 3000
  |> wr SCH_POL_W4.max_charge 4417 1000 |> wr FRM.pol 0 4418
def polNext (s : State) : State := (police 0 (pass 82 s)).2
theorem test_policer_example :
    let s3 := (police 0 (polFill 4417 (wr SCH_POL_W4.enable 4417 1 POL))).2 |> polNext |> polNext
    rdI SCH_POL_W5.c_tokens 4417 s3 = 0 ∧ cnt cnt_SCH_pol_green 4417 s3 = 3 ∧
      cnt cnt_SCH_pol_red 4417 (polNext (polNext s3)) = 2 := by
  decide +kernel

/-- The buffer example of 13_buffer_pool_manager.md: six allocations succeed and the seventh finds the pool empty, C0 gets buffer 37 of
generation 3, gives it to ring 1, and ring 1 frees it once. -/
def PX : State := base |> wr POOL_STATUS.free 1 830 |> wr POOLM.next 1 31 |> wr POOL_REQ_QR.reserve 1 1024 |> wr POOL_REQ_QR.quota 1 2048
  |> wr (poolOutF 1) 0 200 |> wr POOL_REQ_QR.reserve 37 512 |> wr POOL_REQ_QR.quota 37 1024 |> wr (poolOutF 1) 9 600 |> wr POOLM.gen (poolKey 1 37) 2
def PX6 : State := (List.range 6).foldl (fun s _ => (poolAlloc 9 1 s).2) PX
def PX7 : State := (poolAlloc 0 1 PX6).2
def PX8 : State := poolGive 0 (0x03404A00 + 9 * 2 ^ 27) PX7
theorem test_pool_example_alloc : rd POOL_STATUS.free 1 PX6 = 824 ∧ (poolAlloc 9 1 PX6).1 = 0xFFFFFFFF ∧
    cnt cnt_POOL_alloc_empty 0 (poolAlloc 9 1 PX6).2 = 1 ∧ (poolAlloc 0 1 PX6).1 = 0x03404A00 := by decide +kernel
theorem test_pool_example_free : poolOut 9 1 PX8 = 607 ∧ poolOut 0 1 PX8 = 200 ∧ rd POOL_STATUS.free 1 (poolFree 9 0x03404A00 PX8) = 824 ∧
    cnt cnt_POOL_free_reject 0 (poolFree 9 0x03404A00 (poolFree 9 0x03404A00 PX8)) = 1 := by decide +kernel

/-- Hop 0 of the admission example of 01_delivery_contract.md: b_w is 13,692 bytes, r_w is 2 × 292 / 256 Gb/s, and hop 1's b_in is 14,000. -/
def AX : State := base |> wr STM.class_ 812 2 |> wr STM.rate 812 2000000 |> wr STM.minf 812 256 |> wr HOP.bin (812 * 32) 12000
theorem test_admission_example : bW (812 * 32) 36 AX = 13692 ∧ (rW 812 36 AX).1 * 256 = 2000000 * 292 * (rW 812 36 AX).2 ∧
    12000 + ceilDiv (2000000 * 8000) 8000000 = 14000 := by decide +kernel

/-- The lane example of 00_scope.md: P0296 is served by SL4, and 4×400G gives octet 37 the ports 296, 298, 300 and 302. -/
theorem test_octet_example : servSlice 296 base = 4 ∧
    (List.range 8).map (fun k => portExists (296 + k) (wr PRT_OCT_CFG.mode 37 2 base)) = [true, false, true, false, true, false, true, false] := by
  decide +kernel

/-! ### Witnesses of the statements with clauses of their own form -/

/-- A next state of a step meets the premise of PinsFollowKept and SeenHighKept. -/
theorem test_step_next : ∃ s t : State, step s = .next t := ⟨State.reset, tick State.reset, rfl⟩

/-! ### Witnesses: for each clause of each statement, a state and operands that meet its hypotheses -/

theorem test_refused_addresses :
    (∃ (a : Access) (s : State), Direct a s) ∧
    (∃ (a : Access) (s : State), Direct a s) ∧
    (∃ (a : Access) (s : State), Direct a s) ∧
    (∃ (a : Access) (addr : Nat) (s : State), Direct a s ∧ aligned addr = true ∧ locate addr s = .none_) ∧
    (∃ (a : Access) (addr : Nat) (s : State), Direct a s ∧ aligned addr = true ∧ locate addr s = .none_) :=
  ⟨⟨pcie, base, by unfold Direct; decide +kernel⟩,
    ⟨pcie, base, by unfold Direct; decide +kernel⟩,
    ⟨core0, base, by unfold Direct; decide +kernel⟩,
    ⟨pcie, 0xF0000000, base, by unfold Direct; decide +kernel⟩,
    ⟨core0, 0xF0000000, base, by unfold Direct; decide +kernel⟩⟩

theorem test_snapshots :
    (∃ (a : Access) (blk : Nat) (s : State), blk < 16 ∧ Accepted a (snapReg blk) 0 0xFFFFFFFF 1 s) ∧
    (∃ (a : Access) (blk : Nat) (s : State), blk < 16 ∧ Accepted a (snapReg blk) 0 0xFFFFFFFF 1 s) ∧
    (∃ (a : Access) (sl : Nat) (s : State), sl < 16 ∧ rd PWR_SLICE.state sl s ≠ 1 ∧ Accepted a rSLC_SNAPSHOT sl 0xFFFFFFFF 1 s ∧ by16 sl s = false) ∧
    (∃ (a : Access) (s : State), Accepted a rTEL_SNAP_ALL 0 0xFFFFFFFF 1 s) :=
  ⟨⟨pcie, 15, OPN, by unfold Accepted Direct; decide +kernel⟩,
    ⟨core0, 1, incBy cnt_PRT_tx_frames 5 7 base, by unfold Accepted Direct; decide +kernel⟩,
    ⟨pcie, 15, incBy cnt_SLC_ct_frames 960 3 OPN, by unfold Accepted Direct; decide +kernel⟩,
    ⟨pcie, incBy cnt_SLC_ct_frames 960 3 OPN, by unfold Accepted Direct; decide +kernel⟩⟩

theorem test_write_by_access_code :
    (∃ (a : Access) (v : Nat) (s : State), [0, 1, 2, 3].all (fun k => rd CFG_CS_W4.state k s ≠ 2) = true ∧ Accepted a rGLB_SCRATCH 0 0xFFFFFFFF (v % 2 ^ 32) s) ∧
    (∃ (a : Access) (v : Nat) (s : State), [0, 1, 2, 3].all (fun k => rd CFG_CS_W4.state k s ≠ 2) = true ∧ Accepted a rGLB_SCRATCH 0 0xFFFFFFFF (v % 2 ^ 32) s) ∧
    (∃ (a : Access) (v : Nat) (s : State), [0, 1, 2, 3].all (fun k => rd CFG_CS_W4.state k s ≠ 2) = true ∧ Accepted a rFAB_EVT 0 0xFFFFFFFF (v % 2 ^ 32) s ∧ (∀ f ∈ rFAB_EVT.fields, rd f 0 s < 2)) ∧
    (∃ (a : Access) (v : Nat) (s : State), [0, 1, 2, 3].all (fun k => rd CFG_CS_W4.state k s ≠ 2) = true ∧ Accepted a rGLB_DEVICE_ID 0 0xFFFFFFFF (v % 2 ^ 32) s) ∧
    (∃ (a : Access) (s : State), [0, 1, 2, 3].all (fun k => rd CFG_CS_W4.state k s ≠ 2) = true ∧ Direct a s ∧ accRole a s = some 0 ∧ rd CFG_BOOT_STATUS.state 0 s ≠ 2) ∧
    (∃ (a : Access) (s : State), [0, 1, 2, 3].all (fun k => rd CFG_CS_W4.state k s ≠ 2) = true ∧ a.path = .core ∧ rd HRED.gap 0 s ≠ 0 ∧ rd RED_CX_STATUS.mode 0 s ≠ 2) ∧
    (∃ (a : Access) (s : State), [0, 1, 2, 3].all (fun k => rd CFG_CS_W4.state k s ≠ 2) = true ∧ a.path = .pcie ∧ pcieOn s = false) :=
  ⟨⟨pcie, 4294967301, OPN, by unfold Accepted Direct; decide +kernel⟩,
    ⟨core0, 77, base, by unfold Accepted Direct; decide +kernel⟩,
    ⟨pcie, 21, wr FAB_EVT.ev_rsq 0 1 OPN, by unfold Accepted Direct; decide +kernel⟩,
    ⟨pcie, 7, OPN, by unfold Accepted Direct; decide +kernel⟩,
    ⟨pcie, wr ACC_PATH_ROLE.pcie_role 0 0 base, by unfold Direct; decide +kernel⟩,
    ⟨core0, wr HRED.gap 0 1 base, by decide +kernel⟩,
    ⟨pcie, wr HIF_STATUS.pcie_present 0 0 base, by decide +kernel⟩⟩

theorem test_broadcast_snapshot :
    (∃ (a : Access) (s : State), [0, 1, 2, 3].all (fun k => rd CFG_CS_W4.state k s ≠ 2) = true ∧ (List.range 17).all (fun sl => rd PWR_SLICE.state sl s ≠ 1) = true ∧ Accepted a rSLC_SNAPSHOT 16 0xFFFFFFFF 1 s) ∧
    (∃ (a : Access) (s : State), [0, 1, 2, 3].all (fun k => rd CFG_CS_W4.state k s ≠ 2) = true ∧ (List.range 17).all (fun sl => rd PWR_SLICE.state sl s ≠ 1) = true ∧ Accepted a rSLC_SNAPSHOT 16 0xFFFFFFFF 1 s) :=
  ⟨⟨pcie, incBy cnt_SLC_ct_frames 960 3 OPN, by unfold Accepted Direct; decide +kernel⟩,
    ⟨pcie, incBy cnt_SLC_ct_frames 1024 3 (wr GLB_CTRL.win16_mode 0 1 OPN), by unfold Accepted Direct; decide +kernel⟩⟩

theorem test_reads_answer_and_clear :
    (∃ (a : Access) (s : State), Direct a s) ∧
    (∃ (a : Access) (s : State), Direct a s) ∧
    (∃ (a : Access) (s : State), Direct a s) ∧
    (∃ (a : Access) (s : State), a.path = .core ∧ rd HRED.gap 0 s = 0 ∧ rd RED_CX_STATUS.mode 0 s = 0 ∧ (getL LCX.replay 0 s).length < 2046) ∧
    (∃ (a : Access) (s : State), a.path = .core ∧ rd HRED.gap 0 s ≠ 0 ∧ rd RED_CX_STATUS.mode 0 s ≠ 2) :=
  ⟨⟨pcie, wr PWR_VCORE.v_min 0 700 base, by unfold Direct; decide +kernel⟩,
    ⟨core0, wr PWR_VCORE.v_min 0 700 base, by unfold Direct; decide +kernel⟩,
    ⟨pcie, wr GLB_SCRATCH.scratch 0 99 base, by unfold Direct; decide +kernel⟩,
    ⟨core0, base, by decide +kernel⟩,
    ⟨core0, wr HRED.gap 0 1 base, by decide +kernel⟩⟩

theorem test_staged_writes :
    (∃ (a : Access) (k : Nat) (v : Nat) (s : State), [0, 1, 2, 3].all (fun k => rd CFG_CS_W4.state k s ≠ 2) = true ∧ k < 4 ∧ rd CFG_CS_W4.state k s = 1 ∧ csCount k s < 65536 ∧ stageUsed s < 262144 ∧ a.path = .pcie ∧ rd CFG_PATH_CS.pcie 0 s = k ∧ Accepted a rBUF_RX_CFG 0 0xFFFFFFFF (v % 2 ^ 32) s) ∧
    (∃ (a : Access) (k : Nat) (v : Nat) (s : State), [0, 1, 2, 3].all (fun k => rd CFG_CS_W4.state k s ≠ 2) = true ∧ k < 4 ∧ rd CFG_CS_W4.state k s = 1 ∧ csCount k s < 65536 ∧ stageUsed s < 262144 ∧ Accepted a rCFG_STAGE_DATA 0 0xFFFFFFFF (v % 2 ^ 32) s ∧ rd CFG_STAGE_CS.cs 0 s = k ∧ rd CFG_STAGE_ADDR.addr 0 s = 0x1000000 ∧ roleOk a rBUF_RX_CFG 0 (rd CFG_STAGE_MASK.mask 0 s) (v % 2 ^ 32) s = true) :=
  ⟨⟨pcie, 3, 7, OPN, by unfold Accepted Direct; decide +kernel⟩,
    ⟨pcie, 3, 7, OPND, by unfold Accepted Direct; decide +kernel⟩⟩

theorem test_paired_fields :
    (∃ (a : Access) (v : Nat) (s : State), v < 2 ^ 32 ∧ s.telFifo.length < 1024 ∧ Accepted a rTBL_ROUTER_MAC_LO 0 (fieldWord TBL_ROUTER_MAC_LO.mac_lo (2 ^ 32 - 1)) (fieldWord TBL_ROUTER_MAC_LO.mac_lo v) s ∧ rd HPAIR.hi 0 s = 0) ∧
    (∃ (a : Access) (v : Nat) (s : State) (w : Nat), v < 2 ^ 32 ∧ s.telFifo.length < 1024 ∧ Accepted a rTBL_ROUTER_MAC_LO 0 (fieldWord TBL_ROUTER_MAC_LO.mac_lo (2 ^ 32 - 1)) (fieldWord TBL_ROUTER_MAC_LO.mac_lo v) s ∧ w < 2 ^ 16 ∧ rd HPAIR.hi 0 s = w + 1) :=
  ⟨⟨pcie, 4294967295, OPN, by unfold Accepted Direct; decide +kernel⟩,
    ⟨pcie, 4294967295, wr HPAIR.hi 0 65536 OPN, 65535, by unfold Accepted Direct; decide +kernel⟩⟩

theorem test_admission_commits :
    (∃ (a : Access) (n : Nat) (s : State) (j : Job) (u : State), n < 65536 ∧ engStopped s = false ∧ getL LADM.held 0 s = [] ∧ j = (reqJob a n s).1 ∧ u = atJob j (reqJob a n s).2 ∧ Accepted a rADM_REQ_CMD 0 0xFFFFFFFF (admWord 1 n) s ∧ reqSleepers j (reqJob a n s).2 = [] ∧ admPre j (jobHops j u) u = none ∧ (admHops j u).1 = none ∧ (admHops j u).2.1.hop = j.req.hops.length ∧ admLate j.req (admHops j u).2.1 = false) ∧
    (∃ (a : Access) (n : Nat) (s : State) (j : Job) (u : State) (eg : Nat), n < 65536 ∧ engStopped s = false ∧ getL LADM.held 0 s = [] ∧ j = (reqJob a n s).1 ∧ u = atJob j (reqJob a n s).2 ∧ Accepted a rADM_REQ_CMD 0 0xFFFFFFFF (admWord 1 n) s ∧ reqSleepers j (reqJob a n s).2 = [] ∧ admPre j (jobHops j u) u = none ∧ (admHops j u).1 = none ∧ (admHops j u).2.1.hop < j.req.hops.length ∧ eg = (reqHop j.req ((admHops j u).2.1.hop - 1)).eg ∧ forwards eg s = true) ∧
    (∃ (a : Access) (n : Nat) (s : State) (j : Job) (u : State) (code : Nat) (hop : Nat), n < 65536 ∧ engStopped s = false ∧ getL LADM.held 0 s = [] ∧ j = (reqJob a n s).1 ∧ u = atJob j (reqJob a n s).2 ∧ Accepted a rADM_REQ_CMD 0 0xFFFFFFFF (admWord 1 n) s ∧ reqSleepers j (reqJob a n s).2 = [] ∧ (admPre j (jobHops j u) u = some (code, hop) ∨ (admPre j (jobHops j u) u = none ∧ (admHops j u).1 = some (code, hop)))) ∧
    (∃ (a : Access) (n : Nat) (s : State) (j : Job) (u : State) (code : Nat) (hop : Nat), n < 65536 ∧ engStopped s = false ∧ getL LADM.held 0 s = [] ∧ j = (reqJob a n s).1 ∧ u = atJob j (reqJob a n s).2 ∧ Accepted a rADM_REQ_CMD 0 0xFFFFFFFF (admWord 1 n) s ∧ reqSleepers j (reqJob a n s).2 = [] ∧ (admPre j (jobHops j u) u = some (code, hop) ∨ (admPre j (jobHops j u) u = none ∧ (admHops j u).1 = some (code, hop)))) ∧
    (∃ (a : Access) (n : Nat) (s : State) (j : Job) (u : State), n < 65536 ∧ engStopped s = false ∧ getL LADM.held 0 s = [] ∧ j = (reqJob a n s).1 ∧ u = atJob j (reqJob a n s).2 ∧ Accepted a rADM_REQ_CMD 0 0xFFFFFFFF (admWord 1 n) s ∧ reqSleepers j (reqJob a n s).2 = [] ∧ admPre j (jobHops j u) u = none ∧ (admHops j u).1 = none ∧ (admHops j u).2.1.hop = j.req.hops.length ∧ admLate j.req (admHops j u).2.1 = true) ∧
    (∃ (n : Nat) (p : Nat) (car : Carried) (r : StreamReq) (s : State) (j : Job) (u : State), n < 65536 ∧ engStopped s = false ∧ getL LADM.held 0 s = [] ∧ p < 1024 ∧ rd PRT_PORT_STATUS.peer_zx p s = 1 ∧ j = hopJob p car r s ∧ u = atJob j s ∧ reqSleepers j s = [] ∧ admPre j (jobHops j u) u = none ∧ (admHops j u).1 = none ∧ (admHops j u).2.1.hop = r.hops.length ∧ admLate r (admHops j u).2.1 = false ∧ forwards p s = true) ∧
    (∃ (n : Nat) (p : Nat) (car : Carried) (r : StreamReq) (s : State) (j : Job) (u : State) (eg : Nat), n < 65536 ∧ engStopped s = false ∧ getL LADM.held 0 s = [] ∧ p < 1024 ∧ rd PRT_PORT_STATUS.peer_zx p s = 1 ∧ j = hopJob p car r s ∧ u = atJob j s ∧ reqSleepers j s = [] ∧ admPre j (jobHops j u) u = none ∧ (admHops j u).1 = none ∧ (admHops j u).2.1.hop < r.hops.length ∧ eg = (reqHop r ((admHops j u).2.1.hop - 1)).eg ∧ forwards eg s = true) ∧
    (∃ (n : Nat) (p : Nat) (car : Carried) (r : StreamReq) (s : State) (j : Job) (u : State) (code : Nat) (hop : Nat), n < 65536 ∧ engStopped s = false ∧ getL LADM.held 0 s = [] ∧ p < 1024 ∧ rd PRT_PORT_STATUS.peer_zx p s = 1 ∧ j = hopJob p car r s ∧ u = atJob j s ∧ reqSleepers j s = [] ∧ (admPre j (jobHops j u) u = some (code, hop) ∨ (admPre j (jobHops j u) u = none ∧ (admHops j u).1 = some (code, hop))) ∧ forwards p s = true) ∧
    (∃ (n : Nat) (p : Nat) (car : Carried) (r : StreamReq) (s : State) (j : Job) (u : State) (code : Nat) (hop : Nat), n < 65536 ∧ engStopped s = false ∧ getL LADM.held 0 s = [] ∧ p < 1024 ∧ rd PRT_PORT_STATUS.peer_zx p s = 1 ∧ j = hopJob p car r s ∧ u = atJob j s ∧ reqSleepers j s = [] ∧ (admPre j (jobHops j u) u = some (code, hop) ∨ (admPre j (jobHops j u) u = none ∧ (admHops j u).1 = some (code, hop))) ∧ forwards p s = true) ∧
    (∃ (n : Nat) (p : Nat) (s : State), n < 65536 ∧ engStopped s = false ∧ getL LADM.held 0 s = [] ∧ rd PRT_PORT_STATUS.peer_zx p s = 1 ∧ strState n s = 1 ∧ rd STM.down n s = p + 1 ∧ rd STM.up n s = 0 ∧ getL LADM.src n s = [0]) ∧
    (∃ (n : Nat) (p : Nat) (d : Nat) (s : State), n < 65536 ∧ engStopped s = false ∧ getL LADM.held 0 s = [] ∧ rd PRT_PORT_STATUS.peer_zx p s = 1 ∧ strState n s = 1 ∧ rd STM.down n s = p + 1 ∧ rd STM.up n s = d + 1 ∧ forwards d s = true) ∧
    (∃ (n : Nat) (p : Nat) (s : State), n < 65536 ∧ engStopped s = false ∧ getL LADM.held 0 s = [] ∧ rd PRT_PORT_STATUS.peer_zx p s = 1 ∧ strState n s = 2 ∧ rd STM.down n s = p + 1) ∧
    (∃ (n : Nat) (p : Nat) (s : State), n < 65536 ∧ engStopped s = false ∧ getL LADM.held 0 s = [] ∧ rd PRT_PORT_STATUS.peer_zx p s = 0) ∧
    (∃ (n : Nat) (p : Nat) (s : State), n < 65536 ∧ engStopped s = false ∧ getL LADM.held 0 s = [] ∧ rd PRT_PORT_STATUS.peer_zx p s = 0) ∧
    (∃ (n : Nat) (p : Nat) (s : State), n < 65536 ∧ engStopped s = false ∧ getL LADM.held 0 s = [] ∧ rd PRT_PORT_STATUS.peer_zx p s = 1 ∧ ((strState n s ≠ 1 ∧ strState n s ≠ 2) ∨ rd STM.down n s ≠ p + 1) ∧ forwards p s = true) ∧
    (∃ (n : Nat) (p : Nat) (s : State), n < 65536 ∧ engStopped s = false ∧ getL LADM.held 0 s = [] ∧ rd PRT_PORT_STATUS.peer_zx p s = 1 ∧ ((strState n s ≠ 1 ∧ strState n s ≠ 2) ∨ rd STM.down n s ≠ p + 1) ∧ forwards p s = true) :=
  ⟨⟨core0, 7, ADMR 1, (reqJob core0 7 (ADMR 1)).1, atJob ((reqJob core0 7 (ADMR 1)).1) (reqJob core0 7 (ADMR 1)).2, by unfold Accepted Direct; decide +kernel⟩,
    ⟨core0, 7, ADMR 2, (reqJob core0 7 (ADMR 2)).1, atJob ((reqJob core0 7 (ADMR 2)).1) (reqJob core0 7 (ADMR 2)).2, 16, by unfold Accepted Direct; decide +kernel⟩,
    ⟨core0, 7, ADMR 0, (reqJob core0 7 (ADMR 0)).1, atJob ((reqJob core0 7 (ADMR 0)).1) (reqJob core0 7 (ADMR 0)).2, 1, 31, by unfold Accepted Direct; decide +kernel⟩,
    ⟨core0, 7, ADMR 3, (reqJob core0 7 (ADMR 3)).1, atJob ((reqJob core0 7 (ADMR 3)).1) (reqJob core0 7 (ADMR 3)).2, 8, 0, by unfold Accepted Direct; decide +kernel⟩,
    ⟨core0, 7, ADMR 4, (reqJob core0 7 (ADMR 4)).1, atJob ((reqJob core0 7 (ADMR 4)).1) (reqJob core0 7 (ADMR 4)).2, by unfold Accepted Direct; decide +kernel⟩,
    ⟨0, 8, ⟨1, 3036, 5000000, 0, 520000, 0, 0⟩, ADRQ2 8, ADMB, hopJob 8 (⟨1, 3036, 5000000, 0, 520000, 0, 0⟩) (ADRQ2 8) ADMB, atJob (hopJob 8 (⟨1, 3036, 5000000, 0, 520000, 0, 0⟩) (ADRQ2 8) ADMB) ADMB, by decide +kernel⟩,
    ⟨0, 8, ⟨1, 3036, 5000000, 0, 520000, 0, 0⟩, ADRQ3, ADMB, hopJob 8 (⟨1, 3036, 5000000, 0, 520000, 0, 0⟩) ADRQ3 ADMB, atJob (hopJob 8 (⟨1, 3036, 5000000, 0, 520000, 0, 0⟩) ADRQ3 ADMB) ADMB, 16, by decide +kernel⟩,
    ⟨0, 8, ⟨1, 3036, 5000000, 0, 520000, 0, 0⟩, { ADRQ2 8 with rate := 7 }, ADMB, hopJob 8 (⟨1, 3036, 5000000, 0, 520000, 0, 0⟩) ({ ADRQ2 8 with rate := 7 }) ADMB, atJob (hopJob 8 (⟨1, 3036, 5000000, 0, 520000, 0, 0⟩) ({ ADRQ2 8 with rate := 7 }) ADMB) ADMB, 1, 31, by decide +kernel⟩,
    ⟨0, 8, ⟨1, 3036, 5000000, 0, 520000, 0, 0⟩, ADRQ2 8, wr ADM_PORT_BUDGET.hop_budget 16 0 ADMB, hopJob 8 (⟨1, 3036, 5000000, 0, 520000, 0, 0⟩) (ADRQ2 8) (wr ADM_PORT_BUDGET.hop_budget 16 0 ADMB), atJob (hopJob 8 (⟨1, 3036, 5000000, 0, 520000, 0, 0⟩) (ADRQ2 8) (wr ADM_PORT_BUDGET.hop_budget 16 0 ADMB)) (wr ADM_PORT_BUDGET.hop_budget 16 0 ADMB), 8, 1, by decide +kernel⟩,
    ⟨7, 16, ADMW 2, by decide +kernel⟩,
    ⟨7, 16, 8, ADMX, by decide +kernel⟩,
    ⟨7, 16, go (.hopCommit 16 7) ADMX, by decide +kernel⟩,
    ⟨0, 8, F0, by decide +kernel⟩,
    ⟨7, 8, F0, by decide +kernel⟩,
    ⟨7, 16, ADMB, by decide +kernel⟩,
    ⟨7, 8, ADMX, by decide +kernel⟩⟩

theorem test_admission_answers :
    (∃ (a : Access) (n : Nat) (s : State), n < 65536 ∧ engStopped s = false ∧ Accepted a rADM_REQ_CMD 0 0xFFFFFFFF (admWord 2 n) s ∧ getL LADM.held 0 s = [] ∧ admHeld ((accRole a s).getD 2) ((hopKeys n s).flatMap (fun k => [rd HOP.in_ k s, rd HOP.eg k s])) s = false ∧ strState n s = 2) ∧
    (∃ (a : Access) (n : Nat) (s : State), n < 65536 ∧ engStopped s = false ∧ Accepted a rADM_REQ_CMD 0 0xFFFFFFFF (admWord 2 n) s ∧ getL LADM.held 0 s = [] ∧ admHeld ((accRole a s).getD 2) ((hopKeys n s).flatMap (fun k => [rd HOP.in_ k s, rd HOP.eg k s])) s = false ∧ strState n s = 2) ∧
    (∃ (a : Access) (n : Nat) (p : Nat) (s : State), n < 65536 ∧ engStopped s = false ∧ Accepted a rADM_REQ_CMD 0 0xFFFFFFFF (admWord 2 n) s ∧ getL LADM.held 0 s = [] ∧ admHeld ((accRole a s).getD 2) ((hopKeys n s).flatMap (fun k => [rd HOP.in_ k s, rd HOP.eg k s])) s = false ∧ strState n s = 2 ∧ rd STM.down n s = p + 1 ∧ forwards p s = true) ∧
    (∃ (a : Access) (n : Nat) (s : State), n < 65536 ∧ engStopped s = false ∧ Accepted a rADM_REQ_CMD 0 0xFFFFFFFF (admWord 3 n) s ∧ getL LADM.held 0 s = [] ∧ admHeld 0 [] s = false ∧ strState n s ≠ 0) ∧
    (∃ (a : Access) (n : Nat) (s : State), n < 65536 ∧ engStopped s = false ∧ Accepted a rADM_REQ_CMD 0 0xFFFFFFFF (admWord 4 n) s ∧ getL LADM.held 0 s = [] ∧ admHeld 0 [] s = false ∧ strState n s = 1 ∧ rd STM.up n s = 0 ∧ getL LADM.src n s = [0]) ∧
    (∃ (a : Access) (n : Nat) (s : State), n < 65536 ∧ engStopped s = false ∧ Accepted a rADM_REQ_CMD 0 0xFFFFFFFF (admWord 2 n) s ∧ getL LADM.held 0 s = [] ∧ rd ADM_CTRL.adm_enable 0 s = 0) ∧
    (∃ (n : Nat) (r : StreamReq) (s : State), n < 65536 ∧ engStopped s = false ∧ r.stream = n ∧ getL LADM.held 0 s = packJobs [⟨3, 0, [0], 0, ⟨0, 0, 0, 0, 0, 0, 0⟩, r⟩] ∧ admHeld 0 [] s = false ∧ strState n s ≠ 0) :=
  ⟨⟨core0, 7, ADMC 1, by unfold Accepted Direct; decide +kernel⟩,
    ⟨core0, 7, ADMC 2, by unfold Accepted Direct; decide +kernel⟩,
    ⟨core0, 7, 16, ADMC 2, by unfold Accepted Direct; decide +kernel⟩,
    ⟨core0, 7, ADMC 1, by unfold Accepted Direct; decide +kernel⟩,
    ⟨core0, 7, ADMW 2, by unfold Accepted Direct; decide +kernel⟩,
    ⟨core0, 7, wr ADM_CTRL.adm_enable 0 0 (ADMC 1), by unfold Accepted Direct; decide +kernel⟩,
    ⟨7, ADRQ, setL LADM.held 0 (packJobs [⟨3, 0, [0], 0, ⟨0, 0, 0, 0, 0, 0, 0⟩, ADRQ⟩]) (ADMC 1), by decide +kernel⟩⟩

theorem test_admission_ends :
    (∃ (n : Nat) (p : Nat) (s : State), s.telFifo.length < 1000 ∧ rd PRT_PORT_STATUS.peer_zx p s = 1 ∧ strState n s = 2 ∧ (rd STM.down n s = p + 1 ∨ rd STM.up n s = p + 1)) ∧
    (∃ (n : Nat) (p : Nat) (s : State), s.telFifo.length < 1000 ∧ rd PRT_PORT_STATUS.peer_zx p s = 1 ∧ strState n s = 2 ∧ (rd STM.down n s = p + 1 ∨ rd STM.up n s = p + 1)) ∧
    (∃ (n : Nat) (p : Nat) (d : Nat) (s : State), s.telFifo.length < 1000 ∧ rd PRT_PORT_STATUS.peer_zx p s = 1 ∧ (strState n s = 1 ∨ strState n s = 2) ∧ rd STM.up n s = p + 1 ∧ rd STM.down n s = d + 1 ∧ d ≠ p ∧ forwards d s = true) ∧
    (∃ (n : Nat) (p : Nat) (d : Nat) (s : State), s.telFifo.length < 1000 ∧ rd PRT_PORT_STATUS.peer_zx p s = 1 ∧ (strState n s = 1 ∨ strState n s = 2) ∧ rd STM.up n s = p + 1 ∧ rd STM.down n s = d + 1 ∧ d ≠ p ∧ forwards d s = true) ∧
    (∃ (n : Nat) (p : Nat) (code : Nat) (hop : Nat) (s : State), s.telFifo.length < 1000 ∧ rd PRT_PORT_STATUS.peer_zx p s = 1 ∧ strState n s = 1 ∧ rd STM.down n s = p + 1 ∧ getL LADM.src n s = [0] ∧ code ≠ 0 ∧ code < 32 ∧ hop < 32) ∧
    (∃ (n : Nat) (p : Nat) (s : State), s.telFifo.length < 1000 ∧ ((strState n s ≠ 1 ∧ strState n s ≠ 2) ∨ (rd STM.down n s ≠ p + 1 ∧ rd STM.up n s ≠ p + 1) ∨ rd PRT_PORT_STATUS.peer_zx p s = 0)) ∧
    (∃ (n : Nat) (p : Nat) (s : State), s.telFifo.length < 1000 ∧ ((strState n s ≠ 1 ∧ strState n s ≠ 2) ∨ (rd STM.down n s ≠ p + 1 ∧ rd STM.up n s ≠ p + 1) ∨ rd PRT_PORT_STATUS.peer_zx p s = 0)) ∧
    (∃ (n : Nat) (p : Nat) (s : State), s.telFifo.length < 1000 ∧ ((strState n s ≠ 1 ∧ strState n s ≠ 2) ∨ (rd STM.down n s ≠ p + 1 ∧ rd STM.up n s ≠ p + 1) ∨ rd PRT_PORT_STATUS.peer_zx p s = 0)) ∧
    (∃ (n : Nat) (s : State), s.telFifo.length < 1000 ∧ strState n s = 1 ∧ running HADM.wait n s = true ∧ getL LADM.src n s = [0]) ∧
    (∃ (n : Nat) (d : Nat) (s : State), s.telFifo.length < 1000 ∧ strState n s = 1 ∧ running HADM.wait n s = true ∧ rd STM.down n s = d + 1 ∧ forwards d s = true) ∧
    (∃ (n : Nat) (d : Nat) (s : State), s.telFifo.length < 1000 ∧ strState n s = 1 ∧ running HADM.wait n s = true ∧ rd STM.down n s = d + 1 ∧ forwards d s = true) ∧
    (∃ (n : Nat) (j : Job) (s : State), s.telFifo.length < 1000 ∧ (heldJobs s).find? (fun x => x.op = 5 && x.req.stream = n) = some j) ∧
    (∃ (n : Nat) (p : Nat) (j : Job) (s : State), s.telFifo.length < 1000 ∧ (heldJobs s).find? (fun x => x.op = 5 && x.req.stream = n) = some j ∧ j.src = [3, p] ∧ forwards p s = true) ∧
    (∃ (n : Nat) (i : Nat) (s : State), s.telFifo.length < 1000 ∧ strState n s = 3 ∧ running HOP.span (n * 32 + i) s = true) ∧
    (∃ (n : Nat) (i : Nat) (s : State), s.telFifo.length < 1000 ∧ strState n s = 3 ∧ running HOP.span (n * 32 + i) s = true) ∧
    (∃ (n : Nat) (i : Nat) (s : State), s.telFifo.length < 1000 ∧ strState n s = 3 ∧ running HOP.span (n * 32 + i) s = true) ∧
    (∃ (p : Nat) (s : State), s.telFifo.length < 1000 ∧ running HADM.extra p s = true) :=
  ⟨⟨7, 8, go (.hopCommit 16 7) ADMX, by decide +kernel⟩,
    ⟨7, 16, ADMC 2, by decide +kernel⟩,
    ⟨7, 8, 16, ADMX, by decide +kernel⟩,
    ⟨7, 8, 16, go (.hopCommit 16 7) ADMX, by decide +kernel⟩,
    ⟨7, 16, 8, 1, ADMW 2, by decide +kernel⟩,
    ⟨7, 16, base, by decide +kernel⟩,
    ⟨7, 24, ADMX, by decide +kernel⟩,
    ⟨7, 8, wr PRT_PORT_STATUS.peer_zx 8 0 ADMX, by decide +kernel⟩,
    ⟨7, ADMW 2, by decide +kernel⟩,
    ⟨7, 16, ADMW 2, by decide +kernel⟩,
    ⟨7, 16, ADMX, by decide +kernel⟩,
    ⟨7, ⟨5, 0, [3, 8], 99, ⟨1, 0, 0, 0, 0, 0, 0⟩, ADRQ⟩, setL LADM.held 0 (packJobs [⟨3, 0, [0], 0, ⟨0, 0, 0, 0, 0, 0, 0⟩, ADRQ⟩, ⟨5, 0, [3, 8], 99, ⟨1, 0, 0, 0, 0, 0, 0⟩, ADRQ⟩]) ADMB, by decide +kernel⟩,
    ⟨7, 8, ⟨5, 0, [3, 8], 99, ⟨1, 0, 0, 0, 0, 0, 0⟩, ADRQ⟩, setL LADM.held 0 (packJobs [⟨5, 0, [3, 8], 99, ⟨1, 0, 0, 0, 0, 0, 0⟩, ADRQ⟩]) ADMB, by decide +kernel⟩,
    ⟨7, 0, streamDrain 7 (ADMC 1), by decide +kernel⟩,
    ⟨7, 0, streamDrain 7 (ADMC 5), by decide +kernel⟩,
    ⟨7, 1, go (.drainSpanEnd 7 0) (streamDrain 7 (ADMC 5)), by decide +kernel⟩,
    ⟨16, ADMC 1 |> pushL LHOP.extra 224 16 |> wr HADM.extra 16 5, by decide +kernel⟩⟩

theorem test_link_bring_up :
    (∃ (a : Access) (p : Nat) (s : State), s.telFifo.length < 1000 ∧ Accepted a rPRT_PORT_CFG p (fieldWord PRT_PORT_CFG.admin_up 1) (fieldWord PRT_PORT_CFG.admin_up 1) s ∧ rd PRT_PORT_CFG.admin_up p s = 0 ∧ portExists p s = true ∧ rd PRT_PORT_STATUS.link_up p s = 0 ∧ rd PRT_PORT_STATUS.state p s = 0 ∧ running HPRT.retry p s = false ∧ rd PRT_PORT_STATUS.flap_hold p s = 0 ∧ rd HPRT.unserved p s = 0 ∧ testActive p s = false ∧ rd PRT_PORT_CFG.medium p s ≠ 2) ∧
    (∃ (a : Access) (p : Nat) (s : State), s.telFifo.length < 1000 ∧ Accepted a rPRT_PORT_CFG p (fieldWord PRT_PORT_CFG.admin_up 1) (fieldWord PRT_PORT_CFG.admin_up 1) s ∧ rd PRT_PORT_CFG.admin_up p s = 0 ∧ portExists p s = true ∧ rd PRT_PORT_STATUS.link_up p s = 0 ∧ rd PRT_PORT_STATUS.state p s = 0 ∧ running HPRT.retry p s = false ∧ rd PRT_PORT_STATUS.flap_hold p s = 0 ∧ rd HPRT.unserved p s = 0 ∧ testActive p s = false ∧ rd PRT_PORT_CFG.medium p s ≠ 2) ∧
    (∃ (a : Access) (p : Nat) (s : State), s.telFifo.length < 1000 ∧ Accepted a rPRT_PORT_CFG p (fieldWord PRT_PORT_CFG.admin_up 1) (fieldWord PRT_PORT_CFG.admin_up 1) s ∧ rd PRT_PORT_CFG.admin_up p s = 0 ∧ portExists p s = true ∧ rd PRT_PORT_STATUS.link_up p s = 0 ∧ rd PRT_PORT_STATUS.state p s = 0 ∧ running HPRT.retry p s = false ∧ rd PRT_PORT_STATUS.flap_hold p s = 0 ∧ rd HPRT.unserved p s = 0 ∧ testActive p s = false ∧ rd PRT_PORT_CFG.medium p s ≠ 2) ∧
    (∃ (a : Access) (p : Nat) (s : State), s.telFifo.length < 1000 ∧ Accepted a rPRT_PORT_CFG p (fieldWord PRT_PORT_CFG.admin_up 1) (fieldWord PRT_PORT_CFG.admin_up 1) s ∧ rd PRT_PORT_CFG.admin_up p s = 0 ∧ portExists p s = true ∧ rd PRT_PORT_STATUS.link_up p s = 0 ∧ rd PRT_PORT_STATUS.state p s = 0 ∧ running HPRT.retry p s = false ∧ rd PRT_PORT_STATUS.flap_hold p s = 0 ∧ rd HPRT.unserved p s = 0 ∧ testActive p s = false ∧ rd PRT_PORT_CFG.medium p s ≠ 2) ∧
    (∃ (a : Access) (p : Nat) (s : State), s.telFifo.length < 1000 ∧ Accepted a rPRT_PORT_CFG p (fieldWord PRT_PORT_CFG.admin_up 1) 0 s ∧ rd PRT_PORT_CFG.admin_up p s = 1 ∧ rd PRT_PORT_STATUS.link_up p s = 1) ∧
    (∃ (p : Nat) (s : State), s.telFifo.length < 1000 ∧ rd PRT_PORT_STATUS.state p s = 1) ∧
    (∃ (p : Nat) (s : State), s.telFifo.length < 1000 ∧ rd PRT_PORT_STATUS.state p s = 1 ∧ rd HPRT.mism p s = 0) ∧
    (∃ (p : Nat) (s : State), s.telFifo.length < 1000 ∧ rd PRT_PORT_STATUS.state p s = 1 ∧ rd HPRT.mism p s = 1) ∧
    (∃ (p : Nat) (s : State), s.telFifo.length < 1000 ∧ rd PRT_PORT_STATUS.state p s = 2) ∧
    (∃ (p : Nat) (s : State), s.telFifo.length < 1000 ∧ rd PRT_PORT_STATUS.state p s = 2) ∧
    (∃ (p : Nat) (s : State), s.telFifo.length < 1000 ∧ rd PRT_PORT_STATUS.state p s = 3 ∧ rd PRT_PORT_STATUS.faults p s < 8 ∧ rd PRT_PORT_TIMERS.up_debounce p s ≠ 0) ∧
    (∃ (p : Nat) (s : State), s.telFifo.length < 1000 ∧ running HPRT.updeb p s = true) ∧
    (∃ (p : Nat) (s : State), s.telFifo.length < 1000 ∧ rd PRT_PORT_STATUS.link_up p s = 0 ∧ 1 ≤ rd PRT_PORT_STATUS.state p s ∧ rd PRT_PORT_STATUS.state p s ≤ 4) ∧
    (∃ (p : Nat) (s : State), s.telFifo.length < 1000 ∧ rd PRT_PORT_STATUS.link_up p s = 0 ∧ 1 ≤ rd PRT_PORT_STATUS.state p s ∧ rd PRT_PORT_STATUS.state p s ≤ 4) ∧
    (∃ (p : Nat) (s : State), s.telFifo.length < 1000 ∧ running HPRT.retry p s = true ∧ rd PRT_PORT_STATUS.link_up p s = 0 ∧ rd PRT_PORT_STATUS.state p s = 0 ∧ bringOk p s = true ∧ rd PRT_PORT_CFG.medium p s ≠ 2) :=
  ⟨⟨core0, 8, base, by unfold Accepted Direct; decide +kernel⟩,
    ⟨core0, 8, wr PRT_PORT_CFG.medium 8 1 base, by unfold Accepted Direct; decide +kernel⟩,
    ⟨core0, 8, wr PRT_PORT_CFG.an_enable 8 0 (wr PRT_PORT_CFG.medium 8 1 base), by unfold Accepted Direct; decide +kernel⟩,
    ⟨core0, 8, wr PRT_PORT_CFG.an_enable 8 0 (wr PRT_PORT_CFG.lt_enable 8 0 base), by unfold Accepted Direct; decide +kernel⟩,
    ⟨core0, 8, up 8 base, by unfold Accepted Direct; decide +kernel⟩,
    ⟨8, wr PRT_PORT_STATUS.state 8 1 base, by decide +kernel⟩,
    ⟨8, wr PRT_PORT_STATUS.state 8 1 base, by decide +kernel⟩,
    ⟨8, wr HPRT.mism 8 1 (wr PRT_PORT_STATUS.state 8 1 base), by decide +kernel⟩,
    ⟨8, wr PRT_PORT_STATUS.state 8 2 base, by decide +kernel⟩,
    ⟨8, wr PRT_PORT_STATUS.state 8 2 base, by decide +kernel⟩,
    ⟨8, run 77 (wr PRT_PORT_STATUS.faults 8 7 (wr PRT_PORT_STATUS.state 8 3 base)), by decide +kernel⟩,
    ⟨8, run 77 (wr HPRT.updeb 8 1001 (wr PRT_PORT_STATUS.state 8 4 base)), by decide +kernel⟩,
    ⟨8, run 77 (wr PRT_PORT_STATUS.state 8 1 base), by decide +kernel⟩,
    ⟨8, wr HPRT.updeb 8 900 (wr PRT_PORT_STATUS.state 8 4 base), by decide +kernel⟩,
    ⟨8, run 77 (wr HPRT.retry 8 1001 (dn 8 base)), by decide +kernel⟩⟩

theorem test_peer_frames :
    (∃ (p : Nat) (s : State), s.telFifo.length < 1000 ∧ rd PRT_PORT_STATUS.link_up p s = 1 ∧ rd PRT_PORT_STATUS.state p s = 4 ∧ rd HPRT.captx p s ≠ 0 ∧ rd HPRT.cap p s = 0) ∧
    (∃ (p : Nat) (s : State), s.telFifo.length < 1000 ∧ rd PRT_PORT_STATUS.link_up p s = 1 ∧ rd PRT_PORT_STATUS.state p s = 4 ∧ rd HPRT.captx p s ≠ 0 ∧ rd HPRT.cap p s = 0) ∧
    (∃ (p : Nat) (dev : Nat) (pport : Nat) (caps : Nat) (group : Nat) (s : State), s.telFifo.length < 1000 ∧ portExists p s = true ∧ portHears p s = true ∧ running HPRT.quiet2 p s = false ∧ (rd HPRT.rec p s = 0 ∨ (rd PRT_PORT_PEER.peer_device p s = dev ∧ rd PRT_PORT_PEER.peer_port p s = pport)) ∧ dev < 4096 ∧ pport < 1024 ∧ caps < 65536 ∧ group < 65536) ∧
    (∃ (p : Nat) (dev : Nat) (pport : Nat) (caps : Nat) (group : Nat) (s : State), s.telFifo.length < 1000 ∧ portExists p s = true ∧ portHears p s = true ∧ running HPRT.quiet2 p s = false ∧ (rd HPRT.rec p s = 0 ∨ (rd PRT_PORT_PEER.peer_device p s = dev ∧ rd PRT_PORT_PEER.peer_port p s = pport)) ∧ dev < 4096 ∧ pport < 1024 ∧ caps < 65536 ∧ group < 65536) ∧
    (∃ (p : Nat) (dev : Nat) (s : State), s.telFifo.length < 1000 ∧ portExists p s = true ∧ portHears p s = true ∧ rd HPRT.rec p s = 1 ∧ rd PRT_PORT_PEER.peer_device p s ≠ dev ∧ dev < 4096) ∧
    (∃ (p : Nat) (s : State), s.telFifo.length < 1000 ∧ running HPRT.lost p s = true) ∧
    (∃ (p : Nat) (s : State), s.telFifo.length < 1000 ∧ portExists p s = true ∧ portHears p s = true ∧ running HPRT.quiet2 p s = false ∧ rd PWR_SLICE.state (servSlice p s) s ≠ 1) ∧
    (∃ (p : Nat) (s : State), s.telFifo.length < 1000 ∧ portExists p s = true ∧ portHears p s = true ∧ running HPRT.quiet2 p s = false ∧ rd PWR_SLICE.state (servSlice p s) s ≠ 1) ∧
    (∃ (p : Nat) (s : State), s.telFifo.length < 1000 ∧ portExists p s = true ∧ portHears p s = true ∧ running HPRT.quiet2 p s = false ∧ rd PWR_SLICE.state (servSlice p s) s ≠ 1) ∧
    (∃ (p : Nat) (dev : Nat) (s : State), s.telFifo.length < 1000 ∧ portHears p s = true ∧ undefinedSet dev = true ∧ osSeen dev 0 (osRecent (now s) (getL LPRT.os p s)) = false) :=
  ⟨⟨8, run 77 (up 8 base |> wr HPRT.captx 8 5), by decide +kernel⟩,
    ⟨8, run 77 (zx 8 (up 8 base |> wr HPRT.captx 8 5)), by decide +kernel⟩,
    ⟨8, 7, 3, 0x35, 9, run 77 (up 8 base), by decide +kernel⟩,
    ⟨8, 0, 0, 0x34, 0, run 77 (zx 8 (up 8 base)), by decide +kernel⟩,
    ⟨8, 7, run 77 (zx 8 (up 8 base)), by decide +kernel⟩,
    ⟨8, run 77 (zx 8 (up 8 base)), by decide +kernel⟩,
    ⟨8, up 8 base, by decide +kernel⟩,
    ⟨8, up 8 base, by decide +kernel⟩,
    ⟨8, up 8 base, by decide +kernel⟩,
    ⟨8, 9, up 8 base, by decide +kernel⟩⟩

theorem test_quiet_handshake :
    (∃ (p : Nat) (s : State), rd PRT_PORT_STATUS.link_up p s = 1 ∧ (rd PRT_PORT_STATUS.state p s = 4 ∨ rd PRT_PORT_STATUS.state p s = 7) ∧ running HPRT.reqd p s = false ∧ running HPRT.quiet2 p s = false ∧ rd HPRT.idle0 p s ≠ 0 ∧ rd PRT_PORT_TIMERS.quiet_idle p s ≠ 0 ∧ rd PRT_PORT_CFG.quiet_enable p s = 1 ∧ rd PRT_PORT_STATUS.peer_zx p s = 1 ∧ bitOf (rd PRT_PORT_PEER_CAP.peer_caps p s) 1 = true ∧ quietNo p s = 0) ∧
    (∃ (p : Nat) (s : State), portHears p s = true ∧ rd PRT_PORT_STATUS.peer_zx p s = 1 ∧ running HPRT.quiet2 p s = false ∧ running HPRT.reqd p s = false ∧ osSeen 1 0 (osRecent (now s) (getL LPRT.os p s)) = false ∧ quietNo p s = 0) ∧
    (∃ (p : Nat) (s : State), portHears p s = true ∧ rd PRT_PORT_STATUS.peer_zx p s = 1 ∧ running HPRT.quiet2 p s = false ∧ running HPRT.reqd p s = true ∧ osSeen 1 0 (osRecent (now s) (getL LPRT.os p s)) = false) ∧
    (∃ (p : Nat) (s : State), portHears p s = true ∧ rd PRT_PORT_STATUS.peer_zx p s = 1 ∧ running HPRT.quiet2 p s = false ∧ running HPRT.reqd p s = false ∧ osSeen 1 0 (osRecent (now s) (getL LPRT.os p s)) = false ∧ quietNo p s ≠ 0) ∧
    (∃ (p : Nat) (s : State), rd PRT_PORT_STATUS.state p s = 6 ∧ rd PRT_PORT_STATUS.peer_zx p s = 1 ∧ running HPRT.quiet2 p s = false ∧ running HPRT.reqd p s = false ∧ osSeen 1 0 (osRecent (now s) (getL LPRT.os p s)) = false ∧ quietNo p s ≠ 0) ∧
    (∃ (p : Nat) (s : State), running HPRT.reqd p s = true ∧ osSeen 2 0 (osRecent (now s) (getL LPRT.os p s)) = false) ∧
    (∃ (p : Nat) (us : Nat) (s : State), running HPRT.reqd p s = true ∧ getL LPRT.llq p s = [] ∧ getL LPRT.pgq p s = [] ∧ osSeen 3 us (osRecent (now s) (getL LPRT.os p s)) = false) ∧
    (∃ (p : Nat) (s : State), osSeen 1 0 (osRecent (now s) (getL LPRT.os p s)) = true) ∧
    (∃ (p : Nat) (s : State), osSeen 2 0 (osRecent (now s) (getL LPRT.os p s)) = true) ∧
    (∃ (p : Nat) (us : Nat) (s : State), osSeen 3 us (osRecent (now s) (getL LPRT.os p s)) = true) ∧
    (∃ (p : Nat) (us : Nat) (s : State), osSeen 4 us (osRecent (now s) (getL LPRT.os p s)) = true) ∧
    (∃ (p : Nat) (s : State), osSeen 5 0 (osRecent (now s) (getL LPRT.os p s)) = true) ∧
    (∃ (p : Nat) (s : State), running HPRT.reqd p s = true ∧ getL LPRT.llq p s = [] ∧ getL LPRT.pgq p s = []) ∧
    (∃ (p : Nat) (us : Nat) (s : State), portHears p s = true ∧ rd PRT_PORT_STATUS.state p s = 4 ∧ 0 < us ∧ us < 65536 ∧ osSeen 4 us (osRecent (now s) (getL LPRT.os p s)) = false) ∧
    (∃ (p : Nat) (us : Nat) (s : State), portHears p s = true ∧ rd PRT_PORT_STATUS.state p s = 4 ∧ 0 < us ∧ us < 65536 ∧ osSeen 4 us (osRecent (now s) (getL LPRT.os p s)) = false) ∧
    (∃ (p : Nat) (s : State), portHears p s = true ∧ running HPRT.hold p s = true ∧ rd PRT_PORT_STATUS.state p s = 7 ∧ rd PRT_PORT_STATUS.faults p s = 0 ∧ getL LPRT.llq p s = [] ∧ getL LPRT.pgq p s = [] ∧ osSeen 5 0 (osRecent (now s) (getL LPRT.os p s)) = false) ∧
    (∃ (p : Nat) (s : State), running HPRT.hold p s = true ∧ rd PRT_PORT_STATUS.state p s = 7 ∧ rd PRT_PORT_STATUS.faults p s = 0 ∧ getL LPRT.llq p s = [] ∧ getL LPRT.pgq p s = []) :=
  ⟨⟨8, run 77 (zx 8 (up 8 base) |> wr HPRT.idle0 8 1 |> wr PRT_PORT_CFG.quiet_enable 8 1 |> wr PRT_PORT_TIMERS.quiet_idle 8 10), by decide +kernel⟩,
    ⟨8, run 77 (zx 8 (up 8 base) |> wr PRT_PORT_CFG.quiet_enable 8 1), by decide +kernel⟩,
    ⟨8, run 77 (zx 8 (up 8 base) |> wr HPRT.reqd 8 100), by decide +kernel⟩,
    ⟨8, run 77 (zx 8 (up 8 base)), by decide +kernel⟩,
    ⟨8, run 77 (zx 8 (up 8 base) |> wr PRT_PORT_STATUS.state 8 6 |> wr PRT_PORT_CFG.quiet_enable 8 1), by decide +kernel⟩,
    ⟨8, run 77 (zx 8 (up 8 base) |> wr HPRT.reqd 8 100), by decide +kernel⟩,
    ⟨8, 0, run 77 (zx 8 (up 8 base) |> wr HPRT.reqd 8 100), by decide +kernel⟩,
    ⟨8, setL LPRT.os 8 [1, 0, now base] (up 8 base), by decide +kernel⟩,
    ⟨8, setL LPRT.os 8 [2, 0, now base] (up 8 base), by decide +kernel⟩,
    ⟨8, 2, setL LPRT.os 8 [3, 2, now base] (up 8 base), by decide +kernel⟩,
    ⟨8, 7, setL LPRT.os 8 [4, 7, now base] (up 8 base), by decide +kernel⟩,
    ⟨8, setL LPRT.os 8 [5, 0, now base] (up 8 base), by decide +kernel⟩,
    ⟨8, run 77 (zx 8 (up 8 base) |> wr HPRT.reqd 8 100), by decide +kernel⟩,
    ⟨8, 1, run 77 (zx 8 (up 8 base) |> wr HPRT.debounce 8 100), by decide +kernel⟩,
    ⟨8, 65535, run 77 (zx 8 (up 8 base)), by decide +kernel⟩,
    ⟨8, run 77 (zx 8 (up 8 base) |> wr HPRT.hold 8 100 |> wr PRT_PORT_STATUS.state 8 7), by decide +kernel⟩,
    ⟨8, run 77 (zx 8 (up 8 base) |> wr HPRT.hold 8 100 |> wr PRT_PORT_STATUS.state 8 7), by decide +kernel⟩⟩

theorem test_quiet_and_faults :
    (∃ (p : Nat) (s : State), s.telFifo.length < 1000 ∧ running HPRT.quiet2 p s = true ∧ rd HPRT.wakeup p s = 0) ∧
    (∃ (p : Nat) (s : State), s.telFifo.length < 1000 ∧ rd PRT_PORT_STATUS.state p s = 5) ∧
    (∃ (p : Nat) (s : State), s.telFifo.length < 1000 ∧ rd PRT_PORT_STATUS.state p s = 6 ∧ running HPRT.hold p s = false ∧ rd HPRT.wcounted p s = 0 ∧ getL LPRT.llq p s = [] ∧ getL LPRT.pgq p s = [] ∧ rd HPRT.nak p s = 0) ∧
    (∃ (p : Nat) (s : State), s.telFifo.length < 1000 ∧ rd PRT_PORT_STATUS.state p s = 6 ∧ rd HPRT.nak p s ≠ 0 ∧ rd PRT_PORT_STATUS.peer_zx p s = 1) ∧
    (∃ (p : Nat) (s : State), s.telFifo.length < 1000 ∧ running HPRT.wake p s = true ∧ rd PRT_PORT_STATUS.link_up p s = 1) ∧
    (∃ (p : Nat) (k : Nat) (s : State), s.telFifo.length < 1000 ∧ portExists p s = true ∧ 1 ≤ k ∧ k ≤ 5 ∧ rd PRT_PORT_STATUS.state p s = 4 ∧ running HPRT.quiet2 p s = false ∧ rd HPRT.first p s = 0 ∧ rd PRT_PORT_STATUS.link_up p s = 1 ∧ running HPRT.hold p s = false ∧ running HPRT.debounce p s = false ∧ rd PRT_PORT_TIMERS.down_debounce p s ≠ 0) ∧
    (∃ (p : Nat) (k : Nat) (s : State), s.telFifo.length < 1000 ∧ portExists p s = true ∧ 1 ≤ k ∧ k ≤ 5 ∧ rd PRT_PORT_STATUS.state p s = 4 ∧ running HPRT.quiet2 p s = false ∧ rd HPRT.first p s = 0 ∧ rd PRT_PORT_STATUS.link_up p s = 1 ∧ running HPRT.hold p s = false ∧ running HPRT.debounce p s = false ∧ rd PRT_PORT_TIMERS.down_debounce p s ≠ 0) ∧
    (∃ (p : Nat) (k : Nat) (s : State), s.telFifo.length < 1000 ∧ portExists p s = true ∧ 1 ≤ k ∧ k ≤ 5 ∧ rd PRT_PORT_STATUS.state p s = 4 ∧ running HPRT.quiet2 p s = false ∧ rd PRT_PORT_STATUS.link_up p s = 1 ∧ (k = 4 → rd HPRT.rfrx p s = 0)) ∧
    (∃ (p : Nat) (k : Nat) (s : State), s.telFifo.length < 1000 ∧ portExists p s = true ∧ 1 ≤ k ∧ k ≤ 5 ∧ rd PRT_PORT_STATUS.state p s = 4 ∧ running HPRT.quiet2 p s = false ∧ rd PRT_PORT_STATUS.link_up p s = 1 ∧ (k = 4 → rd HPRT.rfrx p s = 0)) ∧
    (∃ (p : Nat) (s : State), s.telFifo.length < 1000 ∧ portExists p s = true ∧ rd PRT_PORT_STATUS.state p s = 4 ∧ rd HPRT.first p s = 0 ∧ rd PRT_PORT_STATUS.link_up p s = 1 ∧ running HPRT.hold p s = false ∧ running HPRT.debounce p s = false ∧ rd PRT_PORT_TIMERS.down_debounce p s ≠ 0 ∧ rd PRT_PORT_STATUS.faults p s % 8 = 0 ∧ rd HPRT.lfrx p s = 0 ∧ rd HPRT.rf p s = 0) ∧
    (∃ (p : Nat) (k : Nat) (s : State), s.telFifo.length < 1000 ∧ portExists p s = true ∧ ((k = 4 ∧ rd HPRT.rfrx p s = 1) ∨ (k = 7 ∧ rd HPRT.lfrx p s = 1))) ∧
    (∃ (p : Nat) (k : Nat) (s : State), s.telFifo.length < 1000 ∧ portExists p s = true ∧ ((k = 4 ∧ rd HPRT.rfrx p s = 1) ∨ (k = 7 ∧ rd HPRT.lfrx p s = 1))) ∧
    (∃ (p : Nat) (s : State), s.telFifo.length < 1000 ∧ running HPRT.debounce p s = true ∧ rd PRT_PORT_STATUS.link_up p s = 1) ∧
    (∃ (a : Access) (p : Nat) (s : State), s.telFifo.length < 1000 ∧ Accepted a rPRT_PORT_STATUS p (fieldWord PRT_PORT_STATUS.flap_hold 1) (fieldWord PRT_PORT_STATUS.flap_hold 1) s ∧ rd PRT_PORT_STATUS.flap_hold p s = 1) :=
  ⟨⟨8, run 77 (zx 8 (up 8 base) |> wr HPRT.quiet2 8 100), by decide +kernel⟩,
    ⟨8, run 77 (zx 8 (up 8 base) |> wr PRT_PORT_STATUS.state 8 5), by decide +kernel⟩,
    ⟨8, run 77 (zx 8 (up 8 base) |> wr PRT_PORT_STATUS.state 8 6), by decide +kernel⟩,
    ⟨8, run 77 (zx 8 (up 8 base) |> wr PRT_PORT_STATUS.state 8 6 |> wr HPRT.nak 8 4), by decide +kernel⟩,
    ⟨8, run 77 (zx 8 (up 8 base) |> wr HPRT.wake 8 100 |> wr PRT_PORT_STATUS.state 8 6), by decide +kernel⟩,
    ⟨8, 1, run 77 (zx 8 (up 8 base) |> wr PRT_PORT_TIMERS.down_debounce 8 5), by decide +kernel⟩,
    ⟨8, 5, run 77 (up 8 base |> wr PRT_PORT_TIMERS.down_debounce 8 5), by decide +kernel⟩,
    ⟨8, 1, run 77 (up 8 base |> wr PRT_PORT_STATUS.faults 8 1 |> wr HPRT.first 8 1 |> wr HPRT.debounce 8 99), by decide +kernel⟩,
    ⟨8, 4, run 77 (up 8 base |> wr PRT_PORT_STATUS.faults 8 9 |> wr HPRT.first 8 1 |> wr HPRT.debounce 8 99), by decide +kernel⟩,
    ⟨8, run 77 (zx 8 (up 8 base) |> wr PRT_PORT_TIMERS.down_debounce 8 5), by decide +kernel⟩,
    ⟨8, 4, run 77 (up 8 base |> wr PRT_PORT_STATUS.faults 8 8 |> wr HPRT.first 8 4 |> wr HPRT.debounce 8 99 |> wr HPRT.rfrx 8 1 |> wr HPRT.lfrx 8 1), by decide +kernel⟩,
    ⟨8, 7, run 77 (up 8 base |> wr PRT_PORT_STATUS.faults 8 8 |> wr HPRT.first 8 4 |> wr HPRT.debounce 8 99 |> wr HPRT.rfrx 8 1 |> wr HPRT.lfrx 8 1), by decide +kernel⟩,
    ⟨8, run 77 (zx 8 (up 8 base) |> wr HPRT.debounce 8 100 |> wr HPRT.first 8 3), by decide +kernel⟩,
    ⟨core0, 8, dn 8 base |> wr PRT_PORT_STATUS.flap_hold 8 1 |> setL LPRT.flaps 8 [1, 2], by unfold Accepted Direct; decide +kernel⟩⟩

theorem test_lane_and_module :
    (∃ (p : Nat) (errs : Nat) (s : State), s.telFifo.length < 1000 ∧ portExists p s = true ∧ rd PRT_PORT_STATUS.link_up p s = 1 ∧ rd PRT_PORT_FLAP.degrade_threshold p s < errs) ∧
    (∃ (p : Nat) (errs : Nat) (s : State), s.telFifo.length < 1000 ∧ portExists p s = true ∧ rd PRT_PORT_STATUS.link_up p s = 1 ∧ errs * 2 < rd PRT_PORT_FLAP.degrade_threshold p s) ∧
    (∃ (p : Nat) (errs : Nat) (s : State), s.telFifo.length < 1000 ∧ rd PRT_LANE_CFG.adapt_enable p s = 1 ∧ rd PRT_PORT_STATUS.link_up (lanePort p s) s = 1 ∧ rd HLN.step p s = 0 ∧ errs ≤ lossLimit (rd PRT_OCT_CFG.mode (p / 8) s) ∧ errs < 256) ∧
    (∃ (p : Nat) (errs : Nat) (s : State), s.telFifo.length < 1000 ∧ rd PRT_LANE_CFG.adapt_enable p s = 1 ∧ rd PRT_PORT_STATUS.link_up (lanePort p s) s = 1 ∧ rd HLN.step p s = 0 ∧ errs ≤ lossLimit (rd PRT_OCT_CFG.mode (p / 8) s) ∧ errs < 256) ∧
    (∃ (p : Nat) (errs : Nat) (unc : Nat) (s : State), s.telFifo.length < 1000 ∧ getL LLN.steps p s = [errs, unc]) ∧
    (∃ (p : Nat) (errs : Nat) (unc : Nat) (s : State), s.telFifo.length < 1000 ∧ getL LLN.steps p s = [errs, unc]) ∧
    (∃ (p : Nat) (d : ModData) (s : State), s.telFifo.length < 1000 ∧ moduleOn p s = true ∧ running HOCT.pulse p s = false ∧ rd PRT_OCT_MODULE_STAT.present p s = 0 ∧ d.present = true ∧ d.intLow = false ∧ d.passive = true ∧ d.rev < 256) ∧
    (∃ (p : Nat) (d : ModData) (s : State), s.telFifo.length < 1000 ∧ moduleOn p s = true ∧ running HOCT.pulse p s = false ∧ rd PRT_OCT_MODULE_STAT.present p s = 0 ∧ d.present = true ∧ d.intLow = false ∧ d.passive = false ∧ d.class_ < 16 ∧ rd PRT_OCT_MODULE_MAP.max_power_class p s < d.class_) ∧
    (∃ (p : Nat) (errs : Nat) (d : ModData) (s : State), s.telFifo.length < 1000 ∧ moduleOn p s = true ∧ running HOCT.pulse p s = false ∧ rd PRT_OCT_MODULE_STAT.present p s = 0 ∧ d.present = true ∧ d.intLow = false ∧ d.passive = false ∧ d.class_ ≤ rd PRT_OCT_MODULE_MAP.max_power_class p s ∧ rd PRT_OCT_MODULE_CTRL.force_lp p s = 0 ∧ firstApp (rd PRT_OCT_CFG.mode p s) d.apps = some errs) ∧
    (∃ (p : Nat) (d : ModData) (s : State), s.telFifo.length < 1000 ∧ moduleOn p s = true ∧ running HOCT.pulse p s = false ∧ rd PRT_OCT_MODULE_STAT.present p s = 1 ∧ d.present = false) ∧
    (∃ (p : Nat) (s : State), s.telFifo.length < 1000 ∧ moduleOn p s = true ∧ rd PRT_OCT_MODULE_STAT.present p s = 1) ∧
    (∃ (a : Access) (p : Nat) (s : State), s.telFifo.length < 1000 ∧ Accepted a rPRT_OCT_MODULE_CTRL p (fieldWord PRT_OCT_MODULE_CTRL.mod_reset 1) (fieldWord PRT_OCT_MODULE_CTRL.mod_reset 1) s) ∧
    (∃ (p : Nat) (s : State), s.telFifo.length < 1000 ∧ running HOCT.pulse p s = true ∧ rd PRT_OCT_MODULE_STAT.present p s = 0) :=
  ⟨⟨8, rd PRT_PORT_FLAP.degrade_threshold 8 base + 1, up 8 base, by decide +kernel⟩,
    ⟨8, 1, up 8 base |> wr PRT_PORT_STATUS.degraded 8 1, by decide +kernel⟩,
    ⟨8, 40, up 8 base, by decide +kernel⟩,
    ⟨8, 80, up 8 base, by decide +kernel⟩,
    ⟨9, 40, 5, run 77 (up 8 base |> setL LLN.steps 9 [40, 5] |> wr HLN.taps 9 3), by decide +kernel⟩,
    ⟨9, 40, 5, run 77 (up 8 base |> setL LLN.steps 9 [40, 5] |> wr HLN.taps 9 3), by decide +kernel⟩,
    ⟨1, ⟨true, false, true, 0x30, 3, 0, [], []⟩, wr PRT_OCT_MODULE_MAP.module_en 1 1 (dn 8 base), by decide +kernel⟩,
    ⟨1, ⟨true, false, false, 0x50, 3, 8, [1], []⟩, wr PRT_OCT_MODULE_MAP.max_power_class 1 3 (wr PRT_OCT_MODULE_MAP.module_en 1 1 base), by decide +kernel⟩,
    ⟨1, 2, ⟨true, false, false, 0x50, 3, 2, [7, rd PRT_OCT_CFG.mode 1 base], []⟩, wr PRT_OCT_MODULE_MAP.max_power_class 1 3 (wr PRT_OCT_MODULE_MAP.module_en 1 1 base), by decide +kernel⟩,
    ⟨1, ⟨false, false, false, 0, 0, 0, [], []⟩, wr PRT_OCT_MODULE_STAT.present 1 1 (wr PRT_OCT_MODULE_MAP.module_en 1 1 base), by decide +kernel⟩,
    ⟨1, wr PRT_OCT_MODULE_STAT.present 1 1 (wr PRT_OCT_MODULE_MAP.module_en 1 1 base), by decide +kernel⟩,
    ⟨core0, 1, wr PRT_OCT_MODULE_STAT.ready 1 1 (up 8 base), by unfold Accepted Direct; decide +kernel⟩,
    ⟨1, run 77 (wr HOCT.pulse 1 100 base), by decide +kernel⟩⟩

theorem test_frame_arrival :
    (∃ (p : Nat) (tag : List Nat) (body : List Nat) (s : State), s.telFifo.length < 1000 ∧ portExists p s = true ∧ portHears p s = true ∧ rd HPRT.cur p s = 0 ∧ rd HPRT.mac p s = 0 ∧ (tag ++ body).length < rxNeed p (tag ++ body) s) ∧
    (∃ (p : Nat) (tag : List Nat) (body : List Nat) (s : State), s.telFifo.length < 1000 ∧ portExists p s = true ∧ portHears p s = true ∧ rd HPRT.cur p s = 0 ∧ rd HPRT.mac p s = 0 ∧ (tag ++ body).length < rxNeed p (tag ++ body) s) ∧
    (∃ (p : Nat) (f : Nat) (tag : List Nat) (body : List Nat) (s : State), s.telFifo.length < 1000 ∧ portExists p s = true ∧ portHears p s = true ∧ rd HPRT.cur p s = 0 ∧ rd HPRT.mac p s = 0 ∧ rxNeed p (tag ++ body) s ≤ (tag ++ body).length ∧ macKind p (tag ++ body) s = 0 ∧ ((rd PRT_PORT_STATUS.tag_active p s = 0 ∧ tag = []) ∨ (rd PRT_PORT_STATUS.tag_active p s = 1 ∧ tag.length = 16 ∧ tagCheck tag s = 0)) ∧ bootReady s = true ∧ rd HPRT.gap p s = 0 ∧ headPick (servSlice p s) (earlyMark (servSlice p s * 64 + p % 64) tag body s) s ≠ 0 ∧ rd HBUF.rx_used 0 s < (rd BUF_RX_CFG.rx_pool 0 s - if (earlyMark (servSlice p s * 64 + p % 64) tag body s) = true then 0 else rd BUF_RX_CFG.rx_early 0 s) * 1024 ∧ rd HFRM.next 0 s = f ∧ f < 4294967295 ∧ body.length ≤ portMax p s) ∧
    (∃ (p : Nat) (f : Nat) (tag : List Nat) (body : List Nat) (s : State), s.telFifo.length < 1000 ∧ portExists p s = true ∧ portHears p s = true ∧ rd HPRT.cur p s = 0 ∧ rd HPRT.mac p s = 0 ∧ rxNeed p (tag ++ body) s ≤ (tag ++ body).length ∧ macKind p (tag ++ body) s = 0 ∧ ((rd PRT_PORT_STATUS.tag_active p s = 0 ∧ tag = []) ∨ (rd PRT_PORT_STATUS.tag_active p s = 1 ∧ tag.length = 16 ∧ tagCheck tag s = 0)) ∧ bootReady s = true ∧ rd HPRT.gap p s = 0 ∧ headPick (servSlice p s) (earlyMark (servSlice p s * 64 + p % 64) tag body s) s ≠ 0 ∧ rd HBUF.rx_used 0 s < (rd BUF_RX_CFG.rx_pool 0 s - if (earlyMark (servSlice p s * 64 + p % 64) tag body s) = true then 0 else rd BUF_RX_CFG.rx_early 0 s) * 1024 ∧ rd HFRM.next 0 s = f ∧ f < 4294967295 ∧ body.length ≤ portMax p s) ∧
    (∃ (p : Nat) (f : Nat) (tag : List Nat) (body : List Nat) (s : State), s.telFifo.length < 1000 ∧ portExists p s = true ∧ portHears p s = true ∧ rd HPRT.cur p s = 0 ∧ rd HPRT.mac p s = 0 ∧ rxNeed p (tag ++ body) s ≤ (tag ++ body).length ∧ macKind p (tag ++ body) s = 0 ∧ ((rd PRT_PORT_STATUS.tag_active p s = 0 ∧ tag = []) ∨ (rd PRT_PORT_STATUS.tag_active p s = 1 ∧ tag.length = 16 ∧ tagCheck tag s = 0)) ∧ bootReady s = true ∧ rd HPRT.gap p s = 0 ∧ headPick (servSlice p s) (earlyMark (servSlice p s * 64 + p % 64) tag body s) s ≠ 0 ∧ rd HBUF.rx_used 0 s < (rd BUF_RX_CFG.rx_pool 0 s - if (earlyMark (servSlice p s * 64 + p % 64) tag body s) = true then 0 else rd BUF_RX_CFG.rx_early 0 s) * 1024 ∧ rd HFRM.next 0 s = f ∧ f < 4294967295 ∧ body.length ≤ portMax p s) ∧
    (∃ (p : Nat) (tag : List Nat) (body : List Nat) (s : State), s.telFifo.length < 1000 ∧ portExists p s = true ∧ portHears p s = true ∧ rd HPRT.cur p s = 0 ∧ rd HPRT.mac p s = 0 ∧ rxNeed p (tag ++ body) s ≤ (tag ++ body).length ∧ macKind p (tag ++ body) s = 0 ∧ ((rd PRT_PORT_STATUS.tag_active p s = 0 ∧ tag = []) ∨ (rd PRT_PORT_STATUS.tag_active p s = 1 ∧ tag.length = 16 ∧ tagCheck tag s = 0)) ∧ bootReady s = true ∧ rd HPRT.gap p s = 0 ∧ headPick (servSlice p s) (earlyMark (servSlice p s * 64 + p % 64) tag body s) s = 0) ∧
    (∃ (p : Nat) (tag : List Nat) (body : List Nat) (s : State), s.telFifo.length < 1000 ∧ portExists p s = true ∧ portHears p s = true ∧ rd HPRT.cur p s = 0 ∧ rd HPRT.mac p s = 0 ∧ rxNeed p (tag ++ body) s ≤ (tag ++ body).length ∧ macKind p (tag ++ body) s = 0 ∧ ((rd PRT_PORT_STATUS.tag_active p s = 0 ∧ tag = []) ∨ (rd PRT_PORT_STATUS.tag_active p s = 1 ∧ tag.length = 16 ∧ tagCheck tag s = 0)) ∧ bootReady s = false ∧ running HPRT.quiet2 p s = false ∧ rd PWR_SLICE.state (servSlice p s) s ≠ 1) ∧
    (∃ (p : Nat) (bytes : List Nat) (s : State), s.telFifo.length < 1000 ∧ rd HPRT.mac p s = 2 ∧ 64 ≤ (getL LPRT.mac p s ++ bytes).length ∧ (getL LPRT.mac p s ++ bytes).length ≤ portMax p s ∧ leNat ((getL LPRT.mac p s ++ bytes).drop ((getL LPRT.mac p s ++ bytes).length - 4)) = fcsOf [] ((getL LPRT.mac p s ++ bytes).take ((getL LPRT.mac p s ++ bytes).length - 4))) ∧
    (∃ (p : Nat) (f : Nat) (bytes : List Nat) (s : State), s.telFifo.length < 1000 ∧ rd HPRT.mac p s = 0 ∧ rd HPRT.cur p s = f + 1 ∧ rd FRM.live f s = 1 ∧ 64 ≤ (getL LFRM.bytes f s ++ bytes).length ∧ (getL LFRM.bytes f s ++ bytes).length ≤ portMax p s ∧ leNat ((getL LFRM.bytes f s ++ bytes).drop ((getL LFRM.bytes f s ++ bytes).length - 4)) = fcsOf (getL LFRM.rawtag f s) ((getL LFRM.bytes f s ++ bytes).take ((getL LFRM.bytes f s ++ bytes).length - 4)) ∧ (rd FRM.refs f s ≠ 0 ∨ rd FRM.stage f s ≠ 3) ∧ portMax p s < 32768) ∧
    (∃ (p : Nat) (f : Nat) (bytes : List Nat) (s : State), s.telFifo.length < 1000 ∧ rd HPRT.mac p s = 0 ∧ rd HPRT.cur p s = f + 1 ∧ rd FRM.live f s = 1 ∧ getL LFRM.rawtag f s = [] ∧ 64 ≤ (getL LFRM.bytes f s ++ bytes).length ∧ (getL LFRM.bytes f s ++ bytes).length ≤ portMax p s ∧ leNat ((getL LFRM.bytes f s ++ bytes).drop ((getL LFRM.bytes f s ++ bytes).length - 4)) ≠ fcsOf [] ((getL LFRM.bytes f s ++ bytes).take ((getL LFRM.bytes f s ++ bytes).length - 4))) ∧
    (∃ (p : Nat) (f : Nat) (s : State), s.telFifo.length < 1000 ∧ rd HPRT.mac p s = 0 ∧ rd HPRT.cur p s = f + 1 ∧ rd FRM.live f s = 1 ∧ rd FRM.stage f s = 0 ∧ rd FRM.refs f s = 0 ∧ rd FRM.group f s = 0 ∧ rd FRM.polt f s = 0) ∧
    (∃ (f : Nat) (s : State), s.telFifo.length < 1000 ∧ headTurn s = some f ∧ rd FRM.stage f s < 2) ∧
    (∃ (f : Nat) (s : State), s.telFifo.length < 1000 ∧ headTurn s = some f ∧ 2 ≤ rd FRM.stage f s ∧ headWords f s = rd FRM.hwords f s + 1) ∧
    (∃ (f : Nat) (w : Nat) (s : State), s.telFifo.length < 1000 ∧ rd FRM.head f s ≠ 0 ∧ w < rd FRM.hwords f s) :=
  ⟨⟨8, [], [1, 2, 3], F0, by decide +kernel⟩,
    ⟨8, [], [0], wr PRT_PORT_STATUS.tag_active 8 1 F0, by decide +kernel⟩,
    ⟨8, 0, [], [0, 2, 3], F0, by decide +kernel⟩,
    ⟨8, 1, [], [0], wr HFRM.next 0 1 F0, by decide +kernel⟩,
    ⟨8, 0, 0x10 :: List.replicate 15 0, List.replicate 20 0, wr PRT_PORT_STATUS.tag_active 8 1 F0, by decide +kernel⟩,
    ⟨8, [], [0, 2, 3], wr HSLC.shr 0 768 F0, by decide +kernel⟩,
    ⟨8, [], [0], wr CFG_BOOT_STATUS.state 0 2 F0, by decide +kernel⟩,
    ⟨8, frame64.drop 40, go (.frameFirstByte 8 (frame64.take 40) 0) (wr CFG_BOOT_STATUS.state 0 2 F0), by decide +kernel⟩,
    ⟨8, 0, frame64.drop 40, F1, by decide +kernel⟩,
    ⟨8, 0, List.replicate 30 1, F1, by decide +kernel⟩,
    ⟨8, 0, F1, by decide +kernel⟩,
    ⟨0, F2, by decide +kernel⟩,
    ⟨0, F4b |> wr FRM.head 0 1, by decide +kernel⟩,
    ⟨0, 0, wr FRM.hwords 0 1 F2, by decide +kernel⟩⟩

theorem test_engines_and_order :
    (∃ (sl : Nat) (sp : Nat) (e : Nat) (f : Nat) (s : State), redispatches sl s = [] ∧ nextSlot sl true (rd HSLC.rr sl s) s = some sp ∧ nextOf sl sp true s = some f ∧ nextEngine (sl * 64 + rd FRM.port f s % 64) sl s = some e ∧ rd FRM.slice f s = sl) ∧
    (∃ (sl : Nat) (sp : Nat) (e : Nat) (f : Nat) (s : State), redispatches sl s = [] ∧ nextSlot sl true (rd HSLC.rr sl s) s = none ∧ nextSlot sl false (rd HSLC.rr2 sl s) s = some sp ∧ nextOf sl sp false s = some f ∧ nextEngine (sl * 64 + rd FRM.port f s % 64) sl s = some e ∧ rd FRM.slice f s = sl) ∧
    (∃ (sl : Nat) (sp : Nat) (e : Nat) (q : Nat) (f : Nat) (s : State) (w : Nat), rd SLC_STATUS.failed sl s = 0 ∧ rd SLC_ENG_STAT.epoch (sl * 8 + e) s = w ∧ frmBySeq sl sp q s = some f ∧ rd FRM.stage f s = 1 ∧ rd FRM.eng f s = e ∧ rd FRM.epoch f s = w ∧ engWaits f s = false) ∧
    (∃ (sl : Nat) (sp : Nat) (e : Nat) (q : Nat) (f : Nat) (s : State) (w : Nat), rd SLC_STATUS.failed sl s = 0 ∧ rd SLC_ENG_STAT.epoch (sl * 8 + e) s = w ∧ frmBySeq sl sp q s = some f ∧ engWaits f s = true) ∧
    (∃ (sl : Nat) (e : Nat) (s : State) (w : Nat), rd SLC_STATUS.failed sl s = 0 ∧ rd SLC_ENG_STAT.epoch (sl * 8 + e) s ≠ w) ∧
    (∃ (sl : Nat) (sp : Nat) (f : Nat) (s : State), rd SLC_STATUS.failed sl s = 0 ∧ oldestOf sl sp s = some f ∧ rd FRM.stage f s = 2 ∧ rd FRM.err f s = 0 ∧ rd FRM.res f s = 4 ∧ getL LFRM.mirror f s = [] ∧ rd FRM.inj f s = 0 ∧ rd FRM.refs f s = 0) ∧
    (∃ (sl : Nat) (sp : Nat) (q : Nat) (f : Nat) (s : State) (v : Nat), rd SLC_STATUS.failed sl s = 0 ∧ oldestOf sl sp s = some f ∧ rd FRM.stage f s = 2 ∧ rd FRM.err f s = 0 ∧ rd FRM.res f s = 1 ∧ rd FRM.adm f s = 0 ∧ rd FRM.pol f s = 0 ∧ getL LFRM.mirror f s = [] ∧ rd FRM.inj f s = 0 ∧ rd FRM.node f s = v + 1 ∧ nodePort v s = rd FRM.eg f s ∧ 2 ≤ q ∧ q < 8 ∧ rd FRM.queue f s = q + 1 ∧ admitTest f ((8 * v + q) * 4) (rd FRM.eg f s) false s = none) ∧
    (∃ (sl : Nat) (s : State), rd SLC_STATUS.failed sl s = 1) ∧
    (∃ (sl : Nat) (sp : Nat) (f : Nat) (s : State), oldestOf sl sp s = some f ∧ rd FRM.stage f s ≠ 2 ∧ (touched FRM.live s).any (fun g => rd FRM.slice g s = sl && rd FRM.port g s % 64 = sp && rd FRM.stage g s = 2) = true ∧ rd FRM.refs f s = 0) :=
  ⟨⟨0, 8, 0, 0, wr FRM.early 0 1 F2, by decide +kernel⟩,
    ⟨0, 8, 0, 0, F2, by decide +kernel⟩,
    ⟨0, 8, 0, 0, 0, F3, 0, by decide +kernel⟩,
    ⟨0, 8, 0, 0, 0, F3 |> wr FRM.ended 0 0, 0, by decide +kernel⟩,
    ⟨0, 0, F3, 1, by decide +kernel⟩,
    ⟨0, 8, 0, F4, by decide +kernel⟩,
    ⟨0, 8, 2, 0, F4b, 512, by decide +kernel⟩,
    ⟨3, wr SLC_STATUS.failed 3 1 base, by decide +kernel⟩,
    ⟨0, 8, 0, wr FRM.live 1 1 F3 |> wr FRM.port 1 8 |> wr FRM.stage 1 2 |> wr FRM.seq 1 1 |> wr SLC_PORT_SEQ.next_seq 8 2, by decide +kernel⟩⟩

theorem test_engine_fencing :
    (∃ (sl : Nat) (e : Nat) (s : State), s.telFifo.length < 1000 ∧ e < 8 ∧ rd SLC_STATUS.serving sl s = 1 ∧ ((List.range 8).filter (fun j => rdB SLC_ENG_STAT.fenced (sl * 8 + j) s)).length < 2 ∧ rd SLC_ENG_STAT.fenced (sl * 8 + e) s = 0 ∧ engFrames sl e s ≠ []) ∧
    (∃ (sl : Nat) (e : Nat) (s : State), s.telFifo.length < 1000 ∧ e < 8 ∧ rd SLC_STATUS.serving sl s = 1 ∧ ((List.range 8).filter (fun j => rdB SLC_ENG_STAT.fenced (sl * 8 + j) s)).length < 2 ∧ rd SLC_ENG_STAT.fenced (sl * 8 + e) s = 0 ∧ engFrames sl e s = []) ∧
    (∃ (sl : Nat) (e : Nat) (s : State), s.telFifo.length < 1000 ∧ e < 8 ∧ rd SLC_STATUS.serving sl s = 1 ∧ ((List.range 8).filter (fun j => rdB SLC_ENG_STAT.fenced (sl * 8 + j) s)).length < 2 ∧ rd SLC_ENG_STAT.fenced (sl * 8 + e) s = 0 ∧ engFrames sl e s = []) ∧
    (∃ (sl : Nat) (e : Nat) (s : State), s.telFifo.length < 1000 ∧ e < 8 ∧ rd SLC_STATUS.serving sl s = 1 ∧ ((List.range 8).filter (fun j => rdB SLC_ENG_STAT.fenced (sl * 8 + j) s)).length < 2 ∧ rd PWR_SLICE.state sl s = 0 ∧ rd SLC_ENG_STAT.fenced (sl * 8 + e) s = 0 ∧ engFrames sl e s = []) ∧
    (∃ (a : Access) (sl : Nat) (e : Nat) (s : State), s.telFifo.length < 1000 ∧ e < 8 ∧ rd SLC_STATUS.serving sl s = 1 ∧ ((List.range 8).filter (fun j => rdB SLC_ENG_STAT.fenced (sl * 8 + j) s)).length < 2 ∧ Accepted a rSLC_ENG_CTRL sl 0xFFFFFFFF (fieldWord SLC_ENG_CTRL.unfence (2 ^ e)) s ∧ by16 sl s = false ∧ rd PWR_SLICE.state sl s = 0 ∧ rd SLC_ENG_STAT.fenced (sl * 8 + e) s = 1) ∧
    (∃ (sl : Nat) (e : Nat) (s : State), s.telFifo.length < 1000 ∧ e < 8 ∧ rd SLC_STATUS.serving sl s = 1 ∧ ((List.range 8).filter (fun j => rdB SLC_ENG_STAT.fenced (sl * 8 + j) s)).length < 2 ∧ rd HSLC.rtest (sl * 8 + e) s = 1) :=
  ⟨⟨0, 0, F3, by decide +kernel⟩,
    ⟨3, 7, wr SLC_ENG_STAT.inflight 31 5 base, by decide +kernel⟩,
    ⟨16, 0, wr SLC_STATUS.serving 16 1 base, by decide +kernel⟩,
    ⟨3, 7, run 77 base, by decide +kernel⟩,
    ⟨core0, 3, 7, wr SLC_ENG_STAT.fenced 31 1 base, by unfold Accepted Direct; decide +kernel⟩,
    ⟨3, 7, wr SLC_ENG_STAT.fenced 31 1 (wr HSLC.rtest 31 1 base), by decide +kernel⟩⟩

theorem test_transmission :
    (∃ (p : Nat) (s : State), pauseCause p s = 0 ∧ sliceAsleep (servSlice p s) s = false ∧ rd HSCH.fly p s = 0 ∧ rd HSCH.sel p s = 0 ∧ (portQueues p s).all (fun c => getL LBUF.q c s = []) = true ∧ gatedPick p s = none ∧ (admittedPick p s).1 = none ∧ getL LTIM.tx p s = [] ∧ (bePick p s).1 = none ∧ rd HPRT.cap p s = 1 ∧ guardOk p (wirePs p 84 s) s = true) ∧
    (∃ (p : Nat) (d : Nat) (s : State), pauseCause p s = 0 ∧ sliceAsleep (servSlice p s) s = false ∧ rd HSCH.fly p s = 0 ∧ rd HSCH.sel p s = 0 ∧ rd HBUF.resumed p s = 0 ∧ (∀ c ∈ portQueues p s, ∀ x ∈ getL LBUF.q c s, rd DSC.err x s = 0) ∧ gatedPick p s = some d ∧ d < 4294967296) ∧
    (∃ (p : Nat) (d : Nat) (s : State) (n : Nat) (mask : Nat), pauseCause p s = 0 ∧ sliceAsleep (servSlice p s) s = false ∧ rd HSCH.fly p s = 0 ∧ rd HSCH.sel p s = 0 ∧ rd HBUF.resumed p s = 0 ∧ (∀ c ∈ portQueues p s, ∀ x ∈ getL LBUF.q c s, rd DSC.err x s = 0) ∧ gatedPick p s = none ∧ (admittedPick p s).1 = none ∧ getL LTIM.tx p s = [] ∧ (bePick p s).1 = some (n, mask) ∧ headOf (nodeQ n (pickQueue n (bePick p s).2).1) (pickQueue n (bePick p s).2).2 = some d ∧ guardOk p (wirePs p (guardBytes d s) s) s = true ∧ d < 4294967296) ∧
    (∃ (p : Nat) (d : Nat) (s : State), pauseCause p s = 0 ∧ sliceAsleep (servSlice p s) s = false ∧ rd HSCH.sel p s = d + 1 ∧ rd HSCH.fly p s = 0 ∧ rd DSC.live d s = 1 ∧ rd DSC.err d s = 0 ∧ rd FRM.ended (rd DSC.frame d s) s = 1 ∧ sentLen d s ≤ portMax p s ∧ lateStale p d s = false ∧ knownBad d 0 1 [] s = []) ∧
    (∃ (p : Nat) (d : Nat) (s : State), pauseCause p s = 0 ∧ sliceAsleep (servSlice p s) s = false ∧ rd HSCH.sel p s = d + 1 ∧ rd HSCH.fly p s = 0 ∧ rd DSC.live d s = 1 ∧ rd DSC.err d s = 0 ∧ rd FRM.ended (rd DSC.frame d s) s = 1 ∧ sentLen d s ≤ portMax p s ∧ lateStale p d s = false ∧ knownBad d 0 1 [] s = []) ∧
    (∃ (p : Nat) (d : Nat) (s : State), pauseCause p s = 0 ∧ sliceAsleep (servSlice p s) s = false ∧ rd HSCH.fly p s = d + 1 ∧ rd DSC.live d s = 1 ∧ rd DSC.eg d s = p ∧ (rd DSC.adm d s = 0 ∨ rd FRM.len (rd DSC.frame d s) s ≤ rd STM.maxf (rd DSC.stream d s) s) ∧ rd FRM.ended (rd DSC.frame d s) s = 1 ∧ rd DSC.corrupt d s = 0 ∧ sentLen d s ≤ portMax p s ∧ tcForm d s = 0 ∧ knownBad d 1 (ceilDiv (getL LFRM.bytes (rd DSC.frame d s) s).length 256) [] s = []) ∧
    (∃ (p : Nat) (d : Nat) (s : State), pauseCause p s = 0 ∧ sliceAsleep (servSlice p s) s = false ∧ rd HSCH.fly p s = d + 1 ∧ rd DSC.live d s = 1 ∧ rd DSC.eg d s = p ∧ (rd DSC.adm d s = 0 ∨ rd FRM.len (rd DSC.frame d s) s ≤ rd STM.maxf (rd DSC.stream d s) s) ∧ rd FRM.ended (rd DSC.frame d s) s = 1 ∧ rd DSC.corrupt d s = 0 ∧ sentLen d s ≤ portMax p s ∧ tcForm d s = 0 ∧ knownBad d 1 (ceilDiv (getL LFRM.bytes (rd DSC.frame d s) s).length 256) [] s = []) :=
  ⟨⟨8, wr HPRT.cap 8 1 F0, by decide +kernel⟩,
    ⟨16, 0, FG, by decide +kernel⟩,
    ⟨16, 0, F5, 512, 48, by decide +kernel⟩,
    ⟨16, 0, F6, by decide +kernel⟩,
    ⟨16, 0, wr DSC.adm 0 1 (wr FRM.sampled 0 1 (wr PRT_PORT_STATUS.tag_active 16 1 F6)), by decide +kernel⟩,
    ⟨16, 0, F7, by decide +kernel⟩,
    ⟨16, 0, wr DSC.adm 0 1 (wr STM.maxf 0 2000 (setL LDSC.tag 0 [17, 64] F7)), by decide +kernel⟩⟩

theorem test_gates_and_wheels :
    (∃ (p : Nat) (b : Nat) (s : State), s.telFifo.length < 1000 ∧ getL LSCH.late 0 s = [] ∧ p % 8192 ≠ 0 ∧ pipNext s = p ∧ getL LSCH.fine (p % 8192) s = [b] ∧ bktPip b s ≤ p ∧ rd (bktRateF (bktKind b)) (bktNode b) s ≠ 0 ∧ rd (bktRateF (bktKind b)) (bktNode b) s < 2 ^ BKT.rate.width ∧ rd BKT.rate b s ≠ 0 ∧ 0 ≤ rdI BKT.tokens b (bktRefill b (now (passTo (4 * p) s)) (passTo (4 * p) s))) ∧
    (∃ (p : Nat) (s : State), s.telFifo.length < 1000 ∧ getL LSCH.late 0 s = [] ∧ p % 8192 ≠ 0 ∧ pipNext s = p ∧ getL LSCH.fine (p % 8192) s = []) ∧
    (∃ (p : Nat) (q : Nat) (s : State), s.telFifo.length < 1000 ∧ (schedNow p s).on = true ∧ [0, 1, 2, 3].all (fun q => gatedHere p q s = []) = true) ∧
    (∃ (p : Nat) (q : Nat) (b : Nat) (s : State) (w : Nat × Nat), s.telFifo.length < 1000 ∧ carryOf p q s = [] ∧ windowNow p q s = some w ∧ carryOf p q (passTb (rd GATE.tb p s) w.2 s) = [b] ∧ rd BUF_PORT_STATUS.hold_state p s ≠ 1) ∧
    (∃ (p : Nat) (q : Nat) (s : State) (w : Nat × Nat), s.telFifo.length < 1000 ∧ carryOf p q s = [] ∧ windowNow p q s = some w ∧ carryOf p q (passTb (rd GATE.tb p s) w.2 s) = []) ∧
    (∃ (p : Nat) (s : State), s.telFifo.length < 1000 ∧ rd SCH_PORT_W6.list_pending p s = 1) :=
  ⟨⟨1, 32770, setL LSCH.fine 1 [32770] (wr BKT.place 32770 1 (wr BKT.due 32770 3 (wr BKT.rate 32770 1000 (wr BKT.tokens 32770 5 (wr SCH_SUB_W3.max_rate 2 1000 (run 0 base)))))), by decide +kernel⟩,
    ⟨1, run 0 base, by decide +kernel⟩,
    ⟨16, 0, setL LBUF.q 261 [] FG, by decide +kernel⟩,
    ⟨16, 1, 0, FG |> wr GATE.len 16 1 |> wr DSC.enq 0 0, (0, 1000000), by decide +kernel⟩,
    ⟨16, 1, setL LBUF.q 261 [] FG, (0, 1000000), by decide +kernel⟩,
    ⟨16, run 5 (wr SCH_PORT_W6.list_pending 16 1 (wr SCH_PORT_W2.active_list 16 1 (wr SCH_PORT_W2.gate_enable 16 1 (wr GATE.since 16 3 (wr SCH_PORT_W3.gate_cycle 16 500 base))))), by decide +kernel⟩⟩

theorem test_policers_and_samples :
    (∃ (k : Nat) (s : State), (touched SCH_POL_W4.enable s).filter (fun k => rdB SCH_POL_W4.enable k s) = [k]) ∧
    (∃ (a : Access) (k : Nat) (s : State), Accepted a rSCH_POL_W4 k (fieldWord SCH_POL_W4.enable 1) (fieldWord SCH_POL_W4.enable 1) s ∧ rd SCH_POL_W4.bound k s = 0 ∧ rd SCH_POL_W1.cbs k s < 2 ^ 31 ∧ rd SCH_POL_W3.pbs k s < 2 ^ 31) ∧
    (∃ (a : Access) (k : Nat) (s : State), Accepted a rSCH_POL_W4 k (fieldWord SCH_POL_W4.enable 1) (fieldWord SCH_POL_W4.enable 1) s ∧ rd SCH_POL_W4.bound k s = 0 ∧ rd SCH_POL_W1.cbs k s < 2 ^ 31 ∧ rd SCH_POL_W3.pbs k s < 2 ^ 31) ∧
    (∃ (k : Nat) (s : State), rd SCH_CTRL.sample_enable 0 s = 1 ∧ rd SCH_CTRL.sample_scope 0 s = 1 ∧ admQueues s = [] ∧ (watched s).eraseDups = [k] ∧ getL LBUF.q k s = []) ∧
    (∃ (a : Access) (k : Nat) (s : State), Accepted a rSCH_Q_CLEAR 0 0xFFFFFFFF 1 s ∧ rd SCH_Q_SEL.kind 0 s < 3 ∧ rd SCH_Q_SEL.kind 0 s + 4 * rd SCH_Q_SEL.index 0 s = k) ∧
    (∃ (a : Access) (k : Nat) (v : Nat) (s : State), Accepted a rSCH_WATCH k 0xFFFFFFFF (v % 2 ^ 32) s) :=
  ⟨⟨3, run 77 (wr SCH_POL_W4.enable 3 1 base), by decide +kernel⟩,
    ⟨core0, 3, run 77 (wr SCH_POL_W1.cbs 3 1000 (wr SCH_POL_W3.pbs 3 2000 base)), by unfold Accepted Direct; decide +kernel⟩,
    ⟨core0, 3, run 77 (wr SCH_POL_W4.enable 3 1 (wr SCH_POL_W1.cbs 3 1000 (wr SCH_POL_W3.pbs 3 2000 base))), by unfold Accepted Direct; decide +kernel⟩,
    ⟨40, run 77 (wr SCH_CTRL.sample_enable 0 1 (wr SCH_CTRL.sample_scope 0 1 (wr SCH_WATCH.enable 2 1 (wr SCH_WATCH.index 2 10 base)))), by decide +kernel⟩,
    ⟨core0, 41, wr SCH_Q_SEL.kind 0 1 (wr SCH_Q_SEL.index 0 10 (wr SMP.max_d 41 9 base)), by unfold Accepted Direct; decide +kernel⟩,
    ⟨core0, 3, 0x80000001, incBy cnt_SCH_bins 97 5 base, by unfold Accepted Direct; decide +kernel⟩⟩

theorem test_buffer_work :
    (∃ (s : State), s.telFifo.length < 1000 ∧ mcPick s = none) ∧
    (∃ (c : Nat) (d : Nat) (k : Nat) (s : State), s.telFifo.length < 1000 ∧ mcPick s = some c ∧ getL LBUF.q c s = [d] ∧ rd HBUF.mcpos c s = k ∧ k + 1 < mcTotal (rd DSC.frame d s) s ∧ k < 1000 ∧ rd FRM.err (rd DSC.frame d s) s = 0) ∧
    (∃ (c : Nat) (s : State), s.telFifo.length < 1000 ∧ rd CELL.state c s = 2) ∧
    (∃ (s : State), s.telFifo.length < 1000 ∧ rd BUF_HARVEST_CFG.harvest_enable 0 s = 1 ∧ rd HBUF.harvest 0 s = 0) ∧
    (∃ (s : State), s.telFifo.length < 1000 ∧ rd HBUF.harvest 0 s = 1 ∧ rd BUF_HARVEST_CFG.harvest_enable 0 s = 1 ∧ unowned s = [] ∧ touched CELL.unowned s = []) ∧
    (∃ (c : Nat) (s : State), s.telFifo.length < 1000 ∧ rd HBUF.harvest 0 s = 1 ∧ rd BUF_HARVEST_CFG.harvest_enable 0 s = 1 ∧ rd HBUF.swept 0 s = 1 ∧ unowned s = [c] ∧ rd CELL.unowned c s = 1 ∧ rd CELL.touched c s = 0 ∧ rd CELL.bad c s = 0) ∧
    (∃ (p : Nat) (s : State), s.telFifo.length < 1000 ∧ rd BUF_PORT_STATUS.hold_state p s = 1 ∧ running HBUF.stale p s = true ∧ portQueues p s = []) ∧
    (∃ (p : Nat) (c : Nat) (d : Nat) (s : State), s.telFifo.length < 1000 ∧ rd BUF_PORT_STATUS.hold_state p s = 1 ∧ running HBUF.stale p s = true ∧ portQueues p s = [c] ∧ getL LBUF.q c s = [d] ∧ rd DSC.code d s = c ∧ rd DSC.eg d s = p ∧ c % 4 = 0 ∧ stale d (arm HBUF.stale p 1000 (disarm HBUF.stale p (passTo (rd HBUF.stale p s - 1) s))) = true) ∧
    (∃ (p : Nat) (c : Nat) (s : State), s.telFifo.length < 1000 ∧ rd BUF_PORT_STATUS.hold_state p s = 1 ∧ running HBUF.hold p s = true ∧ (∀ c ∈ portQueues p s, ∀ x ∈ getL LBUF.q c s, rd DSC.code x s = c)) ∧
    (∃ (p : Nat) (c : Nat) (s : State), s.telFifo.length < 1000 ∧ rd BUF_PORT_STATUS.hold_state p s = 1 ∧ running HBUF.hold p s = true ∧ (∀ c ∈ portQueues p s, ∀ x ∈ getL LBUF.q c s, rd DSC.code x s = c)) :=
  ⟨⟨base, by decide +kernel⟩,
    ⟨1022, 0, 0, wr DSC.frame 0 0 (wr FRM.group 0 0 (setL LBUF.q 1022 [0] (setL LFRM.mirror 0 [1, 2] F4))), by decide +kernel⟩,
    ⟨9, wr CELL.state 9 2 (wr CELL.bad 9 1 base), by decide +kernel⟩,
    ⟨F4, by decide +kernel⟩,
    ⟨wr HBUF.harvest 0 1 F4, by decide +kernel⟩,
    ⟨9, wr CELL.state 9 1 (wr CELL.unowned 9 1 (wr HBUF.swept 0 1 (wr HBUF.harvest 0 1 base))), by decide +kernel⟩,
    ⟨8, run 77 (wr BUF_PORT_STATUS.hold_state 8 1 (wr HBUF.stale 8 100 base)), by decide +kernel⟩,
    ⟨16, 16392, 0, F5 |> wr DSC.adm 0 1 |> wr DSC.sched 0 1 |> wr DSC.carried 0 1 |> wr BUF_PORT_STATUS.hold_state 16 1 |> wr HBUF.stale 16 100, by decide +kernel⟩,
    ⟨8, 0, run 77 (wr BUF_PORT_STATUS.hold_state 8 1 (wr HBUF.hold 8 100 base)), by decide +kernel⟩,
    ⟨16, 0, F5 |> wr BUF_PORT_STATUS.hold_state 16 1 |> wr HBUF.hold 16 100, by decide +kernel⟩⟩

theorem test_table_commands :
    (∃ (a : Access) (i : Nat) (s : State), Accepted a rTBL_CMD 4 0xFFFFFFFF (tblWord 1 i true false) s ∧ i < 524288 ∧ entryBad 4 i s = false) ∧
    (∃ (a : Access) (i : Nat) (s : State), Accepted a rTBL_CMD 4 0xFFFFFFFF (tblWord 2 i true false) s ∧ rd TBL_CTRL.frozen 0 s = 0 ∧ i < 524288 ∧ (bitOf (tdata 4 0 s) 18 = true → nhState (bitsOf (tdata 4 0 s) 0 18) s = 1)) ∧
    (∃ (a : Access) (i : Nat) (s : State), Accepted a rTBL_CMD 4 0xFFFFFFFF (tblWord 2 i true false) s ∧ rd TBL_CTRL.frozen 0 s = 0 ∧ i < 524288 ∧ (bitOf (tdata 4 0 s) 18 = true → nhState (bitsOf (tdata 4 0 s) 0 18) s = 1)) ∧
    (∃ (a : Access) (i : Nat) (j : Nat) (s : State), Accepted a rTBL_CMD 0 0xFFFFFFFF (tblWord 3 j false false) s ∧ rd TBL_CTRL.frozen 0 s = 0 ∧ emEntryBad (dataE1 s) s = none ∧ (candSlots (slotKind (dataE1 s)) (slotWidth (dataE1 s)) (dataKey s) s).find? (slotMatches (slotKind (dataE1 s)) (slotWidth (dataE1 s)) (dataKey s) s) = none ∧ placeFor (slotKind (dataE1 s)) (slotWidth (dataE1 s)) (dataKey s) s = some i ∧ i < 2097152) ∧
    (∃ (a : Access) (i : Nat) (j : Nat) (s : State), Accepted a rTBL_CMD 1 0xFFFFFFFF (tblWord 3 j false false) s ∧ rd TBL_CTRL.frozen 0 s = 0 ∧ dataPrefix s = some i ∧ destInRange (bitsOf (tdata 1 5 s) 0 20) = true ∧ destActive (bitsOf (tdata 1 5 s) 0 20) s = true ∧ lpmDest i s = none ∧ rd HTBL.lpm_units 0 s + lpmUnits i ≤ 1048576) ∧
    (∃ (a : Access) (i : Nat) (j : Nat) (b : Bool) (s : State), Accepted a rTBL_CMD 0 0xFFFFFFFF (tblWord 4 i b false) s ∧ rd TBL_CTRL.frozen 0 s = 0 ∧ (b = false → keyBad (dataE1 s) = false) ∧ emTarget i b s = some j ∧ streamLocked j none s = false ∧ j < 2097152) ∧
    (∃ (a : Access) (i : Nat) (j : Nat) (b : Bool) (s : State), Accepted a rTBL_CMD 0 0xFFFFFFFF (tblWord 4 i b false) s ∧ rd TBL_CTRL.frozen 0 s = 0 ∧ (b = false → keyBad (dataE1 s) = false) ∧ emTarget i b s = some j ∧ streamLocked j none s = false ∧ j < 2097152) ∧
    (∃ (a : Access) (i : Nat) (s : State), Accepted a rTBL_CMD 2 0xFFFFFFFF (tblWord 4 i true false) s ∧ rd TBL_CTRL.frozen 0 s = 0 ∧ i < 262144 ∧ nhState i s = 1 ∧ rd HTBL.refs i s = 0) ∧
    (∃ (a : Access) (i : Nat) (s : State), Accepted a rTBL_CMD 2 0xFFFFFFFF (tblWord 5 i true false) s ∧ rd TBL_CTRL.frozen 0 s = 0 ∧ i < 262144 ∧ nhState i s = 1) ∧
    (∃ (a : Access) (j : Nat) (s : State), Accepted a rTBL_CMD 0 0xFFFFFFFF (tblWord 6 0 false false) s ∧ keyBad (dataE1 s) = false ∧ emTarget 0 false s = some j ∧ slotBad j s = false ∧ j < 2097152) ∧
    (∃ (a : Access) (i : Nat) (j : Nat) (s : State), Accepted a rTBL_CMD 0 0xFFFFFFFF (tblWord 7 i true false) s ∧ rd TBL_CTRL.frozen 0 s = 0 ∧ i < 2097152 ∧ slotValid i s = true ∧ rd TBL_MOVE_DEST.dest 0 s = j ∧ (candSlots (slotKind (tget 0 i s)) (slotWidth (tget 0 i s)) (slotKey i s) s).contains j = true ∧ slotEmpty s j = true ∧ (slotWidth (tget 0 i s) = 2 → j % 2 = 0 ∧ slotEmpty s (j + 1) = true) ∧ j < 2097152) ∧
    (∃ (a : Access) (i : Nat) (j : Nat) (s : State), rd TBL_CTRL.frozen 0 s = 1 ∧ j < 6 ∧ Accepted a rTBL_CMD j 0xFFFFFFFF (tblWord 2 i true false) s) :=
  ⟨⟨core0, 524287, tset 4 524287 77 base, by unfold Accepted Direct; decide +kernel⟩,
    ⟨core0, 3, wr TBL_DATA.data 32 0xFFF80005 base, by unfold Accepted Direct; decide +kernel⟩,
    ⟨core0, 3, wr TBL_DATA.data 32 (2 ^ 18 + 9) (tset 2 9 (2 ^ 96) base), by unfold Accepted Direct; decide +kernel⟩,
    ⟨core0, (placeFor 0 1 (dataKey T0) T0).getD 0, 0, T0, by unfold Accepted Direct; decide +kernel⟩,
    ⟨core0, lpmKey 0 0 24 256, 0, wr TBL_DATA.data 8 256 (wr TBL_DATA.data 12 24 (wr TBL_DATA.data 13 7 (tset 2 7 (2 ^ 96) base))), by unfold Accepted Direct; decide +kernel⟩,
    ⟨core0, 0, (emTarget 0 false T1).getD 0, false, T1, by unfold Accepted Direct; decide +kernel⟩,
    ⟨core0, (emTarget 0 false T1).getD 0, (emTarget 0 false T1).getD 0, true, T1, by unfold Accepted Direct; decide +kernel⟩,
    ⟨core0, 5, run 77 (tset 2 5 (2 ^ 96 + 9) base), by unfold Accepted Direct; decide +kernel⟩,
    ⟨core0, 5, wr TBL_DATA.data 16 3 (tset 2 5 (2 ^ 96 + 9) base), by unfold Accepted Direct; decide +kernel⟩,
    ⟨core0, (emTarget 0 false T1).getD 0, T1, by unfold Accepted Direct; decide +kernel⟩,
    ⟨core0, (emTarget 0 false T1).getD 0, (emTarget 0 false T1).getD 0 + 1, wr TBL_MOVE_DEST.dest 0 ((emTarget 0 false T1).getD 0 + 1) T1, by unfold Accepted Direct; decide +kernel⟩,
    ⟨core0, 3, 5, wr TBL_CTRL.frozen 0 1 base, by unfold Accepted Direct; decide +kernel⟩⟩

theorem test_table_upkeep :
    (∃ (k : Nat) (s : State), rd TBL_CTRL.frozen 0 s = 0 ∧ rd TBL_STATUS.busy k s = 1 ∧ k ≠ 1) ∧
    (∃ (k : Nat) (d : Nat) (s : State), rd TBL_CTRL.frozen 0 s = 0 ∧ rd TBL_STATUS.busy 1 s = 1 ∧ getL LTBL.lpm 0 s = [3, k, d] ∧ rd HTBL.refs (refKey d) s < 1000000 ∧ destActive d s = true) ∧
    (∃ (k : Nat) (d : Nat) (s : State), rd TBL_CTRL.frozen 0 s = 0 ∧ rd TBL_STATUS.busy 1 s = 1 ∧ getL LTBL.lpm 0 s = [3, k, d] ∧ destActive d s = false) ∧
    (∃ (i : Nat) (s : State), rd TBL_CTRL.frozen 0 s = 0 ∧ nhState i s = 2 ∧ running HTBL.retire i s = true) ∧
    (∃ (s : State), rd TBL_CTRL.frozen 0 s = 0) ∧
    (∃ (a : Access) (i : Nat) (s : State), rd TBL_CTRL.frozen 0 s = 0 ∧ Accepted a rTBL_AGE_CFG 0 (fieldWord TBL_AGE_CFG.tick_ms 65535) (fieldWord TBL_AGE_CFG.tick_ms i) s ∧ 0 < i ∧ i < 65536 ∧ (rd TBC.pll_locked 0 s = 0 ∨ now s < rd HTBL.tick_last 0 s + i * 1000000)) ∧
    (∃ (a : Access) (i : Nat) (s : State), rd TBL_CTRL.frozen 0 s = 0 ∧ Accepted a rTBL_AGE_CFG 0 (fieldWord TBL_AGE_CFG.tick_ms 65535) (fieldWord TBL_AGE_CFG.tick_ms i) s ∧ 0 < i ∧ i < 65536 ∧ (rd TBC.pll_locked 0 s = 0 ∨ now s < rd HTBL.tick_last 0 s + i * 1000000)) ∧
    (∃ (a : Access) (i : Nat) (s : State), rd TBL_CTRL.frozen 0 s = 0 ∧ Accepted a rTBL_AGE_CFG 0 (fieldWord TBL_AGE_CFG.tick_ms 65535) (fieldWord TBL_AGE_CFG.tick_ms i) s ∧ 0 < i ∧ i < 65536 ∧ (rd TBC.pll_locked 0 s = 0 ∨ now s < rd HTBL.tick_last 0 s + i * 1000000)) ∧
    (∃ (a : Access) (i : Nat) (s : State), rd TBL_CTRL.frozen 0 s = 0 ∧ Accepted a rTBL_AGE_CFG 0 (fieldWord TBL_AGE_CFG.tick_ms 65535) (fieldWord TBL_AGE_CFG.tick_ms i) s ∧ 0 < i ∧ i < 65536 ∧ rd TBC.pll_locked 0 s = 1 ∧ rd HTBL.tick_last 0 s + i * 1000000 ≤ now s) ∧
    (∃ (s : State), rd TBL_CTRL.frozen 0 s = 0 ∧ rd TBL_CTRL.scan_enable 0 s = 1 ∧ getL LTBL.flush 0 s = [] ∧ (∀ x ∈ List.range 8, slotValid (8 * rd HTBL.scan 0 s + x) s = false ∧ rd HTBL.bad (badKey 0 (8 * rd HTBL.scan 0 s + x)) s = 0)) ∧
    (∃ (i : Nat) (s : State), rd TBL_CTRL.frozen 0 s = 0 ∧ rd TBL_CTRL.scan_enable 0 s = 1 ∧ getL LTBL.flush 0 s = [] ∧ 8 * rd HTBL.scan 0 s = i ∧ slotValid i s = true ∧ slotWidth (tget 0 i s) = 1 ∧ slotKind (tget 0 i s) = 0 ∧ slotStatic (tget 0 i s) = false ∧ slotRef (tget 0 i s) = none ∧ rd TBL_PART_CFG.age_en 0 s = 1 ∧ rd TBL_AGE_CFG.age_limit 0 s < ageOf (tget 0 i s) s ∧ (∀ x ∈ List.range 8, (x ≠ 0 → slotValid (i + x) s = false) ∧ rd HTBL.bad (badKey 0 (i + x)) s = 0)) ∧
    (∃ (k : Nat) (i : Nat) (j : Nat) (d : Nat) (s : State), rd TBL_CTRL.frozen 0 s = 0 ∧ getL LTBL.fifo 0 s = [(i * 2 ^ 48 + j) * 1024 + d] ∧ i < 4096 ∧ j < 2 ^ 48 ∧ d < 1024 ∧ rd HTBL.thaw_left 0 s = 0 ∧ emFind 0 1 (l2Key i j) s = none ∧ ((∀ x ∈ candSlots 0 1 (l2Key i j) s, rd HTBL.bad (badKey 0 x) s = 0)) ∧ placeFor 0 1 (l2Key i j) s = some k) ∧
    (∃ (k : Nat) (s : State), rd TBL_CTRL.frozen 0 s = 0 ∧ rd TBL_CTRL.scrub_enable 0 s = 1 ∧ (touched HTBL.bad s).filter (fun x => 2 ^ 22 ≤ x && rdB HTBL.bad x s) = [k]) ∧
    (∃ (s : State), rd TBL_CTRL.frozen 0 s = 0 ∧ rd TBL_CTRL.scrub_enable 0 s = 1 ∧ (touched HTBL.bad s).filter (fun x => 2 ^ 22 ≤ x && rdB HTBL.bad x s) = []) :=
  ⟨⟨4, wr TBL_STATUS.busy 4 1 (wr HTBL.res 4 6 base), by decide +kernel⟩,
    ⟨lpmKey 1 0 24 256, 7, wr TBL_STATUS.busy 1 1 (setL LTBL.lpm 0 [3, lpmKey 1 0 24 256, 7] (tset 2 7 (2 ^ 96) base)), by decide +kernel⟩,
    ⟨lpmKey 1 0 24 256, 7, wr TBL_STATUS.busy 1 1 (setL LTBL.lpm 0 [3, lpmKey 1 0 24 256, 7] base), by decide +kernel⟩,
    ⟨5, run 77 (wr HTBL.retire 5 100 (tset 2 5 (2 * 2 ^ 96 + 9) base)), by decide +kernel⟩,
    ⟨run 77 base, by decide +kernel⟩,
    ⟨core0, 1, base, by unfold Accepted Direct; decide +kernel⟩,
    ⟨core0, 65535, base, by unfold Accepted Direct; decide +kernel⟩,
    ⟨core0, 65535, run 77 base, by unfold Accepted Direct; decide +kernel⟩,
    ⟨core0, 1, run 1000000 base, by unfold Accepted Direct; decide +kernel⟩,
    ⟨wr HTBL.scan 0 5 base, by decide +kernel⟩,
    ⟨0, tset 0 0 (1 + 8 * 2 ^ 26) (wr TBL_AGE_NOW.now 0 500 (wr TBL_PART_CFG.size 0 1 base)), by decide +kernel⟩,
    ⟨(placeFor 0 1 (l2Key 1 5) base).getD 0, 1, 5, 8, setL LTBL.fifo 0 [(1 * 2 ^ 48 + 5) * 1024 + 8] base, by decide +kernel⟩,
    ⟨2 * 2 ^ 22 + 5, wr HTBL.bad (2 * 2 ^ 22 + 5) 1 (wr TBL_CTRL.scrub_enable 0 1 base), by decide +kernel⟩,
    ⟨wr TBL_CTRL.scrub_enable 0 1 base, by decide +kernel⟩⟩

theorem test_rule_commands :
    (∃ (a : Access) (sl : Nat) (i : Nat) (s : State), s.telFifo.length < 1000 ∧ sl < 17 ∧ i < 65536 ∧ by16 sl s = false ∧ rd PWR_SLICE.state sl s = 0 ∧ Accepted a rSLC_RULE_CMD sl 0xFFFFFFFF (ruleWord 1 i) s ∧ actsBad sl (ruleActs (ruleRegs sl s)) s = false) ∧
    (∃ (a : Access) (sl : Nat) (i : Nat) (s : State), s.telFifo.length < 1000 ∧ sl < 17 ∧ i < 65536 ∧ by16 sl s = false ∧ rd PWR_SLICE.state sl s = 0 ∧ Accepted a rSLC_RULE_CMD sl 0xFFFFFFFF (ruleWord 2 i) s) ∧
    (∃ (a : Access) (sl : Nat) (i : Nat) (s : State), s.telFifo.length < 1000 ∧ sl < 17 ∧ i < 65536 ∧ by16 sl s = false ∧ rd PWR_SLICE.state sl s = 0 ∧ Accepted a rSLC_RULE_CMD sl 0xFFFFFFFF (ruleWord 3 i) s ∧ (getL LRULE.rule (sl * 65536 + i) s).length = 57) ∧
    (∃ (a : Access) (sl : Nat) (i : Nat) (d : Nat) (s : State), s.telFifo.length < 1000 ∧ sl < 17 ∧ i < 65536 ∧ by16 sl s = false ∧ rd PWR_SLICE.state sl s = 0 ∧ Accepted a rSLC_RULE_CMD sl 0xFFFFFFFF (ruleWord 4 i) s ∧ rd SLC_RULE_DEST.dest sl s = d ∧ d ≠ i ∧ (ruleWords (sl * 65536 + d) s).headD 0 ≠ 1) ∧
    (∃ (a : Access) (sl : Nat) (i : Nat) (s : State), s.telFifo.length < 1000 ∧ sl < 17 ∧ i < 65536 ∧ by16 sl s = false ∧ rd PWR_SLICE.state sl s = 0 ∧ Accepted a rSLC_RULE_CMD sl 0xFFFFFFFF (ruleWord 5 i) s) ∧
    (∃ (sl : Nat) (i : Nat) (s : State), s.telFifo.length < 1000 ∧ sl < 17 ∧ i < 65536 ∧ by16 sl s = false ∧ rd PWR_SLICE.state sl s = 0 ∧ rd SLC_RULE_STATUS.busy sl s = 1) ∧
    (∃ (sl : Nat) (i : Nat) (s : State), s.telFifo.length < 1000 ∧ sl < 17 ∧ i < 65536 ∧ by16 sl s = false ∧ rd PWR_SLICE.state sl s = 0 ∧ rd SLC_CLS_CTRL.rule_scrub sl s = 1 ∧ touched HRULE.bad s = [] ∧ rd HRULE.inval (sl * 65536 + i) s = 0) :=
  ⟨⟨core0, 3, 65535, wr SLC_RULE_KEY.word 60 9 base, by unfold Accepted Direct; decide +kernel⟩,
    ⟨core0, 3, 5, setL LRULE.rule (3 * 65536 + 5) (1 :: List.replicate 56 7) base, by unfold Accepted Direct; decide +kernel⟩,
    ⟨core0, 3, 5, setL LRULE.rule (3 * 65536 + 5) (1 :: List.replicate 56 7) base, by unfold Accepted Direct; decide +kernel⟩,
    ⟨core0, 3, 5, 6, wr SLC_RULE_DEST.dest 3 6 (setL LRULE.rule (3 * 65536 + 5) (1 :: List.replicate 56 7) base), by unfold Accepted Direct; decide +kernel⟩,
    ⟨core0, 3, 5, incBy cnt_SLC_rule_hits 196613 5 base, by unfold Accepted Direct; decide +kernel⟩,
    ⟨3, 0, wr SLC_RULE_STATUS.busy 3 1 (wr HRULE.res 3 2 base), by decide +kernel⟩,
    ⟨3, 65535, wr SLC_CLS_CTRL.rule_scrub 3 1 base, by decide +kernel⟩⟩

theorem test_power_group_messages :
    (∃ (p : Nat) (group : Nat) (watts : Nat) (draw : Nat) (state : Nat) (s : State), s.telFifo.length < 1000 ∧ watts < 65536 ∧ draw < 65536 ∧ state < 256 ∧ portHears p s = true ∧ running HPRT.quiet2 p s = false ∧ group ≠ rd FAB_PG_CFG.group_id 0 s) ∧
    (∃ (p : Nat) (watts : Nat) (draw : Nat) (state : Nat) (s : State), s.telFifo.length < 1000 ∧ watts < 65536 ∧ draw < 65536 ∧ state < 256 ∧ portHears p s = true ∧ running HPRT.quiet2 p s = false) ∧
    (∃ (p : Nat) (group : Nat) (origin : Nat) (seq : Nat) (watts : Nat) (draw : Nat) (state : Nat) (s : State), s.telFifo.length < 1000 ∧ watts < 65536 ∧ draw < 65536 ∧ state < 256 ∧ portHears p s = true ∧ running HPRT.quiet2 p s = false ∧ rd PRT_PORT_STATUS.tag_active p s ≠ 0 ∧ group = rd FAB_PG_CFG.group_id 0 s ∧ inGroup s = true ∧ pgNewer origin seq s = false) ∧
    (∃ (p : Nat) (group : Nat) (origin : Nat) (seq : Nat) (watts : Nat) (draw : Nat) (state : Nat) (cap : Nat) (s : State), s.telFifo.length < 1000 ∧ watts < 65536 ∧ draw < 65536 ∧ state < 256 ∧ portHears p s = true ∧ running HPRT.quiet2 p s = false ∧ rd PRT_PORT_STATUS.tag_active p s ≠ 0 ∧ group = rd FAB_PG_CFG.group_id 0 s ∧ inGroup s = true ∧ pgNewer origin seq s = true ∧ cap = rd PWR_PG_CFG.group_cap 0 s) ∧
    (∃ (p : Nat) (group : Nat) (origin : Nat) (seq : Nat) (watts : Nat) (draw : Nat) (state : Nat) (cap : Nat) (s : State), s.telFifo.length < 1000 ∧ watts < 65536 ∧ draw < 65536 ∧ state < 256 ∧ portHears p s = true ∧ running HPRT.quiet2 p s = false ∧ rd PRT_PORT_STATUS.tag_active p s ≠ 0 ∧ group = rd FAB_PG_CFG.group_id 0 s ∧ inGroup s = true ∧ pgNewer origin seq s = true ∧ cap = rd PWR_PG_CFG.group_cap 0 s) ∧
    (∃ (p : Nat) (group : Nat) (origin : Nat) (seq : Nat) (watts : Nat) (draw : Nat) (state : Nat) (cap : Nat) (s : State), s.telFifo.length < 1000 ∧ watts < 65536 ∧ draw < 65536 ∧ state < 256 ∧ portHears p s = true ∧ running HPRT.quiet2 p s = false ∧ rd PRT_PORT_STATUS.tag_active p s ≠ 0 ∧ group = rd FAB_PG_CFG.group_id 0 s ∧ inGroup s = true ∧ pgNewer origin seq s = true ∧ cap ≠ rd PWR_PG_CFG.group_cap 0 s ∧ rd PWR_PG_STATUS.joining 0 s = 0) ∧
    (∃ (p : Nat) (group : Nat) (origin : Nat) (seq : Nat) (target : Nat) (tid : Nat) (watts : Nat) (draw : Nat) (state : Nat) (s : State), s.telFifo.length < 1000 ∧ watts < 65536 ∧ draw < 65536 ∧ state < 256 ∧ portHears p s = true ∧ running HPRT.quiet2 p s = false ∧ rd PRT_PORT_STATUS.tag_active p s ≠ 0 ∧ group = rd FAB_PG_CFG.group_id 0 s ∧ inGroup s = true ∧ pgNewer origin seq s = true ∧ target = rd FAB_CTRL.device_id 0 s ∧ rd PWR_PG_STATUS.joining 0 s = 0 ∧ tid ∉ getL LPGM.seen origin s ∧ rd PWR_PG_STATUS.budget 0 s + watts < 2 ^ PWR_PG_STATUS.budget.width) ∧
    (∃ (p : Nat) (group : Nat) (origin : Nat) (seq : Nat) (target : Nat) (tid : Nat) (watts : Nat) (draw : Nat) (state : Nat) (s : State), s.telFifo.length < 1000 ∧ watts < 65536 ∧ draw < 65536 ∧ state < 256 ∧ portHears p s = true ∧ running HPRT.quiet2 p s = false ∧ rd PRT_PORT_STATUS.tag_active p s ≠ 0 ∧ group = rd FAB_PG_CFG.group_id 0 s ∧ inGroup s = true ∧ pgNewer origin seq s = true ∧ target = rd FAB_CTRL.device_id 0 s ∧ rd PWR_PG_STATUS.joining 0 s = 0 ∧ tid ∈ getL LPGM.seen origin s) ∧
    (∃ (p : Nat) (group : Nat) (origin : Nat) (seq : Nat) (target : Nat) (watts : Nat) (draw : Nat) (state : Nat) (s : State), s.telFifo.length < 1000 ∧ watts < 65536 ∧ draw < 65536 ∧ state < 256 ∧ portHears p s = true ∧ running HPRT.quiet2 p s = false ∧ rd PRT_PORT_STATUS.tag_active p s ≠ 0 ∧ group = rd FAB_PG_CFG.group_id 0 s ∧ inGroup s = true ∧ pgNewer origin seq s = true ∧ target = rd FAB_CTRL.device_id 0 s) :=
  ⟨⟨8, 3, 0, 0, 0, PG, by decide +kernel⟩,
    ⟨8, 0, 0, 0, PG, by decide +kernel⟩,
    ⟨8, 7, 5, 9, 0, 0, 0, wr PGM.seq 5 10 PG, by decide +kernel⟩,
    ⟨8, 7, 5, 9, 1100, 900, 2, 4400, PG, by decide +kernel⟩,
    ⟨8, 7, 5, 0, 0, 0, 0, 4400, wr PGM.seq 5 65536 PG, by decide +kernel⟩,
    ⟨8, 7, 5, 9, 0, 0, 0, 4300, wr PWR_PG_STATUS.joining 0 0 PG, by decide +kernel⟩,
    ⟨8, 7, 5, 9, 0, 3, 5, 0, 0, wr PWR_PG_STATUS.joining 0 0 PG, by decide +kernel⟩,
    ⟨8, 7, 5, 9, 0, 3, 5, 0, 0, setL LPGM.seen 5 [3] (wr PWR_PG_STATUS.joining 0 0 PG), by decide +kernel⟩,
    ⟨8, 7, 5, 9, 0, 5, 0, 0, setL LPG.out 0 [3, 5, 5, 1, 1, 4, 6, 5, 1, 1] PG, by decide +kernel⟩⟩

theorem test_power_group_timers :
    (∃ (s : State), s.telFifo.length < 1000 ∧ rd HRED.gap 0 s = 0 ∧ rd HRED.restart 0 s = 0 ∧ running HPG.next 0 s = true ∧ rd PWR_PG_STATUS.joining 0 s = 0 ∧ pgMembers s = []) ∧
    (∃ (s : State), s.telFifo.length < 1000 ∧ rd HRED.gap 0 s = 0 ∧ rd HRED.restart 0 s = 0 ∧ running HPG.next 0 s = true ∧ rd PWR_PG_STATUS.joining 0 s ≠ 0) ∧
    (∃ (x : Nat) (s : State), s.telFifo.length < 1000 ∧ rd HRED.gap 0 s = 0 ∧ rd HRED.restart 0 s = 0 ∧ rd HPG.next 0 s = now s + 1 ∧ rd PWR_PG_STATUS.joining 0 s = 0 ∧ pgMembers s = [x] ∧ x ≠ rd FAB_CTRL.device_id 0 s ∧ now s ≤ rd PGM.last x s - 1 + 30000000 ∧ bitOf (rd PGM.state x s) 7 = false ∧ critPath s = false ∧ rd PGM.budget x s + 5 ≤ fairShare s ∧ fairShare s + 5 ≤ rd PWR_PG_STATUS.budget 0 s ∧ rd PWR_PG_CTRL.donor_margin 0 s + 5 + rd PWR_DRAW.draw 0 s ≤ rd PWR_PG_STATUS.budget 0 s ∧ pgOuts (getL LPG.out 0 s) = [] ∧ getL LPG.lost 0 s = [] ∧ rd PWR_PG_CTRL.pg_min 0 s + 5 ≤ rd PWR_PG_STATUS.budget 0 s ∧ rd PWR_PG_STATUS.budget 0 s < 2048 ∧ rd HPG.tid 0 s < 65536 ∧ rd HPG.seq 0 s < 65535) ∧
    (∃ (x : Nat) (d : Nat) (s : State), s.telFifo.length < 1000 ∧ rd PGM.member x s ≠ 0 ∧ rd PWR_PG_STATUS.joining 0 s = 0 ∧ (pgMembers (wr PGM.member x 0 s)).length = d ∧ d ≠ rd FAB_PG_STATUS.members 0 s) ∧
    (∃ (x : Nat) (tid : Nat) (watts : Nat) (f : Nat) (d : Nat) (u : Nat) (s : State), s.telFifo.length < 1000 ∧ pgOuts (getL LPG.out 0 s) = [(tid, x, watts, f, d)] ∧ d + 10000000 = u ∧ now s ≤ u ∧ u < f + 1000000000) ∧
    (∃ (x : Nat) (tid : Nat) (watts : Nat) (f : Nat) (d : Nat) (s : State), s.telFifo.length < 1000 ∧ pgOuts (getL LPG.out 0 s) = [(tid, x, watts, f, d)]) ∧
    (∃ (s : State), s.telFifo.length < 1000 ∧ running HPG.join 0 s = true) ∧
    (∃ (a : Access) (s : State), s.telFifo.length < 1000 ∧ Accepted a rPWR_PG_CTRL 0 (fieldWord PWR_PG_CTRL.claim 1) (fieldWord PWR_PG_CTRL.claim 1) s ∧ inGroup s = true) :=
  ⟨⟨wr PWR_PG_STATUS.joining 0 0 PG, by decide +kernel⟩,
    ⟨PG, by decide +kernel⟩,
    ⟨5, PG |> wr PWR_PG_STATUS.joining 0 0 |> wr HPG.next 0 (now PG + 1) |> wr PGM.member 5 1 |> wr PGM.last 5 (now PG + 1) |> wr PGM.budget 5 900 |> wr PWR_PG_STATUS.budget 0 1200, by decide +kernel⟩,
    ⟨5, 0, PG |> wr PWR_PG_STATUS.joining 0 0 |> wr PGM.member 5 1 |> wr FAB_PG_STATUS.members 0 1, by decide +kernel⟩,
    ⟨5, 3, 5, 5000, 5000, 10005000, setL LPG.out 0 [3, 5, 5, 5000, 5000] PG, by decide +kernel⟩,
    ⟨5, 3, 5, 5000, 5000, setL LPG.out 0 [3, 5, 5, 5000, 5000] PG, by decide +kernel⟩,
    ⟨PG, by decide +kernel⟩,
    ⟨core0, wr PWR_PG_STATUS.unassigned 0 5 (wr PWR_PG_STATUS.budget 0 1100 PG), by unfold Accepted Direct; decide +kernel⟩⟩

theorem test_contexts_and_rounds :
    (∃ (c : Nat) (s : State), s.telFifo.length < 1000 ∧ (∀ e ∈ getL LRSQ.slots c s, running RSQ.since (e % 2 ^ 32) s = false)) ∧
    (∃ (c : Nat) (q : Nat) (f : Nat) (s : State), s.telFifo.length < 1000 ∧ getL LRSQ.slots c s = [q * 2 ^ 32 + f] ∧ q < 65536 ∧ f < 4294967296 ∧ rd FAB_RSQ.next c s < 65536 ∧ running RSQ.since f s = true) ∧
    (∃ (c : Nat) (q : Nat) (f : Nat) (s : State), s.telFifo.length < 1000 ∧ getL LRSQ.slots c s = [q * 2 ^ 32 + f] ∧ q < 65536 ∧ f < 4294967296 ∧ rd FAB_RSQ.next c s < 65536 ∧ running RSQ.since f s = true) ∧
    (∃ (r : Nat) (k : Nat) (b : Nat) (u : Nat) (s : State), s.telFifo.length < 1000 ∧ rd FAB_ROUND_W0.enable r s ≠ 0 ∧ rd FAB_ROUND_W0.tb r s = b ∧ rndNext r s = k ∧ rndBase r s + k * rndPeriod r s = u ∧ csArmed 1 (fun j => rd HCS.round j s = r) s = []) ∧
    (∃ (r : Nat) (k : Nat) (b : Nat) (u : Nat) (s : State), s.telFifo.length < 1000 ∧ rd FAB_ROUND_W0.enable r s ≠ 0 ∧ rd FAB_ROUND_W0.tb r s = b ∧ rndNext r s = k ∧ rndBase r s + k * rndPeriod r s = u ∧ csArmed 1 (fun j => rd HCS.round j s = r) s = []) ∧
    (∃ (r : Nat) (k : Nat) (b : Nat) (s : State), s.telFifo.length < 1000 ∧ rd FAB_ROUND_W0.enable r s ≠ 0 ∧ rd FAB_ROUND_W0.tb r s = b ∧ rndNext r s = k ∧ rd FAB_ROUND_W0.ev_en r s = 0 ∧ rd FAB_ROUND_W0.mark_en r s = 0 ∧ csArmed 1 (fun j => rd HCS.round j s = r) s = [] ∧ (∀ n ∈ List.range 16, rd TIM_TOUT_W0.mode n s ≠ 3)) ∧
    (∃ (r : Nat) (p : Nat) (v : Nat) (k : Nat) (s : State), s.telFifo.length < 1000 ∧ v / 4096 % 16 = r ∧ rd FAB_ROUND_W0.enable r s ≠ 0 ∧ (tbNs (rd FAB_ROUND_W0.tb r s) s + rndPeriod r s / 2 - min (tbNs (rd FAB_ROUND_W0.tb r s) s + rndPeriod r s / 2) (rndBase r s)) / rndPeriod r s = k ∧ k % 4096 = v % 4096 ∧ osSeen 0x20 v (osRecent (now s) (getL LPRT.os p s)) = false) ∧
    (∃ (r : Nat) (p : Nat) (v : Nat) (k : Nat) (s : State), s.telFifo.length < 1000 ∧ v / 4096 % 16 = r ∧ rd FAB_ROUND_W0.enable r s ≠ 0 ∧ (tbNs (rd FAB_ROUND_W0.tb r s) s + rndPeriod r s / 2 - min (tbNs (rd FAB_ROUND_W0.tb r s) s + rndPeriod r s / 2) (rndBase r s)) / rndPeriod r s = k ∧ k % 4096 ≠ v % 4096 ∧ osSeen 0x20 v (osRecent (now s) (getL LPRT.os p s)) = false) :=
  ⟨⟨0, F0, by decide +kernel⟩,
    ⟨3, 65535, 0, RQ 65535, by decide +kernel⟩,
    ⟨3, 65534, 0, wr FAB_RSQ.next 3 65530 (RQ 65534), by decide +kernel⟩,
    ⟨3, 3, 0, 1500000, RN, by decide +kernel⟩,
    ⟨15, 1, 0, 500000, wr FAB_ROUND_W0.enable 15 1 (wr HRND.next 15 2 F0), by decide +kernel⟩,
    ⟨15, 1, 0, wr FAB_ROUND_W0.enable 15 1 (wr HRND.next 15 2 F0), by decide +kernel⟩,
    ⟨3, 8, 12288, 0, RN, by decide +kernel⟩,
    ⟨3, 8, 12289, 0, RN, by decide +kernel⟩⟩

theorem test_time_pll :
    (∃ (s : State), s.telFifo.length < 1000 ∧ rd TBC.pll_locked 0 s = 0) ∧
    (∃ (s : State), s.telFifo.length < 1000 ∧ rd TIM_CTRL.on_backup 0 s = 0 ∧ rd TBC.pll_locked 0 s ≠ 0 ∧ (∀ c ∈ List.range 8, rd TIM_TB_W5.state c s ≠ 2)) ∧
    (∃ (b : Nat) (s : State), s.telFifo.length < 1000 ∧ rd TIM_CTRL.on_backup 0 s = 0 ∧ rd TBC.pll_locked 0 s ≠ 0 ∧ 0 < b ∧ b < 8 ∧ rd TIM_TB_W5.state b s = 2 ∧ (∀ c ∈ List.range 8, c ≠ b → rd TIM_TB_W5.state c s ≠ 2)) ∧
    (∃ (b : Nat) (s : State), s.telFifo.length < 1000 ∧ rd TIM_CTRL.on_backup 0 s = 0 ∧ rd TBC.pll_locked 0 s ≠ 0 ∧ 0 < b ∧ b < 8 ∧ rd TIM_TB_W5.state b s = 2 ∧ (∀ c ∈ List.range 8, c ≠ b → rd TIM_TB_W5.state c s ≠ 2)) ∧
    (∃ (s : State), s.telFifo.length < 1000 ∧ rd TIM_CTRL.on_backup 0 s ≠ 0) ∧
    (∃ (a : Access) (b : Nat) (s : State), s.telFifo.length < 1000 ∧ b < 8 ∧ Accepted a rTIM_TB_W11 b 0xFFFFFFFF 1 s) ∧
    (∃ (a : Access) (s : State), s.telFifo.length < 1000 ∧ Accepted a rTIM_CTRL 0 (fieldWord TIM_CTRL.latch_all 1) (fieldWord TIM_CTRL.latch_all 1) s) ∧
    (∃ (a : Access) (b : Nat) (s : State), s.telFifo.length < 1000 ∧ 0 < b ∧ b < 8 ∧ rd TIM_TB_W5.state b s ≠ 2 ∧ Accepted a rTIM_TB_W11 b 0xFFFFFFFF 2 s ∧ (∀ k ∈ List.range 4, rd CFG_CS_W4.state k s ≠ 2)) ∧
    (∃ (a : Access) (b : Nat) (s : State), s.telFifo.length < 1000 ∧ 0 < b ∧ b < 8 ∧ rd TIM_TB_W5.state b s ≠ 2 ∧ Accepted a rTIM_TB_W11 b 0xFFFFFFFF 2 s ∧ (∀ k ∈ List.range 4, rd CFG_CS_W4.state k s ≠ 2)) ∧
    (∃ (a : Access) (b : Nat) (s : State), s.telFifo.length < 1000 ∧ 0 < b ∧ b < 8 ∧ rd TIM_TB_W5.state b s ≠ 2 ∧ Accepted a rTIM_TB_W11 b 0xFFFFFFFF 3 s ∧ (∀ k ∈ List.range 4, rd CFG_CS_W4.state k s ≠ 2)) ∧
    (∃ (a : Access) (b : Nat) (s : State), s.telFifo.length < 1000 ∧ 0 < b ∧ b < 8 ∧ rd TIM_TB_W5.state b s ≠ 2 ∧ Accepted a rTIM_TB_W11 b 0xFFFFFFFF 3 s ∧ (∀ k ∈ List.range 4, rd CFG_CS_W4.state k s ≠ 2)) :=
  ⟨⟨wr TBC.count 3 9 base, by decide +kernel⟩,
    ⟨F0, by decide +kernel⟩,
    ⟨1, LK, by decide +kernel⟩,
    ⟨7, wr TIM_TB_W5.state 7 2 F0, by decide +kernel⟩,
    ⟨wr TIM_CTRL.on_backup 0 1 F0, by decide +kernel⟩,
    ⟨core0, 7, F0, by unfold Accepted Direct; decide +kernel⟩,
    ⟨core0, F0, by unfold Accepted Direct; decide +kernel⟩,
    ⟨core0, 7, wr TIM_TB_W12.arg_lo 7 4294967290 F0, by unfold Accepted Direct; decide +kernel⟩,
    ⟨core0, 1, wr TIM_TB_W12.arg_lo 1 500 F0, by unfold Accepted Direct; decide +kernel⟩,
    ⟨core0, 7, wr TIM_TB_W12.arg_lo 7 4294967290 F0, by unfold Accepted Direct; decide +kernel⟩,
    ⟨core0, 1, wr TIM_TB_W13.arg_hi 1 500 F0, by unfold Accepted Direct; decide +kernel⟩⟩

theorem test_link_delay :
    (∃ (p : Nat) (n : Nat) (s : State), s.telFifo.length < 1000 ∧ ptpRuns s = true ∧ rd TIM_PORT_W0.delay_mode p s ≠ 0 ∧ ptpUp p s = true ∧ askedNs HPD.ipd p (sgn 4 (rd TIM_PORT_W0.log_pdelay p s)) s = some n) ∧
    (∃ (p : Nat) (n : Nat) (s : State), s.telFifo.length < 1000 ∧ ptpRuns s = true ∧ rd TIM_PORT_W0.delay_mode p s ≠ 0 ∧ ptpUp p s = true ∧ askedNs HPD.ipd p (sgn 4 (rd TIM_PORT_W0.log_pdelay p s)) s = some n) ∧
    (∃ (s : State), s.telFifo.length < 1000) ∧
    (∃ (p : Nat) (s : State), s.telFifo.length < 1000 ∧ ptpRuns s = true ∧ rd TIM_PORT_W0.delay_mode p s ≠ 0 ∧ ptpUp p s = true) ∧
    (∃ (p : Nat) (seq : Nat) (t2 : Nat) (s : State), s.telFifo.length < 1000 ∧ ptpRuns s = true ∧ rd HPD.wait p s ≠ 0 ∧ rd HPD.seq p s = seq ∧ t2 < 2 ^ 81) ∧
    (∃ (p : Nat) (seq : Nat) (corr : Int) (s : State) (m : Nat), s.telFifo.length < 1000 ∧ ptpRuns s = true ∧ rd HPD.wait p s ≠ 0 ∧ rd HPD.seq p s = seq ∧ rdI HPD.ratio p s = 0 ∧ rd TIM_PORT_W6.delay_valid p s = 0 ∧ getL LPD.win p s = [] ∧ rxStamp p 0 s < 2 ^ HPD.t4.width ∧ sgn HPD.corr.width (unsgn HPD.corr.width corr) = corr ∧ (((rxStamp p 0 s : Int) - rd HPD.t1 p s - corr * 2 ^ 16) / 2).toNat = m) ∧
    (∃ (p : Nat) (seq : Nat) (form : RespForm) (s : State), s.telFifo.length < 1000 ∧ ptpRuns s = true ∧ (rd HPD.wait p s = 0 ∨ rd HPD.seq p s ≠ seq) ∧ form ≠ .bad) ∧
    (∃ (p : Nat) (seq : Nat) (t3 : Nat) (m : Nat) (corr : Int) (s : State), s.telFifo.length < 1000 ∧ ptpRuns s = true ∧ rd HPD.wait p s ≠ 0 ∧ rd HPD.got p s ≠ 0 ∧ rd HPD.seq p s = seq ∧ rd HPD.t3p p s = 0 ∧ rdI HPD.ratio p s = 0 ∧ rd TIM_PORT_W6.delay_valid p s = 0 ∧ getL LPD.win p s = [] ∧ (((rd HPD.t4 p s : Int) - rd HPD.t1 p s - ((t3 * 2 ^ 16 : Nat) - rd HPD.t2 p s) - (rdI HPD.corr p s + corr) * 2 ^ 16) / 2).toNat = m) ∧
    (∃ (p : Nat) (seq : Nat) (s : State), s.telFifo.length < 1000 ∧ ptpRuns s = true ∧ rd HPD.wait p s ≠ 0 ∧ rd HPD.got p s ≠ 0 ∧ rd HPD.seq p s = seq ∧ rd TIM_PORT_W6.delay_valid p s = 0 ∧ (getL LPD.win p s).length = 3) ∧
    (∃ (p : Nat) (seq : Nat) (t3 : Nat) (n : Nat) (m : Nat) (corr : Int) (s : State), s.telFifo.length < 1000 ∧ ptpRuns s = true ∧ rd HPD.wait p s ≠ 0 ∧ rd HPD.got p s ≠ 0 ∧ rd HPD.seq p s = seq ∧ rd HPD.t3p p s = 0 ∧ rdI HPD.ratio p s = 0 ∧ rd TIM_PORT_W6.delay_valid p s ≠ 0 ∧ (getL LPD.win p s) = [n] ∧ (((rd HPD.t4 p s : Int) - rd HPD.t1 p s - ((t3 * 2 ^ 16 : Nat) - rd HPD.t2 p s) - (rdI HPD.corr p s + corr) * 2 ^ 16) / 2).toNat = m ∧ n + 100 * 2 ^ 32 < m) ∧
    (∃ (p : Nat) (s : State), s.telFifo.length < 1000 ∧ rd HPD.wait p s ≠ 0 ∧ ptpUp p s = true ∧ rd HPD.lost p s < 2) ∧
    (∃ (p : Nat) (s : State), s.telFifo.length < 1000 ∧ rd HPD.wait p s ≠ 0 ∧ ptpUp p s = true ∧ rd HPD.lost p s = 2) ∧
    (∃ (p : Nat) (payload : Nat) (s : State), s.telFifo.length < 1000 ∧ rd PRT_PORT_STATUS.peer_zx p s ≠ 0 ∧ payload < 32768 ∧ rd HPD.prx p s ≠ 0 ∧ bitOf (rd PRT_PORT_PEER_CAP.peer_caps p s) 2 = true ∧ osSeen 0x10 payload (osRecent (now s) (getL LPRT.os p s)) = false) ∧
    (∃ (p : Nat) (payload : Nat) (s : State), s.telFifo.length < 1000 ∧ rd PRT_PORT_STATUS.peer_zx p s ≠ 0 ∧ 32768 ≤ payload ∧ payload < 65536 ∧ osSeen 0x10 payload (osRecent (now s) (getL LPRT.os p s)) = false) ∧
    (∃ (p : Nat) (payload : Nat) (s : State), s.telFifo.length < 1000 ∧ rd PRT_PORT_STATUS.peer_zx p s ≠ 0 ∧ 32768 ≤ payload ∧ payload < 65536 ∧ osSeen 0x10 payload (osRecent (now s) (getL LPRT.os p s)) = false) ∧
    (∃ (p : Nat) (s : State), s.telFifo.length < 1000 ∧ portHears p s = true ∧ rd PRT_PORT_STATUS.peer_zx p s ≠ 0 ∧ osSeen 0x11 0 (osRecent (now s) (getL LPRT.os p s)) = false) ∧
    (∃ (p : Nat) (s : State), s.telFifo.length < 1000 ∧ rd PRT_PORT_STATUS.peer_zx p s ≠ 0 ∧ rd PRT_PORT_STATUS.state p s ≠ 5 ∧ rd PRT_PORT_STATUS.state p s ≠ 6) ∧
    (∃ (p : Nat) (s : State), s.telFifo.length < 1000 ∧ rd PRT_PORT_STATUS.peer_zx p s ≠ 0 ∧ rd PRT_PORT_STATUS.state p s ≠ 5 ∧ rd PRT_PORT_STATUS.state p s ≠ 6 ∧ (rd HPD.ptx p s = 0 ∨ rd HPD.prx p s = 0)) :=
  ⟨⟨8, 1000000000, wr HPD.ival 8 5 F0, by decide +kernel⟩,
    ⟨1023, 1000000000, wr HPD.seq 1023 65535 (up 1023 F0), by decide +kernel⟩,
    ⟨F0, by decide +kernel⟩,
    ⟨8, F0, by decide +kernel⟩,
    ⟨8, 7, 9, wr HPD.wait 8 1 (wr HPD.seq 8 7 F0), by decide +kernel⟩,
    ⟨8, 7, 65536, wr HPD.wait 8 1 (wr HPD.seq 8 7 (wr HPD.t1 8 (rd TBC.count 0 F0 - 26 * 2 ^ 32) F0)), (((rxStamp 8 0 (wr HPD.wait 8 1 (wr HPD.seq 8 7 (wr HPD.t1 8 (rd TBC.count 0 F0 - 26 * 2 ^ 32) F0))) : Int) - rd HPD.t1 8 (wr HPD.wait 8 1 (wr HPD.seq 8 7 (wr HPD.t1 8 (rd TBC.count 0 F0 - 26 * 2 ^ 32) F0))) - 65536 * 2 ^ 16) / 2).toNat, by decide +kernel⟩,
    ⟨8, 7, .oneStep, F0, by decide +kernel⟩,
    ⟨8, 7, 58982400, 268435456000, 0, PD, by decide +kernel⟩,
    ⟨8, 7, setL LPD.win 8 [53687091200, 53687091200, 53687091200] PD, by decide +kernel⟩,
    ⟨8, 7, 58982400, 1, 2727304232960, 0, wr HPD.t4 8 (1270 * 2 ^ 32) (wr TIM_PORT_W6.delay_valid 8 1 (setL LPD.win 8 [1] (wr HPD.t1 8 0 PD))), by decide +kernel⟩,
    ⟨8, PD, by decide +kernel⟩,
    ⟨8, wr HPD.lost 8 2 PD, by decide +kernel⟩,
    ⟨8, 5, zx 8 (wr HPD.prx 8 9 F0), by decide +kernel⟩,
    ⟨8, 65535, zx 8 F0, by decide +kernel⟩,
    ⟨8, 32768, zx 8 F0, by decide +kernel⟩,
    ⟨8, zx 8 (wr TIM_PORT_W1.rx_ext 8 3 F0), by decide +kernel⟩,
    ⟨8, zx 8 (wr HPD.extt 8 3 F0), by decide +kernel⟩,
    ⟨8, zx 8 (wr HPD.extr 8 3 F0), by decide +kernel⟩⟩

theorem test_time_servo :
    (∃ (p : Nat) (dom : Nat) (b : Nat) (s : State), s.telFifo.length < 1000 ∧ ptpRuns s = true ∧ instOf p dom s = some b ∧ roleOf p b s = 2 ∧ rd TIM_TB_W0.source b s = 1) ∧
    (∃ (p : Nat) (dom : Nat) (origin : Nat) (b : Nat) (corr : Int) (s : State) (o : Int), s.telFifo.length < 1000 ∧ ptpRuns s = true ∧ instOf p dom s = some b ∧ roleOf p b s = 2 ∧ rd TIM_TB_W0.source b s = 1 ∧ rd TIM_TB_W5.src b s = 0 ∧ ((origin * 2 ^ 32 : Nat) : Int) + corr * 2 ^ 16 + inDelay b p s - (rxStamp p b s : Int) = o ∧ rd TIM_TB_W5.state b s ≠ 2 ∧ absI o ≤ psToU (rd TIM_TB_W3.step_threshold b s * 1000000 : Nat) ∧ rd HTB.good b s + 1 < rd TIM_TB_W3.lock_count b s ∧ rd TIM_TB_W3.lock_count b s < 16) ∧
    (∃ (p : Nat) (dom : Nat) (origin : Nat) (b : Nat) (corr : Int) (s : State) (o : Int), s.telFifo.length < 1000 ∧ ptpRuns s = true ∧ instOf p dom s = some b ∧ roleOf p b s = 2 ∧ rd TIM_TB_W0.source b s = 1 ∧ rd TIM_TB_W5.src b s = 0 ∧ ((origin * 2 ^ 32 : Nat) : Int) + corr * 2 ^ 16 + inDelay b p s - (rxStamp p b s : Int) = o ∧ rd TIM_TB_W5.state b s ≠ 2 ∧ absI o ≤ psToU (rd TIM_TB_W3.step_threshold b s * 1000000 : Nat) ∧ rd HTB.good b s + 1 = rd TIM_TB_W3.lock_count b s ∧ absI o ≤ psToU (rd TIM_TB_W3.lock_threshold b s * 100 : Nat) ∧ rd HTB.good b s < 15) ∧
    (∃ (p : Nat) (dom : Nat) (origin : Nat) (b : Nat) (corr : Int) (s : State) (o : Int), s.telFifo.length < 1000 ∧ ptpRuns s = true ∧ instOf p dom s = some b ∧ roleOf p b s = 2 ∧ rd TIM_TB_W0.source b s = 1 ∧ rd TIM_TB_W5.src b s = 0 ∧ ((origin * 2 ^ 32 : Nat) : Int) + corr * 2 ^ 16 + inDelay b p s - (rxStamp p b s : Int) = o ∧ rd TIM_TB_W5.state b s ≠ 2 ∧ rd TIM_TB_W0.step_enable b s ≠ 0 ∧ psToU (rd TIM_TB_W3.step_threshold b s * 1000000 : Nat) < absI o ∧ (∀ k ∈ List.range 4, rd CFG_CS_W4.state k s ≠ 2)) ∧
    (∃ (p : Nat) (dom : Nat) (origin : Nat) (b : Nat) (corr : Int) (s : State) (o : Int), s.telFifo.length < 1000 ∧ ptpRuns s = true ∧ instOf p dom s = some b ∧ roleOf p b s = 2 ∧ rd TIM_TB_W0.source b s = 1 ∧ rd TIM_TB_W5.src b s = 0 ∧ ((origin * 2 ^ 32 : Nat) : Int) + corr * 2 ^ 16 + inDelay b p s - (rxStamp p b s : Int) = o ∧ rd TIM_TB_W5.state b s = 2 ∧ psToU (rd TIM_TB_W3.unlock_threshold b s * 10000 : Nat) < absI o ∧ rd HTB.bad b s = 2 ∧ rd TIM_TB_W0.pair_en b s = 0 ∧ followers b s = []) ∧
    (∃ (p : Nat) (dom : Nat) (seq : Nat) (origin : Nat) (b : Nat) (corr : Int) (s : State) (o : Int), s.telFifo.length < 1000 ∧ ptpRuns s = true ∧ instOf p dom s = some b ∧ roleOf p b s = 2 ∧ rd HSY.wait (b * 1024 + p) s ≠ 0 ∧ rd HSY.seq (b * 1024 + p) s = seq ∧ rd TIM_TB_W5.src b s = 0 ∧ ((origin * 2 ^ 32 : Nat) : Int) + (rdI HSY.corr (b * 1024 + p) s + corr) * 2 ^ 16 + inDelay b p s - (rd HSY.t2 (b * 1024 + p) s : Int) = o ∧ rd TIM_TB_W5.state b s ≠ 2 ∧ absI o ≤ psToU (rd TIM_TB_W3.step_threshold b s * 1000000 : Nat) ∧ rd HTB.good b s + 1 < rd TIM_TB_W3.lock_count b s ∧ rd TIM_TB_W3.lock_count b s < 16) ∧
    (∃ (p : Nat) (dom : Nat) (seq : Nat) (b : Nat) (s : State), s.telFifo.length < 1000 ∧ ptpRuns s = true ∧ instOf p dom s = some b ∧ (roleOf p b s ≠ 2 ∨ rd HSY.seq (b * 1024 + p) s ≠ seq)) ∧
    (∃ (b : Nat) (s : State), s.telFifo.length < 1000 ∧ rd HRED.gap 0 s = 0 ∧ rd HRED.restart 0 s = 0 ∧ rd HTB.last b s ≠ 0 ∧ rd TIM_TB_W0.enable b s ≠ 0 ∧ rd TIM_TB_W0.source b s ≠ 0 ∧ rd TIM_TB_W5.src b s = 0 ∧ rd TIM_TB_W5.state b s = 2 ∧ rd TIM_TB_W0.pair_en b s = 0 ∧ followers b s = []) ∧
    (∃ (p : Nat) (b : Nat) (s : State), s.telFifo.length < 1000 ∧ ptpRuns s = true ∧ getL LTB.ann (b * 1024 + p) s ≠ [] ∧ roleOf p b s = 2 ∧ 0 < b ∧ b < 8 ∧ instPorts b s = [p] ∧ rd TIM_TB_W0.source b s = 1 ∧ rd TIM_TB_W5.src b s = 0 ∧ rd TIM_TB_W5.state b s = 2 ∧ rd TIM_TB_W0.pair_en b s = 0 ∧ followers b s = []) ∧
    (∃ (p : Nat) (s : State), s.telFifo.length < 1000 ∧ rd TIM_TB_W5.src p s ≠ 0 ∧ rd TIM_TB_W0.revert_en p s ≠ 0 ∧ rd TIM_TB_W5.inst_state p s = 2 ∧ rd HTB.revert p s ≠ 0 ∧ rd TIM_TB_W5.gm_class p s ≤ rd TIM_TB_W4.class_limit p s) :=
  ⟨⟨8, 0, 1, SL, by decide +kernel⟩,
    ⟨8, 0, 1000, 1, 0, SL, ((1000 * 2 ^ 32 : Nat) : Int) + 0 * 2 ^ 16 + inDelay 1 8 SL - (rxStamp 8 1 SL : Int), by decide +kernel⟩,
    ⟨8, 0, 1000, 1, 0, wr HTB.good 1 7 SL, ((1000 * 2 ^ 32 : Nat) : Int) + 0 * 2 ^ 16 + inDelay 1 8 (wr HTB.good 1 7 SL) - (rxStamp 8 1 (wr HTB.good 1 7 SL) : Int), by decide +kernel⟩,
    ⟨8, 0, 90000000, 1, 0, SL, ((90000000 * 2 ^ 32 : Nat) : Int) + 0 * 2 ^ 16 + inDelay 1 8 SL - (rxStamp 8 1 SL : Int), by decide +kernel⟩,
    ⟨8, 0, 90000000, 1, 0, wr HTB.bad 1 2 LK, ((90000000 * 2 ^ 32 : Nat) : Int) + 0 * 2 ^ 16 + inDelay 1 8 (wr HTB.bad 1 2 LK) - (rxStamp 8 1 (wr HTB.bad 1 2 LK) : Int), by decide +kernel⟩,
    ⟨8, 0, 4, 1000, 1, 0, wr HSY.wait 1032 1 (wr HSY.seq 1032 4 (wr HSY.t2 1032 (1100 * 2 ^ 32) SL)), ((1000 * 2 ^ 32 : Nat) : Int) + (rdI HSY.corr (1 * 1024 + 8) (wr HSY.wait 1032 1 (wr HSY.seq 1032 4 (wr HSY.t2 1032 (1100 * 2 ^ 32) SL))) + 0) * 2 ^ 16 + inDelay 1 8 (wr HSY.wait 1032 1 (wr HSY.seq 1032 4 (wr HSY.t2 1032 (1100 * 2 ^ 32) SL))) - (rd HSY.t2 (1 * 1024 + 8) (wr HSY.wait 1032 1 (wr HSY.seq 1032 4 (wr HSY.t2 1032 (1100 * 2 ^ 32) SL))) : Int), by decide +kernel⟩,
    ⟨8, 0, 4, 1, SL, by decide +kernel⟩,
    ⟨1, LK, by decide +kernel⟩,
    ⟨8, 1, LK, by decide +kernel⟩,
    ⟨1, wr TIM_TB_W5.src 1 1 (wr HTB.prev 1 77 (wr HTB.revert 1 5 (wr TIM_TB_W5.inst_state 1 2 LK))), by decide +kernel⟩⟩

theorem test_ptp_messages :
    (∃ (p : Nat) (dom : Nat) (src : Nat) (b : Nat) (set : List Nat) (path : List Nat) (s : State), s.telFifo.length < 1000 ∧ ptpRuns s = true ∧ instOf p dom s = some b ∧ instPorts b s = [p] ∧ rd TIM_TB_W0.source b s = 1 ∧ rd TIM_TB_W5.state b s ≠ 2 ∧ rd TIM_TB_W5.src b s = 0 ∧ src / 2 ^ 16 ≠ clockId s ∧ (rd TIM_TB_W0.profile b s ≠ 0 ∨ path.contains (clockId s) = false) ∧ set.length = 7 ∧ lexLt (set ++ [src, p]) (ownSet b s) = true) ∧
    (∃ (p : Nat) (dom : Nat) (src : Nat) (b : Nat) (set : List Nat) (path : List Nat) (s : State), s.telFifo.length < 1000 ∧ ptpRuns s = true ∧ instOf p dom s = some b ∧ instPorts b s = [p] ∧ rd TIM_TB_W0.source b s = 1 ∧ rd TIM_TB_W5.state b s ≠ 2 ∧ rd TIM_TB_W5.src b s = 0 ∧ src / 2 ^ 16 ≠ clockId s ∧ (rd TIM_TB_W0.profile b s ≠ 0 ∨ path.contains (clockId s) = false) ∧ set.length = 7 ∧ lexLt (set ++ [src, p]) (ownSet b s) = false) ∧
    (∃ (p : Nat) (dom : Nat) (b : Nat) (s : State), s.telFifo.length < 1000 ∧ ptpRuns s = true ∧ instOf p dom s = some b) ∧
    (∃ (p : Nat) (dom : Nat) (b : Nat) (s : State), s.telFifo.length < 1000 ∧ ptpRuns s = true ∧ instOf p dom s = some b ∧ roleOf p b s = 1 ∧ rd TIM_TB_W0.profile b s = 1) ∧
    (∃ (p : Nat) (dom : Nat) (seq : Nat) (b : Nat) (s : State), s.telFifo.length < 1000 ∧ ptpRuns s = true ∧ instOf p dom s = some b ∧ roleOf p b s = 2 ∧ rd HTB.t3 b s ≠ 0 ∧ (seq + 1) % 65536 = rd HSY.txd (b * 1024 + p) s) ∧
    (∃ (p : Nat) (dom : Nat) (b : Nat) (s : State), s.telFifo.length < 1000 ∧ ptpRuns s = true ∧ instOf p dom s = some b) ∧
    (∃ (p : Nat) (dom : Nat) (b : Nat) (s : State), s.telFifo.length < 1000 ∧ ptpRuns s = true ∧ instOf p dom s = some b) ∧
    (∃ (p : Nat) (n : Nat) (b : Nat) (s : State), s.telFifo.length < 1000 ∧ ptpRuns s = true ∧ roleOf p b s = 1 ∧ ptpUp p s = true ∧ askedNs HSY.isync (b * 1024 + p) (sgn 4 (rd TIM_TB_W1.log_sync b s)) s = some n) ∧
    (∃ (p : Nat) (n : Nat) (b : Nat) (s : State), s.telFifo.length < 1000 ∧ ptpRuns s = true ∧ roleOf p b s = 1 ∧ ptpUp p s = true ∧ askedNs HSY.iann (b * 1024 + p) (sgn 4 (rd TIM_TB_W1.log_announce b s)) s = some n) ∧
    (∃ (p : Nat) (b : Nat) (s : State), s.telFifo.length < 1000 ∧ ptpRuns s = true ∧ roleOf p b s = 2 ∧ rd TIM_TB_W0.profile b s = 1 ∧ ptpUp p s = true) :=
  ⟨⟨8, 0, 99 * 65536, 1, [128, 6, 33, 1, 128, 99, 0], [], SL, by decide +kernel⟩,
    ⟨8, 0, 99 * 65536, 1, [255, 6, 33, 1, 128, 99, 0], [], SL, by decide +kernel⟩,
    ⟨8, 0, 1, SL, by decide +kernel⟩,
    ⟨8, 0, 1, setRole 8 1 1 (wr TIM_TB_W0.profile 1 1 SL), by decide +kernel⟩,
    ⟨8, 0, 4, 1, wr HTB.t3 1 (100 * 2 ^ 32) (wr HSY.txd 1032 5 SL), by decide +kernel⟩,
    ⟨8, 0, 1, wr HSY.isync 1032 1 SL, by decide +kernel⟩,
    ⟨8, 0, 1, SL, by decide +kernel⟩,
    ⟨8, 125000000, 1, setRole 8 1 1 SL, by decide +kernel⟩,
    ⟨8, 1000000000, 1, setRole 8 1 1 SL, by decide +kernel⟩,
    ⟨8, 1, wr TIM_TB_W0.profile 1 1 SL, by decide +kernel⟩⟩

theorem test_time_pins :
    (∃ (n : Nat) (b : Nat) (u : Nat) (s : State), s.telFifo.length < 1000 ∧ rd HTOUT.next n s = u + 1 ∧ rd TIM_TOUT_W0.mode n s = 1 ∧ rd TIM_TOUT_W0.tb n s = b ∧ squelched n b s = false) ∧
    (∃ (n : Nat) (b : Nat) (u : Nat) (s : State), s.telFifo.length < 1000 ∧ rd HTOUT.next n s = u + 1 ∧ rd TIM_TOUT_W0.mode n s = 2 ∧ rd TIM_TOUT_W0.tb n s = b ∧ squelched n b s = false) ∧
    (∃ (n : Nat) (b : Nat) (u : Nat) (s : State), s.telFifo.length < 1000 ∧ rd HTOUT.next n s = u + 1 ∧ rd TIM_TOUT_W0.mode n s = 2 ∧ rd TIM_TOUT_W0.tb n s = b ∧ squelched n b s = true) ∧
    (∃ (a : Access) (n : Nat) (v : Nat) (s : State), s.telFifo.length < 1000 ∧ n < 16 ∧ v < 2 ^ 32 ∧ Accepted a rTIM_TOUT_W0 n 0xFFFFFFFF v s) ∧
    (∃ (a : Access) (n : Nat) (v : Nat) (s : State), s.telFifo.length < 1000 ∧ n < 16 ∧ v < 2 ^ 32 ∧ Accepted a rTIM_TOUT_W0 n 0xFFFFFFFF v s) ∧
    (∃ (n : Nat) (b : Nat) (c : Nat) (rising : Bool) (s : State), s.telFifo.length < 1000 ∧ rd TIM_TIN_W0.enable n s ≠ 0 ∧ (if rising then (rd TIM_TIN_W0.edge n s).testBit 0 else (rd TIM_TIN_W0.edge n s).testBit 1) = true ∧ (rd HTIN.last n s = 0 ∨ rd HTIN.last n s - 1 + 20 ≤ now s) ∧ rd TIM_TIN_W0.tb n s = b ∧ (getL LTIM.tin n s).length < 16 ∧ ((capCount b s : Int) - psToU (rdI TIM_TIN_W1.tin_delay n s)).toNat = c ∧ (∀ j ∈ List.range 8, rd TIM_TB_W0.source j s ≠ 2)) ∧
    (∃ (n : Nat) (b : Nat) (c : Nat) (rising : Bool) (s : State), s.telFifo.length < 1000 ∧ rd TIM_TIN_W0.enable n s ≠ 0 ∧ (if rising then (rd TIM_TIN_W0.edge n s).testBit 0 else (rd TIM_TIN_W0.edge n s).testBit 1) = true ∧ (rd HTIN.last n s = 0 ∨ rd HTIN.last n s - 1 + 20 ≤ now s) ∧ rd TIM_TIN_W0.tb n s = b ∧ (getL LTIM.tin n s).length < 16 ∧ ((capCount b s : Int) - psToU (rdI TIM_TIN_W1.tin_delay n s)).toNat = c ∧ (∀ j ∈ List.range 8, rd TIM_TB_W0.source j s ≠ 2)) ∧
    (∃ (n : Nat) (rising : Bool) (s : State), s.telFifo.length < 1000 ∧ rd TIM_TIN_W0.enable n s ≠ 0 ∧ (if rising then (rd TIM_TIN_W0.edge n s).testBit 0 else (rd TIM_TIN_W0.edge n s).testBit 1) = true ∧ rd HTIN.last n s ≠ 0 ∧ now s < rd HTIN.last n s - 1 + 20) ∧
    (∃ (n : Nat) (rising : Bool) (s : State), s.telFifo.length < 1000 ∧ rd TIM_TIN_W0.enable n s ≠ 0 ∧ (if rising then (rd TIM_TIN_W0.edge n s).testBit 0 else (rd TIM_TIN_W0.edge n s).testBit 1) = true ∧ (rd HTIN.last n s = 0 ∨ rd HTIN.last n s - 1 + 20 ≤ now s) ∧ 16 ≤ (getL LTIM.tin n s).length ∧ (∀ j ∈ List.range 8, rd TIM_TB_W0.source j s ≠ 2)) ∧
    (∃ (n : Nat) (b : Nat) (c : Nat) (s : State), s.telFifo.length < 1000 ∧ rd TIM_TIN_W0.enable n s ≠ 0 ∧ (rd TIM_TIN_W0.edge n s).testBit 0 = true ∧ (rd HTIN.last n s = 0 ∨ rd HTIN.last n s - 1 + 20 ≤ now s) ∧ rd TIM_TIN_W0.tb n s = b ∧ 0 < b ∧ b < 8 ∧ rd TIM_TB_W0.enable b s ≠ 0 ∧ rd TIM_TB_W0.source b s = 2 ∧ rd TIM_TB_W0.tin b s = n ∧ ptpRuns s = true ∧ ((capCount b s : Int) - psToU (rdI TIM_TIN_W1.tin_delay n s)).toNat = c) ∧
    (∃ (a : Access) (n : Nat) (s : State), s.telFifo.length < 1000 ∧ n < 8 ∧ Accepted a rTIM_TIN_W3 n 0xFFFFFFFF 1 s) :=
  ⟨⟨15, 0, 5000, wr HTOUT.next 15 5001 (wr TIM_TOUT_W0.mode 15 1 F0), by decide +kernel⟩,
    ⟨0, 0, 5000, wr HTOUT.next 0 5001 (wr TIM_TOUT_W0.mode 0 2 F0), by decide +kernel⟩,
    ⟨0, 1, 5000, wr HTOUT.next 0 5001 (wr TIM_TOUT_W0.mode 0 2 (wr TIM_TOUT_W0.tb 0 1 (wr TIM_TOUT_W0.squelch 0 1 F0))), by decide +kernel⟩,
    ⟨core0, 15, 0, F0, by unfold Accepted Direct; decide +kernel⟩,
    ⟨core0, 0, 2, F0, by unfold Accepted Direct; decide +kernel⟩,
    ⟨7, 0, capCount 0 F0, true, wr TIM_TIN_W0.enable 7 1 F0, by decide +kernel⟩,
    ⟨7, 0, capCount 0 F0, false, wr TIM_TIN_W0.edge 7 2 (wr TIM_TIN_W0.enable 7 1 F0), by decide +kernel⟩,
    ⟨7, true, wr TIM_TIN_W0.enable 7 1 (wr HTIN.last 7 (now F0) F0), by decide +kernel⟩,
    ⟨7, true, setL LTIM.tin 7 (List.replicate 16 3) (wr TIM_TIN_W0.enable 7 1 F0), by decide +kernel⟩,
    ⟨7, 3, capCount 3 F0, wr TIM_TIN_W0.tb 7 3 (wr TIM_TB_W0.enable 3 1 (wr TIM_TB_W0.source 3 2 (wr TIM_TB_W0.tin 3 7 (wr TIM_TIN_W0.enable 7 1 F0)))), by decide +kernel⟩,
    ⟨core0, 7, setL LTIM.tin 7 [8, 9] F0, by unfold Accepted Direct; decide +kernel⟩⟩

theorem test_governor_and_steps :
    (∃ (x : Nat) (l : Nat) (s : State), s.telFifo.length < 900 ∧ govRuns s = true ∧ govTarget s = (x, l) ∧ rd PWR_STATUS.p_state 0 s = x ∧ rd HPWR.step 0 s = 0) ∧
    (∃ (s : State), s.telFifo.length < 900 ∧ rd HPWR.gov 0 s = 0 ∧ rd HPWR.run 0 s ≠ 0 ∧ (vrUsed s).all (fun r => rd HVR.seen r s ≠ 0) = true ∧ rd HPWR.step 0 s = 0) ∧
    (∃ (s : State), s.telFifo.length < 900 ∧ rd HPWR.gov 0 s = 0 ∧ rd HPWR.run 0 s = 0 ∧ rd HPWR.step 0 s = 0) ∧
    (∃ (x : Nat) (l : Nat) (s : State), s.telFifo.length < 900 ∧ govRuns s = true ∧ govTarget s = (x, l) ∧ rd PWR_STATUS.p_state 0 s < x ∧ x < 8 ∧ rd HPWR.step 0 s = 0) ∧
    (∃ (x : Nat) (l : Nat) (s : State), s.telFifo.length < 900 ∧ govRuns s = true ∧ govTarget s = (x, l) ∧ rd PWR_STATUS.p_state 0 s < x ∧ x < 8 ∧ rd HPWR.step 0 s = 0) ∧
    (∃ (x : Nat) (l : Nat) (s : State), s.telFifo.length < 900 ∧ govRuns s = true ∧ govTarget s = (x, l) ∧ x < rd PWR_STATUS.p_state 0 s ∧ rd PWR_STATUS.p_state 0 s < 8 ∧ rd HPWR.step 0 s = 0) ∧
    (∃ (s : State), s.telFifo.length < 900 ∧ rd PWR_CTRL.perf_mode 0 s = 0) ∧
    (∃ (s : State), s.telFifo.length < 900 ∧ rd PWR_CTRL.perf_mode 0 s ≠ 0) ∧
    (∃ (s : State), s.telFifo.length < 900 ∧ rd HPWR.step 0 s = 4 ∧ rd HPWR.old 0 s ≠ rd PWR_STATUS.p_state 0 s ∧ (getL LPWR.pc 0 s).length < 100) ∧
    (∃ (s : State), s.telFifo.length < 900 ∧ rd HPWR.step 0 s = 5 ∧ voltIn s = true ∧ (vrSet s).all (fun r => rd PWR_VR_TEL.fault r s = 0) = true) ∧
    (∃ (s : State), s.telFifo.length < 900 ∧ rd HPWR.step 0 s = 5 ∧ voltIn s = false) ∧
    (∃ (s : State), s.telFifo.length < 900 ∧ rd HPWR.step 0 s = 5 ∧ running HPWR.upto 0 s = true) ∧
    (∃ (s : State), s.telFifo.length < 900 ∧ rd HPWR.step 0 s = 2 ∧ rd HPWR.to 0 s < 8) ∧
    (∃ (s : State), s.telFifo.length < 900 ∧ rd HPWR.step 0 s = 6 ∧ rd HPWR.to 0 s < 8 ∧ rd HPWR.old 0 s ≠ rd HPWR.to 0 s) :=
  ⟨⟨0, 0, GV, by decide +kernel⟩,
    ⟨wr HPWR.gov 0 0 GV, by decide +kernel⟩,
    ⟨wr HPWR.gov 0 0 (wr HPWR.run 0 0 GV), by decide +kernel⟩,
    ⟨3, 1, wr PWR_CTRL.pfast 0 3 GV, by decide +kernel⟩,
    ⟨5, 1, wr PWR_DROOP.level 5 1 (wr PWR_CTRL.pfast 0 5 GV), by decide +kernel⟩,
    ⟨0, 0, wr PWR_STATUS.p_state 0 5 GV, by decide +kernel⟩,
    ⟨wr HPWR.demand 0 4 F0, by decide +kernel⟩,
    ⟨wr PWR_CTRL.perf_mode 0 1 F0, by decide +kernel⟩,
    ⟨wr PWR_STATUS.p_state 0 3 (wr HPWR.step 0 4 GV), by decide +kernel⟩,
    ⟨wr HPWR.step 0 5 GVV, by decide +kernel⟩,
    ⟨wr HPWR.step 0 5 GV, by decide +kernel⟩,
    ⟨wr HPWR.upto 0 5 (wr HPWR.step 0 5 GV), by decide +kernel⟩,
    ⟨wr HPWR.to 0 3 (wr HPWR.step 0 2 GV), by decide +kernel⟩,
    ⟨wr HPWR.to 0 3 (wr HPWR.step 0 6 GV), by decide +kernel⟩⟩

theorem test_droop_and_alert :
    (∃ (k : Nat) (b : Nat) (s : State), s.telFifo.length < 900 ∧ k < 64 ∧ rd PWR_DROOP.level k s = 0 ∧ rd PWR_DROOP_CFG.t1_mv 0 s ≤ b ∧ b < rd PWR_DROOP_CFG.t2_mv 0 s ∧ rd HPWR.step 0 s = 0) ∧
    (∃ (k : Nat) (b : Nat) (s : State), s.telFifo.length < 900 ∧ k < 64 ∧ rd PWR_DROOP.level k s = 0 ∧ rd PWR_DROOP_CFG.t1_mv 0 s ≤ b ∧ b < rd PWR_DROOP_CFG.t2_mv 0 s ∧ rd HPWR.step 0 s = 0) ∧
    (∃ (k : Nat) (b : Nat) (s : State), s.telFifo.length < 900 ∧ k < 64 ∧ rd PWR_DROOP.level k s = 0 ∧ rd PWR_DROOP_CFG.t2_mv 0 s ≤ b ∧ rd HPWR.step 0 s = 0 ∧ (∀ j ∈ domDets (detDom k), rd PWR_DROOP.level j s ≤ 2)) ∧
    (∃ (k : Nat) (b : Nat) (s : State), s.telFifo.length < 900 ∧ k < 64 ∧ rd PWR_DROOP.level k s = 0 ∧ rd PWR_DROOP_CFG.t2_mv 0 s ≤ b ∧ rd HPWR.step 0 s = 0 ∧ (∀ j ∈ domDets (detDom k), rd PWR_DROOP.level j s ≤ 2)) ∧
    (∃ (k : Nat) (b : Nat) (s : State), s.telFifo.length < 900 ∧ k < 64 ∧ rd PWR_DROOP.level k s = 0 ∧ rd PWR_DROOP_CFG.t1_mv 0 s ≤ b ∧ b < rd PWR_DROOP_CFG.t2_mv 0 s ∧ rd HPWR.step 0 s = 5) ∧
    (∃ (k : Nat) (b : Nat) (s : State), s.telFifo.length < 900 ∧ k < 64 ∧ rd PWR_DROOP.level k s ≠ 0 ∧ b + 5 ≤ rd PWR_DROOP_CFG.t1_mv 0 s) ∧
    (∃ (d : Nat) (s : State), s.telFifo.length < 900 ∧ d < 22 ∧ rd HPWR.step 0 s = 0) ∧
    (∃ (d : Nat) (s : State), s.telFifo.length < 900 ∧ d < 22 ∧ rd HPWR.step 0 s = 0) ∧
    (∃ (d : Nat) (s : State), s.telFifo.length < 900 ∧ d < 17 ∧ rd HDRP.exc d s = 0) ∧
    (∃ (s : State), s.telFifo.length < 900 ∧ 0 < rd PWR_DROOP_CFG.relief 0 s) ∧
    (∃ (s : State), s.telFifo.length < 900 ∧ 0 < rd PWR_DROOP_CFG.relief 0 s) ∧
    (∃ (s : State), s.telFifo.length < 900 ∧ rd HPWR.asserted 0 s = 0 ∧ rd PWR_STATUS.thermtrip 0 s = 0) ∧
    (∃ (s : State), s.telFifo.length < 900 ∧ rd HPWR.asserted 0 s = 0 ∧ rd PWR_STATUS.thermtrip 0 s = 0) ∧
    (∃ (s : State), s.telFifo.length < 900 ∧ rd HPWR.asserted 0 s = 0 ∧ rd PWR_STATUS.thermtrip 0 s = 0) ∧
    (∃ (s : State), s.telFifo.length < 900 ∧ rd HPWR.asserted 0 s ≠ 0) ∧
    (∃ (s : State), s.telFifo.length < 900 ∧ running HPWR.alerth 0 s = true) :=
  ⟨⟨63, 25, GV, by decide +kernel⟩,
    ⟨0, 44, GV, by decide +kernel⟩,
    ⟨63, 45, GV, by decide +kernel⟩,
    ⟨51, 45, GV, by decide +kernel⟩,
    ⟨63, 25, wr HPWR.step 0 5 GV, by decide +kernel⟩,
    ⟨63, 20, go (.droopCrossing 63 30) GV, by decide +kernel⟩,
    ⟨21, run 5000 (go (.droopCrossing 63 30) GV), by decide +kernel⟩,
    ⟨0, GV, by decide +kernel⟩,
    ⟨16, run 50000 (go (.droopCrossing 48 50) GV), by decide +kernel⟩,
    ⟨run 500000 (go (.droopCrossing 48 50) GV), by decide +kernel⟩,
    ⟨wr HPWR.droopst 0 3 GV, by decide +kernel⟩,
    ⟨GV, by decide +kernel⟩,
    ⟨wr HPWR.step 0 6 GV, by decide +kernel⟩,
    ⟨wr HPWR.run 0 0 GV, by decide +kernel⟩,
    ⟨go .vrAlertAssert GV, by decide +kernel⟩,
    ⟨go .vrAlertDeassert (go .vrAlertAssert GV), by decide +kernel⟩⟩

theorem test_sensors_and_regulators :
    (∃ (rs : List Int) (s : State), s.telFifo.length < 900 ∧ rs.length = 32 ∧ (∀ y ∈ rs, -1024 ≤ y ∧ y < 1024)) ∧
    (∃ (rs : List Int) (s : State), s.telFifo.length < 900 ∧ rs.length = 32 ∧ (∀ y ∈ rs, -1024 ≤ y ∧ y < 1024)) ∧
    (∃ (k : Nat) (x : Int) (rs : List Int) (s : State), s.telFifo.length < 900 ∧ rs.length = 32 ∧ k < 32 ∧ rs.getD k 0 = x ∧ (x < -280 ∨ 640 < x) ∧ -1024 ≤ x ∧ x < 1024 ∧ rd HTHM.seen k s ≠ 0 ∧ rd PWR_TEMP.valid k s ≠ 0) ∧
    (∃ (x : Int) (s : State), s.telFifo.length < 900 ∧ 24 ≤ (thermValid s).length ∧ rd PWR_THERM_STATUS.valid_count 0 s ≠ 0 ∧ rdI PWR_THERM_STATUS.tmax 0 s = x ∧ (4 * rd PWR_THERM.throttle_temp 0 s : Int) ≤ x) ∧
    (∃ (s : State), s.telFifo.length < 900 ∧ (thermValid s).length < 24) ∧
    (∃ (k : Nat) (x : Int) (s : State), s.telFifo.length < 900 ∧ k < 32 ∧ rd PWR_TEMP.valid k s ≠ 0 ∧ 540 ≤ x ∧ x < 1024 ∧ rd PWR_STATUS.thermtrip 0 s = 0) ∧
    (∃ (k : Nat) (x : Int) (s : State), s.telFifo.length < 900 ∧ k < 32 ∧ rd PWR_TEMP.valid k s ≠ 0 ∧ 540 ≤ x ∧ x < 1024 ∧ rd PWR_STATUS.thermtrip 0 s = 0) ∧
    (∃ (k : Nat) (v : Nat) (vs : List Nat) (s : State), s.telFifo.length < 900 ∧ vs.length ≤ 64 ∧ k < vs.length ∧ vs.getD k 0 = v ∧ v < 2048) ∧
    (∃ (v : Nat) (s : State), s.telFifo.length < 900 ∧ below50 v s = true ∧ rd HEVT.last (0x030B * 65536) s = 0 ∧ running HVS.low 0 s = true) ∧
    (∃ (k : Nat) (w : Nat) (s : State), s.telFifo.length < 900 ∧ k < 16 ∧ vrUsed s = [k] ∧ rd HVR.known k s ≠ 0 ∧ rd HVR.out k s = 0 ∧ vrFaultBits w = false) ∧
    (∃ (k : Nat) (w : Nat) (s : State), s.telFifo.length < 900 ∧ k < 16 ∧ vrUsed s = [k] ∧ rd HVR.known k s ≠ 0 ∧ rd HVR.out k s = 0 ∧ vrFaultBits w = false) ∧
    (∃ (k : Nat) (s : State), s.telFifo.length < 900 ∧ k < 16 ∧ vrUsed s = [k] ∧ rd HVR.known k s ≠ 0 ∧ rd HVR.out k s = 0 ∧ rd PWR_VR_TEL.fault k s = 0) :=
  ⟨⟨List.replicate 32 100, GV, by decide +kernel⟩,
    ⟨(List.range 32).map (fun n => if n = 31 then -1024 else if n = 30 then 1023 else 5), wr PWR_TEMP.valid 31 1 GV, by decide +kernel⟩,
    ⟨31, 641, (List.replicate 31 100) ++ [641], wr HTHM.seen 31 1 (wr PWR_TEMP.valid 31 1 GV), by decide +kernel⟩,
    ⟨472, HOT, by decide +kernel⟩,
    ⟨GV, by decide +kernel⟩,
    ⟨31, 540, wr PWR_TEMP.valid 31 1 GV, by decide +kernel⟩,
    ⟨31, 540, wr INTC_CORE.in_service 2 1 (wr PWR_TEMP.valid 31 1 GV), by decide +kernel⟩,
    ⟨63, 2047, List.replicate 64 2047, wr PWR_VSENSE.min 63 600 GV, by decide +kernel⟩,
    ⟨549, run 20000 (go (.voltageSensorRead [549]) GV), by decide +kernel⟩,
    ⟨15, 0, GV2, by decide +kernel⟩,
    ⟨15, 0, GV2, by decide +kernel⟩,
    ⟨15, GV2, by decide +kernel⟩⟩

theorem test_trim_and_rest :
    (∃ (s : State), s.telFifo.length < 900 ∧ rd PWR_CTRL.trim_enable 0 s = 0) ∧
    (∃ (m : Nat) (s : State), s.telFifo.length < 900 ∧ rd PWR_CTRL.trim_enable 0 s ≠ 0 ∧ m < rd PWR_VID1.margin_lo 0 s ∧ m < 256 ∧ -16 ≤ rdI PWR_TRIM_STATUS.trim 0 s ∧ rdI PWR_TRIM_STATUS.trim 0 s < 16 ∧ trimFree s = true) ∧
    (∃ (s : State), s.telFifo.length < 900 ∧ rd PWR_TRIM_STATUS.validating 0 s ≠ 0 ∧ -16 ≤ rdI PWR_TRIM_STATUS.trim 0 s ∧ rdI PWR_TRIM_STATUS.trim 0 s < 16 ∧ trimFree s = true) ∧
    (∃ (sl : Nat) (s : State), s.telFifo.length < 900 ∧ rd PWR_CTRL.auto_autumn 0 s ≠ 0 ∧ rd PWR_SLICE.max_depth sl s ≠ 0 ∧ rd SLC_STATUS.serving sl s ≠ 0 ∧ rd PWR_SLICE.state sl s = 0 ∧ sliceBusy sl s = false) ∧
    (∃ (sl : Nat) (s : State), s.telFifo.length < 900 ∧ rd PWR_SLICE.state sl s = 1) ∧
    (∃ (sl : Nat) (s : State), s.telFifo.length < 900 ∧ winterOk sl s = true ∧ rd SLC_STATUS.serving sl s ≠ 0 ∧ rd PWR_SLICE.state sl s < 2 ∧ sliceBusy sl s = false) ∧
    (∃ (sl : Nat) (s : State), s.telFifo.length < 900 ∧ sl < 16 ∧ rd SLC_STATUS.serving sl s ≠ 0 ∧ winterWake sl s = true ∧ rd PWR_SLICE.state sl s = 2) ∧
    (∃ (sl : Nat) (s : State), s.telFifo.length < 900 ∧ rd PWR_SLICE.state sl s = 3 ∧ rd SLC_STATUS.serving sl s ≠ 0 ∧ getL LSLC.img sl s = [] ∧ getL LADM.held 0 s = []) ∧
    (∃ (sl : Nat) (s : State), s.telFifo.length < 900 ∧ running HSLC.thaw sl s = true ∧ rd PWR_SLICE.state sl s = 3 ∧ rd SLC_STATUS.serving sl s ≠ 0 ∧ sl < 16) ∧
    (∃ (s : State), s.telFifo.length < 900 ∧ rd PWR_CX.state 0 s = 0 ∧ rd HRED.hold 0 s = 0 ∧ rd HRED.restart 0 s = 0 ∧ (∀ c ∈ List.range 4, rd INTC_CORE.presented c s = 0) ∧ rd PWR_CTRL.cx_autumn_en 0 s ≠ 0) ∧
    (∃ (s : State), s.telFifo.length < 900 ∧ rd PWR_CX.state 0 s = 0 ∧ rd RED_CX_STATUS.mode 0 s = 0 ∧ (∀ c ∈ List.range 4, rd INTC_CORE.presented c s = 0) ∧ rd PWR_CTRL.cx_winter_en 0 s ≠ 0 ∧ busyStreams s = [] ∧ rd RED_UPDATE_STATUS.phase 0 s = 0) ∧
    (∃ (s : State), s.telFifo.length < 900 ∧ rd PWR_CX.state 0 s = 1 ∧ rd INTC_STATUS.wake_issued 0 s = 0 ∧ rd RED_CX_STATUS.mode 0 s = 0 ∧ (∀ c ∈ List.range 4, rd INTC_CORE.presented c s = 0) ∧ rd PWR_CTRL.cx_winter_en 0 s ≠ 0 ∧ busyStreams s = [] ∧ rd RED_UPDATE_STATUS.phase 0 s = 0) ∧
    (∃ (n : Nat) (s : State), s.telFifo.length < 900 ∧ rd PWR_CX.state 0 s = 0 ∧ rd HRED.hold 0 s = 0 ∧ rd HRED.restart 0 s = 0 ∧ (∀ c ∈ List.range 4, rd INTC_CORE.presented c s = 0) ∧ rd PWR_CTRL.cx_autumn_en 0 s ≠ 0 ∧ wakeSource n s = true ∧ edgeStands n s = true) ∧
    (∃ (s : State), s.telFifo.length < 900 ∧ cxAsleep s = true ∧ rd INTC_STATUS.wake_issued 0 s ≠ 0) :=
  ⟨⟨wr PWR_CTRL.trim_enable 0 0 GV, by decide +kernel⟩,
    ⟨0, wr PWR_VID1.margin_lo 0 8 GV, by decide +kernel⟩,
    ⟨wr PWR_TRIM_STATUS.validating 0 1 (setL LPWR.slow 0 [now GV, 500, 0] GV), by decide +kernel⟩,
    ⟨15, F0, by decide +kernel⟩,
    ⟨15, wr PWR_SLICE.state 15 1 F0, by decide +kernel⟩,
    ⟨15, wr PWR_CTRL.slice_winter_en 0 1 F0, by decide +kernel⟩,
    ⟨0, wr PWR_SLICE.state 0 2 F0, by decide +kernel⟩,
    ⟨0, wr HSLC.thaw 0 9 (wr PWR_SLICE.state 0 3 F0), by decide +kernel⟩,
    ⟨0, wr HSLC.thaw 0 9 (wr PWR_SLICE.state 0 3 F0), by decide +kernel⟩,
    ⟨wr RED_CX_STATUS.mode 0 0 F0, by decide +kernel⟩,
    ⟨wr PWR_CTRL.cx_winter_en 0 1 (wr RED_CX_STATUS.mode 0 0 F0), by decide +kernel⟩,
    ⟨wr HRED.cx0 0 (now F0 + 1) (wr PWR_CX.state 0 1 (wr PWR_CTRL.cx_winter_en 0 1 (wr RED_CX_STATUS.mode 0 0 F0))), by decide +kernel⟩,
    ⟨800, wr TBL_EVT.ev_flap 0 1 (wr INTC_SRC.enable 800 1 (wr INTC_SRC.wake 800 1 (wr INTC_SRC.cores 800 15 F0))), by decide +kernel⟩,
    ⟨wr PWR_CX.state 0 2 (wr INTC_STATUS.wake_issued 0 1 F0), by decide +kernel⟩⟩

theorem test_lockstep_and_diagnosis :
    (∃ (d : Nat) (b : Nat) (s : State) (f : Fld), s.telFifo.length < 900 ∧ lockBit d = some (f, b) ∧ (d < 2 ∨ 18 < d) ∧ rdBit f 0 b s = true) ∧
    (∃ (d : Nat) (b : Nat) (s : State) (f : Fld), s.telFifo.length < 900 ∧ lockBit d = some (f, b) ∧ (d < 2 ∨ 18 < d) ∧ rdBit f 0 b s = true) ∧
    (∃ (d : Nat) (b : Nat) (s : State) (f : Fld), s.telFifo.length < 900 ∧ lockBit d = some (f, b) ∧ 2 ≤ d ∧ d ≤ 18 ∧ rdBit f 0 b s = true ∧ rd SLC_STATUS.serving (d - 2) s ≠ 0) ∧
    (∃ (d : Nat) (b : Nat) (s : State) (f : Fld), s.telFifo.length < 900 ∧ lockBit d = some (f, b) ∧ 2 ≤ d ∧ d ≤ 18) ∧
    (∃ (d : Nat) (k : Nat) (b : Nat) (s : State), s.telFifo.length < 900 ∧ rd RED_CX_STATUS.mode 0 s = 0 ∧ d < 4 ∧ k < 4 ∧ b < 2 ^ 32) ∧
    (∃ (s : State), s.telFifo.length < 900 ∧ rd RED_CX_STATUS.mode 0 s = 0) ∧
    (∃ (s : State), s.telFifo.length < 900 ∧ rd RED_CX_STATUS.mode 0 s = 1 ∧ rd HRED.gap 0 s ≠ 0 ∧ rd HCX.ecc 0 s = 0 ∧ rd HCX.ecc 1 s = 0 ∧ rd HRED.second 0 s = 0) ∧
    (∃ (s : State), s.telFifo.length < 900 ∧ rd RED_CX_STATUS.mode 0 s = 1 ∧ rd HRED.gap 0 s ≠ 0 ∧ rd HCX.ecc 0 s = 0 ∧ getL LCX.held 0 s = []) ∧
    (∃ (s : State), s.telFifo.length < 900 ∧ rd RED_CX_STATUS.mode 0 s = 1 ∧ rd HRED.gap 0 s ≠ 0 ∧ rd HCX.ecc 0 s = 0 ∧ getL LCX.held 0 s = []) ∧
    (∃ (s : State), s.telFifo.length < 900 ∧ rd RED_CX_STATUS.mode 0 s = 1 ∧ rd HRED.gap 0 s ≠ 0 ∧ rd HCX.ecc 1 s = 0 ∧ getL LCX.held 0 s = []) ∧
    (∃ (s : State), s.telFifo.length < 900 ∧ rd RED_CX_STATUS.mode 0 s = 1 ∧ rd HRED.gap 0 s ≠ 0) ∧
    (∃ (s : State), s.telFifo.length < 900 ∧ rd RED_CX_STATUS.mode 0 s = 2 ∧ getL LCX.held 0 s = []) ∧
    (∃ (a : Access) (s : State), s.telFifo.length < 900 ∧ a.path = .core ∧ rd HRED.gap 0 s ≠ 0 ∧ rd RED_CX_STATUS.mode 0 s ≠ 2) ∧
    (∃ (k : Nat) (b : Nat) (s : State), s.telFifo.length < 900 ∧ rd RED_CX_STATUS.mode 0 s = 2 ∧ getL LCX.held 0 s = [0, k, regAddr rGLB_SCRATCH 0, 0xFFFFFFFF, b] ∧ b < 2 ^ 32 ∧ rd HRED.hold 0 s = 0 ∧ rd HRED.restart 0 s = 0) ∧
    (∃ (a : Access) (s : State), s.telFifo.length < 900 ∧ Accepted a rRED_CX_CMD 0 (fieldWord RED_CX_CMD.rejoin 1) (fieldWord RED_CX_CMD.rejoin 1) s) ∧
    (∃ (s : State), s.telFifo.length < 900 ∧ rd RED_CX_STATUS.mode 0 s = 7) :=
  ⟨⟨1, 0, setFBit CLK_STATUS.ref_lock 0 0 F0, CLK_STATUS.ref_lock, by decide +kernel⟩,
    ⟨96, 1, setFBit CLK_STATUS.cx_lock 0 1 F0, CLK_STATUS.cx_lock, by decide +kernel⟩,
    ⟨17, 15, setFBit CLK_STATUS.slice_lock 0 15 F0, CLK_STATUS.slice_lock, by decide +kernel⟩,
    ⟨17, 15, clrFBit CLK_STATUS.slice_lock 0 15 F0, CLK_STATUS.slice_lock, by decide +kernel⟩,
    ⟨3, 2, 4294967295, F0, by decide +kernel⟩,
    ⟨wr HCX.ecc 1 1 F0, by decide +kernel⟩,
    ⟨MM, by decide +kernel⟩,
    ⟨MM, by decide +kernel⟩,
    ⟨wr HCX.ecc 1 1 MM, by decide +kernel⟩,
    ⟨MM, by decide +kernel⟩,
    ⟨MM, by decide +kernel⟩,
    ⟨wr RED_CX_STATUS.mode 0 2 MM, by decide +kernel⟩,
    ⟨core0, MM, by decide +kernel⟩,
    ⟨2, 77, setL LCX.held 0 [0, 2, regAddr rGLB_SCRATCH 0, 0xFFFFFFFF, 77] (wr RED_CX_STATUS.mode 0 2 MM), by decide +kernel⟩,
    ⟨core0, go (.diagnosisDone true false) MM, by unfold Accepted Direct; decide +kernel⟩,
    ⟨wr RED_CX_STATUS.mode 0 7 (go (.diagnosisDone true false) MM), by decide +kernel⟩⟩

theorem test_restarts_and_updates :
    (∃ (s : State), s.telFifo.length < 900 ∧ rd RED_CTRL.wd_enable 0 s ≠ 0 ∧ rd RED_CX_STATUS.mode 0 s = 0 ∧ getL LRED.wd 0 s = []) ∧
    (∃ (s : State), s.telFifo.length < 900 ∧ rd RED_CTRL.wd_enable 0 s ≠ 0 ∧ rd RED_CX_STATUS.mode 0 s = 0 ∧ rd HRED.wd 0 s = 0 ∧ 2 ≤ ((getL LRED.wd 0 s).filter (fun x => now s < x + 600000000000)).length) ∧
    (∃ (m : Nat) (s : State), s.telFifo.length < 900 ∧ rd HRED.restart 0 s ≠ 0 ∧ rd HRED.after 0 s = m) ∧
    (∃ (a : Access) (s : State), s.telFifo.length < 900 ∧ Accepted a rRED_CX_CMD 0 (fieldWord RED_CX_CMD.retry 1) (fieldWord RED_CX_CMD.retry 1) s) ∧
    (∃ (a : Access) (s : State), s.telFifo.length < 900 ∧ Accepted a rRED_UPDATE_CTRL 0 (fieldWord RED_UPDATE_CTRL.start 1) (fieldWord RED_UPDATE_CTRL.start 1) s) ∧
    (∃ (s : State), s.telFifo.length < 900 ∧ rd RED_UPDATE_STATUS.phase 0 s = 1 ∧ getL LCS.cmd 5 s = []) ∧
    (∃ (img : List Nat) (s : State) (img2 : List Nat), s.telFifo.length < 900 ∧ rd RED_UPDATE_STATUS.phase 0 s = 1 ∧ img ≠ img2) ∧
    (∃ (a : Access) (s : State), s.telFifo.length < 900 ∧ Accepted a rRED_UPDATE_CTRL 0 (fieldWord RED_UPDATE_CTRL.swap 1) (fieldWord RED_UPDATE_CTRL.swap 1) s ∧ csEnts 5 s = [] ∧ getL LCS.cmd 5 s = [] ∧ getL LUPD.par 0 s = [] ∧ getL LUPD.patch 0 s = [] ∧ (∀ k ∈ List.range 4, rd CFG_CS_W4.state k s ≠ 2)) ∧
    (∃ (s : State), s.telFifo.length < 900 ∧ rd RED_UPDATE_STATUS.phase 0 s = 3 ∧ getL LCX.held 0 s = []) ∧
    (∃ (s : State), s.telFifo.length < 900 ∧ rd HUPD.back 0 s = 0 ∧ rd RED_UPDATE_STATUS.phase 0 s = 4) ∧
    (∃ (s : State), s.telFifo.length < 900 ∧ rd HUPD.back 0 s ≠ 0 ∧ rd RED_CX_STATUS.mode 0 s = 4) ∧
    (∃ (a : Access) (s : State), s.telFifo.length < 900 ∧ Accepted a rRED_UPDATE_CTRL 0 (fieldWord RED_UPDATE_CTRL.abort 1) (fieldWord RED_UPDATE_CTRL.abort 1) s) ∧
    (∃ (s : State), s.telFifo.length < 900 ∧ getL LCX.held 0 s = []) ∧
    (∃ (s : State), s.telFifo.length < 900 ∧ rd RED_CX_STATUS.mode 0 s ≠ 4 ∧ getL LCX.held 0 s = []) ∧
    (∃ (c : Nat) (s : State), s.telFifo.length < 900 ∧ rd RED_CX_STATUS.mode 0 s = 4 ∧ rd RED_CX_STATUS.owner 0 s = c ∧ getL LCX.held 0 s = []) :=
  ⟨⟨F0, by decide +kernel⟩,
    ⟨setL LRED.wd 0 [5, 6] F0, by decide +kernel⟩,
    ⟨3, wr HRED.restart 0 1 (wr HRED.after 0 3 F0), by decide +kernel⟩,
    ⟨core0, go (.diagnosisDone false false) MM, by unfold Accepted Direct; decide +kernel⟩,
    ⟨core0, F0, by unfold Accepted Direct; decide +kernel⟩,
    ⟨UP 1, by decide +kernel⟩,
    ⟨[1, 2], UP 1, [1], by decide +kernel⟩,
    ⟨core0, UP 2, by unfold Accepted Direct; decide +kernel⟩,
    ⟨UP 3, by decide +kernel⟩,
    ⟨UP 4, by decide +kernel⟩,
    ⟨wr HUPD.back 0 1 (UP 0), by decide +kernel⟩,
    ⟨core0, UP 2, by unfold Accepted Direct; decide +kernel⟩,
    ⟨F0, by decide +kernel⟩,
    ⟨F0, by decide +kernel⟩,
    ⟨0, UP 1, by decide +kernel⟩⟩

theorem test_slice_takeover :
    (∃ (sl : Nat) (s : State), s.telFifo.length < 900 ∧ sl < 16 ∧ rd SLC_STATUS.serving sl s ≠ 0 ∧ rd RED_CTRL.takeover_enable 0 s ≠ 0 ∧ rd RED_SPARE_STATUS.spare_state 0 s = 0) ∧
    (∃ (sl : Nat) (s : State), s.telFifo.length < 900 ∧ sl < 16 ∧ rd SLC_STATUS.serving sl s ≠ 0 ∧ (rd RED_CTRL.takeover_enable 0 s = 0 ∨ rd RED_SPARE_STATUS.spare_state 0 s ≠ 0)) ∧
    (∃ (sl : Nat) (s : State), s.telFifo.length < 900 ∧ sl < 16 ∧ rd SLC_STATUS.serving sl s ≠ 0 ∧ sliceOwes sl s = true) ∧
    (∃ (sl : Nat) (s : State), s.telFifo.length < 900 ∧ rd SLC_STATUS.serving sl s ≠ 0 ∧ sliceOwes sl s = false) ∧
    (∃ (sl : Nat) (i : Nat) (s : State), s.telFifo.length < 900 ∧ rd RED_SPARE_STATUS.spare_state 0 s = 1 ∧ rd RED_SPARE_STATUS.serving_for 0 s = sl ∧ sl < 16 ∧ getL LSLC.img sl s = [] ∧ i < 65536) ∧
    (∃ (sl : Nat) (n : Nat) (s : State), s.telFifo.length < 900 ∧ rd RED_SPARE_STATUS.spare_state 0 s = 1 ∧ rd RED_SPARE_STATUS.serving_for 0 s = sl ∧ 1 ≤ n ∧ n ≤ 4) ∧
    (∃ (sl : Nat) (n : Nat) (s : State), s.telFifo.length < 900 ∧ rd RED_SPARE_STATUS.spare_state 0 s = 1 ∧ rd RED_SPARE_STATUS.serving_for 0 s = sl ∧ 1 ≤ n ∧ n ≤ 4) ∧
    (∃ (a : Access) (sl : Nat) (force : Bool) (s : State), s.telFifo.length < 900 ∧ Accepted a rRED_SLICE_CMD 0 0xFFFFFFFF (sliceWord sl 1 force) s ∧ sl < 16) ∧
    (∃ (a : Access) (sl : Nat) (force : Bool) (s : State), s.telFifo.length < 900 ∧ Accepted a rRED_SLICE_CMD 0 0xFFFFFFFF (sliceWord sl 2 force) s ∧ sl < 16) ∧
    (∃ (a : Access) (sl : Nat) (force : Bool) (s : State), s.telFifo.length < 900 ∧ Accepted a rRED_SLICE_CMD 0 0xFFFFFFFF (sliceWord sl 2 force) s ∧ sl < 16) ∧
    (∃ (s : State), s.telFifo.length < 900 ∧ rd HRED.hb 0 s ≠ 31) ∧
    (∃ (sl : Nat) (s : State), s.telFifo.length < 900 ∧ rd HRED.hb 0 s = sl ∧ sl < 16 ∧ rd RED_SPARE_STATUS.spare_state 0 s ≠ 2 ∧ getL LSLC.img sl s = []) :=
  ⟨⟨15, F0, by decide +kernel⟩,
    ⟨15, wr RED_SPARE_STATUS.spare_state 0 3 F0, by decide +kernel⟩,
    ⟨0, F2, by decide +kernel⟩,
    ⟨0, F0, by decide +kernel⟩,
    ⟨0, 65535, setL LRULE.rule 65535 [1, 5] TKO, by decide +kernel⟩,
    ⟨0, 1, TKO, by decide +kernel⟩,
    ⟨0, 4, TKO, by decide +kernel⟩,
    ⟨core0, 15, false, F0, by unfold Accepted Direct; decide +kernel⟩,
    ⟨core0, 0, true, TKF, by unfold Accepted Direct; decide +kernel⟩,
    ⟨core0, 0, false, incBy cnt_SLC_head_drop 0 7 (incBy cnt_SLC_head_drop 1 7 (TKF)), by unfold Accepted Direct; decide +kernel⟩,
    ⟨wr HRED.hb 0 0 (TKF), by decide +kernel⟩,
    ⟨0, wr HRED.hb 0 0 (TKF), by decide +kernel⟩⟩

theorem test_sources_and_cores :
    (∃ (n : Nat) (s : State), n < 1024 ∧ edgeStands n s = true ∧ rd INTC_GRP.running (n / 16) s = 0 ∧ rd INTC_GRP.holdoff (n / 16) s ≠ 0) ∧
    (∃ (n : Nat) (s : State), n < 1024 ∧ edgeStands n s = true ∧ rd INTC_GRP.running (n / 16) s = 0 ∧ rd INTC_GRP.holdoff (n / 16) s = 0) ∧
    (∃ (n : Nat) (s : State), n < 1024 ∧ edgeStands n s = true ∧ rd INTC_GRP.running (n / 16) s = 0 ∧ rd INTC_GRP.holdoff (n / 16) s = 0) ∧
    (∃ (n : Nat) (s : State), edgeStands n s = false) ∧
    (∃ (n : Nat) (c : Nat) (s : State), n < 1024 ∧ edgeStands n s = true ∧ rd INTC_GRP.running (n / 16) s = 0 ∧ rd INTC_GRP.holdoff (n / 16) s = 0 ∧ coresFlow s = true ∧ touched HINT.rel s = [] ∧ rd INTC_CPEND.cpend (n / 16) s = 0 ∧ c < 4 ∧ rd INTC_SRC.enable n s ≠ 0 ∧ rd INTC_SRC.cores n s = 2 ^ c ∧ rd INTC_CORE.in_service c s ≠ 0 ∧ rd INTC_CORE.threshold c s ≤ prio n s ∧ (∀ d ∈ List.range 4, rd INTC_CORE.presented d s = 0)) ∧
    (∃ (g : Nat) (s : State), running HINT.timer g s = true) ∧
    (∃ (n : Nat) (c : Nat) (s : State), rd INTC_CORE.presented c s ≠ 0 ∧ rd INTC_CORE.pres_id c s = n ∧ line n s = false) ∧
    (∃ (n : Nat) (c : Nat) (s : State), rd INTC_CORE.presented c s ≠ 0 ∧ rd INTC_CORE.pres_id c s = n ∧ line n s = true) ∧
    (∃ (n : Nat) (c : Nat) (v : Nat) (s : State) (l : List Nat), getL LINT.stack c s = l ++ [v] ∧ v % 1024 = n) ∧
    (∃ (a : Access) (n : Nat) (s : State), n < 64 ∧ Accepted a rINTC_SW_SET 0 0xFFFFFFFF (fieldWord INTC_SW_SET.index n + fieldWord INTC_SW_SET.set 1) s) ∧
    (∃ (a : Access) (g : Nat) (v : Nat) (s : State), g < 64 ∧ v < 65536 ∧ Accepted a rINTC_HPEND g 0xFFFFFFFF v s) ∧
    (∃ (a : Access) (g : Nat) (v : Nat) (s : State), g < 64 ∧ v < 65536 ∧ Accepted a rINTC_HPEND g 0xFFFFFFFF v s) :=
  ⟨⟨802, wr SCH_EVT.ev_gcl_step 0 1 (wr INTC_GRP.holdoff 50 30 F0), by decide +kernel⟩,
    ⟨802, wr SCH_EVT.ev_gcl_step 0 1 (wr INTC_SRC.enable 802 1 (wr INTC_SRC.int_n 802 1 F0)), by decide +kernel⟩,
    ⟨0, wr SLC_EVT.ev_fence 0 1 F0, by decide +kernel⟩,
    ⟨802, F0, by decide +kernel⟩,
    ⟨802, 3, IV 802, by decide +kernel⟩,
    ⟨50, go (.sourceEdge 802) (wr SCH_EVT.ev_gcl_step 0 1 (wr INTC_GRP.holdoff 50 30 F0)), by decide +kernel⟩,
    ⟨802, 3, wr SCH_EVT.ev_gcl_step 0 0 (go (.sourceEdge 802) (IV 802)), by decide +kernel⟩,
    ⟨802, 3, go (.sourceEdge 802) (IV 802), by decide +kernel⟩,
    ⟨802, 3, 1826, setL LINT.stack 3 [5, 1826] F0, [5], by decide +kernel⟩,
    ⟨core0, 63, F0, by unfold Accepted Direct; decide +kernel⟩,
    ⟨core0, 50, 65535, go (.sourceEdge 802) (IV 802), by unfold Accepted Direct; decide +kernel⟩,
    ⟨core0, 50, 4, wr SCH_EVT.ev_gcl_step 0 0 (go (.sourceEdge 802) (IV 802)), by unfold Accepted Direct; decide +kernel⟩⟩

theorem test_host_messages :
    (∃ (n : Nat) (s : State), n < 1024 ∧ edgeStands n s = true ∧ rd INTC_GRP.running (n / 16) s = 0 ∧ rd INTC_GRP.holdoff (n / 16) s = 0 ∧ rd INTC_SRC.enable n s ≠ 0 ∧ rd INTC_SRC.host n s ≠ 0 ∧ rd HIF_STATUS.pcie_present 0 s ≠ 0 ∧ rd HIF_STATUS.d_state 0 s = 0 ∧ rd HIF_STATUS.link 0 s = 1 ∧ rd HIF_STATUS.msix_en 0 s ≠ 0 ∧ rd HINT.masked (n / 16) s = 0) ∧
    (∃ (n : Nat) (s : State), n < 1024 ∧ edgeStands n s = true ∧ rd INTC_GRP.running (n / 16) s = 0 ∧ rd INTC_GRP.holdoff (n / 16) s = 0 ∧ rd INTC_SRC.enable n s ≠ 0 ∧ rd INTC_SRC.host n s ≠ 0 ∧ rd HIF_STATUS.pcie_present 0 s ≠ 0 ∧ rd HIF_STATUS.d_state 0 s = 0 ∧ rd HIF_STATUS.msix_en 0 s ≠ 0 ∧ rd HINT.masked (n / 16) s ≠ 0) ∧
    (∃ (n : Nat) (s : State), n < 1024 ∧ edgeStands n s = true ∧ rd INTC_GRP.running (n / 16) s = 0 ∧ rd INTC_GRP.holdoff (n / 16) s = 0 ∧ rd INTC_SRC.enable n s ≠ 0 ∧ rd INTC_SRC.host n s ≠ 0 ∧ rd HIF_STATUS.pcie_present 0 s ≠ 0 ∧ rd HIF_STATUS.d_state 0 s = 0 ∧ 2 ≤ rd HIF_STATUS.link 0 s ∧ rd HIF_STATUS.link 0 s ≤ 5 ∧ rd HIF_STATUS.msix_en 0 s ≠ 0 ∧ rd HINT.masked (n / 16) s = 0 ∧ rd INTC_GRP.msg_held (n / 16) s = 0) ∧
    (∃ (v : Nat) (w : Nat) (s : State), pcieOn s = true ∧ linkSupported v w = true ∧ rd HIF_STATUS.d_state 0 s = 0 ∧ touched INTC_GRP.msg_held s = []) ∧
    (∃ (g : Nat) (v : Nat) (w : Nat) (s : State), pcieOn s = true ∧ linkSupported v w = true ∧ rd HIF_STATUS.d_state 0 s = 0 ∧ rd HIF_STATUS.msix_en 0 s ≠ 0 ∧ touched INTC_GRP.msg_held s = [g] ∧ rd INTC_GRP.msg_held g s ≠ 0 ∧ rd HINT.masked g s = 0) ∧
    (∃ (g : Nat) (s : State), g < 64 ∧ rd HINT.pba g s ≠ 0 ∧ rd HIF_STATUS.link 0 s = 1 ∧ rd HIF_STATUS.d_state 0 s = 0 ∧ rd HIF_STATUS.msix_en 0 s ≠ 0) ∧
    (∃ (g : Nat) (s : State), g < 64 ∧ rd HINT.pba g s = 0) :=
  ⟨⟨802, wr HINT.addr_lo 50 64 (wr HINT.data 50 9 (HS 802)), by decide +kernel⟩,
    ⟨802, wr HINT.masked 50 1 (HS 802), by decide +kernel⟩,
    ⟨802, wr HIF_STATUS.link 0 5 (HS 802), by decide +kernel⟩,
    ⟨5, 4, wr HIF_STATUS.pcie_present 0 1 F0, by decide +kernel⟩,
    ⟨50, 5, 4, go (.sourceEdge 802) (wr HIF_STATUS.link 0 5 (HS 802)), by decide +kernel⟩,
    ⟨50, go (.sourceEdge 802) (wr HINT.masked 50 1 (HS 802)), by decide +kernel⟩,
    ⟨63, F0, by decide +kernel⟩⟩

theorem test_pool_buffers :
    (∃ (a : Access) (r : Nat) (p : Nat) (i : Nat) (s : State), s.telFifo.length < 1000 ∧ Direct a s ∧ accRole a s ∈ [none, some 1, some 2] ∧ requester a = r ∧ p < 4 ∧ r < 32 ∧ poolOut r p s < poolQuota r p s ∧ rd POOL_STATUS.free p s ≠ 0 ∧ (poolUnused r p s ≠ 0 ∨ poolUnusedSum (poolRequesters.filter (fun x => x ≠ r)) p s < rd POOL_STATUS.free p s) ∧ poolHead p s = some i) ∧
    (∃ (a : Access) (r : Nat) (p : Nat) (i : Nat) (s : State), s.telFifo.length < 1000 ∧ Direct a s ∧ accRole a s ∈ [none, some 1, some 2] ∧ requester a = r ∧ p < 4 ∧ r < 32 ∧ poolOut r p s < poolQuota r p s ∧ rd POOL_STATUS.free p s ≠ 0 ∧ (poolUnused r p s ≠ 0 ∨ poolUnusedSum (poolRequesters.filter (fun x => x ≠ r)) p s < rd POOL_STATUS.free p s) ∧ poolHead p s = some i) ∧
    (∃ (a : Access) (r : Nat) (p : Nat) (i : Nat) (k : Nat) (s : State), s.telFifo.length < 1000 ∧ Direct a s ∧ accRole a s ∈ [none, some 1, some 2] ∧ requester a = r ∧ poolFor (k + 1) = p ∧ r < 32 ∧ poolOut r p s < poolQuota r p s ∧ rd POOL_STATUS.free p s ≠ 0 ∧ (poolUnused r p s ≠ 0 ∨ poolUnusedSum (poolRequesters.filter (fun x => x ≠ r)) p s < rd POOL_STATUS.free p s) ∧ poolHead p s = some i) ∧
    (∃ (a : Access) (r : Nat) (p : Nat) (i : Nat) (k : Nat) (s : State), s.telFifo.length < 1000 ∧ Direct a s ∧ accRole a s ∈ [none, some 1, some 2] ∧ requester a = r ∧ poolFor (k + 1) = p ∧ r < 32 ∧ poolOut r p s < poolQuota r p s ∧ rd POOL_STATUS.free p s ≠ 0 ∧ (poolUnused r p s ≠ 0 ∨ poolUnusedSum (poolRequesters.filter (fun x => x ≠ r)) p s < rd POOL_STATUS.free p s) ∧ poolHead p s = some i) ∧
    (∃ (a : Access) (r : Nat) (p : Nat) (s : State), s.telFifo.length < 1000 ∧ Direct a s ∧ accRole a s ∈ [none, some 1, some 2] ∧ requester a = r ∧ poolQuota r p s ≤ poolOut r p s) ∧
    (∃ (a : Access) (q : Nat) (s : State), s.telFifo.length < 1000 ∧ Direct a s ∧ accRole a s = some q ∧ q ≠ 1 ∧ q ≠ 2) ∧
    (∃ (a : Access) (r : Nat) (p : Nat) (i : Nat) (h : Nat) (s : State), s.telFifo.length < 1000 ∧ Accepted a rPOOL_FREE 0 0xFFFFFFFF h s ∧ requester a = r ∧ r < 32 ∧ h < 2 ^ 27 ∧ poolCheck r h s = 0 ∧ handlePool h = p ∧ handleIndex h = i) ∧
    (∃ (a : Access) (r : Nat) (h : Nat) (e : Nat) (s : State), s.telFifo.length < 1000 ∧ Accepted a rPOOL_FREE 0 0xFFFFFFFF h s ∧ requester a = r ∧ r < 32 ∧ h < 2 ^ 27 ∧ poolCheck r h s = e ∧ e ≠ 0 ∧ rd HEVT.last (0x0701 * 65536) s = 0 ∧ getL LEVT.first (0x0701 * 65536) s = []) ∧
    (∃ (a : Access) (r : Nat) (p : Nat) (i : Nat) (h : Nat) (q : Nat) (s : State), s.telFifo.length < 1000 ∧ Accepted a rPOOL_GIVE 0 0xFFFFFFFF (fieldWord POOL_GIVE.handle h + fieldWord POOL_GIVE.target q) s ∧ requester a = r ∧ r < 32 ∧ q < 32 ∧ h < 2 ^ 27 ∧ poolCheck r h s = 0 ∧ poolReserved q = false ∧ handlePool h = p ∧ handleIndex h = i ∧ poolOut q p s < poolQuota q p s ∧ q ≠ r) ∧
    (∃ (a : Access) (r : Nat) (p : Nat) (q : Nat) (k : Nat) (s : State), s.telFifo.length < 1000 ∧ Accepted a rPOOL_RECLAIM 0 0xFFFFFFFF (fieldWord POOL_RECLAIM.requester r + fieldWord POOL_RECLAIM.pools q) s ∧ r < 32 ∧ q < 16 ∧ k / 32768 = p ∧ p < 4 ∧ q.testBit p = true ∧ rd POOLM.allocated k s ≠ 0 ∧ rd POOLM.owner k s = r ∧ rd POOLM.retired k s = 0) ∧
    (∃ (a : Access) (r : Nat) (q : Nat) (k : Nat) (s : State), s.telFifo.length < 1000 ∧ Accepted a rPOOL_RECLAIM 0 0xFFFFFFFF (fieldWord POOL_RECLAIM.requester r + fieldWord POOL_RECLAIM.pools q) s ∧ r < 32 ∧ q < 16 ∧ rd POOLM.owner k s ≠ r) ∧
    (∃ (r : Nat) (h : Nat) (q : Nat) (e : Nat) (s : State), s.telFifo.length < 1000 ∧ poolUseCode r h q e s = 0) ∧
    (∃ (r : Nat) (h : Nat) (q : Nat) (k : Nat) (e : Nat) (s : State), s.telFifo.length < 1000 ∧ poolUseCode r h q e s = k ∧ k ≠ 0 ∧ r < 32 ∧ h < 2 ^ 32) ∧
    (∃ (p : Nat) (i : Nat) (s : State), s.telFifo.length < 1000 ∧ p < 4 ∧ i < poolCount p ∧ rd POOLM.retired (poolKey p i) s = 0) ∧
    (∃ (p : Nat) (i : Nat) (s : State), s.telFifo.length < 1000 ∧ p < 4 ∧ i < poolCount p ∧ rd POOLM.retired (poolKey p i) s = 0) ∧
    (∃ (s : State), s.telFifo.length < 1000) :=
  ⟨⟨core0, 0, 3, 0, F0, by unfold Direct; decide +kernel⟩,
    ⟨core0, 0, 0, 0, F0, by unfold Direct; decide +kernel⟩,
    ⟨core0, 0, 0, 0, 0, F0, by unfold Direct; decide +kernel⟩,
    ⟨core0, 0, 3, 0, 127, F0, by unfold Direct; decide +kernel⟩,
    ⟨core0, 0, 0, wr POOL_REQ_QR.quota 0 0 F0, by unfold Direct; decide +kernel⟩,
    ⟨⟨.mgmt0, 0⟩, 0, wr ACC_SESSION.role 0 0 F0, by unfold Direct; decide +kernel⟩,
    ⟨core0, 0, 3, 0, poolHandle 3 0 1, AL, by unfold Accepted Direct; decide +kernel⟩,
    ⟨core0, 0, poolHandle 3 0 2, 6, AL, by unfold Accepted Direct; decide +kernel⟩,
    ⟨core0, 0, 3, 0, poolHandle 3 0 1, 1, AL, by unfold Accepted Direct; decide +kernel⟩,
    ⟨core0, 0, 3, 8, 98304, AL, by unfold Accepted Direct; decide +kernel⟩,
    ⟨core0, 1, 15, 98304, AL, by unfold Accepted Direct; decide +kernel⟩,
    ⟨0, poolHandle 3 0 1, 16000, 384, AL, by decide +kernel⟩,
    ⟨0, poolHandle 3 0 1, 16000, 8, 385, AL, by decide +kernel⟩,
    ⟨3, 255, AL, by decide +kernel⟩,
    ⟨0, 32767, F0, by decide +kernel⟩,
    ⟨F0, by decide +kernel⟩⟩

theorem test_resets_and_power_up :
    (∃ (s : State), rd HBOOT.alarm 0 s = 0) ∧
    (∃ (s : State), rd HBOOT.alarm 0 s = 0) ∧
    (∃ (s : State), rd HBOOT.alarm 0 s ≠ 0 ∧ rd GLB_STATUS.reset_cause 0 s = 2) ∧
    (∃ (x : PowerUp) (s : State), rd HBOOT.phase 0 s = 0 ∧ x.railsOk = false) ∧
    (∃ (x : PowerUp) (b : Nat) (s : State), rd HBOOT.phase 0 s = 0 ∧ x.railsOk = true ∧ b ∈ x.answers ∧ 0x40 ≤ b ∧ b ≤ 0x47 ∧ x.arrived = true) ∧
    (∃ (x : PowerUp) (b : Nat) (s : State), rd HBOOT.phase 0 s = 0 ∧ x.railsOk = true ∧ b ∈ x.answers ∧ 0x40 ≤ b ∧ b ≤ 0x47 ∧ x.arrived = true) ∧
    (∃ (x : PowerUp) (s : State), rd HBOOT.phase 0 s = 0 ∧ x.railsOk = true ∧ (x.answers.all (fun e => e < 0x40 || 0x47 < e) = true ∨ x.arrived = false)) ∧
    (∃ (x : PowerUp) (s : State), rd HBOOT.phase 0 s = 0 ∧ x.railsOk = true ∧ (x.answers.all (fun e => e < 0x40 || 0x47 < e) = true ∨ x.arrived = false)) ∧
    (∃ (s : State), rd HBOOT.phase 0 s ≠ 0) ∧
    (∃ (b : Nat) (l : List Nat) (s : State), rd HBOOT.phase 0 s = 1 ∧ b ∈ l ∧ 0x40 ≤ b ∧ b ≤ 0x47 ∧ rd ACC_STATUS.test_mode 0 s = 0) ∧
    (∃ (l : List Nat) (d : Bool) (s : State), rd HBOOT.phase 0 s = 1 ∧ (l.all (fun e => e < 0x40 || 0x47 < e) = true ∨ d = false) ∧ rd HBOOT.volts 0 s < 65535) ∧
    (∃ (l : List Nat) (d : Bool) (s : State), rd HBOOT.phase 0 s = 1 ∧ (l.all (fun e => e < 0x40 || 0x47 < e) = true ∨ d = false) ∧ rd HBOOT.volts 0 s < 65535) :=
  ⟨⟨F2, by decide +kernel⟩,
    ⟨wr PWR_STATUS.thermtrip 0 1 F2, by decide +kernel⟩,
    ⟨nx (execBrownOut 3 F2), by decide +kernel⟩,
    ⟨⟨false, false, true, 0, [], false, [], []⟩, State.reset, by decide +kernel⟩,
    ⟨⟨true, false, true, 5, [0x47], true, [], []⟩, 0x47, State.reset, by decide +kernel⟩,
    ⟨⟨true, true, false, 5, [0x40, 0x41], true, [], []⟩, 0x40, State.reset, by decide +kernel⟩,
    ⟨⟨true, false, true, 5, [0x48], true, [], []⟩, State.reset, by decide +kernel⟩,
    ⟨⟨true, false, true, 5, [0x41], false, [], []⟩, State.reset, by decide +kernel⟩,
    ⟨wr HBOOT.phase 0 4 F0, by decide +kernel⟩,
    ⟨0x43, [0x48, 0x43], wr HBOOT.volts 0 150 (wr HBOOT.phase 0 1 State.reset), by decide +kernel⟩,
    ⟨[0x43], false, wr HBOOT.volts 0 100 (wr HBOOT.phase 0 1 State.reset), by decide +kernel⟩,
    ⟨[], true, wr HBOOT.volts 0 99 (wr HBOOT.phase 0 1 State.reset), by decide +kernel⟩⟩

theorem test_boot_and_flash_reading :
    (∃ (sl : Nat) (s : State), s.telFifo.length < 900 ∧ rd HBOOT.phase 0 s = 2 ∧ rd HBOOT.slot 0 s = sl ∧ rdBit HBOOT.tried 0 (1 - sl) s = false) ∧
    (∃ (sl : Nat) (s : State), s.telFifo.length < 900 ∧ rd HBOOT.phase 0 s = 2 ∧ rd HBOOT.slot 0 s = sl ∧ rdBit HBOOT.tried 0 (1 - sl) s = false) ∧
    (∃ (sl : Nat) (s : State), s.telFifo.length < 900 ∧ rd HBOOT.phase 0 s = 2 ∧ rd HBOOT.slot 0 s = sl ∧ rdBit HBOOT.tried 0 (1 - sl) s = true) ∧
    (∃ (sl : Nat) (s : State), s.telFifo.length < 900 ∧ rd HBOOT.phase 0 s = 2 ∧ rd HBOOT.slot 0 s = sl ∧ rdBit HBOOT.tried 0 (1 - sl) s = false) ∧
    (∃ (s : State), s.telFifo.length < 900 ∧ rd HBOOT.phase 0 s = 3 ∧ rd HREQ.count 0 s = 0 ∧ touched HREQ.state s = []) ∧
    (∃ (k : Nat) (s : State), s.telFifo.length < 900 ∧ rd HREQ.state k s = 2 ∧ max (now s) (rd HREQ.due k s - 1) < reqEnd s) ∧
    (∃ (k : Nat) (s : State), s.telFifo.length < 900 ∧ rd HREQ.state k s = 2 ∧ reqEnd s ≤ max (now s) (rd HREQ.due k s - 1)) ∧
    (∃ (n : Nat) (s : State), s.telFifo.length < 900 ∧ flashReads s = true ∧ n < 2 ^ 32 ∧ (isReissue n s = false ∨ rd HFL.stalls 0 s < 3)) ∧
    (∃ (n : Nat) (s : State), s.telFifo.length < 900 ∧ flashReads s = true ∧ n < 2 ^ 32 ∧ (isReissue n s = false ∨ rd HFL.stalls 0 s < 3)) ∧
    (∃ (sl : Nat) (n : Nat) (s : State), s.telFifo.length < 900 ∧ flashReads s = true ∧ rd HBOOT.phase 0 s = 2 ∧ n < 2 ^ 32 ∧ isReissue n s = true ∧ 3 ≤ rd HFL.stalls 0 s ∧ rd HBOOT.slot 0 s = sl ∧ rdBit HBOOT.tried 0 (1 - sl) s = false) ∧
    (∃ (n : Nat) (s : State), s.telFifo.length < 900 ∧ rd HBOOT.phase 0 s ≠ 2 ∧ flashReads s = true ∧ rd RED_UPDATE_STATUS.phase 0 s = 1 ∧ isReissue n s = true ∧ 3 ≤ rd HFL.stalls 0 s) ∧
    (∃ (n : Nat) (s : State), s.telFifo.length < 900 ∧ rd HBOOT.phase 0 s ≠ 2 ∧ rd RED_UPDATE_STATUS.phase 0 s ≠ 1 ∧ flashReads s = true ∧ isReissue n s = true ∧ 3 ≤ rd HFL.stalls 0 s) ∧
    (∃ (s : State), s.telFifo.length < 900 ∧ rd HFL.wait 0 s ≠ 0) ∧
    (∃ (s : State), s.telFifo.length < 900) ∧
    (∃ (a : Access) (s : State), s.telFifo.length < 900 ∧ Accepted a rCFG_BOOT_STATUS 0 (fieldWord CFG_BOOT_STATUS.reboot 1) (fieldWord CFG_BOOT_STATUS.reboot 1) s ∧ noImage s = true) ∧
    (∃ (a : Access) (s : State), s.telFifo.length < 900 ∧ Accepted a rCFG_BOOT_STATUS 0 (fieldWord CFG_BOOT_STATUS.reboot 1) (fieldWord CFG_BOOT_STATUS.reboot 1) s ∧ noImage s = false) ∧
    (∃ (a : Access) (sl : Nat) (s : State), s.telFifo.length < 900 ∧ Accepted a rCFG_BOOT_SEL 0 0xFFFFFFFF (fieldWord CFG_BOOT_SEL.slot sl + fieldWord CFG_BOOT_SEL.write 1) s ∧ sl < 2) ∧
    (∃ (s : State), s.telFifo.length < 900 ∧ rd HSEL.busy 0 s ≠ 0) ∧
    (∃ (s : State), s.telFifo.length < 900 ∧ rd HSEL.busy 0 s ≠ 0) :=
  ⟨⟨0, wr HBOOT.phase 0 2 State.reset, by decide +kernel⟩,
    ⟨1, wr HBOOT.slot 0 1 (wr HBOOT.phase 0 2 State.reset), by decide +kernel⟩,
    ⟨1, wr HBOOT.tried 0 1 (wr CFG_BOOT_LOG.reason 0 5 (wr HBOOT.slot 0 1 (wr HBOOT.phase 0 2 State.reset))), by decide +kernel⟩,
    ⟨0, wr HBOOT.phase 0 2 State.reset, by decide +kernel⟩,
    ⟨wr HBOOT.phase 0 3 State.reset, by decide +kernel⟩,
    ⟨0, setL LREQ.words 0 [7, 0, 0, 0, 0, 0, 0, 0] (wr HREQ.state 0 2 F0), by decide +kernel⟩,
    ⟨0, wr HREQ.code 0 12 (wr HREQ.due 0 60000000001 (setL LREQ.words 0 [7, 0, 0, 0, 0, 0, 0, 0] (wr HREQ.state 0 2 F0))), by decide +kernel⟩,
    ⟨4100, wr HBOOT.phase 0 2 State.reset, by decide +kernel⟩,
    ⟨8200, wr HFL.again 0 (now F0 + 1) (wr HFL.burst 0 4096 (wr HFL.stalls 0 3 (wr HFL.op 0 1 F0))), by decide +kernel⟩,
    ⟨1, 4100, wr HFL.again 0 1 (wr HFL.burst 0 4096 (wr HFL.stalls 0 3 (wr HBOOT.slot 0 1 (wr HBOOT.phase 0 2 State.reset)))), by decide +kernel⟩,
    ⟨4100, wr HFL.again 0 (now (UP 1) + 1) (wr HFL.burst 0 4096 (wr HFL.stalls 0 3 (UP 1))), by decide +kernel⟩,
    ⟨4100, wr HFL.again 0 (now F0 + 1) (wr HFL.burst 0 4096 (wr HFL.stalls 0 3 (wr HFL.op 0 1 F0))), by decide +kernel⟩,
    ⟨go (.flashBurstStall 4100) (wr HBOOT.phase 0 2 State.reset), by decide +kernel⟩,
    ⟨F0, by decide +kernel⟩,
    ⟨pcie, wr HBOOT.phase 0 5 (wr CFG_BOOT_STATUS.state 0 2 (wr CFG_BOOT_LOG.reason 1 5 T1)), by unfold Accepted Direct; decide +kernel⟩,
    ⟨core0, F0, by unfold Accepted Direct; decide +kernel⟩,
    ⟨core0, 1, F0, by unfold Accepted Direct; decide +kernel⟩,
    ⟨wr HSEL.busy 0 2 F0, by decide +kernel⟩,
    ⟨wr HSEL.busy 0 2 F0, by decide +kernel⟩⟩

theorem test_change_sets_and_flash :
    (∃ (a : Access) (k : Nat) (s : State), s.telFifo.length < 900 ∧ k < 4 ∧ Accepted a rCFG_CS_W0 k 0xFFFFFFFF 1 s) ∧
    (∃ (a : Access) (k : Nat) (s : State), s.telFifo.length < 900 ∧ k < 4 ∧ Accepted a rCFG_CS_W0 k 0xFFFFFFFF 4 s) ∧
    (∃ (a : Access) (k : Nat) (s : State), s.telFifo.length < 900 ∧ k < 4 ∧ Accepted a rCFG_CS_W0 k 0xFFFFFFFF 3 s) ∧
    (∃ (a : Access) (k : Nat) (v : Nat) (s : State), s.telFifo.length < 900 ∧ k < 4 ∧ Accepted a rCFG_CS_W0 k 0xFFFFFFFF 2 s ∧ armBad k s = some v) ∧
    (∃ (a : Access) (k : Nat) (v : Nat) (s : State), s.telFifo.length < 900 ∧ k < 4 ∧ Accepted a rCFG_CS_W0 k 0xFFFFFFFF 2 s ∧ armBad k s = some v) ∧
    (∃ (a : Access) (k : Nat) (s : State), s.telFifo.length < 900 ∧ k < 4 ∧ Accepted a rCFG_CS_W0 k 0xFFFFFFFF 2 s ∧ armBad k s = none ∧ rd CFG_CS_W1.trigger k s ≠ 0) ∧
    (∃ (a : Access) (k : Nat) (s : State), s.telFifo.length < 900 ∧ k < 4 ∧ Accepted a rCFG_CS_W0 k 0xFFFFFFFF 2 s ∧ armBad k s = none ∧ rd CFG_CS_W1.trigger k s = 0 ∧ csEnts k s = [] ∧ (∀ j ∈ List.range 4, rd CFG_CS_W4.state j s ≠ 3)) ∧
    (∃ (a : Access) (k : Nat) (i : Nat) (v : Nat) (s : State) (r : Reg), s.telFifo.length < 900 ∧ Accepted a rCFG_STAGE_DATA 0 0xFFFFFFFF v s ∧ v < 2 ^ 32 ∧ rd CFG_STAGE_CS.cs 0 s = k ∧ rd CFG_CS_W4.state k s = 1 ∧ aligned (rd CFG_STAGE_ADDR.addr 0 s) = true ∧ locate (rd CFG_STAGE_ADDR.addr 0 s) s = .reg r i ∧ (recordReg r = true ∨ cmdReg r = true) ∧ (winTargets (rd CFG_STAGE_ADDR.addr 0 s) r i s).all (fun j => roleOk a r j (rd CFG_STAGE_MASK.mask 0 s) v s) = true) ∧
    (∃ (k : Nat) (s : State), s.telFifo.length < 900 ∧ k < 4 ∧ rd CFG_CS_W4.state k s = 2 ∧ rd HCS.trig k s = 2 ∧ csEnts k s = [] ∧ (∀ j ∈ List.range 4, rd CFG_CS_W4.state j s ≠ 3)) ∧
    (∃ (k : Nat) (s : State), s.telFifo.length < 900 ∧ rd CFG_CS_W4.state k s = 3 ∧ csEnts k s = [] ∧ (∀ j ∈ List.range 4, rd CFG_CS_W4.state j s ≠ 2)) ∧
    (∃ (k : Nat) (i : Nat) (v : Nat) (s : State), s.telFifo.length < 900 ∧ rd CFG_CS_W4.state k s = 3 ∧ i < 16 ∧ csEnts k s = [(regAddr rFAB_ROUND_W1 i, 0xFFFFFFFF, v)] ∧ v < 2 ^ 30 ∧ (∀ j ∈ List.range 4, rd CFG_CS_W4.state j s ≠ 2)) ∧
    (∃ (a : Access) (s : State), s.telFifo.length < 900 ∧ Accepted a rCFG_FLASH_CMD 0 0xFFFFFFFF 1 s ∧ flashRefused 1 s = false) ∧
    (∃ (a : Access) (s : State), s.telFifo.length < 900 ∧ Accepted a rCFG_FLASH_CMD 0 0xFFFFFFFF 1 s ∧ flashRefused 1 s = true) ∧
    (∃ (a : Access) (s : State), s.telFifo.length < 900 ∧ Accepted a rCFG_FLASH_CMD 0 0xFFFFFFFF 2 s ∧ flashRefused 2 s = false) ∧
    (∃ (a : Access) (s : State), s.telFifo.length < 900 ∧ Accepted a rCFG_FLASH_CMD 0 0xFFFFFFFF 2 s ∧ flashRefused 2 s = true) ∧
    (∃ (a : Access) (s : State), s.telFifo.length < 900 ∧ Accepted a rCFG_FLASH_CMD 0 0xFFFFFFFF 3 s ∧ flashRefused 3 s = false) ∧
    (∃ (a : Access) (s : State), s.telFifo.length < 900 ∧ Accepted a rCFG_FLASH_CMD 0 0xFFFFFFFF 3 s ∧ flashRefused 3 s = true) ∧
    (∃ (a : Access) (s : State), s.telFifo.length < 900 ∧ Accepted a rCFG_FLASH_CMD 0 0xFFFFFFFF 4 s ∧ flashRefused 4 s = false) ∧
    (∃ (a : Access) (s : State), s.telFifo.length < 900 ∧ Accepted a rCFG_FLASH_CMD 0 0xFFFFFFFF 4 s ∧ flashRefused 4 s = true) ∧
    (∃ (s : State), s.telFifo.length < 900 ∧ rd HFL.op 0 s = 1) ∧
    (∃ (v : Nat) (s : State), s.telFifo.length < 900 ∧ 1 < rd HFL.op 0 s ∧ v ≤ 3 ∧ v ≠ 2) ∧
    (∃ (v : Nat) (s : State), s.telFifo.length < 900 ∧ 1 < rd HFL.op 0 s ∧ v ≤ 3 ∧ v ≠ 2) :=
  ⟨⟨core0, 3, setL LCS.ent 3 [1, 2, 3] F0, by unfold Accepted Direct; decide +kernel⟩,
    ⟨core0, 3, go (.csOpen core0 3) F0, by unfold Accepted Direct; decide +kernel⟩,
    ⟨core0, 0, wr CFG_CS_W4.state 0 2 F0, by unfold Accepted Direct; decide +kernel⟩,
    ⟨core0, 1, 5, wr CFG_CS_W1.trigger 1 1 (go (.csOpen core0 1) F0), by unfold Accepted Direct; decide +kernel⟩,
    ⟨core0, 1, 4, wr CFG_CS_W4.overflow 1 1 (go (.csOpen core0 1) F0), by unfold Accepted Direct; decide +kernel⟩,
    ⟨core0, 1, wr CFG_CS_W3.time_hi 1 1 (wr CFG_CS_W1.trigger 1 2 (go (.csOpen core0 1) F0)), by unfold Accepted Direct; decide +kernel⟩,
    ⟨core0, 1, go (.csOpen core0 1) F0, by unfold Accepted Direct; decide +kernel⟩,
    ⟨core0, 2, 15, 77, wr CFG_STAGE_MASK.mask 0 0xFFFFFFFF (wr CFG_STAGE_ADDR.addr 0 (regAddr rFAB_ROUND_W1 15) (wr CFG_STAGE_CS.cs 0 2 (go (.csOpen core0 2) F0))), rFAB_ROUND_W1, by unfold Accepted Direct; decide +kernel⟩,
    ⟨1, go (.csArm core0 1) (wr CFG_CS_W2.time_lo 1 90000 (wr CFG_CS_W1.trigger 1 2 (go (.csOpen core0 1) F0))), by decide +kernel⟩,
    ⟨1, wr CFG_CS_W4.state 1 3 (go (.csOpen core0 1) F0), by decide +kernel⟩,
    ⟨1, 15, 700000, setL LCS.ent 1 [regAddr rFAB_ROUND_W1 15, 0xFFFFFFFF, 700000] (wr CFG_CS_W4.state 1 3 (go (.csOpen core0 1) F0)), by decide +kernel⟩,
    ⟨core0, wr CFG_FLASH_ADDR.addr 0 0x4000000 F0, by unfold Accepted Direct; decide +kernel⟩,
    ⟨core0, wr CFG_FLASH_ADDR.addr 0 0x3FFFF01 F0, by unfold Accepted Direct; decide +kernel⟩,
    ⟨core0, wr CFG_FLASH_ADDR.addr 0 0x4000000 F0, by unfold Accepted Direct; decide +kernel⟩,
    ⟨core0, wr CFG_FLASH_ADDR.addr 0 0x8000000 F0, by unfold Accepted Direct; decide +kernel⟩,
    ⟨core0, wr CFG_FLASH_ADDR.addr 0 0x8002000 F0, by unfold Accepted Direct; decide +kernel⟩,
    ⟨core0, wr CFG_FLASH_ADDR.addr 0 0x8001FFF F0, by unfold Accepted Direct; decide +kernel⟩,
    ⟨core0, wr CFG_FLASH_ADDR.addr 0 0x8010000 F0, by unfold Accepted Direct; decide +kernel⟩,
    ⟨core0, wr CFG_FLASH_ADDR.addr 0 0x8002000 F0, by unfold Accepted Direct; decide +kernel⟩,
    ⟨wr HFL.op 0 1 F0, by decide +kernel⟩,
    ⟨3, wr HFL.op 0 2 F0, by decide +kernel⟩,
    ⟨0, wr HFL.op 0 4 F0, by decide +kernel⟩⟩

theorem test_sessions :
    (∃ (m : MgmtMsg) (i : Nat) (c : Nat) (s : State), s.telFifo.length < 900 ∧ Heard m s ∧ m.sess = 0 ∧ beField m.payload 0 2 = c ∧ ((c < 32 ∧ m.payload.length = 99) ∨ (c ∈ [0x101, 0x102, 0x103, 0x104, 0x200] ∧ m.payload.length = 196)) ∧ m.payload.getD 2 0 = 4 ∧ sessSlot s = some i) ∧
    (∃ (m : MgmtMsg) (i : Nat) (c : Nat) (s : State), s.telFifo.length < 900 ∧ Heard m s ∧ m.sess = 0 ∧ beField m.payload 0 2 = c ∧ ((c < 32 ∧ m.payload.length = 99) ∨ (c ∈ [0x101, 0x102, 0x103, 0x104, 0x200] ∧ m.payload.length = 196)) ∧ m.payload.getD 2 0 = 4 ∧ sessSlot s = some i) ∧
    (∃ (m : MgmtMsg) (c : Nat) (s : State), s.telFifo.length < 900 ∧ Heard m s ∧ m.sess = 0 ∧ beField m.payload 0 2 = c ∧ c < 32 ∧ m.payload.length = 99 ∧ m.payload.getD 2 0 = 4 ∧ sessSlot s = none) ∧
    (∃ (m : MgmtMsg) (s : State), s.telFifo.length < 900 ∧ Heard m s ∧ m.sess = 0 ∧ m.payload.length ≠ 100) ∧
    (∃ (m : MgmtMsg) (i : Nat) (c : Nat) (s : State), s.telFifo.length < 900 ∧ Heard m s ∧ m.sess = 0 ∧ m.payload.length = 100 ∧ beField m.payload 0 4 = i + 1 ∧ i < 8 ∧ rd HACC.wait i s = 1 ∧ (getL LACC.hs i s).getD 0 0 = c) ∧
    (∃ (m : MgmtMsg) (i : Nat) (c : Nat) (s : State), s.telFifo.length < 900 ∧ Heard m s ∧ m.sess = 0 ∧ m.payload.length = 100 ∧ beField m.payload 0 4 = i + 1 ∧ i < 8 ∧ rd HACC.wait i s = 1 ∧ (getL LACC.hs i s).getD 0 0 = c) ∧
    (∃ (m : MgmtMsg) (i : Nat) (s : State), s.telFifo.length < 900 ∧ Heard m s ∧ InSession m s ∧ m.payload = [] ∧ m.sess = i + 1) ∧
    (∃ (m : MgmtMsg) (i : Nat) (s : State), s.telFifo.length < 900 ∧ Heard m s ∧ InSession m s ∧ m.payload = [] ∧ m.sess = i + 1) ∧
    (∃ (m : MgmtMsg) (s : State), s.telFifo.length < 900 ∧ Heard m s ∧ 1 ≤ m.sess ∧ (m.sess ≤ 8 → getL LACC.key (m.sess - 1) s = [])) ∧
    (∃ (m : MgmtMsg) (s : State), s.telFifo.length < 900 ∧ Heard m s ∧ 1 ≤ m.sess ∧ (m.sess ≤ 8 → getL LACC.key (m.sess - 1) s = [])) ∧
    (∃ (m : MgmtMsg) (s : State), s.telFifo.length < 900 ∧ Heard m s ∧ 1 ≤ m.sess ∧ m.sess ≤ 8 ∧ getL LACC.key (m.sess - 1) s ≠ [] ∧ m.ctr < rd HACC.ctr (m.sess - 1) s) ∧
    (∃ (m : MgmtMsg) (i : Nat) (s : State) (bs : List Nat), s.telFifo.length < 900 ∧ Heard m s ∧ m.sess = i + 1 ∧ i < 8 ∧ getL LACC.key i s ≠ [] ∧ rd HACC.ctr i s ≤ m.ctr ∧ getL LHIF.reply i s = (m.rid + 1) :: bs) ∧
    (∃ (i : Nat) (s : State), s.telFifo.length < 900 ∧ i < 8 ∧ getL LACC.key i s ≠ []) ∧
    (∃ (c : Nat) (s : State), s.telFifo.length < 900 ∧ rd HACC.lock c s ≠ 0) :=
  ⟨⟨MSGP 0 ([0, 5, 4] ++ List.replicate 96 9), 0, 5, MF, by unfold Heard; decide +kernel⟩,
    ⟨MSG0 0 ([2, 0, 4] ++ List.replicate 193 9), 1, 0x200, SES 0 2, by unfold Heard; decide +kernel⟩,
    ⟨MSGP 0 ([0, 5, 4] ++ List.replicate 96 9), 5, (List.range 8).foldl (fun u x => setL LACC.key x [1] u) MF, by unfold Heard; decide +kernel⟩,
    ⟨MSGP 0 [1], MF, by unfold Heard; decide +kernel⟩,
    ⟨MSGP 0 ([0, 0, 0, 1] ++ List.replicate 96 9), 0, 5, go (.hello (MSGP 0 ([0, 5, 4] ++ List.replicate 96 9))) MF |> setL LACC.fails 5 [900, 901, 902, 903], by unfold Heard; decide +kernel⟩,
    ⟨MSGP 0 ([0, 0, 0, 1] ++ List.replicate 96 9), 0, 5, go (.hello (MSGP 0 ([0, 5, 4] ++ List.replicate 96 9))) MF |> wr HACC.lock 5 90000, by unfold Heard; decide +kernel⟩,
    ⟨MSG 8, 7, SES 7 1, by unfold Heard; unfold InSession; decide +kernel⟩,
    ⟨MSG0 1 [], 0, SES 0 1, by unfold Heard; unfold InSession; decide +kernel⟩,
    ⟨MSG 9, MF, by unfold Heard; decide +kernel⟩,
    ⟨MSG 8, MF, by unfold Heard; decide +kernel⟩,
    ⟨MSG 8, wr HACC.ctr 7 6 (SES 7 1), by unfold Heard; decide +kernel⟩,
    ⟨MSG 8, 7, setL LHIF.reply 7 [78, 3, 4] (SES 7 1), [3, 4], by unfold Heard; decide +kernel⟩,
    ⟨7, SES 7 1, by decide +kernel⟩,
    ⟨5, wr HACC.lock 5 90000 F0, by decide +kernel⟩⟩

theorem test_maker_fuses_and_audit :
    (∃ (a : Access) (n : Nat) (s : State), s.telFifo.length < 900 ∧ Accepted a rACC_MAKER_GRANT 0 0xFFFFFFFF (fieldWord ACC_MAKER_GRANT.minutes n + fieldWord ACC_MAKER_GRANT.grant 1) s ∧ 1 ≤ n ∧ n ≤ 1440) ∧
    (∃ (a : Access) (n : Nat) (s : State), s.telFifo.length < 900 ∧ Accepted a rACC_MAKER_GRANT 0 0xFFFFFFFF (fieldWord ACC_MAKER_GRANT.minutes n + fieldWord ACC_MAKER_GRANT.grant 1) s ∧ 1 ≤ n ∧ n ≤ 1440) ∧
    (∃ (a : Access) (s : State), s.telFifo.length < 900 ∧ Accepted a rACC_MAKER_GRANT 0 (fieldWord ACC_MAKER_GRANT.revoke 1) (fieldWord ACC_MAKER_GRANT.revoke 1) s ∧ rd HACC.grant 0 s ≠ 0) ∧
    (∃ (s : State), s.telFifo.length < 900 ∧ rd HACC.grant 0 s ≠ 0) ∧
    (∃ (a : Access) (n : Nat) (s : State), s.telFifo.length < 900 ∧ Accepted a rACC_FUSE_CMD 0 0xFFFFFFFF (fieldWord ACC_FUSE_CMD.op 1) s ∧ rd ACC_STATUS.key_slot 0 s = n ∧ n < 4) ∧
    (∃ (a : Access) (n : Nat) (s : State), s.telFifo.length < 900 ∧ Accepted a rACC_FUSE_CMD 0 0xFFFFFFFF (fieldWord ACC_FUSE_CMD.op 1) s ∧ rd ACC_STATUS.key_slot 0 s = n ∧ n < 4) ∧
    (∃ (a : Access) (s : State), s.telFifo.length < 900 ∧ Accepted a rACC_FUSE_CMD 0 0xFFFFFFFF (fieldWord ACC_FUSE_CMD.op 1) s ∧ rd ACC_STATUS.key_slot 0 s = 4) ∧
    (∃ (a : Access) (i : Nat) (s : State), s.telFifo.length < 900 ∧ Accepted a rACC_FUSE_CMD 0 0xFFFFFFFF (fieldWord ACC_FUSE_CMD.op 2 + fieldWord ACC_FUSE_CMD.fuse_addr i) s ∧ i < 1024) ∧
    (∃ (n : Nat) (s : State), s.telFifo.length < 900 ∧ rd HAUD.head 0 s = n ∧ n < rd HAUD.tail 0 s ∧ folsorWrites s = true) ∧
    (∃ (s : State), s.telFifo.length < 900 ∧ folsorWrites s = false) :=
  ⟨⟨core0, 1440, F0, by unfold Accepted Direct; decide +kernel⟩,
    ⟨core0, 1, F0, by unfold Accepted Direct; decide +kernel⟩,
    ⟨core0, nx (execMakerGrant core0 5 (SES 2 3 |> setL LACC.key 3 [4])), by unfold Accepted Direct; decide +kernel⟩,
    ⟨nx (execMakerGrant core0 5 (SES 2 3 |> setL LACC.key 3 [4])), by decide +kernel⟩,
    ⟨core0, 3, wr ACC_STATUS.key_slot 0 3 F0, by unfold Accepted Direct; decide +kernel⟩,
    ⟨pcie, 0, wr ACC_STATUS.key_slot 0 0 F0, by unfold Accepted Direct; decide +kernel⟩,
    ⟨core0, wr ACC_STATUS.key_slot 0 4 F0, by unfold Accepted Direct; decide +kernel⟩,
    ⟨core0, 1023, F0, by unfold Accepted Direct; decide +kernel⟩,
    ⟨0, wr HAUD.badpos 0 1 (go (.csOpen pcie 1) (wr ACC_PATH_ROLE.pcie_role 0 2 F0)), by decide +kernel⟩,
    ⟨wr HRED.gap 0 1 F0, by decide +kernel⟩⟩

theorem test_test_access_port :
    (∃ (i : Nat) (r : Reg) (s : State) (k : Nat), aligned i = true ∧ locate i s = .reg r k ∧ sliceReg r = false ∧ r.id ≠ rPOOL_ALLOC_SIZE.id ∧ r.id ≠ rPOOL_ALLOC_POOL.id) ∧
    (∃ (i : Nat) (s : State), aligned i = true ∧ locate i s = .none_) ∧
    (∃ (s : State), rd ACC_STATUS.test_mode 0 s = 0) ∧
    (∃ (bs : List Nat) (s : State), rd ACC_STATUS.test_mode 0 s ≠ 0 ∧ bs ≠ []) ∧
    (∃ (s : State), rd ACC_STATUS.test_mode 0 s = 0) ∧
    (∃ (bs : List Nat) (s : State), rd ACC_STATUS.test_mode 0 s ≠ 0 ∧ bs ≠ []) ∧
    (∃ (s : State), rd ACC_STATUS.test_mode 0 s = 0) ∧
    (∃ (bs : List Nat) (s : State), rd ACC_STATUS.test_mode 0 s ≠ 0 ∧ bs ≠ []) ∧
    (∃ (s : State), rd ACC_STATUS.test_mode 0 s = 0) ∧
    (∃ (bs : List Nat) (s : State), rd ACC_STATUS.test_mode 0 s ≠ 0 ∧ bs ≠ []) :=
  ⟨⟨regAddr rFAB_ROUND_W1 15, rFAB_ROUND_W1, F0, 15, by decide +kernel⟩,
    ⟨0xF0000000, F0, by decide +kernel⟩,
    ⟨F0, by decide +kernel⟩,
    ⟨[1, 0], wr ACC_STATUS.test_mode 0 1 F0, by decide +kernel⟩,
    ⟨F0, by decide +kernel⟩,
    ⟨[1, 0], wr ACC_STATUS.test_mode 0 1 F0, by decide +kernel⟩,
    ⟨F0, by decide +kernel⟩,
    ⟨[1, 0], wr ACC_STATUS.test_mode 0 1 F0, by decide +kernel⟩,
    ⟨F0, by decide +kernel⟩,
    ⟨[1, 0], wr ACC_STATUS.test_mode 0 1 F0, by decide +kernel⟩⟩

theorem test_pcie_function :
    (∃ (s : State), s.telFifo.length < 900 ∧ pcieOn s = true) ∧
    (∃ (s : State), s.telFifo.length < 900 ∧ pcieOn s = true) ∧
    (∃ (s : State), s.telFifo.length < 900 ∧ pcieOn s = true) ∧
    (∃ (s : State), s.telFifo.length < 900 ∧ pcieOn s = true) ∧
    (∃ (s : State), s.telFifo.length < 900 ∧ pcieOn s = true) ∧
    (∃ (s : State), s.telFifo.length < 900 ∧ pcieOn s = true) ∧
    (∃ (s : State), s.telFifo.length < 900 ∧ pcieOn s = true ∧ rd HIF_STATUS.d_state 0 s = 3) ∧
    (∃ (s : State), s.telFifo.length < 900 ∧ pcieOn s = true) ∧
    (∃ (s : State), s.telFifo.length < 900 ∧ pcieOn s = true) ∧
    (∃ (l : Nat) (s : State), s.telFifo.length < 900 ∧ pcieOn s = true ∧ rd HIF_STATUS.link 0 s = 1 ∧ 2 ≤ l ∧ l ≤ 5) ∧
    (∃ (s : State), s.telFifo.length < 900 ∧ pcieOn s = true ∧ rd HIF_STATUS.d_state 0 s ≠ 3) ∧
    (∃ (s : State), s.telFifo.length < 900 ∧ pcieOn s = true ∧ rd HIF_STATUS.d_state 0 s ≠ 3) ∧
    (∃ (s : State), s.telFifo.length < 900 ∧ pcieOn s = false) ∧
    (∃ (s : State), s.telFifo.length < 900 ∧ pcieOn s = false) ∧
    (∃ (s : State), s.telFifo.length < 900 ∧ pcieOn s = false) ∧
    (∃ (a : Access) (s : State), s.telFifo.length < 900 ∧ a.path = .pcie ∧ pcieOn s = false) ∧
    (∃ (a : Access) (g : Nat) (v : Nat) (s : State), s.telFifo.length < 900 ∧ a.path = .bar2 ∧ pcieOn s = true ∧ g < 64 ∧ v < 2 ^ 32) ∧
    (∃ (a : Access) (g : Nat) (v : Nat) (s : State), s.telFifo.length < 900 ∧ a.path = .bar2 ∧ pcieOn s = true ∧ g < 64 ∧ v < 2 ^ 32) :=
  ⟨⟨PQ, by decide +kernel⟩,
    ⟨RGK 5 1, by decide +kernel⟩,
    ⟨PQ, by decide +kernel⟩,
    ⟨RGK 5 1, by decide +kernel⟩,
    ⟨PQ, by decide +kernel⟩,
    ⟨RGK 5 1, by decide +kernel⟩,
    ⟨wr HIF_STATUS.d_state 0 3 HO, by decide +kernel⟩,
    ⟨HO, by decide +kernel⟩,
    ⟨HO, by decide +kernel⟩,
    ⟨5, HO, by decide +kernel⟩,
    ⟨HO, by decide +kernel⟩,
    ⟨wr INTC_GRP.msg_held 63 1 HO, by decide +kernel⟩,
    ⟨wr HIF_STATUS.pcie_present 0 0 F0, by decide +kernel⟩,
    ⟨wr HIF_STATUS.pcie_present 0 0 F0, by decide +kernel⟩,
    ⟨wr HIF_STATUS.pcie_present 0 0 F0, by decide +kernel⟩,
    ⟨pcie, wr HIF_STATUS.pcie_present 0 0 F0, by decide +kernel⟩,
    ⟨⟨.bar2, 0⟩, 63, 4294967295, HO, by decide +kernel⟩,
    ⟨⟨.bar2, 0⟩, 63, 4294967295, HO, by decide +kernel⟩⟩

theorem test_dma_rings :
    (∃ (a : Access) (k : Nat) (n : Nat) (s : State), s.telFifo.length < 900 ∧ k < 16 ∧ Accepted a rHIF_RING_W3 k 0xFFFFFFFF n s ∧ n < 2 ^ 32) ∧
    (∃ (k : Nat) (n : Nat) (s : State), s.telFifo.length < 900 ∧ k < 16 ∧ n < 2 ^ 32 ∧ tailOver k n s = true ∧ rd HRED.gap 0 s = 0) ∧
    (∃ (a : Access) (k : Nat) (s : State), s.telFifo.length < 900 ∧ k < 16 ∧ Accepted a rHIF_RING_W2 k (fieldWord HIF_RING_W2.enable 1) (fieldWord HIF_RING_W2.enable 1) s ∧ rd HIF_RING_W2.enable k s = 0) ∧
    (∃ (a : Access) (k : Nat) (s : State), s.telFifo.length < 900 ∧ k < 16 ∧ Accepted a rHIF_RING_W2 k (fieldWord HIF_RING_W2.enable 1) 0 s ∧ rd HIF_RING_W2.enable k s = 1) ∧
    (∃ (a : Access) (k : Nat) (s : State), s.telFifo.length < 900 ∧ k < 16 ∧ Accepted a rHIF_RING_W2 k (fieldWord HIF_RING_W2.enable 1) 0 s ∧ rd HIF_RING_W2.enable k s = 1) ∧
    (∃ (k : Nat) (f : Nat) (n : Nat) (len : Nat) (errs : List MemErr) (s : State) (q : List Nat), s.telFifo.length < 900 ∧ ringServes k 0 s = true ∧ getL LHIF.punt k s = f :: q ∧ rd FRM.err f s = 0 ∧ rd FRM.ended f s = 1 ∧ lenOk n len = true ∧ badWords f 0 65536 s = [] ∧ (∀ e ∈ errs, e = .cellCorr ∨ e = .linkCorr)) ∧
    (∃ (k : Nat) (f : Nat) (n : Nat) (len : Nat) (errs : List MemErr) (s : State) (q : List Nat), s.telFifo.length < 900 ∧ ringServes k 0 s = true ∧ getL LHIF.punt k s = f :: q ∧ rd FRM.err f s = 0 ∧ rd FRM.ended f s = 1 ∧ lenOk n len = true ∧ badWords f 0 65536 s = [] ∧ (∀ e ∈ errs, e = .cellCorr ∨ e = .linkCorr)) ∧
    (∃ (k : Nat) (f : Nat) (s : State) (q : List Nat), s.telFifo.length < 900 ∧ ringServes k 0 s = true ∧ getL LHIF.punt k s = f :: q ∧ rd FRM.err f s = 1) ∧
    (∃ (k : Nat) (f : Nat) (n : Nat) (len : Nat) (errs : List MemErr) (s : State) (q : List Nat) (w : Nat), s.telFifo.length < 900 ∧ ringServes k 0 s = true ∧ getL LHIF.punt k s = f :: q ∧ q.head? ≠ some f ∧ rd FRM.err f s = 0 ∧ rd FRM.ended f s = 1 ∧ lenOk n len = true ∧ badWords f 0 65536 s = [] ∧ frmWord f w s ≠ none ∧ errs = [.cellBad w]) ∧
    (∃ (k : Nat) (f : Nat) (n : Nat) (len : Nat) (s : State) (q : List Nat), s.telFifo.length < 900 ∧ ringServes k 0 s = true ∧ getL LHIF.punt k s = f :: q ∧ rd FRM.err f s = 0 ∧ rd FRM.ended f s = 1 ∧ lenOk n len = false) ∧
    (∃ (k : Nat) (f : Nat) (n : Nat) (len : Nat) (s : State) (q : List Nat), s.telFifo.length < 900 ∧ ringServes k 0 s = true ∧ getL LHIF.punt k s = f :: q ∧ rd FRM.err f s = 0 ∧ rd FRM.ended f s = 1 ∧ lenOk n len = false) ∧
    (∃ (k : Nat) (n : Nat) (s : State), s.telFifo.length < 900 ∧ ringServes k 1 s = true ∧ bootReady s = true ∧ n % 8 = 0 ∧ (rd BUF_RX_CFG.rx_pool 0 s - rd BUF_RX_CFG.rx_early 0 s) * 1024 ≤ rd HBUF.rx_used 0 s) ∧
    (∃ (k : Nat) (f : Nat) (n : Nat) (d : List Nat) (s : State), s.telFifo.length < 900 ∧ ringServes k 1 s = true ∧ bootReady s = true ∧ n % 8 = 0 ∧ rd HBUF.rx_used 0 s < (rd BUF_RX_CFG.rx_pool 0 s - rd BUF_RX_CFG.rx_early 0 s) * 1024 ∧ (portExists (f % 1024) s = false ∨ portMax (f % 1024) s < (injectBytes d).length)) ∧
    (∃ (k : Nat) (f : Nat) (n : Nat) (d : List Nat) (s : State), s.telFifo.length < 900 ∧ ringServes k 1 s = true ∧ bootReady s = true ∧ n % 8 = 0 ∧ rd HBUF.rx_used 0 s < (rd BUF_RX_CFG.rx_pool 0 s - rd BUF_RX_CFG.rx_early 0 s) * 1024 ∧ (portExists (f % 1024) s = false ∨ portMax (f % 1024) s < (injectBytes d).length)) ∧
    (∃ (k : Nat) (f : Nat) (n : Nat) (d : List Nat) (s : State), s.telFifo.length < 900 ∧ ringServes k 1 s = true ∧ bootReady s = true ∧ n % 8 = 0 ∧ rd HBUF.rx_used 0 s < (rd BUF_RX_CFG.rx_pool 0 s - rd BUF_RX_CFG.rx_early 0 s) * 1024 ∧ portExists (f % 1024) s = true ∧ (injectBytes d).length ≤ portMax (f % 1024) s ∧ bitOf f 28 = false) ∧
    (∃ (k : Nat) (f : Nat) (n : Nat) (d : List Nat) (s : State), s.telFifo.length < 900 ∧ ringServes k 1 s = true ∧ bootReady s = true ∧ n % 8 = 0 ∧ rd HBUF.rx_used 0 s < (rd BUF_RX_CFG.rx_pool 0 s - rd BUF_RX_CFG.rx_early 0 s) * 1024 ∧ portExists (f % 1024) s = true ∧ (injectBytes d).length ≤ portMax (f % 1024) s ∧ bitOf f 28 = false) ∧
    (∃ (k : Nat) (f : Nat) (n : Nat) (d : List Nat) (s : State), s.telFifo.length < 900 ∧ ringServes k 1 s = true ∧ bootReady s = true ∧ n % 8 = 0 ∧ rd HBUF.rx_used 0 s < (rd BUF_RX_CFG.rx_pool 0 s - rd BUF_RX_CFG.rx_early 0 s) * 1024 ∧ portExists (f % 1024) s = true ∧ (injectBytes d).length ≤ portMax (f % 1024) s ∧ bitOf f 28 = true ∧ sliceAsleep (servSlice (f % 1024) s) s = false ∧ headPick (servSlice (f % 1024) s) false s ≠ 0) ∧
    (∃ (k : Nat) (f : Nat) (n : Nat) (d : List Nat) (s : State), s.telFifo.length < 900 ∧ ringServes k 1 s = true ∧ bootReady s = true ∧ n % 8 = 0 ∧ rd HBUF.rx_used 0 s < (rd BUF_RX_CFG.rx_pool 0 s - rd BUF_RX_CFG.rx_early 0 s) * 1024 ∧ portExists (f % 1024) s = true ∧ (injectBytes d).length ≤ portMax (f % 1024) s ∧ bitOf f 28 = true ∧ rd PWR_SLICE.state (servSlice (f % 1024) s) s = 2 ∧ servSlice (f % 1024) s < 16) ∧
    (∃ (k : Nat) (n : Nat) (s : State), s.telFifo.length < 900 ∧ ringServes k 1 s = true ∧ bootReady s = true ∧ n % 8 ≠ 0) ∧
    (∃ (k : Nat) (n : Nat) (len : Nat) (s : State) (r : Rec), s.telFifo.length < 900 ∧ ringServes k 2 s = true ∧ s.recs.find? (fun r => r.ring = k) = some r ∧ lenOk n len = true ∧ poolUseCode 5 r.handle 0 r.bytes.length s = 0) ∧
    (∃ (k : Nat) (n : Nat) (len : Nat) (s : State) (r : Rec), s.telFifo.length < 900 ∧ ringServes k 2 s = true ∧ s.recs.find? (fun r => r.ring = k) = some r ∧ lenOk n len = true ∧ poolUseCode 5 r.handle 0 r.bytes.length s ≠ 0) ∧
    (∃ (k : Nat) (n : Nat) (len : Nat) (s : State) (r : EvtRec), s.telFifo.length < 900 ∧ ringServes k 3 s = true ∧ evtFind (rd HTEL.rptr k s) s = some r ∧ s.evtRing.head? = some r ∧ lenOk n len = true) ∧
    (∃ (k : Nat) (s : State), s.telFifo.length < 900 ∧ k < 16 ∧ rd HHIF.flush k s ≠ 0) ∧
    (∃ (k : Nat) (s : State), s.telFifo.length < 900 ∧ k < 16 ∧ ringRuns k s = true) :=
  ⟨⟨core0, 15, 1024, F0, by unfold Accepted Direct; decide +kernel⟩,
    ⟨15, 1025, F0, by decide +kernel⟩,
    ⟨core0, 15, wr HIF_RING_W3.tail 15 3 F0, by unfold Accepted Direct; decide +kernel⟩,
    ⟨core0, 15, RGK 15 1, by unfold Accepted Direct; decide +kernel⟩,
    ⟨core0, 15, wr HHIF.dma 15 4 (RGK 15 1), by unfold Accepted Direct; decide +kernel⟩,
    ⟨3, 0, 4096, 2048, [.cellCorr, .linkCorr, .cellCorr], PQ, [], by decide +kernel⟩,
    ⟨3, 0, 4096, 64, [], setL LFRM.bytes 0 (List.replicate 100 7) PQ, [], by decide +kernel⟩,
    ⟨3, 0, wr FRM.err 0 1 PQ, [], by decide +kernel⟩,
    ⟨3, 0, 4096, 2048, [.cellBad 0], PQ, [], 0, by decide +kernel⟩,
    ⟨3, 0, 0, 63, PQ, [], by decide +kernel⟩,
    ⟨3, 0, 0, 16385, PQ, [], by decide +kernel⟩,
    ⟨5, 0, wr HBUF.rx_used 0 100000000 (RGK 5 1), by decide +kernel⟩,
    ⟨5, 7, 0, [1, 2], wr PRT_OCT_CFG.mode 0 1 (RGK 5 1), by decide +kernel⟩,
    ⟨5, 16, 0, List.replicate 20000 1, RGK 5 1, by decide +kernel⟩,
    ⟨5, 16+2^29, 0, [1, 2], RGK 5 1, by decide +kernel⟩,
    ⟨5, 16, 0, [1, 2], wr BUF_PORT_STATUS.hold_state 16 2 (RGK 5 1), by decide +kernel⟩,
    ⟨5, 8+2^28, 0, List.replicate 70 1, RGK 5 1, by decide +kernel⟩,
    ⟨5, 8+2^28, 0, List.replicate 70 1, wr PWR_SLICE.state 0 2 (RGK 5 1), by decide +kernel⟩,
    ⟨5, 12, RGK 5 1, by decide +kernel⟩,
    ⟨2, 4096, 64, { RGK 2 2 |> wr POOLM.allocated (poolKey 2 0) 1 |> wr POOLM.owner (poolKey 2 0) 5 |> wr POOLM.gen (poolKey 2 0) 1 with recs := [⟨2, poolHandle 2 0 1, [1, 2, 3]⟩] }, ⟨2, poolHandle 2 0 1, [1, 2, 3]⟩, by decide +kernel⟩,
    ⟨2, 4096, 64, { RGK 2 2 with recs := [⟨2, 5, [1, 2, 3]⟩] }, ⟨2, 5, [1, 2, 3]⟩, by decide +kernel⟩,
    ⟨3, 4096, 64, { RGK 3 3 with evtRing := [⟨0, [1, 2, 3]⟩] }, ⟨0, [1, 2, 3]⟩, by decide +kernel⟩,
    ⟨15, wr HHIF.flush 15 2 (RGK 15 1), by decide +kernel⟩,
    ⟨15, RGK 15 1, by decide +kernel⟩⟩

theorem test_management_ports :
    (∃ (m : Nat) (n : Nat) (s : State), s.telFifo.length < 900 ∧ m < 2 ∧ mgmtPort m s = true ∧ (poolAlloc (24 + m) 2 s).1 ≠ 0xFFFFFFFF ∧ rd HIF_MGMT_W3.ipv4 m s = n ∧ n ≠ 0) ∧
    (∃ (m : Nat) (n : Nat) (s : State), s.telFifo.length < 900 ∧ m < 2 ∧ mgmtPort m s = true ∧ (poolAlloc (24 + m) 2 s).1 ≠ 0xFFFFFFFF ∧ (rd HIF_MGMT_W3.ipv4 m s ≠ n ∨ n = 0)) ∧
    (∃ (m : Nat) (n : Nat) (s : State), s.telFifo.length < 900 ∧ m < 2 ∧ mgmtPort m s = true ∧ (poolAlloc (24 + m) 2 s).1 ≠ 0xFFFFFFFF ∧ (rd HIF_MGMT_W3.ipv4 m s ≠ n ∨ n = 0)) ∧
    (∃ (m : Nat) (s : State), s.telFifo.length < 900 ∧ m < 2 ∧ mgmtPort m s = true ∧ (poolAlloc (24 + m) 2 s).1 = 0xFFFFFFFF) ∧
    (∃ (m : Nat) (s : State), s.telFifo.length < 900 ∧ mgmtPort m s = false) ∧
    (∃ (m : Nat) (n : Nat) (s : State), s.telFifo.length < 900 ∧ m < 2 ∧ mgmtPort m s = true ∧ (poolAlloc (24 + m) 2 s).1 ≠ 0xFFFFFFFF ∧ mgmtV6 m s = n ∧ n ≠ 0) ∧
    (∃ (m : Nat) (n : Nat) (s : State), s.telFifo.length < 900 ∧ m < 2 ∧ mgmtPort m s = true ∧ (poolAlloc (24 + m) 2 s).1 ≠ 0xFFFFFFFF ∧ (mgmtV6 m s ≠ n ∨ n = 0)) ∧
    (∃ (m : Nat) (n : Nat) (b : Bool) (s : State), s.telFifo.length < 900 ∧ m < 2 ∧ mgmtPort m s = true ∧ (poolAlloc (24 + m) 2 s).1 ≠ 0xFFFFFFFF ∧ (if b = true then mgmtV6 m s else rd HIF_MGMT_W3.ipv4 m s) = n ∧ n ≠ 0) ∧
    (∃ (m : Nat) (n : Nat) (b : Bool) (s : State), s.telFifo.length < 900 ∧ m < 2 ∧ mgmtPort m s = true ∧ (poolAlloc (24 + m) 2 s).1 ≠ 0xFFFFFFFF ∧ (if b = true then mgmtV6 m s else rd HIF_MGMT_W3.ipv4 m s) = n ∧ n ≠ 0) ∧
    (∃ (m : Nat) (n : Nat) (b : Bool) (s : State), s.telFifo.length < 900 ∧ m < 2 ∧ mgmtPort m s = true ∧ (poolAlloc (24 + m) 2 s).1 ≠ 0xFFFFFFFF ∧ ((if b = true then mgmtV6 m s else rd HIF_MGMT_W3.ipv4 m s) ≠ n ∨ n = 0)) ∧
    (∃ (m : Nat) (s : State), s.telFifo.length < 900 ∧ m < 2 ∧ mgmtPort m s = true ∧ (poolAlloc (24 + m) 2 s).1 ≠ 0xFFFFFFFF) ∧
    (∃ (m : Nat) (b : Bool) (s : State), s.telFifo.length < 900 ∧ m < 2 ∧ rdBit HIF_STATUS.mgmt_up 0 m s ≠ b) ∧
    (∃ (m : Nat) (b : Bool) (s : State), s.telFifo.length < 900 ∧ m < 2 ∧ rdBit HIF_STATUS.mgmt_up 0 m s ≠ b) ∧
    (∃ (m : Nat) (b : Bool) (s : State), s.telFifo.length < 900 ∧ m < 2 ∧ rdBit HIF_STATUS.mgmt_up 0 m s = b) ∧
    (∃ (n : Nat) (s : State), s.telFifo.length < 900 ∧ (n = 1 ∨ (n = 0 ∧ rd HIF_BUS_CFG.pec_req 0 s = 0))) ∧
    (∃ (n : Nat) (s : State), s.telFifo.length < 900 ∧ (n = 2 ∨ (n = 0 ∧ rd HIF_BUS_CFG.pec_req 0 s = 1))) ∧
    (∃ (n : Nat) (s : State), s.telFifo.length < 900 ∧ (n = 2 ∨ (n = 0 ∧ rd HIF_BUS_CFG.pec_req 0 s = 1))) ∧
    (∃ (n : Nat) (s : State), s.telFifo.length < 900 ∧ (n = 2 ∨ (n = 0 ∧ rd HIF_BUS_CFG.pec_req 0 s = 1))) ∧
    (∃ (n : Nat) (x : Nat) (s : State), s.telFifo.length < 900 ∧ Accepted ⟨.smbus, 0⟩ rCFG_STAGE_MASK 0 0xFFFFFFFF x s ∧ x < 2 ^ 32 ∧ rd HHIF.smb 0 s = regAddr rCFG_STAGE_MASK 0 ∧ (n = 1 ∨ (n = 0 ∧ rd HIF_BUS_CFG.pec_req 0 s = 0))) ∧
    (∃ (n : Nat) (s : State), s.telFifo.length < 900 ∧ rd ACC_PATH_ROLE.smbus_role 0 s = 0 ∧ rd CFG_BOOT_STATUS.state 0 s ≠ 2 ∧ rd HHIF.smb 0 s = regAddr rCFG_STAGE_MASK 0 ∧ n = 1) ∧
    (∃ (s : State), s.telFifo.length < 900) ∧
    (∃ (s : State), s.telFifo.length < 900 ∧ rd HHIF.smb 0 s = regAddr rCFG_STAGE_MASK 0) ∧
    (∃ (s : State), s.telFifo.length < 900) ∧
    (∃ (m : Nat) (s : State), s.telFifo.length < 900 ∧ m < 8 ∧ rdBit HIF_STATUS.i2c_stuck 0 m s = false) ∧
    (∃ (m : Nat) (s : State), s.telFifo.length < 900 ∧ m < 8 ∧ rdBit HIF_STATUS.i2c_stuck 0 m s = false) ∧
    (∃ (m : Nat) (s : State), s.telFifo.length < 900 ∧ m < 8 ∧ rdBit HIF_STATUS.i2c_stuck 0 m s = true) ∧
    (∃ (m : Nat) (s : State), s.telFifo.length < 900 ∧ m < 8 ∧ rdBit HIF_STATUS.i2c_stuck 0 m s = true) :=
  ⟨⟨0, 77, wr HIF_MGMT_W3.ipv4 0 77 (wr HIF_MGMT_V6.ipv6 3 99 (SES 0 1)), by decide +kernel⟩,
    ⟨1, 0, wr HIF_MGMT_W0.enable 1 1 (wr POOL_REQ_QR.quota 102 8 F0), by decide +kernel⟩,
    ⟨0, 78, wr HIF_MGMT_W3.ipv4 0 77 (wr HIF_MGMT_V6.ipv6 3 99 (SES 0 1)), by decide +kernel⟩,
    ⟨1, wr HIF_MGMT_W0.enable 1 1 F0, by decide +kernel⟩,
    ⟨1, wr HIF_MGMT_W0.enable 1 0 F0, by decide +kernel⟩,
    ⟨0, 99, wr HIF_MGMT_W3.ipv4 0 77 (wr HIF_MGMT_V6.ipv6 3 99 (SES 0 1)), by decide +kernel⟩,
    ⟨0, 98, wr HIF_MGMT_W3.ipv4 0 77 (wr HIF_MGMT_V6.ipv6 3 99 (SES 0 1)), by decide +kernel⟩,
    ⟨0, 99, true, wr HIF_MGMT_W3.ipv4 0 77 (wr HIF_MGMT_V6.ipv6 3 99 (SES 0 1)), by decide +kernel⟩,
    ⟨0, 77, false, wr HIF_MGMT_W3.ipv4 0 77 (wr HIF_MGMT_V6.ipv6 3 99 (SES 0 1)), by decide +kernel⟩,
    ⟨0, 99, false, wr HIF_MGMT_W3.ipv4 0 77 (wr HIF_MGMT_V6.ipv6 3 99 (SES 0 1)), by decide +kernel⟩,
    ⟨1, wr HIF_MGMT_W0.enable 1 1 (wr POOL_REQ_QR.quota 102 8 F0), by decide +kernel⟩,
    ⟨1, true, F0, by decide +kernel⟩,
    ⟨0, false, wr HIF_STATUS.mgmt_up 0 3 F0, by decide +kernel⟩,
    ⟨1, false, F0, by decide +kernel⟩,
    ⟨1, F0, by decide +kernel⟩,
    ⟨2, F0, by decide +kernel⟩,
    ⟨0, wr HIF_BUS_CFG.pec_req 0 1 F0, by decide +kernel⟩,
    ⟨2, F0, by decide +kernel⟩,
    ⟨1, 3, wr ACC_PATH_ROLE.smbus_role 0 2 (wr HHIF.smb 0 (regAddr rCFG_STAGE_MASK 0) F0), by unfold Accepted Direct; decide +kernel⟩,
    ⟨1, wr HHIF.smb 0 (regAddr rCFG_STAGE_MASK 0) F0, by decide +kernel⟩,
    ⟨wr HHIF.smb 0 (regAddr rCFG_STAGE_MASK 0) F0, by decide +kernel⟩,
    ⟨wr HHIF.smb 0 (regAddr rCFG_STAGE_MASK 0) F0, by decide +kernel⟩,
    ⟨wr HHIF.smb 0 8 F0, by decide +kernel⟩,
    ⟨7, F0, by decide +kernel⟩,
    ⟨0, F0, by decide +kernel⟩,
    ⟨7, wr HIF_STATUS.i2c_stuck 0 128 F0, by decide +kernel⟩,
    ⟨7, wr HIF_STATUS.i2c_stuck 0 128 F0, by decide +kernel⟩⟩

theorem test_management_messages :
    (∃ (m : MgmtMsg) (n : Nat) (s : State), s.telFifo.length < 900 ∧ Heard m s ∧ InSession m s ∧ m.payload.length = 8 ∧ wordAt m.payload 1 = n ∧ 1 ≤ n ∧ n ≤ 256) ∧
    (∃ (m : MgmtMsg) (n : Nat) (s : State), s.telFifo.length < 900 ∧ Heard m s ∧ InSession m s ∧ m.payload.length = 8 ∧ wordAt m.payload 1 = n ∧ 1 ≤ n ∧ n ≤ 256) ∧
    (∃ (m : MgmtMsg) (s : State), s.telFifo.length < 900 ∧ Heard m s ∧ InSession m s ∧ m.payload.length = 8 ∧ wordAt m.payload 1 = 1 ∧ wordAt m.payload 0 = regAddr rCFG_STAGE_MASK 0) ∧
    (∃ (m : MgmtMsg) (s : State), s.telFifo.length < 900 ∧ Heard m s ∧ InSession m s ∧ m.payload.length ≠ 8) ∧
    (∃ (m : MgmtMsg) (n : Nat) (s : State), s.telFifo.length < 900 ∧ Heard m s ∧ InSession m s ∧ m.payload.length = 12 * n ∧ 1 ≤ n ∧ n ≤ 64 ∧ getL LACC.key (m.sess - 1) (writeWords (msgAccess m) m.payload n 0 (0, 0) (atRequest m s)).2 = getL LACC.key (m.sess - 1) s) ∧
    (∃ (m : MgmtMsg) (n : Nat) (s : State), s.telFifo.length < 900 ∧ Heard m s ∧ InSession m s ∧ m.payload = leBytes 4 (regAddr rCFG_STAGE_MASK 0) ++ leBytes 4 0xFFFFFFFF ++ leBytes 4 n ∧ n < 2 ^ 32 ∧ Accepted (msgAccess m) rCFG_STAGE_MASK 0 0xFFFFFFFF n s) ∧
    (∃ (m : MgmtMsg) (n : Nat) (s : State), s.telFifo.length < 900 ∧ Heard m s ∧ InSession m s ∧ m.payload = leBytes 4 (regAddr rCFG_STAGE_MASK 0) ++ leBytes 4 0xFFFFFFFF ++ leBytes 4 n ∧ n < 2 ^ 32 ∧ rd ACC_SESSION.role (m.sess - 1) s = 0) ∧
    (∃ (m : MgmtMsg) (n : Nat) (k : Nat) (s : State), s.telFifo.length < 900 ∧ Heard m s ∧ InSession m s ∧ m.payload.length = 40 ∧ m.payload.getD 0 0 = k ∧ k < 6 ∧ m.payload.getD 1 0 = n ∧ 1 ≤ n ∧ n ≤ 7 ∧ leNat ((m.payload.drop 2).take 2) < 4 ∧ roleOk (msgAccess m) rTBL_CMD k 0xFFFFFFFF (n + 16 * wordAt m.payload 1 + 2 ^ 25 * leNat ((m.payload.drop 2).take 2)) s = true ∧ auditRoom false s = true) ∧
    (∃ (m : MgmtMsg) (n : Nat) (k : Nat) (s : State), s.telFifo.length < 900 ∧ Heard m s ∧ InSession m s ∧ m.payload.length = 40 ∧ m.payload.getD 0 0 = k ∧ k < 6 ∧ m.payload.getD 1 0 = n ∧ 1 ≤ n ∧ n ≤ 7 ∧ leNat ((m.payload.drop 2).take 2) < 4 ∧ roleOk (msgAccess m) rTBL_CMD k 0xFFFFFFFF (n + 16 * wordAt m.payload 1 + 2 ^ 25 * leNat ((m.payload.drop 2).take 2)) s = true ∧ auditRoom false s = true) ∧
    (∃ (m : MgmtMsg) (n : Nat) (k : Nat) (s : State), s.telFifo.length < 900 ∧ Heard m s ∧ InSession m s ∧ m.payload.length = 40 ∧ m.payload.getD 0 0 = k ∧ k < 6 ∧ m.payload.getD 1 0 = n ∧ 1 ≤ n ∧ n ≤ 7 ∧ leNat ((m.payload.drop 2).take 2) < 4 ∧ roleOk (msgAccess m) rTBL_CMD k 0xFFFFFFFF (n + 16 * wordAt m.payload 1 + 2 ^ 25 * leNat ((m.payload.drop 2).take 2)) s = false) ∧
    (∃ (m : MgmtMsg) (n : Nat) (s : State) (j : Job) (u : State), s.telFifo.length < 900 ∧ Heard m s ∧ InSession m s ∧ getL LADM.held 0 s = [] ∧ 32 ≤ m.payload.length ∧ m.payload.length = 32 + 8 * part ADM_REQ_CLASS.hop_count (wordAt m.payload 1) ∧ wordAt m.payload 0 = n ∧ n < 65536 ∧ rd ACC_SESSION.role (m.sess - 1) s ∈ [1, 2] ∧ j = ⟨1, rd ACC_SESSION.role (m.sess - 1) s, [1, (msgPath m.path).getD 0, m.port, m.sess, m.ctr, m.rid, 0x13], 0, ⟨0, 0, 0, 0, 0, 0, 0⟩, wordsReq ((List.range (m.payload.length / 4)).map (wordAt m.payload))⟩ ∧ u = atJob j (atRequest m s) ∧ reqSleepers j (atRequest m s) = [] ∧ admPre j (jobHops j u) u = none ∧ (admHops j u).1 = none ∧ (admHops j u).2.1.hop = j.req.hops.length ∧ admLate j.req (admHops j u).2.1 = false) ∧
    (∃ (m : MgmtMsg) (n : Nat) (s : State), s.telFifo.length < 900 ∧ Heard m s ∧ InSession m s ∧ 32 ≤ m.payload.length ∧ m.payload.length = 32 + 8 * part ADM_REQ_CLASS.hop_count (wordAt m.payload 1) ∧ wordAt m.payload 0 = n ∧ n < 65536 ∧ rd ACC_SESSION.role (m.sess - 1) s ∉ [1, 2]) ∧
    (∃ (m : MgmtMsg) (n : Nat) (s : State), s.telFifo.length < 900 ∧ Heard m s ∧ InSession m s ∧ m.payload = leBytes 4 n ∧ n < 65536 ∧ rd ACC_SESSION.role (m.sess - 1) s ∈ [1, 2] ∧ getL LADM.held 0 s = [] ∧ strState n s = 2 ∧ admHeld (rd ACC_SESSION.role (m.sess - 1) s) (streamPorts n s) s = false) ∧
    (∃ (m : MgmtMsg) (n : Nat) (s : State), s.telFifo.length < 900 ∧ Heard m s ∧ InSession m s ∧ getL LADM.held 0 s = [] ∧ m.payload = leBytes 4 n ∧ n < 65536 ∧ rd ACC_SESSION.role (m.sess - 1) s ∈ [1, 2] ∧ admHeld 0 [] s = false) ∧
    (∃ (m : MgmtMsg) (n : Nat) (s : State), s.telFifo.length < 900 ∧ Heard m s ∧ InSession m s ∧ getL LADM.held 0 s = [] ∧ m.payload = leBytes 4 n ∧ n < 65536 ∧ rd ACC_SESSION.role (m.sess - 1) s ∈ [1, 2] ∧ admHeld 0 [] s = false) ∧
    (∃ (m : MgmtMsg) (n : Nat) (s : State), s.telFifo.length < 900 ∧ Heard m s ∧ InSession m s ∧ m.payload = leBytes 4 n ∧ n < 65536 ∧ rd ACC_SESSION.role (m.sess - 1) s ∉ [1, 2]) ∧
    (∃ (m : MgmtMsg) (n : Nat) (s : State), s.telFifo.length < 900 ∧ Heard m s ∧ InSession m s ∧ m.payload = leBytes 4 n ∧ n < 65536 ∧ rd ACC_SESSION.role (m.sess - 1) s ∉ [1, 2]) ∧
    (∃ (m : MgmtMsg) (n : Nat) (s : State), s.telFifo.length < 900 ∧ Heard m s ∧ InSession m s ∧ m.payload.length = 8 ∧ leNat (m.payload.take 2) = 0xD04 ∧ wordAt m.payload 1 = n ∧ rd ACC_SESSION.role (m.sess - 1) s = 2 ∧ auditRoom false s = true) ∧
    (∃ (m : MgmtMsg) (s : State), s.telFifo.length < 900 ∧ Heard m s ∧ InSession m s ∧ paramKnown (leNat (m.payload.take 2)) = true ∧ 4 ≤ m.payload.length ∧ paramOk (leNat (m.payload.take 2)) (m.payload.drop 4) = true ∧ rd ACC_SESSION.role (m.sess - 1) s ≠ 2) ∧
    (∃ (m : MgmtMsg) (ans : ModAnswer) (n : Nat) (k : Nat) (s : State), s.telFifo.length < 900 ∧ Heard m s ∧ InSession m s ∧ m.payload.length = 6 ∧ m.payload.getD 0 0 = k ∧ k < 128 ∧ m.payload.getD 4 0 = 0 ∧ m.payload.getD 5 0 = n ∧ 1 ≤ n ∧ n ≤ 128 ∧ ans.ok = true ∧ rdBit HIF_STATUS.i2c_stuck 0 (rd PRT_OCT_MODULE_MAP.i2c_master k s) s = false) ∧
    (∃ (m : MgmtMsg) (ans : ModAnswer) (n : Nat) (k : Nat) (s : State), s.telFifo.length < 900 ∧ Heard m s ∧ InSession m s ∧ m.payload.length = 6 ∧ m.payload.getD 0 0 = k ∧ k < 128 ∧ m.payload.getD 4 0 = 0 ∧ m.payload.getD 5 0 = n ∧ 1 ≤ n ∧ n ≤ 128 ∧ ans.ok = false) ∧
    (∃ (m : MgmtMsg) (k : Nat) (s : State), s.telFifo.length < 900 ∧ mgmtServes s = true ∧ engStopped s = true ∧ getL LHIF.mq 0 s = [] ∧ m.path = .mgmt0 ∧ mgmtPort 0 s = true ∧ addressed m 2 s = true ∧ (poolAlloc 24 2 s).1 = k ∧ k ≠ 0xFFFFFFFF ∧ (parts (getL LHIF.held 0 s)).length < 1024) ∧
    (∃ (m : MgmtMsg) (k : Nat) (s : State), s.telFifo.length < 900 ∧ mgmtServes s = true ∧ engStopped s = false ∧ getL LHIF.mq 0 s = [] ∧ m.path = .mgmt0 ∧ headerOk m = true ∧ InSession m s ∧ m.payload = [] ∧ poolUseCode 24 k 0 32 s = 0 ∧ getL LHIF.held 0 s = (packMsg 6 k [] (keyed 6 m s)).length :: packMsg 6 k [] (keyed 6 m s)) ∧
    (∃ (m : MgmtMsg) (s : State) (d : List Nat), s.telFifo.length < 900 ∧ Waits 6 d (keyed 6 m s) s ∧ InSession m s ∧ m.payload = []) ∧
    (∃ (m : MgmtMsg) (s : State), s.telFifo.length < 900 ∧ engStopped s = false ∧ getL LHIF.mq 0 s = [] ∧ m.path = .inband ∧ getL LHIF.held 0 s = []) :=
  ⟨⟨MSGP 8 (wds [0x100000, 256]), 256, SES 7 1, by unfold Heard; unfold InSession; decide +kernel⟩,
    ⟨MSG0 8 (wds [0x100000, 2]), 2, SES 7 0, by unfold Heard; unfold InSession; decide +kernel⟩,
    ⟨MSG0 8 (wds [regAddr rCFG_STAGE_MASK 0, 1]), SES 7 0, by unfold Heard; unfold InSession; decide +kernel⟩,
    ⟨MSG0 8 [1], SES 7 0, by unfold Heard; unfold InSession; decide +kernel⟩,
    ⟨MSG0 8 (wds [regAddr rCFG_STAGE_MASK 0, 0xFFFFFFFF, 5, 0xF0000000, 0, 0]), 2, SES 7 2, by unfold Heard; unfold InSession; decide +kernel⟩,
    ⟨MSG0 8 (wds [regAddr rCFG_STAGE_MASK 0, 0xFFFFFFFF, 77]), 77, SES 7 2, by unfold Accepted Direct; unfold Heard; unfold InSession; decide +kernel⟩,
    ⟨MSG0 8 (wds [regAddr rCFG_STAGE_MASK 0, 0xFFFFFFFF, 77]), 77, SES 7 0, by unfold Heard; unfold InSession; decide +kernel⟩,
    ⟨MSGP 8 ([0, 3, 0, 0] ++ wds [0, 1 + 8 * 2 ^ 26, 0, 5, 65536, 0, 0, 0, 0]), 3, 0, SES 7 2, by unfold Heard; unfold InSession; decide +kernel⟩,
    ⟨MSG0 8 ([5, 1, 0, 0] ++ wds [0, 0, 0, 0, 0, 0, 0, 0, 0]), 1, 5, SES 7 1, by unfold Heard; unfold InSession; decide +kernel⟩,
    ⟨MSGP 8 ([0, 3, 0, 0] ++ wds [0, 1 + 8 * 2 ^ 26, 0, 5, 65536, 0, 0, 0, 0]), 3, 0, SES 7 1, by unfold Heard; unfold InSession; decide +kernel⟩,
    ⟨MSGP 8 ADPAY, 7, ADMS, ⟨1, 2, [1, 2, 8, 8, 5, 77, 0x13], 0, ⟨0, 0, 0, 0, 0, 0, 0⟩, ADRQ⟩, atJob ⟨1, 2, [1, 2, 8, 8, 5, 77, 0x13], 0, ⟨0, 0, 0, 0, 0, 0, 0⟩, ADRQ⟩ (atRequest (MSGP 8 ADPAY) ADMS), by unfold Heard; unfold InSession; decide +kernel⟩,
    ⟨MSGP 8 ADPAY, 7, SES 7 3, by unfold Heard; unfold InSession; decide +kernel⟩,
    ⟨{ MSGP 8 (wds [7]) with ctr := 6, rid := 78 }, 7, ADMT, by unfold Heard; unfold InSession; decide +kernel⟩,
    ⟨{ MSGP 8 (wds [7]) with ctr := 6, rid := 78 }, 7, ADMT, by unfold Heard; unfold InSession; decide +kernel⟩,
    ⟨MSG0 8 (wds [9]), 9, wr ACC_SESSION.role 7 1 ADMS, by unfold Heard; unfold InSession; decide +kernel⟩,
    ⟨MSG0 8 (wds [9]), 9, wr ACC_SESSION.role 7 0 ADMS, by unfold Heard; unfold InSession; decide +kernel⟩,
    ⟨{ MSG0 8 (wds [7]) with ctr := 6, rid := 78 }, 7, wr ACC_SESSION.role 7 3 ADMT, by unfold Heard; unfold InSession; decide +kernel⟩,
    ⟨MSGP 8 (wds [0xD04, 0x100A0064]), 0x100A0064, SES 7 2, by unfold Heard; unfold InSession; decide +kernel⟩,
    ⟨MSGP 8 (wds [0xD04, 0x100A0064]), SES 7 1, by unfold Heard; unfold InSession; decide +kernel⟩,
    ⟨MSGP 8 [127, 0, 0, 5, 0, 2], ⟨true, [7, 8, 9]⟩, 2, 127, SES 7 1, by unfold Heard; unfold InSession; decide +kernel⟩,
    ⟨MSGP 8 [127, 0, 0, 5, 0, 2], ⟨false, []⟩, 2, 127, SES 7 1, by unfold Heard; unfold InSession; decide +kernel⟩,
    ⟨MSG 8, (poolAlloc 24 2 (SES 7 1)).1, wr HRED.gap 0 1 (SES 7 1), by decide +kernel⟩,
    ⟨MSG 8, poolHandle 2 0 1, HELD, by unfold InSession; exact held_witness⟩,
    ⟨MSGI, HELDI, HDRI, by unfold Waits InSession; exact heldi_witness⟩,
    ⟨MSGI, SES 7 1, by decide +kernel⟩⟩

theorem test_events_and_exports :
    (∃ (c : Capture) (l : List Capture) (s : State), s.telFifo.length < 900 ∧ s.telFifo = c :: l ∧ folsorWrites s = true ∧ (∀ e ∈ List.range 4, rdBit TEL_DEST_W0.types e 3 s = false)) ∧
    (∃ (c : Capture) (l : List Capture) (s : State), s.telFifo.length < 900 ∧ s.telFifo = c :: l ∧ folsorWrites s = true ∧ (∀ e ∈ List.range 4, rdBit TEL_DEST_W0.types e 3 s = false)) ∧
    (∃ (c : Capture) (l : List Capture) (s : State), s.telFifo.length < 900 ∧ s.telFifo = c :: l ∧ folsorWrites s = true ∧ (∀ e ∈ List.range 4, rdBit TEL_DEST_W0.types e 3 s = false)) ∧
    (∃ (k : Nat) (c : Capture) (l : List Capture) (s : State), s.telFifo.length < 900 ∧ s.telFifo = c :: l ∧ folsorWrites s = true ∧ (∀ e ∈ List.range 4, rdBit TEL_DEST_W0.types e 3 s = decide (e = 0)) ∧ rd TEL_DEST_W0.kind 0 s = 1 ∧ rd TEL_DEST_W0.ring 0 s = k ∧ rd HIF_RING_W2.kind k s = 2 ∧ ringRuns k s = true ∧ rd HHIF.used k s < ringPosted k s ∧ (poolAlloc 5 2 s).1 ≠ 0xFFFFFFFF) ∧
    (∃ (s : State), s.telFifo.length < 900 ∧ (folsorWrites s = false ∨ s.telFifo = [])) ∧
    (∃ (s : State), s.telFifo.length < 900 ∧ (folsorWrites s = false ∨ s.telFifo = [])) ∧
    (∃ (s : State), s.telFifo.length < 900 ∧ rd TEL_EXPORT_CFG.cnt_period 0 s = 0) ∧
    (∃ (s : State), s.telFifo.length < 900 ∧ rd TEL_EXPORT_CFG.cnt_period 0 s ≠ 0 ∧ rd TEL_EXPORT_CFG.cnt_sets 0 s = 0) ∧
    (∃ (s : State), s.telFifo.length < 900 ∧ rd TEL_EXPORT_CFG.cnt_period 0 s ≠ 0 ∧ rd TEL_EXPORT_CFG.cnt_sets 0 s = 128 ∧ (∀ e ∈ List.range 4, rdBit TEL_DEST_W0.types e 1 s = decide (e = 0)) ∧ rd TEL_DEST_W0.kind 0 s = 1 ∧ ringRuns (rd TEL_DEST_W0.ring 0 s) s = false) ∧
    (∃ (n : Nat) (k : Nat) (s : State), s.telFifo.length < 900 ∧ rd TEL_EXPORT_CFG.hist_period 0 s ≠ 0 ∧ (touched SCH_WATCH.enable s).filter (fun w => rdB SCH_WATCH.enable w s) = [n] ∧ (∀ e ∈ List.range 4, rdBit TEL_DEST_W0.types e 2 s = decide (e = 0)) ∧ rd TEL_DEST_W0.kind 0 s = 1 ∧ rd TEL_DEST_W0.ring 0 s = k ∧ rd HIF_RING_W2.kind k s = 2 ∧ ringRuns k s = true ∧ rd HHIF.used k s < ringPosted k s ∧ (poolAlloc 5 2 s).1 ≠ 0xFFFFFFFF) ∧
    (∃ (s : State), s.telFifo.length < 900 ∧ rd TEL_EXPORT_CFG.hist_period 0 s = 0) ∧
    (∃ (n : Nat) (s : State), s.telFifo.length < 900 ∧ rd HTEL.dg_timer n s ≠ 0 ∧ rd HTEL.dg_count n s ≠ 0) ∧
    (∃ (n : Nat) (s : State), s.telFifo.length < 900 ∧ rd HTEL.dg_timer n s = 0) :=
  ⟨⟨⟨3, 0x401, [7], 900, false⟩, [], { run 5 F0 with telFifo := [⟨3, 0x401, [7], 900, false⟩] }, by decide +kernel⟩,
    ⟨⟨3, 0x401, [7], 900, false⟩, [], { run 5 (wr INTC_GRP.holdoff 50 30 F0) with telFifo := [⟨3, 0x401, [7], 900, false⟩] }, by decide +kernel⟩,
    ⟨⟨3, 0x401, [7], 900, false⟩, [], { run 5 (wr HTEL.lost 0 4 F0) with telFifo := [⟨3, 0x401, [7], 900, false⟩] }, by decide +kernel⟩,
    ⟨2, ⟨3, 0x401, [7], 900, false⟩, [], { run 5 (wr POOL_REQ_QR.quota 22 8 (wr TEL_DEST_W0.types 0 15 (wr TEL_DEST_W0.kind 0 1 (wr TEL_DEST_W0.ring 0 2 (RGK 2 2))))) with telFifo := [⟨3, 0x401, [7], 900, false⟩] }, by decide +kernel⟩,
    ⟨wr HRED.gap 0 1 F0, by decide +kernel⟩,
    ⟨F0, by decide +kernel⟩,
    ⟨F0, by decide +kernel⟩,
    ⟨wr TEL_EXPORT_CFG.cnt_period 0 5 (wr HTEL.cntt 0 9 F0), by decide +kernel⟩,
    ⟨wr TEL_EXPORT_CFG.cnt_period 0 5 (wr TEL_EXPORT_CFG.cnt_sets 0 128 (wr TEL_DEST_W0.types 0 15 (wr TEL_DEST_W0.kind 0 1 F0))), by decide +kernel⟩,
    ⟨5, 2, wr TEL_EXPORT_CFG.hist_period 0 5 (wr SCH_WATCH.enable 5 1 (wr POOL_REQ_QR.quota 22 8 (wr TEL_DEST_W0.types 0 15 (wr TEL_DEST_W0.kind 0 1 (wr TEL_DEST_W0.ring 0 2 (RGK 2 2)))))), by decide +kernel⟩,
    ⟨F0, by decide +kernel⟩,
    ⟨3, wr HTEL.dg_timer 3 9 (wr HTEL.dg_count 3 2 (setL LTEL.dg 3 [1, 2] F0)), by decide +kernel⟩,
    ⟨3, F0, by decide +kernel⟩⟩

end Sys2Proof.Tests
end

section
/-!
PROOFS. Frames of whole commands, access errors, the logs of the complexes, and accesses to addresses that take none (R6, R8, R350, R533).
-/

namespace Sys2Proof.Machine

variable {fs : List (Fld × Nat)} {ls : List (Lst × Nat)} {cs : List (Cnt × Nat)} {s t : State} {a : Access}

/-! ### Frames of whole commands -/

theorem frame_refl : Frame fs ls cs s s := ⟨fieldsKept_refl, listsKept_refl, countsKept_refl, storesKept_refl⟩

theorem frame_wr {f : Fld} {i : Nat} (hf : (f, i) ∈ fs) (v : Nat) (h : Frame fs ls cs s t) : Frame fs ls cs s (wr f i v t) :=
  ⟨fieldsKept_wr hf v h.1, h.2⟩

theorem frame_setL {l : Lst} {i : Nat} (hl : (l, i) ∈ ls) (v : List Nat) (h : Frame fs ls cs s t) : Frame fs ls cs s (setL l i v t) := by
  obtain ⟨hf, hls, hc, hst⟩ := h
  exact ⟨hf, listsKept_setL hl v hls, hc, hst⟩

theorem frame_incBy {c : Cnt} {i : Nat} (hc : (c, i) ∈ cs) (n : Nat) (h : Frame fs ls cs s t) : Frame fs ls cs s (incBy c i n t) := by
  obtain ⟨hf, hl, hcs, hst⟩ := h
  exact ⟨hf, hl, countsKept_incBy hc n hcs, hst⟩

theorem frame_emit (k : OutKind) (n : Nat) (args : List Nat) (h : Frame fs ls cs s t) : Frame fs ls cs s (emit k n args t) := h

theorem frame_auditWritten (hf : (HAUD.tail, 0) ∈ fs) (hl : (LAUD.cap, rd HAUD.tail 0 t) ∈ ls) (a : Access) (addr : Nat) (r : Reg)
    (i mask v : Nat) (s0 : State) (h : Frame fs ls cs s t) : Frame fs ls cs s (auditWritten a addr r i mask v s0 t) := by
  obtain ⟨hfs, hls, hcs, hst⟩ := h
  exact ⟨fieldsKept_auditWritten hf a addr r i mask v s0 hfs, listsKept_auditWritten a addr r i mask v s0 hl hls,
    countsKept_auditWritten a addr r i mask v s0 hcs, storesKept_auditWritten a addr r i mask v s0 hst⟩

theorem frame_settle (h : Frame fs ls cs s t) : Frame fs ls cs s (settle s t) := by
  obtain ⟨hf, hl, hc, hst⟩ := h
  exact ⟨fieldsKept_settle s hf, listsKept_settle s hl, countsKept_settle s hc, storesKept_settle hst⟩

theorem silent_settle (s0 : State) (h : Silent s t) : Silent s (settle s0 t) := by
  simpa [Silent] using h

theorem snapped_settle {p : Cnt → Nat → Bool} (s0 : State) (h : Snapped p s t) : Snapped p s (settle s0 t) := by
  simpa [Snapped] using h

/-! ### Access errors (R8, R533) -/

/-- An access error writes its own log and count, and nothing else. -/
theorem frame_accErr (hf : errFlds ⊆ fs) (hc : (cnt_GLB_access_errors, 0) ∈ cs) (a : Access) (addr kind : Nat) (write : Bool)
    (h : Frame fs ls cs s t) : Frame fs ls cs s (accErr a addr kind write t) :=
  frame_wr (hf (by simp [errFlds])) _ (frame_wr (hf (by simp [errFlds])) _ (frame_wr (hf (by simp [errFlds])) _
    (frame_wr (hf (by simp [errFlds])) _ (frame_wr (hf (by simp [errFlds])) _ (frame_incBy hc 1 h)))))

@[simp] theorem accErr_telFifo (a : Access) (addr kind : Nat) (write : Bool) (s : State) : (accErr a addr kind write s).telFifo = s.telFifo := rfl
@[simp] theorem accErr_out (a : Access) (addr kind : Nat) (write : Bool) (s : State) : (accErr a addr kind write s).out = s.out := rfl

theorem rd_accErr {f : Fld} (h : ∀ e ∈ errFlds, f.id ≠ e.1.id) (i : Nat) (a : Access) (addr kind : Nat) (write : Bool) (s : State) :
    rd f i (accErr a addr kind write s) = rd f i s := by
  simp only [errFlds, List.forall_mem_cons] at h
  obtain ⟨haddr, hpath, hwrite, hkind, hrole, -⟩ := h
  simp only [accErr, wrB_eq, rd_wr_other haddr, rd_wr_other hpath, rd_wr_other hwrite, rd_wr_other hkind, rd_wr_other hrole, inc_eq, rd_incBy]

theorem errorLogged_accErr {kind : Nat} (hk : kind < 8) (a : Access) (addr : Nat) (write : Bool) (s : State) :
    ErrorLogged addr kind write s (accErr a addr kind write s) := by
  have hw : b2n write < 2 := by cases write <;> decide
  refine ⟨?_, ?_, ?_, ?_⟩
  · simp only [accErr, wrB_eq, cnt_wr, inc_eq, cnt_incBy_same]
  · simp +decide only [accErr, wrB_eq, rd_wr_other, ne_eq, rd_wr_same]; rfl
  · simp +decide only [accErr, wrB_eq, rd_wr_other, ne_eq, rd_wr_same]; exact Nat.mod_eq_of_lt hk
  · simp +decide only [accErr, wrB_eq, rd_wr_other, ne_eq, rd_wr_same]; exact Nat.mod_eq_of_lt hw

/-- What is logged of an access error is read off four places; a change of the state that keeps them keeps it. -/
theorem errorLogged_keep {addr kind : Nat} {write : Bool} {u : State} (h : ErrorLogged addr kind write s t)
    (hc : cnt cnt_GLB_access_errors 0 u = cnt cnt_GLB_access_errors 0 t) (hf : ∀ e ∈ errFlds, rd e.1 e.2 u = rd e.1 e.2 t) :
    ErrorLogged addr kind write s u := by
  simp only [errFlds, List.forall_mem_cons] at hf
  obtain ⟨haddr, -, hwrite, hkind, -⟩ := hf
  simpa only [ErrorLogged, hc, haddr, hwrite, hkind] using h

theorem errorLogged_settle {addr kind : Nat} {write : Bool} (s0 : State) (h : ErrorLogged addr kind write s t) :
    ErrorLogged addr kind write s (settle s0 t) := by
  have apart : ∀ e ∈ errFlds, e.1.id ≠ RED_ALARM.hold.id ∧ e.1.id ≠ RED_ALARM.simplex.id ∧ e.1.id ≠ GLB_STATUS.alarm.id := by decide
  refine errorLogged_keep h (cnt_settle _ _ _ _) fun e he => ?_
  obtain ⟨hhold, hsimplex, halarm⟩ := apart e he
  exact rd_settle hhold hsimplex halarm _ _ _

/-! ### The logs of the complexes (R350) -/

/-- The state in which a direct write is made: a core's has entered the log of what was sent, in lockstep (R350). -/
def sentNote (a : Access) (addr mask value : Nat) (s : State) : State :=
  if a.path = .core ∧ rd RED_CX_STATUS.mode 0 s = 0 then setL LCX.sent 0 (getL LCX.sent 0 s ++ [a.who, addr, mask, value]) s else s

theorem coreWrite_direct (h : Direct a s) (addr mask value : Nat) (k : State → State) :
    coreWrite a addr mask value k s = k (sentNote a addr mask value s) := by
  by_cases hp : a.path = .core
  · simp only [coreWrite_core h hp, sentNote, hp, true_and]
  · simp only [coreWrite_outside h hp, sentNote, hp, false_and, if_false]

/-- A write of a core is noted in one list; any other is not noted. -/
theorem sentNote_cases (a : Access) (addr mask value : Nat) (s : State) :
    sentNote a addr mask value s = s ∨ a.path = .core ∧ ∃ v, sentNote a addr mask value s = setL LCX.sent 0 v s := by
  unfold sentNote
  split
  · next h => exact .inr ⟨h.1, _, rfl⟩
  · exact .inl rfl

@[simp] theorem rd_sentNote (f : Fld) (i : Nat) (a : Access) (addr mask value : Nat) (s : State) :
    rd f i (sentNote a addr mask value s) = rd f i s := by
  obtain h | ⟨-, v, h⟩ := sentNote_cases a addr mask value s <;> rw [h]
  exact rd_setL ..

@[simp] theorem cnt_sentNote (c : Cnt) (i : Nat) (a : Access) (addr mask value : Nat) (s : State) :
    cnt c i (sentNote a addr mask value s) = cnt c i s := by
  obtain h | ⟨-, v, h⟩ := sentNote_cases a addr mask value s <;> rw [h]
  exact cnt_setL ..

@[simp] theorem snapOf_sentNote (c : Cnt) (i : Nat) (a : Access) (addr mask value : Nat) (s : State) :
    snapOf c i (sentNote a addr mask value s) = snapOf c i s := by
  obtain h | ⟨-, v, h⟩ := sentNote_cases a addr mask value s <;> rw [h]
  exact snapOf_setL ..

@[simp] theorem sentNote_telFifo (a : Access) (addr mask value : Nat) (s : State) : (sentNote a addr mask value s).telFifo = s.telFifo := by
  obtain h | ⟨-, v, h⟩ := sentNote_cases a addr mask value s <;> rw [h]
  exact setL_telFifo ..

@[simp] theorem sentNote_out (a : Access) (addr mask value : Nat) (s : State) : (sentNote a addr mask value s).out = s.out := by
  obtain h | ⟨-, v, h⟩ := sentNote_cases a addr mask value s <;> rw [h]
  exact setL_out ..

theorem frame_sentNote (hl : a.path = .core → (LCX.sent, 0) ∈ ls) (addr mask value : Nat) (h : Frame fs ls cs s t) :
    Frame fs ls cs s (sentNote a addr mask value t) := by
  obtain he | ⟨hp, v, he⟩ := sentNote_cases a addr mask value t <;> rw [he]
  · exact h
  · exact frame_setL (hl hp) v h

/-- The state in which a direct read has been made: a core's answer has entered the replay log (R350). -/
def readNote (a : Access) (addr v : Nat) (s : State) : State := if a.path = .core then replayNote addr v s else s

theorem coreRead_direct (h : Direct a s) (addr : Nat) (k : State → Nat × State) :
    coreRead a addr k s = answer a addr ((k s).1, readNote a addr (k s).1 (k s).2) := by
  obtain ⟨hbar, hpcie, hcore⟩ := h
  by_cases hp : a.path = .core
  · simp [coreRead, readNote, hp, rdB, hcore hp]
  · by_cases hq : a.path = .pcie
    · simp [coreRead, readNote, hq, hpcie hq]
    · simp [coreRead, readNote, hp, hq, hbar]

/-- A core's answer may be noted in one list, or force a checkpoint; any other answer is not noted. -/
theorem readNote_cases (a : Access) (addr v : Nat) (s : State) :
    readNote a addr v s = s ∨
      a.path = .core ∧ (readNote a addr v s = checkpointTake s ∨ ∃ l, readNote a addr v s = setL LCX.replay 0 l s) := by
  unfold readNote
  split
  · next hp =>
    unfold replayNote
    dsimp only
    split
    · exact .inl rfl
    · split
      · exact .inr ⟨hp, .inl rfl⟩
      · exact .inr ⟨hp, .inr ⟨_, rfl⟩⟩
  · exact .inl rfl

theorem frame_checkpointTake (hf : logFlds ⊆ fs) (hl : logLists ⊆ ls) (h : Frame fs ls cs s t) : Frame fs ls cs s (checkpointTake t) :=
  frame_setL (hl (by simp [logLists])) _ (frame_setL (hl (by simp [logLists])) _ (frame_wr (hf (by simp [logFlds])) _
    (frame_wr (hf (by simp [logFlds])) _ (frame_wr (hf (by simp [logFlds])) _ h))))

theorem frame_readNote (hlog : a.path = .core → logFlds ⊆ fs ∧ logLists ⊆ ls) (addr v : Nat) (h : Frame fs ls cs s t) :
    Frame fs ls cs s (readNote a addr v t) := by
  obtain he | ⟨hp, he | ⟨l, he⟩⟩ := readNote_cases a addr v t <;> rw [he]
  · exact h
  · exact frame_checkpointTake (hlog hp).1 (hlog hp).2 h
  · exact frame_setL ((hlog hp).2 (by simp [logLists])) l h

theorem rd_checkpointTake {f : Fld} (h : ∀ e ∈ logFlds, f.id ≠ e.1.id) (i : Nat) (s : State) : rd f i (checkpointTake s) = rd f i s := by
  simp only [logFlds, List.forall_mem_cons] at h
  obtain ⟨hckpt, hecc, -⟩ := h
  simp only [checkpointTake, rd_setL, rd_wr_other hckpt, rd_wr_other hecc]

theorem rd_readNote {f : Fld} (h : ∀ e ∈ logFlds, f.id ≠ e.1.id) (i : Nat) (a : Access) (addr v : Nat) (s : State) :
    rd f i (readNote a addr v s) = rd f i s := by
  obtain he | ⟨-, he | ⟨l, he⟩⟩ := readNote_cases a addr v s <;> rw [he]
  · exact rd_checkpointTake h i s
  · exact rd_setL ..

@[simp] theorem cnt_readNote (c : Cnt) (i : Nat) (a : Access) (addr v : Nat) (s : State) : cnt c i (readNote a addr v s) = cnt c i s := by
  obtain he | ⟨-, he | ⟨l, he⟩⟩ := readNote_cases a addr v s <;> rw [he] <;> rfl

@[simp] theorem readNote_telFifo (a : Access) (addr v : Nat) (s : State) : (readNote a addr v s).telFifo = s.telFifo := by
  obtain he | ⟨-, he | ⟨l, he⟩⟩ := readNote_cases a addr v s <;> rw [he] <;> rfl

@[simp] theorem readNote_out (a : Access) (addr v : Nat) (s : State) : (readNote a addr v s).out = s.out := by
  obtain he | ⟨-, he | ⟨l, he⟩⟩ := readNote_cases a addr v s <;> rw [he] <;> rfl

/-- What an access of any path leaves as it was has one proof: what it names of the logs, it names for a core only. -/
theorem frames_of_path {fs0 : List (Fld × Nat)}
    (h : ∀ fs ls, fs0 ⊆ fs → (a.path = .core → logFlds ⊆ fs ∧ logLists ⊆ ls) → Frame fs ls cs s t) :
    (a.path ≠ .core → Frame fs0 [] cs s t) ∧ Frame (fs0 ++ logFlds) logLists cs s t :=
  ⟨fun hp => h _ _ (List.Subset.refl _) fun hc => absurd hc hp,
    h _ _ (List.subset_append_left ..) fun _ => ⟨List.subset_append_right .., List.Subset.refl _⟩⟩

/-! ### Accesses to addresses that take none (R6, R8) -/

/-- What an access to such an address leaves: one access error of its kind, and 0 for a read. -/
def RefusedAs (a : Access) (addr kind : Nat) (write : Bool) (s t : State) : Prop :=
  ErrorLogged addr kind write s t ∧ t.telFifo = s.telFifo ∧ t.out = (if write then s.out else s.out ++ [⟨.busRead, auditPath a.path, [addr, 0]⟩]) ∧
    (a.path ≠ .core → Frame errFlds [] [(cnt_GLB_access_errors, 0)] s t) ∧ Frame (errFlds ++ logFlds) logLists [(cnt_GLB_access_errors, 0)] s t

theorem refusedAs_write {kind : Nat} (hk : kind < 8) (h : Direct a s) (addr : Nat) :
    RefusedAs a addr kind true s (settle s (coreWrite a addr 0xFFFFFFFF 0 (accErr a addr kind true) s)) := by
  rw [coreWrite_direct h]
  refine ⟨errorLogged_settle s ?_, by simp, by simp, frames_of_path fun fs ls hf hlog => ?_⟩
  · simpa only [ErrorLogged, cnt_sentNote] using errorLogged_accErr hk a addr true (sentNote a addr 0xFFFFFFFF 0 s)
  · exact frame_settle (frame_accErr hf (by simp) a addr kind true
      (frame_sentNote (fun hp => (hlog hp).2 (by simp [logLists])) addr 0xFFFFFFFF 0 frame_refl))

theorem refusedAs_read {kind : Nat} (hk : kind < 8) (h : Direct a s) (addr : Nat) :
    RefusedAs a addr kind false s (settle s (coreRead a addr (fun s => (0, accErr a addr kind false s)) s)) := by
  rw [coreRead_direct h]
  refine ⟨errorLogged_settle s (errorLogged_keep (errorLogged_accErr hk a addr false s) ?_ fun e he => ?_), by simp [answer], by simp [answer],
    frames_of_path fun fs ls hf hlog => ?_⟩
  · simp only [answer, cnt_emit, cnt_readNote]
  · have apart : ∀ e ∈ errFlds, ∀ g ∈ logFlds, e.1.id ≠ g.1.id := by decide
    simp only [answer, rd_emit, rd_readNote (apart e he)]
  · exact frame_settle (frame_emit _ _ _ (frame_readNote hlog addr 0
      (frame_accErr hf (by simp) a addr kind false frame_refl)))

end Sys2Proof.Machine
end

section
open Sys2Proof Sys2Proof.Machine

/-- Settles O7: a write and a read of such an address each leave one access error and no other change, whatever its kind. -/
theorem refusedAddresses : Obligations.RefusedAddresses := by
  intro a addr write s h
  refine ⟨gives_of (exec_narrowAccess a addr write s) ?_, fun ha hl => gives_of (exec_unmappedAccess a addr write s) ?_⟩
  · rintro t rfl
    cases write
    · exact refusedAs_read (by decide) h addr
    · exact refusedAs_write (by decide) h addr
  · rintro t rfl
    simp only [ha, hl, Bool.not_true, Bool.false_or, ne_eq, not_true_eq_false, decide_false, Bool.false_eq_true, if_false]
    cases write
    · exact refusedAs_read (by decide) h addr
    · exact refusedAs_write (by decide) h addr

end

section
/-!
PROOFS. Register writes and snapshots (R9, R15, R446, R447, R495).
-/

namespace Sys2Proof.Machine

variable {fs : List (Fld × Nat)} {ls : List (Lst × Nat)} {cs : List (Cnt × Nat)} {s t : State} {a : Access} {r : Reg} {i mask value : Nat}

/-! ### Accepted writes of any path -/

/-- Whether a write of an ordinary register is accepted does not rest on a list of State. -/
theorem accepted_setL (hc : ∀ u, cmdErr r i (value &&& mask) u = none) (hb : ∀ w u, badValue r i mask w u = false) (l : Lst) (j : Nat)
    (v : List Nat) (h : Accepted a r i mask value s) : Accepted a r i mask value (setL l j v s) := by
  obtain ⟨hdirect, hrole, hport, -, haudit, -⟩ := h
  exact ⟨hdirect, hrole, hport, hc _, haudit, hb _ _⟩

theorem accepted_sentNote (hc : ∀ u, cmdErr r i (value &&& mask) u = none) (hb : ∀ w u, badValue r i mask w u = false) (addr m v : Nat)
    (h : Accepted a r i mask value s) : Accepted a r i mask value (sentNote a addr m v s) := by
  obtain he | ⟨-, l, he⟩ := sentNote_cases a addr m v s <;> rw [he]
  · exact h
  · exact accepted_setL hc hb _ _ _ h

/-! ### Snapshots (R15, R495) -/

/-- The counters a block's snapshot register copies. -/
def blockSet (blk : Nat) : List Cnt := (snapBlocks.map (·.2)).getD blk []

theorem writeReg_snapReg {blk : Nat} (hb : blk < 16) (h : Accepted a (snapReg blk) 0 0xFFFFFFFF 1 s) :
    writeReg reboot a (regAddr (snapReg blk) 0) (snapReg blk) 0 0xFFFFFFFF 1 s =
      auditWritten a (regAddr (snapReg blk) 0) (snapReg blk) 0 0xFFFFFFFF 1 s (snapBlock (blockSet blk) s) := by
  match blk, hb, h with
  | 0, _, h => exact writeReg_ADM_SNAPSHOT rfl h
  | 1, _, h => exact writeReg_PRT_SNAPSHOT rfl h
  | 2, _, h => exact writeReg_TBL_SNAPSHOT rfl h
  | 3, _, h => exact writeReg_BUF_SNAPSHOT rfl h
  | 4, _, h => exact writeReg_SCH_SNAPSHOT rfl h
  | 5, _, h => exact writeReg_FAB_SNAPSHOT rfl h
  | 6, _, h => exact writeReg_TIM_SNAPSHOT rfl h
  | 7, _, h => exact writeReg_PWR_SNAPSHOT rfl h
  | 8, _, h => exact writeReg_RED_SNAPSHOT rfl h
  | 9, _, h => exact writeReg_INTC_SNAPSHOT rfl h
  | 10, _, h => exact writeReg_POOL_SNAPSHOT rfl h
  | 11, _, h => exact writeReg_CFG_SNAPSHOT rfl h
  | 12, _, h => exact writeReg_ACC_SNAPSHOT rfl h
  | 13, _, h => exact writeReg_HIF_SNAPSHOT rfl h
  | 14, _, h => exact writeReg_TEL_SNAPSHOT rfl h
  | 15, _, h => exact writeReg_GLB_SNAPSHOT rfl h
  | n + 16, hb, _ => exact absurd hb (by omega)

theorem cmdErr_snapReg {blk : Nat} (hb : blk < 16) (v : Nat) (s : State) : cmdErr (snapReg blk) 0 v s = none :=
  match blk, hb with
  | 0, _ | 1, _ | 2, _ | 3, _ | 4, _ | 5, _ | 6, _ | 7, _ | 8, _ | 9, _ | 10, _ | 11, _ | 12, _ | 13, _ | 14, _ | 15, _ => rfl
  | n + 16, hb => absurd hb (by omega)

theorem badValue_snapReg {blk : Nat} (hb : blk < 16) (m w : Nat) (s : State) : badValue (snapReg blk) 0 m w s = false :=
  match blk, hb with
  | 0, _ | 1, _ | 2, _ | 3, _ | 4, _ | 5, _ | 6, _ | 7, _ | 8, _ | 9, _ | 10, _ | 11, _ | 12, _ | 13, _ | 14, _ | 15, _ => rfl
  | n + 16, hb => absurd hb (by omega)

/-- A snapshot of a state with the counters and copies of `s` takes the copies of `s`. -/
theorem snapped_snapWhere {p : Key → Bool} {q : Cnt → Nat → Bool} (hpq : ∀ c i, p (c.id, i) = q c i) {u : State}
    (hc : ∀ c i, cnt c i u = cnt c i s) (hs : ∀ c i, snapOf c i u = snapOf c i s) : Snapped q s (snapWhere p u) := by
  intro c i
  rw [snapOf_snapWhere, hpq, hc, hs, cnt_snapWhere, hc]
  exact ⟨rfl, rfl⟩

theorem snapped_auditWritten {q : Cnt → Nat → Bool} (addr v : Nat) (s0 : State) (h : Snapped q s t) :
    Snapped q s (auditWritten a addr r i mask v s0 t) := by
  simpa [Snapped] using h

/-- A snapshot register's accepted write, by any path: the copies are taken, and nothing is raised or sent. -/
theorem snapped_regWrite {p : Key → Bool} {q : Cnt → Nat → Bool} (hpq : ∀ c i, p (c.id, i) = q c i) (hd : Direct a s) {v : Nat}
    (hw : writeReg reboot a (regAddr r i) r i 0xFFFFFFFF 1 (sentNote a (regAddr r i) 0xFFFFFFFF 1 s) =
      auditWritten a (regAddr r i) r i 0xFFFFFFFF v (sentNote a (regAddr r i) 0xFFFFFFFF 1 s)
        (snapWhere p (sentNote a (regAddr r i) 0xFFFFFFFF 1 s))) :
    Snapped q s (settle s (regWrite a r i 1 s)) ∧ Silent s (settle s (regWrite a r i 1 s)) := by
  have hr := (coreWrite_direct hd (regAddr r i) 0xFFFFFFFF 1 (writeReg reboot a (regAddr r i) r i 0xFFFFFFFF 1)).trans hw
  rw [show regWrite a r i 1 s = _ from hr]
  exact ⟨snapped_settle s (snapped_auditWritten _ _ _ (snapped_snapWhere hpq (by simp) (by simp))), silent_settle s (by simp [Silent])⟩

end Sys2Proof.Machine
end

section
open Sys2Proof Sys2Proof.Machine

/-- Settles O8: each snapshot register's accepted write is one copy of its own set of counters. -/
theorem snapshots : Obligations.Snapshots := by
  intro a blk sl s
  refine ⟨fun hb h => gives_of (exec_snapshot a blk sl s) ?_, fun hs hw h hby => gives_of (exec_snapshot a 16 sl s) ?_,
    fun h => gives_of (exec_snapAll a s) ?_⟩
  · rintro t rfl
    rw [if_neg (by omega)]
    exact snapped_regWrite (p := fun k => (blockSet blk).any (fun c => c.id == k.1)) (fun _ _ => rfl) h.1
      (writeReg_snapReg hb (accepted_sentNote (cmdErr_snapReg hb _) (badValue_snapReg hb _) _ _ _ h))
  · rintro t rfl
    rw [if_pos rfl]
    exact snapped_regWrite (p := fun k => cntsSLC.any (fun c => c.id = k.1 && k.2 / c.per = sl)) (fun _ _ => rfl) h.1
      (writeReg_SLC_SNAPSHOT (accepted_sentNote (fun _ => rfl) (fun _ _ => rfl) _ _ _ h) hs (by simpa using hw) (by simpa [by16] using hby))
  · rintro t rfl
    exact snapped_regWrite (p := fun _ => true) (fun _ _ => rfl) h.1
      (writeReg_TEL_SNAP_ALL rfl (accepted_sentNote (fun _ => rfl) (fun _ _ => rfl) _ _ _ h))

end

section
/-!
PROOFS. Registers that take a write without an effect beside it, and a refusal on role grounds (R9, R446, R447).
-/

namespace Sys2Proof.Machine

variable {fs : List (Fld × Nat)} {ls : List (Lst × Nat)} {cs : List (Cnt × Nat)} {s t : State} {a : Access} {r : Reg} {i mask value : Nat}

/-! ### An accepted write of a register without rules of its own -/

/-- A register that no rule locks, stages or refuses, and whose write nothing follows. -/
structure PlainReg (r : Reg) : Prop where
  live : sliceReg r = false := by rfl
  noRule : r.id ≠ rSLC_RULE_CMD.id := by decide
  noStage : r.id ≠ rCFG_STAGE_DATA.id := by decide
  noPending : r.id ≠ rINTC_HPEND.id := by decide
  noSt : ∀ f ∈ r.fields, f.acc ≠ .st := by decide
  noWo : ∀ f ∈ r.fields, f.acc ≠ .wo := by decide
  noState : ∀ f ∈ r.fields, CFG_CS_W4.state.id ≠ f.id := by decide
  unlocked : ∀ i s, lockedFlds r i s = [] := by simp +decide [lockedFlds]
  noAsk : ∀ v s, redAsks r v s = [] := by intros; rfl
  unpaired : ∀ i, pairOf r i = none := by intros; rfl
  noPolicer : ∀ i m w s, polWritten r i m w s = s := by intros; rfl
  noEffect : ∀ s0 i s, after s0 r i s = s := by intros; rfl
  noCmd : ∀ i v s, cmdErr r i v s = none := by intros; rfl
  noBad : ∀ i m w s, badValue r i m w s = false := by intros; rfl

theorem plainReg_GLB_SCRATCH : PlainReg rGLB_SCRATCH := {}
theorem plainReg_FAB_EVT : PlainReg rFAB_EVT := {}
theorem plainReg_GLB_DEVICE_ID : PlainReg rGLB_DEVICE_ID := {}

/-- The fields a whole word's write stores: those of access code W1C lose the bits written 1, those of access code RW take theirs. -/
def storeWord (r : Reg) (i w : Nat) (s : State) : State := setFields (fun f => f.acc = .rw && covers f 0xFFFFFFFF) r i w (clearW1c r i w s)

theorem mergeWord_full (r : Reg) (i : Nat) {w : Nat} (hw : w &&& 0xFFFFFFFF = w) (s : State) : mergeWord r i 0xFFFFFFFF w s = w := by
  simp [mergeWord, hw]

theorem storeLive_plain (hr : PlainReg r) {w : Nat} (hw : w &&& 0xFFFFFFFF = w) (s : State) :
    storeLive reboot a r 0xFFFFFFFF w i s = storeWord r i w s := by
  have hwo : hasFld (fun f => f.acc = .wo) r = false := by simpa [hasFld] using hr.noWo
  simp [storeLive, storeWord, hwo, hr.unpaired, hr.noPolicer, hr.noEffect, openFld, hr.unlocked, mergeWord_full r i hw, hw]

theorem writeReg_plain (hr : PlainReg r) {w : Nat} (hw : w &&& 0xFFFFFFFF = w) (h : Accepted a r i 0xFFFFFFFF w s) :
    writeReg reboot a (regAddr r i) r i 0xFFFFFFFF w s =
      auditWritten a (regAddr r i) r i 0xFFFFFFFF w s (storeWord r i w s) := by
  have hst : r.fields.filter (fun f => f.acc = .st) = [] := by simpa using hr.noSt
  have hany : r.fields.any (fun f => decide (f.acc = .st) && changes f r i 0xFFFFFFFF w s) = false := by
    simp +contextual [hr.noSt]
  have herr : targetErr a r 0xFFFFFFFF w i s = false := by
    simp [targetErr, lockHit, hr.unlocked, hr.noAsk, hr.noRule, hany]
  rw [writeReg_accepted h hr.noStage (by simp [winTargets_one hr.live, herr]), winTargets_one hr.live, forEach_cons, forEach_nil,
    writeTarget_live hr.live hr.noRule, storeLive_plain hr hw, hw]
  simp [writeSt, maskOf, hst]

/-! ### A change for each field of a register -/

/-- What none of the changes of a list touches, the list of them keeps. -/
theorem forEach_keeps {α β : Type} (g : State → β) {l : List α} {k : α → State → State} (h : ∀ x ∈ l, ∀ u, g (k x u) = g u) (s : State) :
    g (forEach l k s) = g s := by
  induction l generalizing s with
  | nil => rfl
  | cons x l ih =>
    rw [forEach_cons, ih (fun y hy => h y (List.mem_cons_of_mem _ hy)), h x List.mem_cons_self]

/-- Fields of different numbers, each changed by its own value, are each changed once. -/
theorem rd_forEach_wr {l : List Fld} (hn : (l.map Fld.id).Nodup) (k : Fld → Nat → Nat) {f : Fld} (hf : f ∈ l) (i : Nat) (s : State) :
    rd f i (forEach l (fun g u => wr g i (k g (rd g i u)) u) s) = k f (rd f i s) % 2 ^ f.width := by
  induction l generalizing s with
  | nil => cases hf
  | cons g l ih =>
    rw [List.map_cons, List.nodup_cons] at hn
    obtain ⟨hg, hl⟩ := hn
    rw [forEach_cons]
    rcases List.mem_cons.1 hf with rfl | hf
    · have apart : ∀ x ∈ l, f.id ≠ x.id := fun x hx h => hg (h ▸ List.mem_map_of_mem hx)
      rw [forEach_keeps (rd f i) fun x hx u => rd_wr_other (apart x hx) .., rd_wr_same]
    · rw [ih hl hf, rd_wr_other fun h => hg (h ▸ List.mem_map_of_mem hf)]

/-- What no write of a field of a register touches, storing a word in it keeps. -/
theorem storeWord_keeps {β : Type} (g : State → β) (hr : PlainReg r) (h : ∀ f ∈ r.fields, ∀ v u, g (wr f i v u) = g u) (w : Nat) (s : State) :
    g (storeWord r i w s) = g s := by
  have hmem : ∀ (p : Fld → Bool), ∀ f ∈ r.fields.filter p, f ∈ r.fields := fun _ _ hf => (List.mem_filter.1 hf).1
  rw [storeWord, setFields, forEach_keeps g fun f hf u => h f (hmem _ f hf) _ u, clearW1c, if_neg hr.noPending,
    forEach_keeps g fun f hf u => h f (hmem _ f hf) _ u]

/-! ### REGISTER_WRITE of such a register -/

theorem busWrite_reg {addr : Nat} (ha : aligned addr = true) (hl : locate addr s = .reg r i) (mask value : Nat) :
    busWrite a addr mask value s = writeReg reboot a addr r i (mask % 2 ^ 32) (value % 2 ^ 32) s := by
  simp [busWrite, busWriteWith, ha, hl]

/-- An access at an address of BAR0 by any path is a bus write, and the watch of the change sets follows it. -/
theorem addrWrite_direct (h : Direct a s) (addr mask value : Nat) :
    addrWrite a addr mask value s = csNote (busWrite a addr mask value (sentNote a addr mask value s)) := by
  rw [addrWrite, if_neg h.1, coreWrite_direct h]

theorem csNote_of_kept (hs : ∀ k ∈ [0, 1, 2, 3], rd CFG_CS_W4.state k s ≠ 2) (h : ∀ k, rd CFG_CS_W4.state k t = rd CFG_CS_W4.state k s) :
    csNote t = t :=
  csNote_unarmed fun k hk => h k ▸ hs k hk

/-- What an accepted write of a whole word leaves: the word stored, and the capture. -/
theorem addrWrite_plain (hr : PlainReg r) (hs : ∀ k ∈ [0, 1, 2, 3], rd CFG_CS_W4.state k s ≠ 2) (ha : aligned (regAddr r i) = true)
    (hl : ∀ u, locate (regAddr r i) u = .reg r i) {v : Nat} (h : Accepted a r i 0xFFFFFFFF (v % 2 ^ 32) s) :
    addrWrite a (regAddr r i) 0xFFFFFFFF v s =
      auditWritten a (regAddr r i) r i 0xFFFFFFFF (v % 2 ^ 32) (sentNote a (regAddr r i) 0xFFFFFFFF v s)
        (storeWord r i (v % 2 ^ 32) (sentNote a (regAddr r i) 0xFFFFFFFF v s)) := by
  rw [addrWrite_direct h.1, busWrite_reg ha (hl _), show 0xFFFFFFFF % 2 ^ 32 = 0xFFFFFFFF from rfl,
    writeReg_plain hr (word_and v) (accepted_sentNote (hr.noCmd _ _) (hr.noBad _ _) _ _ _ h)]
  refine csNote_of_kept hs fun k => ?_
  rw [rd_auditWritten (by decide), storeWord_keeps (rd _ k) hr fun f hf _ _ => rd_wr_other (hr.noState f hf) .., rd_sentNote]

/-! ### The three registers -/

theorem storeWord_GLB_SCRATCH (w : Nat) (s : State) :
    storeWord rGLB_SCRATCH 0 w s = wr GLB_SCRATCH.scratch 0 (part GLB_SCRATCH.scratch w) s := rfl

theorem storeWord_GLB_DEVICE_ID (w : Nat) (s : State) : storeWord rGLB_DEVICE_ID 0 w s = s := rfl

theorem storeWord_FAB_EVT (w : Nat) (s : State) :
    storeWord rFAB_EVT 0 w s = forEach rFAB_EVT.fields (fun f u => wr f 0 (rd f 0 u - (rd f 0 u &&& part f w)) u) s := rfl

theorem part_word (w : Nat) : part GLB_SCRATCH.scratch w = w % 2 ^ 32 := by
  simp [part, bitsOf, GLB_SCRATCH.scratch]

/-- Of a one-bit field, writing 1 clears and writing 0 keeps. -/
theorem clear_bit {x p : Nat} (hx : x < 2) (hp : p < 2) : (x - (x &&& p)) % 2 ^ 1 = if p = 1 then 0 else x := by
  have small : ∀ x < 2, ∀ p < 2, (x - (x &&& p)) % 2 ^ 1 = if p = 1 then 0 else x := by decide
  exact small x hx p hp

theorem rd_storeWord_FAB_EVT {f : Fld} (hf : f ∈ rFAB_EVT.fields) (w : Nat) (h : rd f 0 s < 2) :
    rd f 0 (storeWord rFAB_EVT 0 w s) = if part f w = 1 then 0 else rd f 0 s := by
  have hwidth : ∀ g ∈ rFAB_EVT.fields, g.width = 1 := by decide
  have hpart : part f w < 2 := by
    rw [part, bitsOf, hwidth f hf]
    exact Nat.mod_lt _ (by decide)
  rw [storeWord_FAB_EVT, rd_forEach_wr (by decide) (fun g x => x - (x &&& part g w)) hf, hwidth f hf, clear_bit h hpart]

/-! ### Refusals and accesses that do not reach the registers -/

theorem rd_refuse {f : Fld} (hlast : f.id ≠ HAUD.last.id) (htail : f.id ≠ HAUD.tail.id) (i : Nat) (a : Access) (addr : Nat) (s : State) :
    rd f i (refuse a addr s) = rd f i (accErr a addr 3 true s) := by
  unfold refuse
  dsimp only
  split
  · rw [audit, rd_auditPut htail, rd_wr_other hlast, rd_setL, inc_eq, rd_incBy]
  · rw [rd_setL, inc_eq, rd_incBy]

theorem cnt_refuse (c : Cnt) (i : Nat) (a : Access) (addr : Nat) (s : State) :
    cnt c i (refuse a addr s) = cnt c i (inc cnt_ACC_denied 0 (accErr a addr 3 true s)) := by
  unfold refuse
  dsimp only
  split
  · simp only [cnt, audit, auditPut_cnts, wr_cnts]
    rfl
  · rfl

/-- A refusal on role grounds is an access error of kind 3, and counted in denied (R447). -/
theorem errorLogged_refuse (a : Access) (addr : Nat) (s : State) : ErrorLogged addr 3 true s (refuse a addr s) := by
  have apart : ∀ e ∈ errFlds, e.1.id ≠ HAUD.last.id ∧ e.1.id ≠ HAUD.tail.id := by decide
  refine errorLogged_keep (errorLogged_accErr (by decide) a addr true s) ?_ fun e he => rd_refuse (apart e he).1 (apart e he).2 ..
  rw [cnt_refuse, inc_eq, cnt_incBy_other (by decide)]

theorem cnt_denied_refuse (a : Access) (addr : Nat) (s : State) :
    cnt cnt_ACC_denied 0 (refuse a addr s) = (cnt cnt_ACC_denied 0 s + 1) % 2 ^ 64 := by
  have hsame : cnt cnt_ACC_denied 0 (accErr a addr 3 true s) = cnt cnt_ACC_denied 0 s := by
    simp only [accErr, wrB_eq, cnt_wr, inc_eq, cnt_incBy_other (show cnt_ACC_denied.id ≠ cnt_GLB_access_errors.id by decide)]
  rw [cnt_refuse, inc_eq, cnt_incBy_same, hsame]

/-- The observe role writes no register that is not open to all (R446). -/
theorem writeReg_observe (hrole : accRole a s = some 0) (hopen : openToAll a r (value &&& mask) s = false) (hlive : sliceReg r = false)
    (hfuse : r.id ≠ rACC_FUSE_CMD.id) (addr : Nat) : writeReg reboot a addr r i mask value s = refuse a addr s := by
  have hno : roleOk a r i mask value s = false := by simp [roleOk, hrole, hopen]
  simp [writeReg, winTargets_one hlive, hno, hfuse]

/-- Outside the no-image state GLB_SCRATCH is not open to every role (R431). -/
theorem openToAll_GLB_SCRATCH (hb : rd CFG_BOOT_STATUS.state 0 s ≠ 2) (v : Nat) : openToAll a rGLB_SCRATCH v s = false := by
  simp +decide [openToAll, noImage, hb]

/-- A core's access carries no role (R445). -/
theorem path_ne_core_of_accRole (h : accRole a s = some 0) : a.path ≠ .core := by
  intro hp
  simp [accRole, hp] at h

/-- In a gap the comparator holds a core's write (R349). -/
theorem coreWrite_gap (hp : a.path = .core) (hg : rd HRED.gap 0 s ≠ 0) (hm : rd RED_CX_STATUS.mode 0 s ≠ 2) (addr mask value : Nat)
    (k : State → State) : coreWrite a addr mask value k s = coreHold [0, a.who, addr, mask, value] s := by
  simp [coreWrite, hp, rdB, hg, hm]

/-- Without its endpoint PCIe carries nothing (R466). -/
theorem coreWrite_noEndpoint (hp : a.path = .pcie) (he : pcieOn s = false) (addr mask value : Nat) (k : State → State) :
    coreWrite a addr mask value k s = s := by
  simp [coreWrite, hp, he]

theorem addrWrite_notBar2 (h : a.path ≠ .bar2) (addr mask value : Nat) (s : State) :
    addrWrite a addr mask value s = coreWrite a addr mask value (fun u => csNote (busWrite a addr mask value u)) s := by
  rw [addrWrite, if_neg h]

/-- A held transaction joins those the comparator holds, and changes nothing else. -/
theorem held_settle (x : List Nat) (s : State) : getL LCX.held 0 (settle s (coreHold x s)) = getL LCX.held 0 s ++ x ∧
    Silent s (settle s (coreHold x s)) ∧ Frame [] [(LCX.held, 0)] [] s (settle s (coreHold x s)) := by
  refine ⟨?_, silent_settle s (by simp [Silent, coreHold]), frame_settle (frame_setL (by simp) _ frame_refl)⟩
  rw [getL_settle (by decide), coreHold, getL_setL_same]

/-! ### REGISTER_WRITE, by access code and by role -/

theorem registerWrite_GLB_SCRATCH (hs : ∀ k ∈ [0, 1, 2, 3], rd CFG_CS_W4.state k s ≠ 2) {v : Nat}
    (h : Accepted a rGLB_SCRATCH 0 0xFFFFFFFF (v % 2 ^ 32) s) :
    Gives (.registerWrite a 0x28 v) s (fun t => rd GLB_SCRATCH.scratch 0 t = v % 2 ^ 32 ∧ Silent s t ∧
      Frame [(GLB_SCRATCH.scratch, 0), (HAUD.tail, 0)] [(LAUD.cap, rd HAUD.tail 0 s), (LCX.sent, 0)] [] s t) := by
  refine gives_of (exec_registerWrite a 0x28 v s) ?_
  rintro t rfl
  rw [show addrWrite a 0x28 0xFFFFFFFF v s = _ from addrWrite_plain plainReg_GLB_SCRATCH hs rfl (fun _ => rfl) h, storeWord_GLB_SCRATCH,
    part_word, Nat.mod_mod]
  refine ⟨?_, silent_settle s (by simp [Silent]), frame_settle (frame_auditWritten (by simp) ?_ _ _ _ _ _ _ _
    (frame_wr (by simp) _ (frame_sentNote (by simp) _ _ _ frame_refl)))⟩
  · rw [rd_settle (by decide) (by decide) (by decide), rd_auditWritten (by decide), rd_wr_same]
    exact Nat.mod_mod ..
  · rw [rd_wr_other (by decide), rd_sentNote]
    simp

theorem registerWrite_FAB_EVT (hs : ∀ k ∈ [0, 1, 2, 3], rd CFG_CS_W4.state k s ≠ 2) {v : Nat}
    (h : Accepted a rFAB_EVT 0 0xFFFFFFFF (v % 2 ^ 32) s) (hbit : ∀ f ∈ rFAB_EVT.fields, rd f 0 s < 2) :
    Gives (.registerWrite a 0xA00008 v) s (fun t =>
      ∀ f ∈ rFAB_EVT.fields, rd f 0 t = if part f (v % 2 ^ 32) = 1 then 0 else rd f 0 s) := by
  have apart : ∀ f ∈ rFAB_EVT.fields, f.id ≠ RED_ALARM.hold.id ∧ f.id ≠ RED_ALARM.simplex.id ∧ f.id ≠ GLB_STATUS.alarm.id ∧
      f.id ≠ HAUD.tail.id := by decide
  refine gives_of (exec_registerWrite a 0xA00008 v s) ?_
  rintro t rfl f hf
  obtain ⟨hhold, hsimplex, halarm, htail⟩ := apart f hf
  rw [show addrWrite a 0xA00008 0xFFFFFFFF v s = _ from addrWrite_plain plainReg_FAB_EVT hs rfl (fun _ => rfl) h,
    rd_settle hhold hsimplex halarm, rd_auditWritten htail, rd_storeWord_FAB_EVT hf _ (by simpa using hbit f hf), rd_sentNote]

theorem registerWrite_GLB_DEVICE_ID (hs : ∀ k ∈ [0, 1, 2, 3], rd CFG_CS_W4.state k s ≠ 2) {v : Nat}
    (h : Accepted a rGLB_DEVICE_ID 0 0xFFFFFFFF (v % 2 ^ 32) s) :
    Gives (.registerWrite a 0 v) s (fun t => Frame [(HAUD.tail, 0)] [(LAUD.cap, rd HAUD.tail 0 s), (LCX.sent, 0)] [] s t) := by
  refine gives_of (exec_registerWrite a 0 v s) ?_
  rintro t rfl
  rw [show addrWrite a 0 0xFFFFFFFF v s = _ from addrWrite_plain plainReg_GLB_DEVICE_ID hs rfl (fun _ => rfl) h, storeWord_GLB_DEVICE_ID]
  exact frame_settle (frame_auditWritten (by simp) (by simp) _ _ _ _ _ _ _ (frame_sentNote (by simp) _ _ _ frame_refl))

theorem registerWrite_observe (hs : ∀ k ∈ [0, 1, 2, 3], rd CFG_CS_W4.state k s ≠ 2) (hd : Direct a s) (hrole : accRole a s = some 0)
    (hboot : rd CFG_BOOT_STATUS.state 0 s ≠ 2) (v : Nat) :
    Gives (.registerWrite a 0x28 v) s (fun t => rd GLB_SCRATCH.scratch 0 t = rd GLB_SCRATCH.scratch 0 s ∧
      ErrorLogged 0x28 3 true s t ∧ cnt cnt_ACC_denied 0 t = (cnt cnt_ACC_denied 0 s + 1) % 2 ^ 64) := by
  have hkept : ∀ k, rd CFG_CS_W4.state k (refuse a 0x28 s) = rd CFG_CS_W4.state k s := fun k => by
    rw [rd_refuse (by decide) (by decide), rd_accErr (by decide)]
  have he : addrWrite a 0x28 0xFFFFFFFF v s = refuse a 0x28 s := by
    rw [addrWrite_notBar2 hd.1, coreWrite_outside hd (path_ne_core_of_accRole hrole), busWrite_reg (r := rGLB_SCRATCH) (i := 0) rfl rfl,
      writeReg_observe hrole (openToAll_GLB_SCRATCH hboot _) rfl (by decide), csNote_of_kept hs hkept]
  refine gives_of (exec_registerWrite a 0x28 v s) ?_
  rintro t rfl
  rw [he]
  refine ⟨?_, errorLogged_settle s (errorLogged_refuse a 0x28 s), ?_⟩
  · rw [rd_settle (by decide) (by decide) (by decide), rd_refuse (by decide) (by decide), rd_accErr (by decide)]
  · rw [cnt_settle, cnt_denied_refuse]

end Sys2Proof.Machine
end

section
open Sys2Proof Sys2Proof.Machine

/-- Settles O9: an RW, a W1C and an RO register each take an accepted write by their access code; the observe role is refused, and a write
that does not reach the registers leaves them. -/
theorem writeByAccessCode : Obligations.WriteByAccessCode := by
  intro a v s hs
  have hs : ∀ k ∈ [0, 1, 2, 3], rd CFG_CS_W4.state k s ≠ 2 := by simpa using hs
  refine ⟨registerWrite_GLB_SCRATCH hs, registerWrite_FAB_EVT hs, registerWrite_GLB_DEVICE_ID hs,
    fun hd hrole hboot => registerWrite_observe hs hd hrole hboot v, fun hp hg hm => gives_of (exec_registerWrite a 0x28 v s) ?_,
    fun hp he => gives_of (exec_registerWrite a 0x28 v s) ?_⟩
  · rintro t rfl
    rw [addrWrite_notBar2 (by simp [hp]), coreWrite_gap hp hg hm]
    exact held_settle ..
  · rintro t rfl
    rw [addrWrite_notBar2 (by simp [hp]), coreWrite_noEndpoint hp he]
    exact ⟨silent_settle s silent_refl, frame_settle frame_refl⟩

end

section
/-!
PROOFS. Register reads (R9, R11, R349, R350).
-/

namespace Sys2Proof.Machine

variable {fs : List (Fld × Nat)} {ls : List (Lst × Nat)} {cs : List (Cnt × Nat)} {s t : State} {a : Access} {r : Reg} {i addr : Nat}

/-- What a read of a word leaves of its register: by a path that clears, its RC fields at 0 (R11). -/
def clearRead (a : Access) (r : Reg) (i : Nat) (s : State) : State :=
  if clearsRc a.path then forEach (r.fields.filter (fun f => f.acc = .rc)) (fun f u => wr f i 0 u) s else s

/-- A register whose read neither allocates, wakes a slice, nor notes a peak. -/
structure PlainRead (r : Reg) : Prop where
  noSize : r.id ≠ rPOOL_ALLOC_SIZE.id := by decide
  noPool : r.id ≠ rPOOL_ALLOC_POOL.id := by decide
  noHead : r.id ≠ rSLC_HEAD_STATUS.id := by decide
  live : sliceReg r = false := by rfl

theorem plainRead_PWR_VCORE : PlainRead rPWR_VCORE := {}
theorem plainRead_GLB_SCRATCH : PlainRead rGLB_SCRATCH := {}

theorem busRead_plain (hr : PlainRead r) (ha : aligned addr = true) (hl : locate addr s = .reg r i) :
    busRead a addr s = (wordOf r i s, clearRead a r i s) := by
  simp only [busRead, ha, hl, hr.noSize, hr.noPool, hr.live, rcNote, hr.noHead, clearRead, Bool.not_true, decide_false, Bool.or_false,
    Bool.false_eq_true, if_false]
  split <;> rfl

/-- A direct read answers the word of its register; its RC fields clear, and a core's answer is noted. -/
theorem coreRead_plain (hr : PlainRead r) (ha : aligned addr = true) (hl : locate addr s = .reg r i) (h : Direct a s) :
    coreRead a addr (busRead a addr) s = answer a addr (wordOf r i s, readNote a addr (wordOf r i s) (clearRead a r i s)) := by
  rw [coreRead_direct h, busRead_plain hr ha hl]

/-- In a gap the comparator holds a core's read (R349). -/
theorem coreRead_gap (hp : a.path = .core) (hg : rd HRED.gap 0 s ≠ 0) (hm : rd RED_CX_STATUS.mode 0 s ≠ 2) (addr : Nat)
    (k : State → Nat × State) : coreRead a addr k s = coreHold [1, a.who, addr, 0, 0] s := by
  have hbar : a.path ≠ .bar2 := by simp [hp]
  have hgap : rdB HRED.gap 0 s = true := by simpa [rdB] using hg
  rw [coreRead, if_neg hbar, if_neg (not_not_intro hp), if_pos hgap]
  split
  · next h => exact absurd h hm
  · rfl

theorem direct_core (hp : a.path = .core) (hg : rd HRED.gap 0 s = 0) : Direct a s := ⟨by simp [hp], by simp [hp], fun _ => hg⟩

/-- In lockstep, with room in the replay log, a core's answer is appended to it (R350). -/
theorem readNote_lockstep (hp : a.path = .core) (hm : rd RED_CX_STATUS.mode 0 s = 0) (hroom : (getL LCX.replay 0 s).length < 2046) (v : Nat) :
    readNote a addr v s = setL LCX.replay 0 (getL LCX.replay 0 s ++ [addr, v]) s := by
  have hlen : ¬ 2048 ≤ (getL LCX.replay 0 s ++ [addr, v]).length := by
    rw [List.length_append, List.length_cons, List.length_cons, List.length_nil]
    omega
  rw [readNote, if_pos hp, replayNote, if_neg (not_not_intro hm)]
  exact if_neg hlen

theorem clearRead_core (hp : a.path = .core) (r : Reg) (i : Nat) (s : State) : clearRead a r i s = s := by
  simp [clearRead, hp, clearsRc]

theorem clearRead_GLB_SCRATCH (a : Access) (s : State) : clearRead a rGLB_SCRATCH 0 s = s := by
  unfold clearRead
  split <;> rfl

theorem clearRead_PWR_VCORE (a : Access) (s : State) :
    clearRead a rPWR_VCORE 0 s = if clearsRc a.path then wr PWR_VCORE.v_min 0 0 s else s := rfl

theorem frame_clearRead_PWR_VCORE (hf : (PWR_VCORE.v_min, 0) ∈ fs) (h : Frame fs ls cs s t) :
    Frame fs ls cs s (clearRead a rPWR_VCORE 0 t) := by
  rw [clearRead_PWR_VCORE]
  split
  · exact frame_wr hf 0 h
  · exact h

theorem rd_clearRead_PWR_VCORE (a : Access) (s : State) :
    rd PWR_VCORE.v_min 0 (clearRead a rPWR_VCORE 0 s) = if clearsRc a.path then 0 else rd PWR_VCORE.v_min 0 s := by
  rw [clearRead_PWR_VCORE]
  split
  · rw [rd_wr_same, Nat.zero_mod]
  · rfl

@[simp] theorem clearRead_telFifo (a : Access) (r : Reg) (i : Nat) (s : State) : (clearRead a r i s).telFifo = s.telFifo := by
  unfold clearRead
  split
  · rw [forEach_keeps State.telFifo fun f _ u => wr_telFifo f i 0 u]
  · rfl

@[simp] theorem clearRead_out (a : Access) (r : Reg) (i : Nat) (s : State) : (clearRead a r i s).out = s.out := by
  unfold clearRead
  split
  · rw [forEach_keeps State.out fun f _ u => wr_out f i 0 u]
  · rfl

/-! ### RC_READ -/

theorem rcRead_PWR_VCORE (h : Direct a s) :
    Gives (.rcRead a 0x300034) s (fun t => t.out = s.out ++ [⟨.busRead, auditPath a.path, [0x300034, wordOf rPWR_VCORE 0 s]⟩] ∧
      rd PWR_VCORE.v_min 0 t = (if clearsRc a.path then 0 else rd PWR_VCORE.v_min 0 s) ∧ t.telFifo = s.telFifo ∧
      (a.path ≠ .core → Frame [(PWR_VCORE.v_min, 0)] [] [] s t) ∧ Frame ((PWR_VCORE.v_min, 0) :: logFlds) logLists [] s t) := by
  refine gives_of (exec_rcRead a 0x300034 s) ?_
  rintro t rfl
  rw [coreRead_plain plainRead_PWR_VCORE (i := 0) rfl rfl h, answer]
  refine ⟨by simp, ?_, by simp, frames_of_path fun fs ls hf hlog => ?_⟩
  · rw [rd_settle (by decide) (by decide) (by decide), rd_emit, rd_readNote (by decide), rd_clearRead_PWR_VCORE]
  · exact frame_settle (frame_emit _ _ _ (frame_readNote hlog _ _ (frame_clearRead_PWR_VCORE (hf (by simp)) frame_refl)))

theorem rcRead_GLB_SCRATCH (h : Direct a s) :
    Gives (.rcRead a 0x28) s (fun t => t.out = s.out ++ [⟨.busRead, auditPath a.path, [0x28, wordOf rGLB_SCRATCH 0 s]⟩] ∧
      t.telFifo = s.telFifo ∧ (a.path ≠ .core → Frame [] [] [] s t) ∧ Frame logFlds logLists [] s t) := by
  refine gives_of (exec_rcRead a 0x28 s) ?_
  rintro t rfl
  rw [coreRead_plain plainRead_GLB_SCRATCH (i := 0) rfl rfl h, answer, clearRead_GLB_SCRATCH]
  exact ⟨by simp, by simp, frames_of_path (fs0 := []) fun fs ls _ hlog => frame_settle (frame_emit _ _ _ (frame_readNote hlog _ _ frame_refl))⟩

theorem rcRead_lockstep (hp : a.path = .core) (hg : rd HRED.gap 0 s = 0) (hm : rd RED_CX_STATUS.mode 0 s = 0)
    (hroom : (getL LCX.replay 0 s).length < 2046) :
    Gives (.rcRead a 0x300034) s (fun t =>
      getL LCX.replay 0 t = getL LCX.replay 0 s ++ [0x300034, wordOf rPWR_VCORE 0 s] ∧
      t.out = s.out ++ [⟨.busRead, 5, [0x300034, wordOf rPWR_VCORE 0 s]⟩] ∧ Frame [] [(LCX.replay, 0)] [] s t) := by
  have hpath : auditPath a.path = 5 := by rw [hp]; rfl
  refine gives_of (exec_rcRead a 0x300034 s) ?_
  rintro t rfl
  rw [coreRead_plain plainRead_PWR_VCORE (i := 0) rfl rfl (direct_core hp hg), answer, hpath, clearRead_core hp,
    readNote_lockstep hp hm hroom]
  refine ⟨?_, by simp, frame_settle (frame_emit _ _ _ (frame_setL (by simp) _ frame_refl))⟩
  rw [getL_settle (by decide), getL_emit, getL_setL_same]

end Sys2Proof.Machine
end

section
open Sys2Proof Sys2Proof.Machine

/-- Settles O11: a direct read answers, clears and is noted; a core's read in a gap is held. -/
theorem readsAnswerAndClear : Obligations.ReadsAnswerAndClear := by
  intro a s
  refine ⟨rcRead_PWR_VCORE, rcRead_GLB_SCRATCH, rcRead_lockstep, fun hp hg hm => gives_of (exec_rcRead a 0x300034 s) ?_⟩
  rintro t rfl
  rw [coreRead_gap hp hg hm]
  exact held_settle ..

end

section
/-!
PROOFS. The state after power-on reset (R13, R14).
-/

namespace Sys2Proof.Machine

/-- No pin's condition holds after reset, and the alarm bit agrees (R374, R391). -/
theorem pinsFollow_reset : PinsFollow State.reset := by
  have halarm : alarmLow State.reset = false := by decide
  have hint : intLow State.reset = false := by decide
  rw [PinsFollow, halarm, hint]
  exact ⟨rfl, rfl, by decide⟩

/-- No source has been taken as an edge after reset (R380). -/
theorem seenHigh_reset : SeenHigh State.reset := by
  intro n hn
  have hempty : getL LINT.seen 0 State.reset = [] := rfl
  simp [hempty] at hn

end Sys2Proof.Machine
end

section
open Sys2Proof Sys2Proof.Machine

/-- Settles O5: the store of registers is empty at reset, and an absent key reads as the Reset column. -/
theorem resetColumn : Obligations.ResetColumn :=
  ⟨fun _ _ => rfl, rfl, rfl, rfl, rfl, rfl⟩

/-- Settles O6: the stores are empty at reset, and the pins and the edge record agree with them. -/
theorem resetState : Obligations.ResetState :=
  ⟨fun _ _ => ⟨rfl, rfl⟩, fun _ _ => rfl, rfl, rfl, rfl, rfl, rfl, rfl, pinsFollow_reset, seenHigh_reset⟩

end

section
/-!
PROOFS. The frame path (R82 to R107): three statements that ask more of some state or operand than the model gives. Each is refuted by a state
written out, on which the model is run.
-/

namespace Sys2Proof.Machine

/-- What a command gives holds of the state it answers. -/
theorem holds_of_gives {c : Instr} {s u : State} {P : State → Prop} (he : exec c s = .next (settle s u)) (h : Gives c s P) :
    P (settle s u) := by
  obtain ⟨t, ht, hp⟩ := h
  obtain rfl : settle s u = t := Host.Outcome.next.inj (he.symm.trans ht)
  exact hp

end Sys2Proof.Machine
end

section
open Sys2Proof Sys2Proof.Machine

/-- Refutes O22, in the clause of the last head word, which says that nothing is raised. The frame here has ended, its result is released, and
no copy holds it: with its entry it is forgotten, and the memory-error episode that stands for it ends with EXCEPTION_END (R37). The clause
does not ask that a copy still holds the frame, or that no episode stands. -/
theorem not_frameArrival : ¬ Obligations.FrameArrival := by
  unfold Obligations.FrameArrival
  intro h
  obtain ⟨-, -, -, -, -, -, -, -, -, lastWord, -⟩ := h 0 0 0 0 [] [] []
    (State.reset |> wr FRM.live 0 1 |> wr FRM.ended 0 1 |> wr FRM.stage 0 3 |> wr FRM.head 0 1 |> setL LFRM.bytes 0 [0]
      |> wr EPI.live (epiKey 2 0) 1)
    (by decide)
  obtain ⟨-, ⟨fifoKept, -⟩, -⟩ :=
    holds_of_gives (exec_headWordWrite 0 true _) (lastWord (by decide) (by decide) (by decide))
  rw [settle_telFifo] at fifoKept
  exact absurd fifoKept (by decide)

/-- Refutes O23, in the clause of a result with the present epoch, which takes one from the engine's frames in flight as plain numbers. The
field has six bits and a write cuts to them, so from a stored 65, which no bound of the statement excludes, it comes to 0 and not to 64. -/
theorem not_enginesAndOrder : ¬ Obligations.EnginesAndOrder := by
  unfold Obligations.EnginesAndOrder
  intro h
  obtain ⟨-, -, taken, -⟩ := h 0 0 0 0 0 0 []
    { State.reset with
      regs := [((SLC_ENG_STAT.inflight.id, 0), 65), ((FRM.live.id, 0), 1), ((FRM.stage.id, 0), 1), ((FRM.looked.id, 0), 1)] }
  obtain ⟨-, oneLess⟩ := holds_of_gives (exec_engineResult 0 0 0 0 0 0 [] _)
    (taken 0 (by decide) (by decide) (by decide) (by decide) (by decide) (by decide) (by decide))
  rw [rd_settle (by decide) (by decide) (by decide)] at oneLess
  exact absurd oneLess (by decide)

/-- Refutes O24, in the clause of the unfence bit, which bounds the engine's number but not the slice's. The register of a slice 17 would lie
in the window of R528, whose write reaches slices 0 to 16 and not the one named, so no return test starts there. -/
theorem not_engineFencing : ¬ Obligations.EngineFencing := by
  unfold Obligations.EngineFencing
  intro h
  obtain ⟨-, -, -, unfence, -⟩ := h ⟨.core, 0⟩ 17 0
    (State.reset |> wr SLC_STATUS.serving 17 1 |> wr SLC_ENG_STAT.fenced (17 * 8 + 0) 1)
    (by decide) (by decide) (by decide) (by decide)
  obtain ⟨started, -⟩ := holds_of_gives (exec_engineUnfence ⟨.core, 0⟩ 17 (2 ^ 0) _)
    (unfence (by unfold Accepted Direct; decide +kernel) (by decide) (by decide) (by decide))
  rw [rd_settle (by decide) (by decide) (by decide)] at started
  exact absurd started (by decide +kernel)

end

section
open Sys2Proof Sys2Proof.Machine

/-- Refutes O31, in the clause of CLEAR_HITS, which says that no other hit counter changes. The window of slice 16, which the statement's bound
admits, lies at 0x2000_0000, and a write there reaches all 17 slices while win16_mode is 0 (R110, R528), its value after reset. So with SL16
awake and 5 hits on rule 0 of slice 0, a CLEAR_HITS of rule 0 in the window of SL16 clears those 5 hits as well. The clause does not ask that
win16_mode is 1 where the slice is 16. -/
theorem not_ruleCommands : ¬ Obligations.RuleCommands := by
  unfold Obligations.RuleCommands
  intro h
  obtain ⟨-, -, -, -, clearHits, -⟩ := h ⟨.core, 0⟩ 16 0 0
    (State.reset |> wr PWR_SLICE.state 16 0 |> incBy cnt_SLC_rule_hits (0 * 65536 + 0) 5)
    (by decide) (by decide) (by decide) (by decide) (by decide)
  obtain ⟨-, -, -, -, -, countsKept, -⟩ := holds_of_gives (exec_ruleClearHits ⟨.core, 0⟩ 16 0 _)
    (clearHits (by unfold Accepted Direct; decide +kernel))
  have hitsKept := countsKept cnt_SLC_rule_hits (0 * 65536 + 0) (by decide)
  rw [cnt_settle] at hitsKept
  exact absurd hitsKept (by decide +kernel)

end

section
/-!
PROOFS. The end of link_hold on a port whose drops fill the capture FIFO (R37, R205, R496): a state written out, on which the model is run.
-/

namespace Sys2Proof.Machine

/-- Frame `d` has been received to its end and its last copy, descriptor `d`, waits in gated queue 0 of port 0. A memory-error episode stands
for the frame, and ends when it goes (R37). -/
def queueWithEpisode (d : Nat) (s : State) : State :=
  wr FRM.live d 1 s |> wr FRM.ended d 1 |> wr FRM.stage d 3 |> wr FRM.refs d 1 |> wr EPI.live (epiKey 2 d) 1
    |> wr DSC.live d 1 |> wr DSC.frame d d |> wr DSC.code d 1 |> pushL LBUF.q 1 d

/-- Port 0 holds 25 such frames while 999 captures of an earlier command still wait, so that the FIFO of 1,024 has room for 25 more. -/
def holdNearFullFifo : State :=
  { (State.reset |> wr BUF_PORT_STATUS.hold_state 0 1 |> wr HBUF.hold 0 1 |> forEach (List.range 25) queueWithEpisode) with
    telFifo := List.replicate 999 ⟨0, 0x0101, [0, 0, 0, 0], 0, false⟩
    cyc := 1 }

/-- The 25 ends of episodes take the room, and LINK_HOLD_EXPIRED is lost (R496). -/
theorem linkHoldExpiry_event_lost : ∀ c ∈ (linkHoldExpiry 0 holdNearFullFifo).telFifo, c.code ≠ 0x0105 := by
  decide +kernel

end Sys2Proof.Machine
end

section
open Sys2Proof Sys2Proof.Machine

/-- Refutes O28, in the clause of the end of link_hold, which says that LINK_HOLD_EXPIRED is raised. The statement leaves room for 25 captures
only, and the drops of the flush come before it: each frame that goes while its memory-error episode stands raises EXCEPTION_END (R37). With
999 captures waiting and 25 such frames queued, the FIFO is full when LINK_HOLD_EXPIRED is raised, and it is lost (R496). The clause does not
bound the frames queued by the room in the FIFO. The model gives that room in the order in which a command raises; R496's order by event code
sorts only the captures that have entered, so the smaller code of LINK_HOLD_EXPIRED does not save it. -/
theorem not_bufferWork : ¬ Obligations.BufferWork := by
  unfold Obligations.BufferWork
  intro h
  obtain ⟨-, -, -, -, -, -, -, -, holdOver⟩ := h 0 0 0 0 [] holdNearFullFifo (by decide +kernel)
  obtain ⟨-, -, -, -, -, c, hc, -, hcode, -⟩ :=
    holds_of_gives (exec_linkHoldExpiry 0 _) (holdOver (by decide +kernel) (by decide +kernel) (by decide +kernel))
  rw [settle_telFifo] at hc
  exact linkHoldExpiry_event_lost c hc hcode

end

section
/-!
PROOFS. Scheduling, wheels and policers (R216 to R224, R232 to R237): three statements that ask more of some state than the model gives. Each
is refuted by a state written out, on which the model is run.
-/

namespace Sys2Proof.Machine

/-- Port 0 is up at 1600 Gb/s with no frame queued, and gated queue 0 opens in 5 ns. A full-size non-gated frame, 7.69 ns on the wire,
has just failed the guard test and the port stays idle for the window (R216); since then that frame has gone and the port's capability frame,
0.42 ns on the wire, has come due. -/
def idleWithCapDue : State :=
  State.reset |> wr PRT_PORT_CFG.admin_up 0 1 |> wr PRT_PORT_STATUS.link_up 0 1 |> wr PRT_PORT_STATUS.state 0 4
    |> wr BUF_PORT_STATUS.hold_state 0 0 |> wr GATE.enable 0 1 |> wr GATE.len 0 2 |> wr GATE.cycle 0 1000
    |> wr SCH_GCL.duration (gclIdx 0 0 0) 5 |> wr SCH_GCL.duration (gclIdx 0 0 1) 995 |> wr SCH_GCL.open_ (gclIdx 0 0 1) 1
    |> idleHold 0 |> wr HPRT.cap 0 1

/-- The idle port sends nothing, and its capability frame waits on (R216). -/
theorem schedSelect_idleWithCapDue_cap : rd HPRT.cap 0 (schedSelect 0 idleWithCapDue) = 1 := by
  decide +kernel

/-- Min bucket 0 waits in slot 1 of the fine wheel, and the next pip is 2^64 + 1: TB0 holds 2^98, four times 2^64 ns, which its 96 bits cannot. -/
def pipBeyondTime : State :=
  { (State.reset |> setL LSCH.fine 1 [0]) with
    regs := [((TBC.count.id, 0), 2 ^ 98), ((HSCH.pip.id, 0), 2 ^ 64), ((BKT.place.id, 0), 1), ((BKT.rate.id, 0), 8),
      ((SCH_SUB_W1.min_rate.id, 0), 8)] }

/-- The entry is taken off the wheel with its pip in the low 64 bits of one number, so from pip 2^64 on another bucket's is served. -/
theorem wheelPip_pipBeyondTime_place : rd BKT.place 0 (wheelPip pipBeyondTime) = 1 := by
  decide +kernel

/-- Policer 0 with a committed burst of 2^25 bytes, which the 24 bits of cbs cannot hold. -/
def burstBeyondTokens : State := { State.reset with regs := [((SCH_POL_W1.cbs.id, 0), 2 ^ 25)] }

/-- The 25 bits of c_tokens show such a burst as 0. -/
theorem fldWrite_burstBeyondTokens_cTokens :
    rd SCH_POL_W5.c_tokens 0 (fldWrite ⟨.core, 0⟩ rSCH_POL_W4 SCH_POL_W4.enable 0 1 burstBeyondTokens) = 0 := by
  decide +kernel

end Sys2Proof.Machine
end

section
open Sys2Proof Sys2Proof.Machine

/-- Refutes O25, in the clause of the capability frame, which says that it is sent where no frame is queued and it passes the guard test
itself. A port on which a larger non-gated frame has failed that test stays idle until the window opens (R216), also for a shorter frame and
when the larger one has gone. The clause does not ask that the port is not idle so. -/
theorem not_transmission : ¬ Obligations.Transmission := by
  unfold Obligations.Transmission
  intro h
  obtain ⟨capability, -⟩ := h 0 0 idleWithCapDue (by decide +kernel) (by decide +kernel)
  obtain ⟨-, capGone, -⟩ := holds_of_gives (exec_schedulerSelect 0 _)
    (capability (by decide +kernel) (by decide +kernel) (by decide +kernel) (by decide +kernel) (by decide +kernel) (by decide +kernel)
      (by decide +kernel) (by decide +kernel) (by decide +kernel))
  rw [rd_settle (by decide) (by decide) (by decide), schedSelect_idleWithCapDue_cap] at capGone
  exact absurd capGone (by decide)

/-- Refutes O26, in the clause of the due entry of the fine wheel, which bounds neither the pip nor the count of TB0. A due entry is noted as
its bucket times 2^64 plus its pip, so at pip 2^64 + 1 bucket 1 is served in place of bucket 0, which stays on the wheel. TB0 reaches that pip
only with a stored count beyond its 96 bits, which no bound of the statement excludes. -/
theorem not_gatesAndWheels : ¬ Obligations.GatesAndWheels := by
  unfold Obligations.GatesAndWheels
  intro h
  obtain ⟨dueEntry, -⟩ := h (2 ^ 64 + 1) 0 0 pipBeyondTime (by decide +kernel)
  obtain ⟨offWheel, -⟩ := holds_of_gives (exec_wheelPip _)
    (dueEntry (by decide +kernel) (by decide +kernel) (by decide +kernel) (by decide +kernel) (by decide +kernel) (by decide +kernel)
      (by decide +kernel) (by decide +kernel) (by decide +kernel))
  rw [rd_settle (by decide) (by decide) (by decide), wheelPip_pipBeyondTime_place] at offWheel
  exact absurd offWheel (by decide)

/-- Refutes O27, in the clause of the write that sets enable, which bounds the burst by 2^31 and says that c_tokens shows it. The field has
25 bits, so from a stored burst of 2^25, which the 24 bits of cbs could not hold but the statement's bound admits, it shows 0. -/
theorem not_policersAndSamples : ¬ Obligations.PolicersAndSamples := by
  unfold Obligations.PolicersAndSamples
  intro h
  obtain ⟨-, enabled, -⟩ := h ⟨.core, 0⟩ 0 0 burstBeyondTokens
  obtain ⟨-, -, -, -, shown, -⟩ := holds_of_gives (exec_policerEnable ⟨.core, 0⟩ 0 _)
    (enabled (by unfold Accepted Direct; decide +kernel) (by decide +kernel) (by decide +kernel) (by decide +kernel))
  rw [rd_settle (by decide) (by decide) (by decide), fldWrite_burstBeyondTokens_cTokens] at shown
  exact absurd shown (by decide +kernel)

end

section
/-!
PROOFS. Power groups, contexts and Rounds (R256, R267 to R269, R337): three statements that ask more of some state than the model gives. Each
is refuted by a state written out, on which the model is run.
-/

namespace Sys2Proof.Machine

theorem pgSent_settle {p : Nat} {m : List Nat} {s t : State} (s0 : State) : PgSent p m s (settle s0 t) ↔ PgSent p m s t := by
  simp only [PgSent, settle_out]

/-- A statement names a message by what the registers read; this puts their values in its place. -/
theorem pgSent_of_eq {p : Nat} {m m' : List Nat} {s t : State} (h : m = m') (hs : PgSent p m s t) : PgSent p m' s t := h ▸ hs

/-- A member of power group 7 on the critical path (R337): its cap holds it at P5, its budget of 200 W lies 5 W below its limit, and in the
first nanosecond of TB0 it has noted more frames than half its capacity of a millisecond. Port 0 is up, with a peer of the same group. -/
def criticalMember : State :=
  State.reset |> wr PRT_PORT_CFG.admin_up 0 1 |> wr PRT_PORT_STATUS.link_up 0 1 |> wr PRT_PORT_STATUS.state 0 4
    |> wr BUF_PORT_STATUS.hold_state 0 0 |> wr PRT_PORT_STATUS.tag_active 0 1 |> wr PRT_PORT_PEER_CAP.peer_caps 0 8
    |> wr FAB_PORT.peer_group 0 7 |> wr FAB_PG_CFG.group_id 0 7 |> wr FAB_PG_CFG.pg_enable 0 1 |> wr PWR_STATUS.limiter 0 3
    |> wr PWR_CAP.power_limit 0 205 |> wr PWR_PG_STATUS.budget 0 200 |> setL LPWR.fast 0 [0, 100000000, 0]

/-- A TRANSFER of 5 W brings the budget to the limit, and the ACK, which leaves after it, no longer carries the critical-path flag. -/
theorem pgTransfer_criticalMember_noFlaggedAck :
    ¬ PgSent 0 [3, 7, 0, 0, 9, 1, 5, 0, 0, 5 + 128, 0, 0] criticalMember (pgTransfer 0 7 9 0 0 1 5 0 false criticalMember) := by
  unfold PgSent
  decide +kernel

/-- The same member with the time PLL locked and its next REPORT due in 10 ms. -/
def criticalBeforeReport : State := criticalMember |> wr TBC.pll_locked 0 1 |> wr HPG.next 0 (10000000 + 1)

/-- When the REPORT is due, the frames lie more than 1 ms back, and it carries no critical-path flag. -/
theorem pgTimer_criticalBeforeReport_noFlaggedReport :
    ¬ PgSent 0 [1, 7, 0, 0, 0, 0, 200, 0, 0, 5 + 128, 0, 0] criticalBeforeReport (pgTimer criticalBeforeReport) := by
  unfold PgSent
  decide +kernel

/-- Context 0 holds frame 0 at number 0, the next to leave, and its count of skipped numbers stands at 2^64, beyond its 64 bits. -/
def skipCountBeyond : State :=
  { (State.reset |> setL LRSQ.slots 0 [0] |> wr RSQ.since 0 1) with cnts := [((cnt_FAB_rsq_skip.id, 0), 2 ^ 64)] }

/-- No number lies between, so nothing is counted and the count stays where it is. -/
theorem ctxTick_skipCountBeyond_count : cnt cnt_FAB_rsq_skip 0 (ctxTick 0 skipCountBeyond) = 2 ^ 64 := by
  decide +kernel

end Sys2Proof.Machine
end

section
open Sys2Proof Sys2Proof.Machine

/-- Refutes O32, in the clause of a new TRANSFER to this device, which gives the ACK the critical-path flag of the state before the command.
The watts are added first (R269), and the flag stands only while the budget is below power_limit (R337): where they bring the budget to the
limit, the ACK leaves without it. The clause does not ask that the budget raised stays below power_limit. -/
theorem not_powerGroupMessages : ¬ Obligations.PowerGroupMessages := by
  unfold Obligations.PowerGroupMessages
  intro h
  obtain ⟨-, -, -, -, -, newTransfer, -⟩ := h 0 7 9 0 0 1 5 0 0 0 0 0 criticalMember (by decide) (by decide) (by decide) (by decide)
  obtain ⟨-, -, -, -, -, -, -, ackSent⟩ := holds_of_gives (exec_transfer 0 7 9 0 0 1 ⟨5, 0⟩ false _)
    (newTransfer (by decide +kernel) (by decide +kernel) (by decide +kernel) (by decide +kernel) (by decide +kernel) (by decide +kernel)
      (by decide +kernel) (by decide +kernel) (by decide +kernel) (by decide +kernel))
  have flaggedAck := (pgSent_settle _).1 (ackSent 0 (by decide +kernel) (by decide +kernel))
  exact pgTransfer_criticalMember_noFlaggedAck (pgSent_of_eq (by decide +kernel) flaggedAck)

/-- Refutes O33, in the clause of the REPORT of a member alone in its group, which gives it the critical-path flag of the state before the
command. The command is the timer's end, and time passes to it (R268): the flag rests on the frames of the last 1 ms (R337), and where these
came more than 1 ms before the REPORT is due, it leaves without it. The clause does not ask that the timer is due now. -/
theorem not_powerGroupTimers : ¬ Obligations.PowerGroupTimers := by
  unfold Obligations.PowerGroupTimers
  intro h
  obtain ⟨lone, -⟩ := h ⟨.core, 0⟩ 0 0 0 0 0 0 criticalBeforeReport (by decide)
  obtain ⟨-, -, -, -, reportSent⟩ := holds_of_gives (exec_pgReportTimer _)
    (lone (by decide +kernel) (by decide +kernel) (by decide +kernel) (by decide +kernel) (by decide +kernel))
  have serves : (rdB HRED.gap 0 criticalBeforeReport || rdB HRED.restart 0 criticalBeforeReport) = false := by decide +kernel
  have flaggedReport := (pgSent_settle _).1 (reportSent 0 (by decide +kernel) (by decide +kernel))
  rw [serves, if_neg Bool.false_ne_true] at flaggedReport
  exact pgTimer_criticalBeforeReport_noFlaggedReport (pgSent_of_eq (by decide +kernel) flaggedReport)

/-- Refutes O34, in the clause of a context that holds a frame, which takes the count of skipped numbers modulo 2^64 also where no number is
skipped. The count is then left as it stands, and a stored 2^64, which its 64 bits cannot hold but no bound of the statement excludes, stays
2^64 and does not come to 0. The clause does not ask that the count is below 2^64. -/
theorem not_contextsAndRounds : ¬ Obligations.ContextsAndRounds := by
  unfold Obligations.ContextsAndRounds
  intro h
  obtain ⟨-, heldFrame, -⟩ := h 0 0 0 0 0 0 0 0 0 skipCountBeyond (by decide)
  obtain ⟨-, -, counted⟩ := holds_of_gives (exec_rsqTimeout 0 _)
    (heldFrame (by decide +kernel) (by decide) (by decide) (by decide +kernel) (by decide +kernel))
  rw [cnt_settle, ctxTick_skipCountBeyond_count] at counted
  exact absurd counted (by decide +kernel)

end

section
/-!
PROOFS. Time and synchronisation (R274 to R303): four statements that ask more of some state than the model gives. Each is refuted by a state
written out, on which the model is run.
-/

namespace Sys2Proof.Machine

/-- Port 0 is up. Its measured delay of 50 ns is what admission has read, and delay_cfg is 100 ns. Two requests in a row have been lost, and a
third is out. -/
def thirdRequestOut : State :=
  State.reset |> wr PRT_PORT_STATUS.link_up 0 1 |> wr PRT_PORT_STATUS.state 0 4 |> wr TIM_PORT_W6.delay_valid 0 1
    |> wr TIM_PORT_W4.link_delay 0 50000 |> wr TIM_PORT_W3.delay_cfg 0 100 |> wr HPD.used 0 (50 + 1) |> wr HPD.lost 0 2 |> wr HPD.wait 0 1

/-- With the third lost the figure is delay_cfg, more than 10 ns above what admission read, and DELAY_CHANGE is raised (R285). -/
theorem pdelayTimeout_thirdRequestOut_raises : (pdelayTimeout 0 thirdRequestOut).telFifo ≠ [] := by
  decide +kernel

/-- A pulse each second on TIN pin 0 steers base 1, which stands at 0.6 s. Change set 1, which stages arg_lo without arg_hi, is armed for the
second of base 1. Change set 0, which gives base 1 the source PTP, has fired and not yet reached its commit point. -/
def pulseBeforeArmedTime : State :=
  State.reset |> wr TIM_TIN_W0.enable 0 1 |> wr TIM_TIN_W0.tb 0 1 |> wr TIM_TB_W0.enable 1 1 |> wr TIM_TB_W0.source 1 2
    |> wr TBC.count 1 (600000000 * 2 ^ 32) |> wr CFG_CS_W4.state 1 2 |> wr HCS.trig 1 2 |> wr HCS.tb 1 1 |> wr HCS.time 1 1000000000
    |> setL LCS.ent 1 [regAddr rTIM_TB_W12 1, 0xFFFFFFFF, 0]
    |> wr CFG_CS_W4.state 0 3 |> setL LCS.ent 0 [regAddr rTIM_TB_W0 1, 0x6, 0x2]

/-- The pulse steps base 1 to the second, which fires set 1. Set 0 reaches its commit point before that, and a base with a new source has no
offset to time out from (R294). -/
theorem tinEdge_pulseBeforeArmedTime_last : rd HTB.last 1 (stepped (tinEdge 0 true) pulseBeforeArmedTime) = 0 := by
  decide +kernel

/-- Ports 0 to 6 run gates in base 1, which stands at 2 ms, and in each of their 28 gated queues waits a frame whose window closed at 1 ms.
999 captures of an earlier command wait, and TB0 holds 2^96 - 1 ns, which its 64 bits of whole nanoseconds cannot. Port 0 is the slave port of
base 1, and its arg_lo holds 1 ms. -/
def stepNearFullFifo : State :=
  { State.reset with
    regs := [((TBC.count.id, 0), (2 ^ 96 - 1) * 2 ^ 32), ((TBC.count.id, 1), 2000000 * 2 ^ 32), ((TIM_TB_W0.enable.id, 1), 1),
        ((TIM_TB_W0.source.id, 1), 1), ((TIM_TB_W12.arg_lo.id, 1), 1000000), ((TIM_PORT_W0.ptp_mask.id, 0), 1), ((TIM_PORT_W6.roles.id, 0), 2)]
      ++ (List.range 7).flatMap (fun p => [((GATE.enable.id, p), 1), ((GATE.tb.id, p), 1), ((SCH_GCL.open_.id, gclIdx p 0 0), 0xF)])
      ++ (List.range 28).flatMap (fun d => [((DSC.eg.id, d), d / 4), ((DSC.code.id, d), d % 4 * 4 + 1)])
    lists := (List.range 28).map (fun d => ((LBUF.q.id, d * 4 + 1), [d]))
    telFifo := List.replicate 999 ⟨0, 0x0101, [0, 0, 0, 0], 0, false⟩
    cyc := 1 }

/-- Before the step GATE_CARRY is raised for each queue (R228): at most once in 1 ms, but the time of the last, 2^96 - 1 plus one, reads 0 in its
96 bits, so each of the 28 is due. They fill the FIFO, and TIME_STEP is lost (R496). -/
theorem tbStep_stepNearFullFifo_event_lost :
    ∀ c ∈ (csNote (regWrite ⟨.core, 0⟩ rTIM_TB_W11 1 2 stepNearFullFifo)).telFifo, c.code ≠ 0x0603 := by
  decide +kernel

/-- The step by an offset of 1 ms meets the same. -/
theorem sync_stepNearFullFifo_event_lost :
    ∀ c ∈ (stepped (syncRx 0 0 0 3000000 0 false false) stepNearFullFifo).telFifo, c.code ≠ 0x0603 := by
  decide +kernel

end Sys2Proof.Machine
end

section
open Sys2Proof Sys2Proof.Machine

/-- Refutes O35, in the clause of TB_STEP, which says that TIME_STEP is raised. The statement leaves room for 25 captures only, and the gate
windows that have closed by the step are noted before it: each with a frame still queued raises GATE_CARRY (R228). The limit of one in 1 ms
holds these back, but for a TB0 whose nanoseconds pass the 96 bits of the time of the last, and no bound of the statement excludes such a
stored count. Then 28 closed windows fill the FIFO, and TIME_STEP is lost (R496). -/
theorem not_timePll : ¬ Obligations.TimePll := by
  unfold Obligations.TimePll
  intro h
  obtain ⟨-, -, -, -, -, -, step, -⟩ := h ⟨.core, 0⟩ 1 stepNearFullFifo (by decide +kernel)
  obtain ⟨-, ⟨c, hc, -, hcode, -⟩, -⟩ := holds_of_gives (exec_tbStep ⟨.core, 0⟩ 1 _)
    (step (by decide) (by decide) (by decide +kernel) (by unfold Accepted Direct; decide +kernel) (by decide +kernel))
  rw [settle_telFifo] at hc
  exact tbStep_stepNearFullFifo_event_lost c hc hcode

/-- Refutes O36, in the clause of the third request lost in a row, which says that nothing is raised. With delay_valid gone the port's figure is
delay_cfg (R285), and where that is more than 10 ns above the figure admission read, DELAY_CHANGE is raised. The clause does not ask that
admission has read no figure, or that delay_cfg is near it. -/
theorem not_linkDelay : ¬ Obligations.LinkDelay := by
  unfold Obligations.LinkDelay
  intro h
  obtain ⟨-, -, -, -, -, -, -, -, -, -, thirdLost, -⟩ := h 0 0 0 0 0 0 0 0 0 .bad thirdRequestOut (by decide)
  obtain ⟨-, -, -, -, fifoKept, -⟩ := holds_of_gives (exec_pdelayTimeout 0 _)
    (thirdLost (by decide +kernel) (by decide +kernel) (by decide +kernel))
  rw [settle_telFifo] at fifoKept
  exact pdelayTimeout_thirdRequestOut_raises fifoKept

/-- Refutes O37, in the clause of an offset over the step threshold, which says that TIME_STEP is raised. The closed gate windows noted before
the step can take the 25 places the statement leaves in the FIFO, as in the refutation of O35, where TB0 holds more nanoseconds than the time
of the last GATE_CARRY can; no bound of the statement excludes such a stored count. -/
theorem not_timeServo : ¬ Obligations.TimeServo := by
  unfold Obligations.TimeServo
  intro h
  obtain ⟨-, -, -, step, -⟩ := h 0 0 0 3000000 1 0 (1000000 * 2 ^ 32) stepNearFullFifo (by decide +kernel)
  obtain ⟨-, -, -, c, hc, -, hcode, -⟩ := holds_of_gives (exec_sync 0 0 0 3000000 0 false false _)
    (step (by decide +kernel) (by decide +kernel) (by decide +kernel) (by decide +kernel) (by decide +kernel) (by decide +kernel)
      (by decide +kernel) (by decide +kernel) (by decide +kernel) (by decide +kernel))
  rw [settle_telFifo] at hc
  exact sync_stepNearFullFifo_event_lost c hc hcode

/-- Refutes O39, in the clause of the edge that gives a base its offset, which says that the base's timeout runs from the edge (R294). The offset
can step the base, and the step fires the change sets whose time it passes (R436), before which a set still committing reaches its commit
point. Where that one changes the base's source, the time of its last offset is forgotten. The clause does not ask that no set is armed. -/
theorem not_timePins : ¬ Obligations.TimePins := by
  unfold Obligations.TimePins
  intro h
  obtain ⟨-, -, -, -, -, -, -, pulse, -⟩ := h ⟨.core, 0⟩ 0 1 0 (600000000 * 2 ^ 32) 0 true pulseBeforeArmedTime (by decide)
  obtain ⟨-, due⟩ := holds_of_gives (exec_tinEdge 0 true _)
    (pulse (by decide +kernel) (by decide +kernel) (by decide +kernel) (by decide +kernel) (by decide +kernel) (by decide +kernel)
      (by decide +kernel) (by decide +kernel) (by decide +kernel) (by decide +kernel) (by decide +kernel))
  unfold Due now tbNs at due
  rw [rd_settle (by decide) (by decide) (by decide), rd_settle (by decide) (by decide) (by decide), tinEdge_pulseBeforeArmedTime_last] at due
  exact absurd due (by decide +kernel)

end


section
/-!
PROOFS. PTP messages (R288 to R290): what is taken of a message, intervals, the best master, and the grandmaster a base shows.
-/

namespace Sys2Proof.Machine

variable {fs : List (Fld × Nat)} {ls : List (Lst × Nat)} {cs : List (Cnt × Nat)} {s t : State} {p b : Nat}

/-! ### Frames and silence -/

theorem frame_passTo (ht : timeFlds ⊆ fs) (n : Nat) (h : Frame fs ls cs s t) : Frame fs ls cs s (passTo n t) := by
  obtain ⟨hf, hl, hc, hst⟩ := h
  exact ⟨fieldsKept_passTo n ht hf, listsKept_passTo n hl, countsKept_passTo n hc, storesKept_passTo n hst⟩

/-- A command whose own effect has a frame and neither raises nor emits has that frame and is silent. -/
theorem silent_frame_settle (hs : Silent s t) (hf : Frame fs ls cs s t) : Silent s (settle s t) ∧ Frame fs ls cs s (settle s t) :=
  ⟨silent_settle s hs, frame_settle hf⟩

/-! ### What is taken of a message (R290, R355) -/

theorem ptpTaken_bad (k : State → State) (s : State) : ptpTaken true k s = incBy cnt_TIM_ptp_bad 0 1 (incBy cnt_TIM_ptp_rx 0 1 s) := rfl

theorem ptpTaken_runs (hr : ptpRuns s = true) (k : State → State) : ptpTaken false k s = k (incBy cnt_TIM_ptp_rx 0 1 s) := by
  have hr' : ptpRuns (incBy cnt_TIM_ptp_rx 0 1 s) = true := hr
  simp [ptpTaken, inc_eq, hr']

theorem ptpDo_runs (hr : ptpRuns s = true) (k : State → State) : ptpDo k s = k s := by simp [ptpDo, hr]

/-- The number of a PTP base is 1 to 7. -/
theorem instOf_range {dom : Nat} (h : instOf p dom s = some b) : 1 ≤ b ∧ b ≤ 7 := by
  have hb := List.mem_of_find?_eq_some h
  simp only [List.mem_cons, List.not_mem_nil, or_false] at hb
  omega

/-! ### Intervals (R289) -/

/-- The state at which an action that recurs every `n` ns comes due. -/
def whenDue (f : Fld) (i n : Nat) (s : State) : State := if rd f i s = 0 then s else passTo (rd f i s - 1 + n) s

theorem every_eq (f : Fld) (i n : Nat) (k : State → State) (s : State) :
    every f i n k s = k (wr f i (now (whenDue f i n s) + 1) (whenDue f i n s)) := rfl

theorem whenDue_cases (f : Fld) (i n : Nat) (s : State) : whenDue f i n s = s ∨ ∃ m, whenDue f i n s = passTo m s := by
  unfold whenDue
  split
  · exact .inl rfl
  · exact .inr ⟨_, rfl⟩

theorem rd_whenDue {g : Fld} (hcount : g.id ≠ TBC.count.id) (hslew : g.id ≠ TBC.slew.id) (j : Nat) (f : Fld) (i n : Nat) (s : State) :
    rd g j (whenDue f i n s) = rd g j s := by
  obtain h | ⟨m, h⟩ := whenDue_cases f i n s <;> rw [h]
  exact rd_passTo hcount hslew ..

theorem getL_whenDue (l : Lst) (j : Nat) (f : Fld) (i n : Nat) (s : State) : getL l j (whenDue f i n s) = getL l j s := by
  obtain h | ⟨m, h⟩ := whenDue_cases f i n s <;> rw [h]
  exact getL_passTo ..

theorem silent_whenDue (f : Fld) (i n : Nat) (s : State) : Silent s (whenDue f i n s) := by
  obtain h | ⟨m, h⟩ := whenDue_cases f i n s <;> rw [h]
  · exact silent_refl
  · exact ⟨passTo_telFifo .., passTo_out ..⟩

theorem frame_whenDue (ht : timeFlds ⊆ fs) (f : Fld) (i n : Nat) (s : State) : Frame fs ls cs s (whenDue f i n s) := by
  obtain h | ⟨m, h⟩ := whenDue_cases f i n s <;> rw [h]
  · exact frame_refl
  · exact frame_passTo ht m frame_refl

/-- A port sends a message of type `ty` with the next number of `g` each time the interval that `f` keeps has passed. -/
def sendEvery (f g : Fld) (ty p b n : Nat) (s : State) : State :=
  every f (b * 1024 + p) n (fun s => ptpPut p [ty, b, rd g (b * 1024 + p) s, 0, 0, 0] (addF g (b * 1024 + p) 1 s)) s

/-- What the end of such an interval does. -/
def Sent (f g : Fld) (ty p b : Nat) (s t : State) : Prop :=
  getL LTIM.tx p t = getL LTIM.tx p s ++ [ty, b, rd g (b * 1024 + p) s, 0, 0, 0] ∧ Due f (b * 1024 + p) 0 t ∧ Silent s t ∧
    Frame ([(f, b * 1024 + p), (g, b * 1024 + p)] ++ timeFlds) [(LTIM.tx, p)] [] s t

theorem sent_sendEvery {f g : Fld} (hgf : g.id ≠ f.id) (hg : ∀ e ∈ timeFlds, g.id ≠ e.1.id) (hf : ∀ e ∈ timeFlds, f.id ≠ e.1.id)
    (hshown : ∀ e ∈ [RED_ALARM.hold, RED_ALARM.simplex, GLB_STATUS.alarm], f.id ≠ e.id) (ty p b n : Nat) (s : State) :
    Sent f g ty p b s (settle s (sendEvery f g ty p b n s)) := by
  have hgc : g.id ≠ TBC.count.id := hg (TBC.count, 0) (by decide)
  have hgs : g.id ≠ TBC.slew.id := hg (TBC.slew, 0) (by decide)
  have hfc : TBC.count.id ≠ f.id := (hf (TBC.count, 0) (by decide)).symm
  simp only [List.forall_mem_cons] at hshown
  obtain ⟨hhold, hsimplex, halarm, -⟩ := hshown
  unfold sendEvery
  rw [every_eq, ptpPut, addF_eq, rd_wr_other hgf, rd_whenDue hgc hgs]
  refine ⟨?_, ?_, silent_frame_settle ?_ ?_⟩
  · rw [getL_settle (by decide), getL_setL_same, getL_wr, getL_wr, getL_whenDue]
  · unfold Due now tbNs
    rw [rd_settle hhold hsimplex halarm, rd_settle (by decide) (by decide) (by decide), rd_setL, rd_setL, rd_wr_other hgf.symm, rd_wr_same,
      rd_wr_other hgc.symm, rd_wr_other hfc]
  · exact silent_whenDue f (b * 1024 + p) n s
  · exact frame_setL (by simp) _ (frame_wr (by simp) _ (frame_wr (by simp) _ (frame_whenDue (by simp) f (b * 1024 + p) n s)))

theorem syncInterval_sends {n : Nat} (hrole : roleOf p b s = 1) (hup : ptpUp p s = true)
    (hn : askedNs HSY.isync (b * 1024 + p) (sgn 4 (rd TIM_TB_W1.log_sync b s)) s = some n) :
    syncInterval p b s = sendEvery HSY.synct HSY.txs 0 p b n s := by
  simp [syncInterval, sendEvery, hrole, hup, hn]

theorem announceInterval_sends {n : Nat} (hrole : roleOf p b s = 1) (hup : ptpUp p s = true)
    (hn : askedNs HSY.iann (b * 1024 + p) (sgn 4 (rd TIM_TB_W1.log_announce b s)) s = some n) :
    announceInterval p b s = sendEvery HSY.annt HSY.txa 11 p b n s := by
  simp [announceInterval, sendEvery, hrole, hup, hn]

/-! ### Roles (R288) -/

/-- Putting bits into a number keeps what lies below and above them. -/
theorem putBits_eq (v lo w x : Nat) : putBits v lo w x = v % 2 ^ lo + 2 ^ lo * (2 ^ w * (v / 2 ^ lo / 2 ^ w) + x % 2 ^ w) := by
  have split : v = v % 2 ^ lo + 2 ^ lo * (2 ^ w * (v / 2 ^ lo / 2 ^ w)) + bitsOf v lo w * 2 ^ lo := by
    calc v = 2 ^ lo * (v / 2 ^ lo) + v % 2 ^ lo := (Nat.div_add_mod v (2 ^ lo)).symm
      _ = 2 ^ lo * (2 ^ w * (v / 2 ^ lo / 2 ^ w) + v / 2 ^ lo % 2 ^ w) + v % 2 ^ lo := by rw [Nat.div_add_mod (v / 2 ^ lo)]
      _ = _ := by rw [bitsOf, Nat.mul_add, Nat.mul_comm (v / 2 ^ lo % 2 ^ w)]; omega
  have removed := Nat.sub_eq_of_eq_add split
  rw [putBits, removed, Nat.mul_add, Nat.mul_comm (x % 2 ^ w)]
  exact Nat.add_assoc ..

/-- The bits put into a number of `n` bits are read back. -/
theorem bitsOf_putBits {lo w n x : Nat} (hn : lo + w ≤ n) (hx : x < 2 ^ w) (v : Nat) : bitsOf (putBits v lo w x % 2 ^ n) lo w = x := by
  obtain ⟨m, rfl⟩ := Nat.exists_eq_add_of_le hn
  have low : v % 2 ^ lo / 2 ^ lo = 0 := Nat.div_eq_of_lt (Nat.mod_lt v (Nat.two_pow_pos lo))
  rw [bitsOf, Nat.add_assoc, Nat.pow_add, Nat.mod_mul_right_div_self, Nat.pow_add, Nat.mod_mul_right_mod, putBits_eq,
    Nat.add_mul_div_left _ _ (Nat.two_pow_pos lo), low, Nat.zero_add, Nat.mul_add_mod, Nat.mod_mod, Nat.mod_eq_of_lt hx]

theorem roleOf_setRole_same {r : Nat} (hb : b ≤ 7) (hr : r < 4) (p : Nat) (s : State) : roleOf p b (setRole p b r s) = r := by
  rw [roleOf, setRole, rd_wr_same]
  exact bitsOf_putBits (n := 14) (by omega) hr _

/-! ### The grandmaster a base shows (R288, R294) -/

/-- What a base shows of its grandmaster. -/
def gmShow (b gm cls : Nat) (utc : List Nat) (s : State) : State :=
  wr TIM_TB_W14.gm_lo b gm s |> wr TIM_TB_W15.gm_hi b (gm / 2 ^ 32) |> wr TIM_TB_W5.gm_class b cls
    |> wr TIM_TB_W5.utc_offset b (utc.getD 0 0) |> wr TIM_TB_W5.utc_valid b (utc.getD 1 0)

/-- A base that is not locked and runs from its own source has nothing to lose. -/
theorem instFail_unlocked (hsrc : rd TIM_TB_W5.src b s = 0) (hstate : rd TIM_TB_W5.state b s ≠ 2) (cause : Nat) : instFail b cause s = s := by
  simp [instFail, rdB, hsrc, hstate]

theorem rd_revertNote {f : Fld} (h : f.id ≠ HTB.revert.id) (i b : Nat) (s : State) : rd f i (revertNote b s) = rd f i s := by
  unfold revertNote
  split
  · split
    · rw [rd_wr_other h]
    · rfl
  · split
    · rfl
    · rw [rd_wr_other h]

/-- A write to other fields leaves a base unlocked and on its own source. -/
theorem rd_gmShow {f : Fld} (h : ∀ e ∈ [TIM_TB_W14.gm_lo, TIM_TB_W15.gm_hi, TIM_TB_W5.gm_class, TIM_TB_W5.utc_offset, TIM_TB_W5.utc_valid], f.id ≠ e.id)
    (i b gm cls : Nat) (utc : List Nat) (s : State) : rd f i (gmShow b gm cls utc s) = rd f i s := by
  simp only [List.forall_mem_cons] at h
  obtain ⟨hlo, hhi, hcls, hoff, hvalid, -⟩ := h
  simp only [gmShow, rd_wr_other hlo, rd_wr_other hhi, rd_wr_other hcls, rd_wr_other hoff, rd_wr_other hvalid]

/-- What a base shows of its grandmaster, with GM_CHANGE raised where it is another one. -/
def gmNote (b gm cls : Nat) (utc : List Nat) (s : State) : State :=
  let old := rd TIM_TB_W14.gm_lo b s + 2 ^ 32 * rd TIM_TB_W15.gm_hi b s
  if gm ≠ old then wr TIM_EVT.ev_hs 0 1 (raise 0x0605 ([b] ++ w64 old ++ w64 gm) (gmShow b gm cls utc s)) else gmShow b gm cls utc s

theorem rd_gmNote {f : Fld} (hev : f.id ≠ TIM_EVT.ev_hs.id) (hlost : f.id ≠ HTEL.lost.id) (i b gm cls : Nat) (utc : List Nat) (s : State) :
    rd f i (gmNote b gm cls utc s) = rd f i (gmShow b gm cls utc s) := by
  unfold gmNote
  dsimp only
  split
  · rw [rd_wr_other hev, rd_raise hlost]
  · rfl

/-- A base that is not locked loses nothing by a new grandmaster (R294). -/
theorem setGm_unlocked (hsrc : rd TIM_TB_W5.src b s = 0) (hstate : rd TIM_TB_W5.state b s ≠ 2) (gm cls : Nat) (utc : List Nat) :
    setGm b gm cls utc s = revertNote b (gmNote b gm cls utc s) := by
  have hsrc' : rd TIM_TB_W5.src b (gmNote b gm cls utc s) = 0 := by rw [rd_gmNote (by decide) (by decide), rd_gmShow (by decide), hsrc]
  have hstate' : rd TIM_TB_W5.state b (gmNote b gm cls utc s) ≠ 2 := by rwa [rd_gmNote (by decide) (by decide), rd_gmShow (by decide)]
  have other : setGm b gm cls utc s = revertNote b ((fun u => if rd TIM_TB_W4.class_limit b u < cls && rd TIM_TB_W0.source b u = 1 then
      instFail b 6 u else u) (if gm ≠ rd TIM_TB_W14.gm_lo b s + 2 ^ 32 * rd TIM_TB_W15.gm_hi b s then instFail b 3 (gmNote b gm cls utc s)
        else gmNote b gm cls utc s)) := by
    unfold setGm gmNote
    dsimp only
    split <;> rfl
  rw [other]
  simp only [instFail_unlocked hsrc' hstate', ite_self]

/-- A new grandmaster of a base that is not locked is shown. -/
theorem rd_setGm {f : Fld} (hev : f.id ≠ TIM_EVT.ev_hs.id) (hlost : f.id ≠ HTEL.lost.id) (hrevert : f.id ≠ HTB.revert.id)
    (hsrc : rd TIM_TB_W5.src b s = 0) (hstate : rd TIM_TB_W5.state b s ≠ 2) (i gm cls : Nat) (utc : List Nat) :
    rd f i (setGm b gm cls utc s) = rd f i (gmShow b gm cls utc s) := by
  rw [setGm_unlocked hsrc hstate, rd_revertNote hrevert, rd_gmNote hev hlost]

/-- What is shown of a grandmaster of a class, in the widths of its fields. -/
def ShowsGm (b gm cls : Nat) (utc : List Nat) (t : State) : Prop :=
  rd TIM_TB_W14.gm_lo b t = gm % 2 ^ 32 ∧ rd TIM_TB_W15.gm_hi b t = gm / 2 ^ 32 % 2 ^ 32 ∧ rd TIM_TB_W5.gm_class b t = cls % 256 ∧
    rd TIM_TB_W5.utc_offset b t = utc.getD 0 0 % 2 ^ TIM_TB_W5.utc_offset.width ∧ rd TIM_TB_W5.utc_valid b t = utc.getD 1 0 % 2

theorem showsGm_gmShow (b gm cls : Nat) (utc : List Nat) (s : State) : ShowsGm b gm cls utc (gmShow b gm cls utc s) := by
  unfold ShowsGm gmShow
  refine ⟨?_, ?_, ?_, ?_, ?_⟩ <;> simp +decide only [rd_wr_other, ne_eq, rd_wr_same] <;> rfl

theorem showsGm_setGm (hsrc : rd TIM_TB_W5.src b s = 0) (hstate : rd TIM_TB_W5.state b s ≠ 2) (gm cls : Nat) (utc : List Nat) (s0 : State) :
    ShowsGm b gm cls utc (settle s0 (setGm b gm cls utc s)) := by
  simpa +decide only [ShowsGm, rd_settle, rd_setGm, ne_eq, hsrc, hstate] using showsGm_gmShow b gm cls utc s

theorem roleOf_setGm (hsrc : rd TIM_TB_W5.src b s = 0) (hstate : rd TIM_TB_W5.state b s ≠ 2) (gm cls : Nat) (utc : List Nat) (s0 : State) :
    roleOf p b (settle s0 (setGm b gm cls utc s)) = roleOf p b s := by
  rw [roleOf, rd_settle (by decide) (by decide) (by decide), rd_setGm (by decide) (by decide) (by decide) hsrc hstate, rd_gmShow (by decide), roleOf]

/-! ### The best master of a base with one port (R288) -/

/-- The base has given port `p` the role `r` in its PTP number, and shows a grandmaster. -/
def Chosen (p b r gm cls : Nat) (utc : List Nat) (t : State) : Prop := roleOf p b t = r ∧ ShowsGm b gm cls utc t

theorem chosen_setGm {r : Nat} (hb : b ≤ 7) (hr : r < 4) (hsrc : rd TIM_TB_W5.src b s = 0) (hstate : rd TIM_TB_W5.state b s ≠ 2)
    (gm cls : Nat) (utc : List Nat) (s0 : State) : Chosen p b r gm cls utc (settle s0 (setGm b gm cls utc (setRole p b r s))) := by
  have hsrc' : rd TIM_TB_W5.src b (setRole p b r s) = 0 := by rw [setRole, rd_wr_other (by decide), hsrc]
  have hstate' : rd TIM_TB_W5.state b (setRole p b r s) ≠ 2 := by rwa [setRole, rd_wr_other (by decide)]
  refine ⟨?_, showsGm_setGm hsrc' hstate' gm cls utc s0⟩
  rw [roleOf_setGm hsrc' hstate', roleOf_setRole_same hb hr]

/-- An Announce better than the device's own data set makes the port that holds it slave. -/
theorem bmca_better {e : List Nat} (hsource : rd TIM_TB_W0.source b s = 1) (hports : instPorts b s = [p]) (hset : annSet b p s = some e)
    (hport : e.getD 8 0 = p) (hlt : lexLt e (ownSet b s) = true) :
    bmca b s = setGm b (e.getD 5 0) (e.getD 1 0) ((getL LTB.ann (b * 1024 + p) s).drop 8) (setRole p b 2 s) := by
  have hport' : e[8]?.getD 0 = p := by simpa using hport
  simp [bmca, hsource, hports, hset, hlt, hport', setRole]

/-- One that is not leaves the port master of the device's own. -/
theorem bmca_worse {e : List Nat} (hsource : rd TIM_TB_W0.source b s = 1) (hports : instPorts b s = [p]) (hset : annSet b p s = some e)
    (hlt : lexLt e (ownSet b s) = false) :
    bmca b s = setGm b (clockId s) (ownClass b s) [] (setRole p b 1 s) := by
  simp [bmca, hsource, hports, hset, hlt]

/-! ### ANNOUNCE (R289) -/

/-- The state that holds an Announce just taken. -/
def annHeld (p b src : Nat) (set utc path : List Nat) (s : State) : State :=
  let s := incBy cnt_TIM_ptp_rx 0 1 s
  setL LTB.path (b * 1024 + p) path
    (setL LTB.ann (b * 1024 + p) ((set ++ List.replicate 7 0).take 7 ++ [src] ++ (utc ++ [0, 0]).take 2 ++ [now s]) s)

theorem announceRx_taken {dom src : Nat} {set utc path : List Nat} (hr : ptpRuns s = true) (hi : instOf p dom s = some b)
    (hother : src / 2 ^ 16 ≠ clockId s) (hpath : rd TIM_TB_W0.profile b s ≠ 0 ∨ path.contains (clockId s) = false) :
    announceRx p dom src set utc path false s = bmca b (annHeld p b src set utc path s) := by
  have hclock : clockId (incBy cnt_TIM_ptp_rx 0 1 s) = clockId s := rfl
  simp only [announceRx, hi, ptpTaken_runs hr, rd_incBy, hclock]
  rw [if_neg]
  · rfl
  · rcases hpath with h | h <;> simp only [hother, h, decide_false, Bool.and_false, Bool.false_and, Bool.or_false, Bool.false_eq_true, not_false_eq_true]

theorem announceRx_bad {dom : Nat} (hi : instOf p dom s = some b) (src : Nat) (set utc path : List Nat) :
    announceRx p dom src set utc path true s = incBy cnt_TIM_ptp_bad 0 1 (incBy cnt_TIM_ptp_rx 0 1 s) := by
  simp only [announceRx, hi, ptpTaken_bad]

theorem getL_annHeld (p b src : Nat) {set : List Nat} (hset : set.length = 7) (utc path : List Nat) (s : State) :
    getL LTB.ann (b * 1024 + p) (annHeld p b src set utc path s) = set ++ [src] ++ ((utc ++ [0, 0]).take 2 ++ [now s]) := by
  have whole : (set ++ List.replicate 7 0).take 7 = set := List.take_left' hset
  rw [annHeld, getL_setL_other (by decide), getL_setL_same, whole, List.append_assoc]
  rfl

/-- The data set of the Announce just taken. -/
theorem annSet_annHeld (p b src : Nat) {set : List Nat} (hset : set.length = 7) (utc path : List Nat) (s : State) :
    annSet b p (annHeld p b src set utc path s) = some (set ++ [src, p]) := by
  have eight : (set ++ [src]).length = 8 := by simp [hset]
  unfold annSet
  rw [getL_annHeld p b src hset]
  split
  · next h => simp at h
  · rw [List.take_left' eight, List.append_assoc]
    rfl

/-- The UTC offset it brought. -/
theorem utc_annHeld (p b src : Nat) {set : List Nat} (hset : set.length = 7) (utc path : List Nat) (s : State) :
    (getL LTB.ann (b * 1024 + p) (annHeld p b src set utc path s)).drop 8 = (utc ++ [0, 0]).take 2 ++ [now s] := by
  have eight : (set ++ [src]).length = 8 := by simp [hset]
  rw [getL_annHeld p b src hset, List.drop_left' eight]

/-- An offset of which less than both words is given reads 0 in the rest. -/
theorem getD_utc (utc : List Nat) (x : Nat) :
    ((utc ++ [0, 0]).take 2 ++ [x]).getD 0 0 = utc.getD 0 0 ∧ ((utc ++ [0, 0]).take 2 ++ [x]).getD 1 0 = utc.getD 1 0 := by
  match utc with
  | [] => exact ⟨rfl, rfl⟩
  | [_] => exact ⟨rfl, rfl⟩
  | _ :: _ :: _ => exact ⟨rfl, rfl⟩

/-- What the statement asks of a base before an Announce. -/
structure Unlocked (p b : Nat) (s : State) : Prop where
  range : b ≤ 7
  ports : instPorts b s = [p]
  source : rd TIM_TB_W0.source b s = 1
  state : rd TIM_TB_W5.state b s ≠ 2
  own : rd TIM_TB_W5.src b s = 0

theorem unlocked_annHeld (h : Unlocked p b s) (src : Nat) (set utc path : List Nat) : Unlocked p b (annHeld p b src set utc path s) :=
  ⟨h.range, h.ports, h.source, h.state, h.own⟩

theorem getD_append_left {xs : List Nat} {i : Nat} (h : i < xs.length) (ys : List Nat) (d : Nat) : (xs ++ ys).getD i d = xs.getD i d := by
  rw [List.getD_eq_getElem?_getD, List.getD_eq_getElem?_getD, List.getElem?_append_left h]

/-- An Announce better than the device's own data set makes the port slave, and its grandmaster is shown. -/
theorem announce_better (h : Unlocked p b s) {src : Nat} {set : List Nat} (hset : set.length = 7)
    (hlt : lexLt (set ++ [src, p]) (ownSet b s) = true) (utc path : List Nat) :
    Chosen p b 2 (set.getD 5 0) (set.getD 1 0) utc (settle s (bmca b (annHeld p b src set utc path s))) := by
  obtain ⟨hb, hports, hsource, hstate, hown⟩ := unlocked_annHeld h src set utc path
  have hport : (set ++ [src, p]).getD 8 0 = p := by simp [hset]
  rw [bmca_better hsource hports (annSet_annHeld p b src hset utc path s) hport hlt, utc_annHeld p b src hset,
    getD_append_left (by omega), getD_append_left (by omega)]
  have chosen := chosen_setGm (p := p) (r := 2) hb (by decide) hown hstate (set.getD 5 0) (set.getD 1 0) ((utc ++ [0, 0]).take 2 ++ [now s]) s
  obtain ⟨hoff, hvalid⟩ := getD_utc utc (now s)
  simpa only [Chosen, ShowsGm, hoff, hvalid] using chosen

/-- One that is not leaves the port master, and the device's own clock is shown. -/
theorem announce_worse (h : Unlocked p b s) {src : Nat} {set : List Nat} (hset : set.length = 7)
    (hlt : lexLt (set ++ [src, p]) (ownSet b s) = false) (utc path : List Nat) :
    Chosen p b 1 (clockId s) (ownClass b s) [] (settle s (bmca b (annHeld p b src set utc path s))) := by
  obtain ⟨hb, hports, hsource, hstate, hown⟩ := unlocked_annHeld h src set utc path
  rw [bmca_worse hsource hports (annSet_annHeld p b src hset utc path s) hlt]
  exact chosen_setGm hb (by decide) hown hstate _ _ _ s

/-! ### The other messages -/

/-- A message that is taken adds to what waits on its port, and is counted. -/
theorem answered_ptpPut (p : Nat) (m : List Nat) (s : State) :
    getL LTIM.tx p (settle s (ptpPut p m (incBy cnt_TIM_ptp_rx 0 1 s))) = getL LTIM.tx p s ++ m ∧
      Silent s (settle s (ptpPut p m (incBy cnt_TIM_ptp_rx 0 1 s))) ∧
      Frame [] [(LTIM.tx, p)] [(cnt_TIM_ptp_rx, 0)] s (settle s (ptpPut p m (incBy cnt_TIM_ptp_rx 0 1 s))) := by
  refine ⟨?_, silent_frame_settle ⟨rfl, rfl⟩ (frame_setL (by simp) _ (frame_incBy (by simp) 1 frame_refl))⟩
  rw [getL_settle (by decide), ptpPut, getL_setL_same, getL_incBy]

theorem delayReqRx_answered {dom seq src : Nat} {corr : Int} (hr : ptpRuns s = true) (hi : instOf p dom s = some b) (hrole : roleOf p b s = 1)
    (hprofile : rd TIM_TB_W0.profile b s = 1) :
    delayReqRx p dom seq src corr false s = ptpPut p [9, b, seq, rxStamp p b s, src, unsgn 64 corr] (incBy cnt_TIM_ptp_rx 0 1 s) := by
  have hrole' : roleOf p b (incBy cnt_TIM_ptp_rx 0 1 s) = 1 := hrole
  have hstamp : rxStamp p b (incBy cnt_TIM_ptp_rx 0 1 s) = rxStamp p b s := rfl
  simp [delayReqRx, hi, ptpTaken_runs hr, hrole', hprofile, hstamp]

/-- The mean path delay plus one that a Delay_Resp with arrival time `t4` gives (R289). -/
def meanDelay (b t4 : Nat) (corr : Int) (s : State) : Nat :=
  (((rd HTB.t2 b s : Int) - rd HTB.t1 b s + ((t4 * 2 ^ 32 : Nat) - corr * 2 ^ 16 - ((rd HTB.t3 b s : Int) - 1))) / 2).toNat + 1

theorem delayRespRx_taken {dom seq t4 : Nat} {corr : Int} (hr : ptpRuns s = true) (hi : instOf p dom s = some b) (hrole : roleOf p b s = 2)
    (ht3 : rd HTB.t3 b s ≠ 0) (hseq : (seq + 1) % 65536 = rd HSY.txd (b * 1024 + p) s) :
    delayRespRx p dom seq (portId p s) t4 corr false s =
      wr HTB.e2e b (meanDelay b t4 corr s) (wr HTB.t3 b 0 (incBy cnt_TIM_ptp_rx 0 1 s)) := by
  have hrole' : roleOf p b (incBy cnt_TIM_ptp_rx 0 1 s) = 2 := hrole
  have hid : portId p (incBy cnt_TIM_ptp_rx 0 1 s) = portId p s := rfl
  simp [delayRespRx, hi, ptpTaken_runs hr, hrole', hid, ht3, hseq, meanDelay]

/-- Intervals a Signaling message asks for (R289): 2^3 s for Pdelay_Req, the configured one for Sync, and no change for Announce. -/
theorem signalingRx_taken {dom : Nat} (hr : ptpRuns s = true) (hi : instOf p dom s = some b) :
    signalingRx p dom 3 126 0x80 false s = wr HSY.isync (b * 1024 + p) 0x80 (wr HPD.ipd p 3 (incBy cnt_TIM_ptp_rx 0 1 s)) := by
  simp only [signalingRx, hi, ptpTaken_runs hr]
  rfl

theorem ptpMgmtRx_dropped {dom : Nat} (hi : instOf p dom s = some b) :
    ptpMgmtRx p dom s = incBy cnt_TIM_ptp_mgmt_drop 0 1 (incBy cnt_TIM_ptp_rx 0 1 s) := by
  simp only [ptpMgmtRx, hi, inc_eq]

theorem delayReqInterval_sends (hrole : roleOf p b s = 2) (hprofile : rd TIM_TB_W0.profile b s = 1) (hup : ptpUp p s = true) :
    delayReqInterval p b s = ptpPut p [1, b, rd HSY.txd (b * 1024 + p) s, 0, 0, 0] (wr HSY.txd (b * 1024 + p) (rd HSY.txd (b * 1024 + p) s + 1) s) := by
  simp [delayReqInterval, hrole, hprofile, hup, addF_eq]

end Sys2Proof.Machine
end

section
open Sys2Proof Sys2Proof.Machine

/-- Settles O38: each message's effect is named once, and what the statement asks of it is read off it. -/
theorem ptpMessages : Obligations.PtpMessages := by
  unfold Obligations.PtpMessages
  intro p dom seq src t4 n b corr set utc path s _ hr
  refine ⟨?better, ?worse, ?malformed, ?delayReq, ?delayResp, ?signaling, ?management, ?syncDue, ?announceDue, ?delayReqDue⟩
  case better =>
    intro hi hports hsource hstate hown hother hpath hset hlt
    refine gives_of (exec_announce ..) ?_
    rintro t rfl
    rw [announceRx_taken hr hi hother hpath]
    exact announce_better ⟨(instOf_range hi).2, hports, hsource, hstate, hown⟩ hset hlt utc path
  case worse =>
    intro hi hports hsource hstate hown hother hpath hset hlt
    refine gives_of (exec_announce ..) ?_
    rintro t rfl
    rw [announceRx_taken hr hi hother hpath]
    obtain ⟨hrole, hlo, hhi, hcls, -⟩ := announce_worse ⟨(instOf_range hi).2, hports, hsource, hstate, hown⟩ hset hlt utc path
    exact ⟨hrole, hlo, hhi, hcls⟩
  case malformed =>
    intro hi
    refine gives_of (exec_announce ..) ?_
    rintro t rfl
    rw [announceRx_bad hi]
    refine ⟨silent_settle s ⟨rfl, rfl⟩, frame_settle (frame_incBy (by simp) 1 (frame_incBy (by simp) 1 frame_refl)), ?_⟩
    rw [cnt_settle, cnt_incBy_same, cnt_incBy_other (by decide)]
  case delayReq =>
    intro hi hrole hprofile
    refine gives_of (exec_delayReq ..) ?_
    rintro t rfl
    rw [delayReqRx_answered hr hi hrole hprofile]
    exact answered_ptpPut ..
  case delayResp =>
    intro hi hrole ht3 hseq
    refine gives_of (exec_delayResp ..) ?_
    rintro t rfl
    rw [delayRespRx_taken hr hi hrole ht3 hseq]
    refine ⟨?_, ?_, silent_frame_settle ⟨rfl, rfl⟩ (frame_wr (by simp) _ (frame_wr (by simp) _ (frame_incBy (by simp) 1 frame_refl)))⟩
    · rw [rd_settle (by decide) (by decide) (by decide), rd_wr_other (by decide), rd_wr_same, Nat.zero_mod]
    · rw [rd_settle (by decide) (by decide) (by decide), rd_wr_same, meanDelay]
  case signaling =>
    intro hi
    refine gives_of (exec_signaling ..) ?_
    rintro t rfl
    rw [signalingRx_taken hr hi]
    refine ⟨?_, ?_, ?_, silent_frame_settle ⟨rfl, rfl⟩ (frame_wr (by simp) _ (frame_wr (by simp) _ (frame_incBy (by simp) 1 frame_refl)))⟩
    · rw [rd_settle (by decide) (by decide) (by decide), rd_wr_other (by decide), rd_wr_same]
      rfl
    · rw [rd_settle (by decide) (by decide) (by decide), rd_wr_same]
      rfl
    · rw [rd_settle (by decide) (by decide) (by decide), rd_wr_other (by decide), rd_wr_other (by decide), rd_incBy]
  case management =>
    intro hi
    refine gives_of (exec_ptpManagementRx ..) ?_
    rintro t rfl
    rw [ptpMgmtRx_dropped hi]
    refine ⟨?_, silent_frame_settle ⟨rfl, rfl⟩ (frame_incBy (by simp) 1 (frame_incBy (by simp) 1 frame_refl))⟩
    rw [cnt_settle, cnt_incBy_same, cnt_incBy_other (by decide)]
  case syncDue =>
    intro hrole hup hn
    refine gives_of (exec_syncInterval ..) ?_
    rintro t rfl
    rw [ptpDo_runs hr, syncInterval_sends hrole hup hn]
    exact sent_sendEvery (by decide) (by decide) (by decide) (by decide) ..
  case announceDue =>
    intro hrole hup hn
    refine gives_of (exec_announceInterval ..) ?_
    rintro t rfl
    rw [ptpDo_runs hr, announceInterval_sends hrole hup hn]
    exact sent_sendEvery (by decide) (by decide) (by decide) (by decide) ..
  case delayReqDue =>
    intro hrole hprofile hup
    refine gives_of (exec_delayReqInterval ..) ?_
    rintro t rfl
    rw [ptpDo_runs hr, delayReqInterval_sends hrole hprofile hup]
    refine ⟨?_, ?_, silent_frame_settle ⟨rfl, rfl⟩ (frame_setL (by simp) _ (frame_wr (by simp) _ frame_refl))⟩
    · rw [getL_settle (by decide), ptpPut, getL_setL_same, getL_wr]
    · rw [rd_settle (by decide) (by decide) (by decide), ptpPut, rd_setL, rd_wr_same]
      rfl

end
